-- ==== Sys2Proof/Word.lean ====
section
/-! DEFINITION. The words of the LZ9264: brick and tile words of 16 bits (R95, R183), BAR0 registers
of 32 bits (00_scope), BAR0 offsets of 26 bits (R21), bytes of frames and memories, and the types of the
commands' operands. -/

namespace Sys2Proof

/-- A byte of a frame, an image or a memory. -/
abbrev Byte := BitVec 8

/-- A brick word, tile word or I/O-space register (R95, R183). -/
abbrev Word := BitVec 16

/-- A BAR0 register (00_scope, "BAR0 registers are 32 bits wide"). -/
abbrev Reg32 := BitVec 32

/-- A BAR0 offset: 64 MiB, 26 bits (R21, R404). -/
abbrev Offset := BitVec 26

/-- The parties of the device (R437) and the TAP, whose DBG_ACCESS has the rights of PF1 (R466). -/
inductive Party where
  | keystone
  | pf1
  | pf0
  /-- Chain device d through the bridge (R403, R437). -/
  | chain (d : Fin 64)
  | brick (k : Fin 52)
  | tap
deriving DecidableEq, Repr

/-- A shift count: immediate or the low bits of a register (R110). -/
inductive ShiftCount where
  | imm (n : BitVec 4)
  | reg (s : BitVec 4)
deriving DecidableEq, Repr

/-- The second source of a compare: register b or w2 (R113). -/
inductive CmpSrc where
  | reg (b : BitVec 4)
  | imm (w : Word)
deriving DecidableEq, Repr

/-- The addressing forms of LD and ST (R115). -/
inductive BankAddr where
  | ind (s : BitVec 4)
  | postInc (s : BitVec 4)
  | postDec (s : BitVec 4)
  | offset (s : BitVec 4) (w : Word)
  | absolute (w : Word)
deriving DecidableEq, Repr

/-- The addressing forms of IN and OUT (R117). -/
inductive IoAddr where
  | reg (s : BitVec 4)
  | imm (w : BitVec 12)
deriving DecidableEq, Repr

/-- The count of a REP prefix (R124). -/
inductive RepCount where
  | imm (n : BitVec 9)
  | reg (s : BitVec 4)
deriving DecidableEq, Repr

/-- The masters OTHER than the one that acts which request the same bank, cycle by cycle from the
first cycle of its access (R149): bit m of entry k is master m in the k-th cycle. Past the end of
the list nobody contends. -/
abbrev Contention := List (BitVec 8)

/-- How a received frame ended on the line (R263). -/
inductive LineEnd where
  | good
  /-- A PCS code error, or the link lost, inside the frame. -/
  | codeError
  | badFcs
deriving DecidableEq, Repr

/-- A frame on a CAN bus (R350). -/
structure CanFrame where
  ide    : Bool
  id     : BitVec 29
  remote : Bool
  fdf    : Bool
  brs    : Bool
  esi    : Bool
  dlc    : BitVec 4
  data   : List Byte
deriving DecidableEq, Repr

/-- What wakes a CAN input or a sleeping controller (R372, R373). -/
inductive CanWake where
  | dominant
  | frame (f : CanFrame)
deriving DecidableEq, Repr

/-- A CAN protocol error as ISO 11898-1 counts it (R362): who the node was, and what was seen. -/
inductive CanErr where
  /-- As transmitter: any error but an acknowledgement error. -/
  | txError
  /-- As transmitter: acknowledgement error; `dominant`: a dominant bit in the passive error flag. -/
  | ackError (dominant : Bool)
  /-- As receiver: an error found. -/
  | rxError
  /-- As receiver: a dominant bit first after its error flag. -/
  | rxDominantAfterFlag
  /-- A recessive res bit: protocol exception (R350). -/
  | protocolException
deriving DecidableEq, Repr

/-- A CTRL CLAIM (R401), with the SRC of its frame (R398). -/
structure Claim where
  src       : Fin 64
  leaseHeld : Bool
  mepoch    : BitVec 8
  prio      : BitVec 8
  uid       : BitVec 64
deriving DecidableEq, Repr

/-- A CTRL HELLO (R401). -/
structure HelloInfo where
  uid    : BitVec 64
  cap    : BitVec 2
  prio   : BitVec 8
  port   : Fin 4
  endRole : Bool
  /-- The peer's device number, shown in URR_PSTAT.PEER_DEV (R420). -/
  dev    : Fin 64
deriving DecidableEq, Repr

/-- The four stamps of one TIME exchange in one domain, in units of 2^-16 ns (R344): t1 and t4 taken by
the upstream port, t2 and t3 by this port, as the TIME frames carry them. -/
structure TimeExchange where
  t1 : Int
  t2 : Int
  t3 : Int
  t4 : Int
deriving DecidableEq, Repr

/-- A port of the mortar by its place in the list P0 to P31, U0 to U3, H, CP0 to CP12 (R6, R20): 0 to 35
are the port codes themselves, 36 is H, 37 to 49 are the codes 48 to 60 of the course ports. -/
abbrev PortCode := Fin 50

/-- The port code that registers and metadata show for a port (R21, R261). -/
def PortCode.code (q : PortCode) : Nat := if q.val ≤ 36 then q.val else q.val + 11

/-- The duration of a HOLD: N + 1 or C + 1 tile cycles (R184). -/
inductive HoldCount where
  | imm (n : BitVec 9)
  | counter (c : Bool)
deriving DecidableEq, Repr

/-- The bit count of a SHF: N, given as N - 1, or the counter C (R184). -/
inductive ShfCount where
  | imm (nm1 : BitVec 5)
  | counter (c : Bool)
deriving DecidableEq, Repr

/-- The instructions of the TAP (R61, R466). -/
inductive TapInstr where
  | bypass
  | idcode
  | samplePreload
  | extest
  | clamp
  | extestPulse
  | extestTrain
  | dbgAccess
  | keystoneHalt
  | keystoneTrace
  | internalScan
deriving DecidableEq, Repr

/-- A codeword error met while a cell of a frame is read from the buffer (R317): the queue of the frame,
the cell's address, and whether the error is uncorrectable. -/
structure EccHit where
  input  : PortCode
  output : PortCode
  cls    : Fin 8
  cell   : BitVec 18
  ue     : Bool
deriving DecidableEq, Repr

/-- The host read that fails while a transmit frame is taken (R428, R430). -/
inductive HostReadFail where
  | descriptor
  | buffer
deriving DecidableEq, Repr

/-- A failure that the start-up march test finds in one course (R88, R231): the TRW registers it leaves. -/
structure CourseFail where
  course : Fin 13
  fails  : BitVec 16
  addr   : Reg32
  data   : Reg32
deriving DecidableEq, Repr

/-- What a trowel tests (R228, R318, R496). -/
inductive TrowelUnit where
  | course (c : Fin 13)
  | segment (g : Fin 16)
  | journal
deriving DecidableEq, Repr

/-- What the outside world and the silicon supply to a start phase (R84, R87): a PLL that does not lock, an
OTP word at fault, the march test failures, and the keystone firmware that the host delivers over PCIe. -/
structure PhaseOutcome where
  pllFail    : Option (BitVec 2)
  otpFault   : Option (BitVec 10)
  fenced     : List CourseFail
  sharedFail : Option (BitVec 4 × BitVec 28)
  firmware   : Option (List Byte)
deriving DecidableEq, Repr

/-- A keystone service request (R457): the requester, its TAG, NOREPLY, REPLY mailbox and the seven
argument words of R461 and R463. -/
structure SvcReq where
  caller  : Party
  tag     : BitVec 8
  noreply : Bool
  reply   : Fin 32
  w1 : Reg32
  w2 : Reg32
  w3 : Reg32
  w4 : Reg32
  w5 : Reg32
  w6 : Reg32
  w7 : Reg32
deriving DecidableEq, Repr

end Sys2Proof
end

