-- ==== Sys2Proof/Syntax.lean ====
section
/-! DEFINITION. The commands of the LZ9264: one constructor of `Instr` for each row of
spec/opcode_table.json, with the operands its rule names. Instance numbers are `Fin`, so a command
cannot name an instance the silicon does not have (R6); register values are bit vectors. What the
outside world supplies to an event (the bytes of a frame, the level of a pin, the code of a fault,
the masters that contend for a bank) is an operand of the event. -/

namespace Sys2Proof

/-- The commands: one constructor for each row of spec/opcode_table.json, in the order of the table. -/
inductive Instr where
  /-- MANAGEMENT_TICK (R11): Every 1,000 clk_slow cycles a management tick ends and the tick-driven management-plane checks run. -/
  | managementTick (sensor : BitVec 16)
  /-- REGISTER_WRITE (R7): A write to a register that has no row of its own acts by its access code (RW, W1C, W1S), or is refused and recorded under the owning block's write rule. -/
  | registerWrite (p : Party) (off : Offset) (v : Reg32)
  /-- RC_READ (R7): A read of an RC field returns the value and then clears the field, keeping the value in its shadow. -/
  | rcRead (p : Party) (tag : BitVec 10) (off : Offset)
  /-- COURSE_ROLE_WRITE (R15): A write to COURSE_ROLE takes effect only when the old and the new standby course are both unloaded and STBY is 12 or less. -/
  | courseRoleWrite (p : Party) (v : Reg32)
  /-- BANK_IMAGE_WRITE (R522): A course-window write to the bank image or to an instruction memory passes through master 6, subject to the debug-level rule for loaded or replaying courses. -/
  | bankImageWrite (p : Party) (c : Fin 13) (k : BitVec 16) (v : Reg32)
  /-- SECURE_PAGE_ACCESS (R24): A PF0 access to the secure mailbox page reads zero and ignores writes, and raises a recorder event. -/
  | securePageAccess (tag : BitVec 10) (off : BitVec 19) (write : Option Reg32)
  /-- BYP_CTRL_WRITE (R51): A write of the FORCE bits of BYP_CTRL; a FORCE bit set to 1 drives that pair's bypass pin low. -/
  | bypCtrlWrite (p : Party) (v : Reg32)
  /-- LEASE_IN_EDGE (R52): An edge on LEASE_IN counts as a lease renewal seen on the pin path. -/
  | leaseInEdge
  /-- PFAIL_N_FALL (R54): A falling edge on PFAIL_N starts a recorder flush to flash from VHOLD when unflushed records exist. -/
  | pfailNFall
  /-- PFAIL_N_RISE (R56): PFAIL_N rises during a flush; the flush completes and the event is recorded. -/
  | pfailNRise
  /-- VHOLD_LOSS (R56): VHOLD falls below 3.0 V during a flush; the flush stops without its end marker. -/
  | vholdLoss
  /-- FLUSH_COMPLETE (R483): A recorder flush block is fully programmed into flash and its end marker is written. -/
  | flushComplete
  /-- WAKE_RISING_EDGE (R59): A rising edge on WAKE; outside STANDBY it is only recorded. -/
  | wakeRisingEdge
  /-- WAKE_QUALIFY (R58): In STANDBY, WAKE stays high for 10 µs, so WAKE_SRC.WAKE_PIN latches and a full start follows the return of the rails. -/
  | wakeQualify
  /-- CAN_RXD_WAKE (R373): In STANDBY a CAN_RXD input enabled for wake sees a dominant level or a matching wake frame and latches WAKE_SRC. -/
  | canRxdWake (n : Fin 8) (w : CanWake)
  /-- RST_N_FALL (R80): RST_N goes low and applies a DEVICE reset. -/
  | rstNFall
  /-- RST_N_RELEASE (R84): RST_N rises; BOOT_SEL is sampled and the start sequence begins. -/
  | rstNRelease (bootSel : BitVec 2)
  /-- START_PHASE_COMPLETE (R84): A start phase finishes its work and the next phase begins; reaching RUNNING releases the courses and clears the count. -/
  | startPhaseComplete (o : PhaseOutcome)
  /-- START_WATCHDOG_EXPIRY (R85): 2,000 ticks pass without RUNNING, and a DEVICE reset with cause START_WATCHDOG is applied. -/
  | startWatchdogExpiry
  /-- PCIE_BOOT_WAIT_EXPIRY (R87): The wait for keystone firmware over PCIe expires and the start fails. -/
  | pcieBootWaitExpiry
  /-- KEYSTONE_FATAL_FAULT (R87): A keystone fatal fault asserts FAULT_N, starts a recorder flush and resets the device. -/
  | keystoneFatalFault (code : Reg32)
  /-- OVER_TEMPERATURE_FAULT (R511): A sensor reads above 125 °C for 10 ms, and a keystone fatal fault 0x0031 is raised. -/
  | overTemperatureFault
  /-- PCIE_RESET (R80): PCIE_PERST_N, a hot reset or an FLR resets the PCIe core and both functions, stopping every ring. -/
  | pcieReset
  /-- VAON_RISE (R80): VAON rises and resets the wake domain and WAKE_SRC. -/
  | vaonRise
  /-- VAON_LOSS (R65): VAON is removed and the device goes to OFF. -/
  | vaonLoss
  /-- RAIL_LOSS (R74): The rails are removed without STBY_READY, so the wake domain stays disarmed and the next start is POWER_ON. -/
  | railLoss
  /-- TAP_INSTRUCTION (R61): A TAP instruction is loaded at Update-IR; an EXTEST-class instruction holds the device in reset and drops the bypass pins. -/
  | tapInstruction (i : TapInstr)
  /-- EXTEST_EXIT (R62): Leaving an EXTEST-class instruction starts a full start. -/
  | extestExit
  /-- DBG_ACCESS (R466): The TAP instruction DBG_ACCESS makes a BAR0 access with PF1 rights when the debug level allows it. -/
  | dbgAccess (off : Offset) (write : Option Reg32)
  /-- DOZE_REQUEST (R65): PWR_CTRL.REQ = 1 gates the blocks selected in DOZE_SEL_C and DOZE_SEL_P. -/
  | dozeRequest (p : Party)
  /-- PWR_WAKE (R70): PWR_CTRL.REQ = 2 wakes every gated block. -/
  | pwrWake (p : Party)
  /-- STANDBY_PREPARE (R72): PWR_CTRL.REQ = 3 with key 0xC3 starts the keystone's STANDBY quiesce sequence. -/
  | standbyPrepare (p : Party) (key : BitVec 8)
  /-- STBY_READY (R72): The STANDBY sequence completes and PWR_STATUS.STBY_READY is set. -/
  | stbyReady
  /-- STANDBY_ENTRY (R73): After STBY_READY, VIO33 falls and the device enters STANDBY with its wake domain armed. -/
  | standbyEntry
  /-- COURSE_GATE (R67): A course selected for doze reaches its gating condition and is clock-gated. -/
  | courseGate (c : Fin 13)
  /-- CAN_GATE (R67): A CAN controller selected for doze finds its bus idle, or is bus-off, and is gated. -/
  | canGate (n : Fin 8)
  /-- DOZE_GATE_TIMEOUT (R68): 10 µs after a doze request, the blocks not yet gated stay ungated and are recorded. -/
  | dozeGateTimeout
  /-- DOZE_TIMER_EXPIRY (R70): DOZE_TIMER expires and every gated block wakes. -/
  | dozeTimerExpiry
  /-- RST_CTRL_DEVICE (R82): RST_CTRL with key 0x5A and SCOPE 0 applies a DEVICE reset. -/
  | rstCtrlDevice (p : Party) (key : BitVec 8)
  /-- RST_CTRL_COURSE (R82): RST_CTRL with SCOPE 1 applies a COURSE reset to course INDEX. -/
  | rstCtrlCourse (p : Party) (key : BitVec 8) (index : BitVec 6)
  /-- RST_CTRL_PORT (R82): RST_CTRL with SCOPE 2 applies a PORT reset to port INDEX. -/
  | rstCtrlPort (p : Party) (key : BitVec 8) (index : BitVec 6)
  /-- RST_CTRL_CANCTL (R374): RST_CTRL with SCOPE 3 resets CAN controller INDEX to INIT. -/
  | rstCtrlCanctl (p : Party) (key : BitVec 8) (index : BitVec 6)
  /-- MOV (R107): Copies g[s] to g[d]. -/
  | mov (bk : Fin 52) (d s : BitVec 4)
  /-- NOT (R107): Writes the complement of g[s] to g[d]. -/
  | not (bk : Fin 52) (d s : BitVec 4)
  /-- NEG (R107): Writes 0 − g[s] to g[d]. -/
  | neg (bk : Fin 52) (d s : BitVec 4)
  /-- SWAPB (R107): Writes g[s] with its bytes swapped to g[d]. -/
  | swapb (bk : Fin 52) (d s : BitVec 4)
  /-- MOVI (R107): Loads a 16-bit immediate into g[d]. -/
  | movi (bk : Fin 52) (d : BitVec 4) (w : Word)
  /-- MOVQ (R107): Loads a sign-extended 6-bit immediate into g[d]. -/
  | movq (bk : Fin 52) (d : BitVec 4) (i : BitVec 6)
  /-- ADDQ (R107): Adds a sign-extended 6-bit immediate to g[d]. -/
  | addq (bk : Fin 52) (d : BitVec 4) (i : BitVec 6)
  /-- ADD (R108): g[d] := g[d] + g[s]. -/
  | add (bk : Fin 52) (d s : BitVec 4)
  /-- SUB (R108): g[d] := g[d] − g[s]. -/
  | sub (bk : Fin 52) (d s : BitVec 4)
  /-- AND (R108): g[d] := g[d] and g[s]. -/
  | and (bk : Fin 52) (d s : BitVec 4)
  /-- OR (R108): g[d] := g[d] or g[s]. -/
  | or (bk : Fin 52) (d s : BitVec 4)
  /-- XOR (R108): g[d] := g[d] xor g[s]. -/
  | xor (bk : Fin 52) (d s : BitVec 4)
  /-- ANDN (R108): g[d] := g[d] and not g[s]. -/
  | andn (bk : Fin 52) (d s : BitVec 4)
  /-- MINU (R108): Writes the unsigned minimum of g[d] and g[s] to g[d]. -/
  | minu (bk : Fin 52) (d s : BitVec 4)
  /-- MAXU (R108): Writes the unsigned maximum of g[d] and g[s] to g[d]. -/
  | maxu (bk : Fin 52) (d s : BitVec 4)
  /-- MUL (R108): Writes the low 16 bits of the product to g[d] in 2 cycles. -/
  | mul (bk : Fin 52) (d s : BitVec 4)
  /-- MULHU (R108): Writes the high 16 bits of the unsigned product to g[d]. -/
  | mulhu (bk : Fin 52) (d s : BitVec 4)
  /-- MULHS (R108): Writes the high 16 bits of the signed product to g[d]. -/
  | mulhs (bk : Fin 52) (d s : BitVec 4)
  /-- ADDI (R109): g[d] := g[s] + w2. -/
  | addi (bk : Fin 52) (d s : BitVec 4) (w : Word)
  /-- SUBI (R109): g[d] := g[s] − w2. -/
  | subi (bk : Fin 52) (d s : BitVec 4) (w : Word)
  /-- ANDI (R109): g[d] := g[s] and w2. -/
  | andi (bk : Fin 52) (d s : BitVec 4) (w : Word)
  /-- ORI (R109): g[d] := g[s] or w2. -/
  | ori (bk : Fin 52) (d s : BitVec 4) (w : Word)
  /-- XORI (R109): g[d] := g[s] xor w2. -/
  | xori (bk : Fin 52) (d s : BitVec 4) (w : Word)
  /-- MULI (R109): Writes the low 16 bits of g[s] × w2 to g[d]. -/
  | muli (bk : Fin 52) (d s : BitVec 4) (w : Word)
  /-- SHL (R110): Shifts g[d] left by an immediate or register count. -/
  | shl (bk : Fin 52) (d : BitVec 4) (n : ShiftCount)
  /-- SHR (R110): Shifts g[d] right with zero fill. -/
  | shr (bk : Fin 52) (d : BitVec 4) (n : ShiftCount)
  /-- SAR (R110): Shifts g[d] right with sign fill. -/
  | sar (bk : Fin 52) (d : BitVec 4) (n : ShiftCount)
  /-- ROL (R110): Rotates g[d] left. -/
  | rol (bk : Fin 52) (d : BitVec 4) (n : ShiftCount)
  /-- BSET (R110): Sets bit n of g[d]. -/
  | bset (bk : Fin 52) (d n : BitVec 4)
  /-- BCLR (R110): Clears bit n of g[d]. -/
  | bclr (bk : Fin 52) (d n : BitVec 4)
  /-- BINV (R110): Inverts bit n of g[d]. -/
  | binv (bk : Fin 52) (d n : BitVec 4)
  /-- EXTU (R111): Extracts an unsigned bit field of g[s] into g[d]. -/
  | extu (bk : Fin 52) (d s p wm1 : BitVec 4)
  /-- EXTS (R111): Extracts a sign-extended bit field of g[s] into g[d]. -/
  | exts (bk : Fin 52) (d s p wm1 : BitVec 4)
  /-- INS (R111): Inserts a field from g[s] into g[d]. -/
  | ins (bk : Fin 52) (d s p wm1 : BitVec 4)
  /-- CRCL8 (R112): Advances CRC g[d] by 8 bits of g[s], least significant bit first. -/
  | crcl8 (bk : Fin 52) (d s : BitVec 4) (poly : Word)
  /-- CRCL16 (R112): Advances CRC g[d] by 16 bits of g[s], least significant bit first. -/
  | crcl16 (bk : Fin 52) (d s : BitVec 4) (poly : Word)
  /-- CRCM8 (R112): Advances CRC g[d] by 8 bits of g[s], most significant bit first. -/
  | crcm8 (bk : Fin 52) (d s : BitVec 4) (poly : Word)
  /-- CRCM16 (R112): Advances CRC g[d] by 16 bits of g[s], most significant bit first. -/
  | crcm16 (bk : Fin 52) (d s : BitVec 4) (poly : Word)
  /-- CEQ (R113): Writes 1 to g[d] when a = b, in register or immediate form. -/
  | ceq (bk : Fin 52) (d a : BitVec 4) (b : CmpSrc)
  /-- CNE (R113): Writes 1 to g[d] when a ≠ b. -/
  | cne (bk : Fin 52) (d a : BitVec 4) (b : CmpSrc)
  /-- CLTU (R113): Writes 1 to g[d] when a < b unsigned. -/
  | cltu (bk : Fin 52) (d a : BitVec 4) (b : CmpSrc)
  /-- CLTS (R113): Writes 1 to g[d] when a < b signed. -/
  | clts (bk : Fin 52) (d a : BitVec 4) (b : CmpSrc)
  /-- CLEU (R113): Writes 1 to g[d] when a ≤ b unsigned. -/
  | cleu (bk : Fin 52) (d a : BitVec 4) (b : CmpSrc)
  /-- CLES (R113): Writes 1 to g[d] when a ≤ b signed. -/
  | cles (bk : Fin 52) (d a : BitVec 4) (b : CmpSrc)
  /-- CGTU (R113): Writes 1 to g[d] when a > b unsigned. -/
  | cgtu (bk : Fin 52) (d a : BitVec 4) (b : CmpSrc)
  /-- CGTS (R113): Writes 1 to g[d] when a > b signed. -/
  | cgts (bk : Fin 52) (d a : BitVec 4) (b : CmpSrc)
  /-- CARRY (R114): Writes the carry out of a + b to g[d]. -/
  | carry (bk : Fin 52) (d a b : BitVec 4)
  /-- BORROW (R114): Writes 1 to g[d] when a < b unsigned. -/
  | borrow (bk : Fin 52) (d a b : BitVec 4)
  /-- OVFA (R114): Writes 1 to g[d] when the signed sum a + b overflows. -/
  | ovfa (bk : Fin 52) (d a b : BitVec 4)
  /-- OVFS (R114): Writes 1 to g[d] when the signed difference a − b overflows. -/
  | ovfs (bk : Fin 52) (d a b : BitVec 4)
  /-- LD (R115): Loads a bank word into g[d], in any of its addressing forms. -/
  | ld (bk : Fin 52) (d : BitVec 4) (m : BankAddr) (ct : Contention)
  /-- ST (R115): Stores g[v] into a bank word, in any of its addressing forms. -/
  | st (bk : Fin 52) (m : BankAddr) (v : BitVec 4) (ct : Contention)
  /-- IN (R117): Reads an I/O register into g[d] in 4 cycles. -/
  | in_ (bk : Fin 52) (d : BitVec 4) (m : IoAddr)
  /-- OUT (R117): Writes g[v] to an I/O register in 4 cycles. -/
  | out (bk : Fin 52) (m : IoAddr) (v : BitVec 4)
  /-- XIN (R117): Reads an I/O register into the bank and post-increments the pointer. -/
  | xin (bk : Fin 52) (a : BitVec 4) (io : BitVec 12) (ct : Contention)
  /-- XOUT (R117): Writes a bank word to an I/O register and post-increments the pointer. -/
  | xout (bk : Fin 52) (io : BitVec 12) (a : BitVec 4) (ct : Contention)
  /-- BZ (R118): Branches when g[c] = 0. -/
  | bz (bk : Fin 52) (c : BitVec 4) (target : Word)
  /-- BNZ (R118): Branches when g[c] ≠ 0. -/
  | bnz (bk : Fin 52) (c : BitVec 4) (target : Word)
  /-- DBNZ (R118): Decrements g[c] and branches when the result is non-zero. -/
  | dbnz (bk : Fin 52) (c : BitVec 4) (target : Word)
  /-- JMP (R118): Jumps to w2. -/
  | jmp (bk : Fin 52) (target : Word)
  /-- CALL (R118): Pushes the return address and jumps to w2. -/
  | call (bk : Fin 52) (target : Word)
  /-- JR (R118): Jumps to g[s]. -/
  | jr (bk : Fin 52) (s : BitVec 4)
  /-- CALLR (R118): Pushes the return address and jumps to g[s]. -/
  | callr (bk : Fin 52) (s : BitVec 4)
  /-- RET (R118): Pops the return address into the PC. -/
  | ret (bk : Fin 52)
  /-- RETT (R135): Returns from a trap to TPC, clears IN_TRAP, and restores REPC when TREP is set. -/
  | rett (bk : Fin 52)
  /-- MFS (R121): Reads a special register into g[d]; a read of CYCLO latches CYCMID and CYCHI. -/
  | mfs (bk : Fin 52) (d : BitVec 4) (sel : BitVec 6)
  /-- MTS (R121): Writes g[s] to a writable special register. -/
  | mts (bk : Fin 52) (sel : BitVec 6) (s : BitVec 4)
  /-- WAIT (R122): Waits until an event line selected by the mask in g[s] is set. -/
  | wait (bk : Fin 52) (d s : BitVec 4)
  /-- WAIT_END (R122): A selected event line rises, and a waiting WAIT writes the masked lines to g[d]. -/
  | waitEnd (bk : Fin 52)
  /-- NOP (R123): Does nothing for 1 cycle. -/
  | nop (bk : Fin 52)
  /-- BKPT (R123): A breakpoint that halts the brick when BKPT_HALT is set. -/
  | bkpt (bk : Fin 52)
  /-- REP (R124): The prefix latches a count into REPC and repeats the following instruction that many times. -/
  | rep (bk : Fin 52) (n : RepCount)
  /-- ILLEGAL_OPCODE (R102): An illegal word reaches decode and raises the illegal opcode trap. -/
  | illegalOpcode (bk : Fin 52)
  /-- WATCHDOG_EXPIRY (R159): The brick watchdog count expires, sets a pending expiry and reloads itself. -/
  | watchdogExpiry (bk : Fin 52)
  /-- WATCHDOG_TRAP (R133): At an instruction boundary with IN_TRAP = 0, a pending expiry is taken as the watchdog trap. -/
  | watchdogTrap (bk : Fin 52)
  /-- WATCHDOG_STOP (R160): After a second expiry, the brick stops at its next boundary with STOP_CAUSE 2. -/
  | watchdogStop (bk : Fin 52)
  /-- WDOG_KICK (R158): A write of 0x5AA5 reloads the watchdog and clears a pending expiry; any other value counts as an expiry. -/
  | wdogKick (bk : Fin 52) (v : Word)
  /-- WDOG_CFG_WRITE (R161): A write of WDOG_CFG reloads the count, unless LOCK has made the register read-only. -/
  | wdogCfgWrite (bk : Fin 52) (v : Word)
  /-- EV_CLR (R157): A write of 1 to a bit of EV_CLR clears that latched event line. -/
  | evClr (bk : Fin 52) (v : Word)
  /-- DBELL (R157): A write to DBELL rings the DBELL event line of the named local bricks. -/
  | dbell (bk : Fin 52) (v : Word)
  /-- CONF_CLR (R153): A write of 1 to bit m clears CONF_CNT(m) in the following cycle. -/
  | confClr (p : Party) (c : Fin 13) (v : BitVec 8)
  /-- CONF_LO_READ (R173): A read of CONF_LO returns the low half of the counter and latches the high half for CONF_HI. -/
  | confLoRead (bk : Fin 52) (m : Fin 8)
  /-- TIME_W0_READ (R156): A read of TIME_W0 latches all six time words of the brick at the IO2 edge. -/
  | timeW0Read (bk : Fin 52)
  /-- TIME_SEL_WRITE (R173): A write selects the domain used for time reads; a value of 3 is ignored. -/
  | timeSelWrite (bk : Fin 52) (v : Word)
  /-- TIME_CMP2_WRITE (R518): A write of TIME_CMP2 arms, or replaces, the brick's time compare. -/
  | timeCmp2Write (bk : Fin 52) (v : Word)
  /-- TIME_COMPARE_MATCH (R518): The armed compare time is reached and TCMP rises once. -/
  | timeCompareMatch (bk : Fin 52)
  /-- JMARK (R487): A write to JMARK writes a MARK record into the journal, which may trigger it. -/
  | jmark (bk : Fin 52) (v : Word)
  /-- HALT (R167): A write of BRK_CTRL.HALT requests a halt at the next instruction boundary. -/
  | halt (p : Party) (bk : Fin 52)
  /-- DEBUG_HALT (R167): The brick reaches a boundary and halts; a WAIT in progress ends. -/
  | debugHalt (bk : Fin 52)
  /-- STEP (R169): On a halted or stopped brick, runs one instruction at DBG_PC and halts again. -/
  | step (p : Party) (bk : Fin 52)
  /-- RESUME (R169): Restarts a halted or stopped brick at DBG_PC. -/
  | resume (p : Party) (bk : Fin 52)
  /-- BRICK_RESET (R172): BRK_CTRL.RESET with key 0xB7 resets one brick and empties its inbound mailboxes. -/
  | brickReset (p : Party) (bk : Fin 52) (key : BitVec 8)
  /-- RUN (R171): Setting BRK_CTRL.RUN starts an idle brick of a released course at 0x0000. -/
  | run (p : Party) (bk : Fin 52)
  /-- DBG_REG_WRITE (R171): A write of DBG_PC, DBG_GREG or DBG_SREG changes the state of a halted or stopped brick and is journaled. -/
  | dbgRegWrite (p : Party) (bk : Fin 52) (off : BitVec 8) (v : Reg32)
  /-- INJ_GO (R164): INJ_CTRL.GO requests injection of INJ_WORDS, or is refused or ignored. -/
  | injGo (p : Party) (bk : Fin 52)
  /-- INJECTION_ACCEPT (R162): At the next boundary the injected instruction is accepted, journaled, and executed 2 cycles later. -/
  | injectionAccept (bk : Fin 52) (ct : Contention)
  /-- TTX_WRITE (R194): A write of TtTX pushes a word into the tile transmit FIFO, or drops it with TX_OVER. -/
  | ttxWrite (tl : Fin 208) (v : Word)
  /-- TRX_READ (R194): A read of TtRX pops the tile receive FIFO, or returns the last word with RX_UNDER. -/
  | trxRead (tl : Fin 208)
  /-- TILE_NOP (R184): Tile CTL NOP does nothing for one tile cycle. -/
  | tileNop (tl : Fin 208) (mk : BitVec 2)
  /-- TILE_STOP (R184): Tile CTL STOP stops the tile and clears RUN. -/
  | tileStop (tl : Fin 208) (mk : BitVec 2)
  /-- TILE_BR (R184): A tile branch on a condition. -/
  | tileBr (tl : Fin 208) (mk : BitVec 2) (cond : BitVec 3) (addr : BitVec 5) (ball : BitVec 4)
  /-- LOOP (R184): Decrements C0 or C1 and branches while it is non-zero. -/
  | loop (tl : Fin 208) (mk : BitVec 2) (c : Bool) (addr : BitVec 5)
  /-- WAITP (R186): Waits for a pin level or edge. -/
  | waitp (tl : Fin 208) (mk : BitVec 2) (kind : BitVec 3) (pin : BitVec 2) (ball : BitVec 4)
  /-- WAITP_COMPLETE (R187): The awaited pin condition is detected and the WAITP completes. -/
  | waitpComplete (tl : Fin 208) (ball : BitVec 4) (edge : Option Bool)
  /-- HOLD (R186): Holds the tile for N + 1 or C + 1 tile cycles. -/
  | hold (tl : Fin 208) (mk : BitVec 2) (n : HoldCount)
  /-- HOLD_COMPLETE (R186): The HOLD count ends. -/
  | holdComplete (tl : Fin 208)
  /-- SHF (R189): Shifts N or C bits out and/or in through SR. -/
  | shf (tl : Fin 208) (mk : BitVec 2) (mode : BitVec 2) (n : ShfCount)
  /-- SHF_BIT (R189): One SHF bit is driven, sampled and shifted, with automatic get and put. -/
  | shfBit (tl : Fin 208) (ball : BitVec 4)
  /-- GET (R190): Loads a word from the transmit FIFO into SRH or SRL. -/
  | get (tl : Fin 208) (mk : BitVec 2) (blk half : Bool)
  /-- PUT (R190): Delivers SRH or SRL into the receive FIFO. -/
  | put (tl : Fin 208) (mk : BitVec 2) (blk half endFlag : Bool)
  /-- BLOCKED_GET_PUT_COMPLETE (R190): A blocking GET or PUT, or a stalled SHF, finds its FIFO ready and continues. -/
  | blockedGetPutComplete (tl : Fin 208)
  /-- DRV (R184): Sets masked pin levels or directions. -/
  | drv (tl : Fin 208) (mk : BitVec 2) (dirs : Bool) (mask value : BitVec 4)
  /-- LDI (R184): Loads a 9-bit value into C0 or C1. -/
  | ldi (tl : Fin 208) (mk : BitVec 2) (c : Bool) (value : BitVec 9)
  /-- CPY (R184): Copies, inverts or reverses one tile register into another. -/
  | cpy (tl : Fin 208) (mk : BitVec 2) (dest src : BitVec 3) (fn : BitVec 2) (ball : BitVec 4)
  /-- TILE_ILLEGAL (R185): The tile fetches an illegal word, stops, and sets ILLEGAL. -/
  | tileIllegal (tl : Fin 208)
  /-- TX_SEND (R196): In compatibility mode, hands a partial transmit bank to the tile. -/
  | txSend (p : Party) (tl : Fin 208)
  /-- TILE_RESET (R207): TILE_CTL.RESET with key 0x7E resets the tile and empties its FIFOs. -/
  | tileReset (p : Party) (tl : Fin 208) (key : BitVec 8)
  /-- TILE_RESET_HOLD_END (R207): The 2-cycle tile reset hold ends; the tile is STOPPED, or starts if RUN was written. -/
  | tileResetHoldEnd (tl : Fin 208)
  /-- TILE_RUN (R205): TILE_CTL.RUN set to 1 runs the tile from PC; set to 0 it stops the tile at the next boundary. -/
  | tileRun (p : Party) (tl : Fin 208) (runBit : Bool)
  /-- TILE_STEP_HI_WRITE (R177): A write of TILE_STEP_HI forms the new step and applies it from the next tile cycle. -/
  | tileStepHiWrite (p : Party) (tl : Fin 208) (v : Word)
  /-- TILE_PDATA_WRITE (R198): Stores a program word at TILE_PADDR and advances TILE_PADDR. -/
  | tilePdataWrite (p : Party) (tl : Fin 208) (v : Word)
  /-- TILE_PROG_WRITE (R206): A course-window write of a tile program word, effective at the next fetch of that address. -/
  | tileProgWrite (p : Party) (tl : Fin 208) (a : BitVec 5) (v : Word)
  /-- TILE_INJ_WRITE (R202): A write of TILE_INJ places an instruction in the tile injection slot. -/
  | tileInjWrite (p : Party) (tl : Fin 208) (v : Word)
  /-- TILE_INJECTION_TAKE (R204): The tile takes the injected instruction, executes it or refuses it. -/
  | tileInjectionTake (tl : Fin 208) (ball : BitVec 4)
  /-- GPIO_OWN_WRITE (R180): A write of GPIO_OWN(n) assigns a ball's driver, unless it touches a loaded course or names tile 208 or above. -/
  | gpioOwnWrite (p : Party) (n : Fin 128) (v : Reg32)
  /-- FM_RXL_WRITE (R217): A write of FM_RXL pushes a receive buffer, or drops it with RXBUF_OVER or BAD_RXL. -/
  | fmRxlWrite (bk : Fin 52) (v : Word)
  /-- FM_RXC0_READ (R217): A read of FM_RXC0 pops a receive completion and latches FM_RXC1. -/
  | fmRxc0Read (bk : Fin 52)
  /-- FM_TXC_WRITE (R222): A write of FM_TXC pushes a transmit segment; a LAST segment ends a frame and gives it a sequence number. -/
  | fmTxcWrite (bk : Fin 52) (v : Word)
  /-- FM_TXD_READ (R217): A read of FM_TXD pops a transmit completion. -/
  | fmTxdRead (bk : Fin 52)
  /-- FM_RXMAP_WRITE (R214): A keystone write of FM_RXMAP maps classes to bricks; writes from other parties are refused. -/
  | fmRxmapWrite (p : Party) (c : Fin 13) (v : Reg32)
  /-- FM_RX_BURST (R218): A fully staged receive burst writes frame words, then metadata, into the oldest buffer, and pushes the completion. -/
  | fmRxBurst (c : Fin 13) (ct : List Contention)
  /-- FM_TX_BURST (R520): A transmit burst reads one cell of a frame from the bank into staging; the last burst posts the completion. -/
  | fmTxBurst (c : Fin 13) (ct : List Contention)
  /-- TROWEL_RUN_COMPLETE (R229): A trowel run ends with PASS or FAIL, and the course is fenced on failure. -/
  | trowelRunComplete (u : TrowelUnit) (fails : BitVec 16) (addr data : Reg32)
  /-- LOAD (R246): The keystone LOAD service checks and loads a protocol image into a course. -/
  | load (r : SvcReq)
  /-- COURSE_RELEASE (R247): At the named boundary the course's bricks and tiles run, its fragment applies, and COURSE_MODE becomes 0. -/
  | courseRelease (c : Fin 13)
  /-- PATCH (R249): The PATCH service applies write and inject records to a loaded image. -/
  | patch (r : SvcReq)
  /-- RELOAD (R251): The RELOAD service loads a new image into the standby course and starts a live-reload handover. -/
  | reload (r : SvcReq)
  /-- CANCEL (R252): CANCEL undoes an uncommitted handover and unloads the standby course. -/
  | cancel (r : SvcReq)
  /-- HANDOVER_COMMIT (R252): Once the acknowledgement and SHADOW_READY have arrived, the keystone commits the re-point for T. -/
  | handoverCommit
  /-- RE_POINT (R253): At T, steering, windows, GPIO, journal selection and the standby role move from the live course to the new one. -/
  | rePoint
  /-- PORT_CFG_WRITE (R260): A write of PORT_CFG; mode changes while EN = 1 and invalid values are refused, and setting EN starts a hold. -/
  | portCfgWrite (p : Party) (q : PortCode) (v : Reg32)
  /-- LINK_UP (R259): The PCS holds synchronisation for 10 µs, the link is declared up, and a running hold ends. -/
  | linkUp (q : PortCode) (rate : BitVec 3)
  /-- LINK_DOWN (R283): The link goes down, the frame in transmission is cut, and a PORT_HOLD hold starts. -/
  | linkDown (q : PortCode)
  /-- PORT_HOLD_EXPIRY (R284): The hold expires; queued frames are dropped into HOLD_DROP and EXPIRED is set. -/
  | portHoldExpiry (q : PortCode)
  /-- FRAME_RECEIVE (R263): A frame received at a port is checked, stamped and steered. -/
  | frameReceive (q : PortCode) (bytes : List Byte) (fin : LineEnd) (interp : BitVec 7)
  /-- FLT_KEY0_WRITE (R267): A write of FLT_KEY0 applies the staged key and action words of the entry together. -/
  | fltKey0Write (p : Party) (q : PortCode) (e : Fin 64) (v : Reg32)
  /-- GCL_COMMIT (R277): GCL_CTRL.COMMIT copies the admin list and sets a change time, or is refused. -/
  | gclCommit (p : Party) (q : PortCode) (v : Reg32)
  /-- GCL_CHANGE_TIME (R278): At CT the committed gate list becomes operational, with the old cycle extended or cut. -/
  | gclChangeTime (q : PortCode)
  /-- GATE_ENTRY_CHANGE (R274): A gate control list entry's time is reached and the gate states change. -/
  | gateEntryChange (q : PortCode)
  /-- CNT_LO_READ (R280): A read of CNT_LO returns the low half, clears the counter and fills the shadow, or serves as a re-read. -/
  | cntLoRead (p : Party) (tag : BitVec 10) (q : PortCode) (k : Fin 32)
  /-- CNT_SHADOW_READ (R281): A read of CNT_HI or CNT_SHLO returns the shadow only to the requester that filled it. -/
  | cntShadowRead (p : Party) (tag : BitVec 10) (q : PortCode) (k : Fin 32) (hi : Bool)
  /-- CELL_TIME (R292): Each cell time the scheduler locks pairs and launches, selects classes and matches inputs to outputs. -/
  | cellTime (ecc : Option EccHit)
  /-- EGRESS_FRAME_START (R295): A selected frame starts on the line at S; the FCS and the egress stamp are added. -/
  | egressFrameStart (q : PortCode) (interp : BitVec 7)
  /-- FRAME_ADMISSION (R300): A copy that becomes eligible is admitted against the thresholds and the pool, or dropped. -/
  | frameAdmission
  /-- FLOW_CONTEXT_TAKE (R306): A flow context takes a stored frame and runs owner, key, police, recover, generate, class, launch and replicate. -/
  | flowContextTake (f : Fin 256)
  /-- RECOVERY_RESET_TIMEOUT (R308): The IEEE 802.1CB sequence recovery reset timeout expires. -/
  | recoveryResetTimeout (f : Fin 256)
  /-- FC_CFG_WRITE (R312): A write of FC_CFG, refused for invalid enable combinations or lane-domain mismatch. -/
  | fcCfgWrite (p : Party) (f : Fin 256) (v : Reg32)
  /-- FC_CIR_WRITE (R307): A write of FC_CIR or FC_CBS sets the token bucket to CBS. -/
  | fcCirWrite (p : Party) (f : Fin 256) (cbs : Bool) (v : Reg32)
  /-- FC_LBASE_WRITE (R310): A write of FC_LBASE sets lnext to lbase. -/
  | fcLbaseWrite (p : Party) (f : Fin 256) (word : Fin 3) (v : Reg32)
  /-- Q_THRESHOLD_WRITE (R299): A write of Q_MIN, Q_MARK or Q_DROP, ignored if it breaks their order or the pool floor. -/
  | qThresholdWrite (p : Party) (q : PortCode) (c : Fin 8) (which : Fin 3) (v : Reg32)
  /-- BUF_FENCE_WRITE (R316): A keystone write fences buffer segments, or returns them to service. -/
  | bufFenceWrite (p : Party) (v : Reg32)
  /-- TIME_QUAD_READ (R320): A read of word +0x0 of a time quad latches the other words for that requester. -/
  | timeQuadRead (p : Party) (tag : BitVec 10) (off : Offset)
  /-- TD_SET_COMMIT (R322): A write of TD_SET +0xC in FREE steps the domain to the committed value. -/
  | tdSetCommit (p : Party) (d : Fin 2) (v : Reg32)
  /-- TD_ENABLE (R325): TD_CTRL.EN := 1 moves the domain from FREE to ACQUIRE. -/
  | tdEnable (p : Party) (d : Fin 2)
  /-- TD_DISABLE (R325): TD_CTRL.EN := 0 returns the domain to FREE. -/
  | tdDisable (p : Party) (d : Fin 2)
  /-- TD_ARM (R327): TD_CTRL.ARM allows one more step, through ACQUIRE. -/
  | tdArm (p : Party) (d : Fin 2)
  /-- SAMPLE_SUBMIT (R327): A write of SMP_T_S submits a software sample to the domain servo. -/
  | sampleSubmit (p : Party) (d : Fin 2) (v : Reg32)
  /-- TD_TIMEOUT (R325): No sample for TIMEOUT ticks in TRACK moves the domain to HOLDOVER. -/
  | tdTimeout (d : Fin 2)
  /-- ACT_GO (R330): ACT_CTRL.GO requests a switch of the active domain at ACT_AT, or is refused LATE or BUSY. -/
  | actGo (p : Party) (v : Reg32)
  /-- ACTIVE_DOMAIN_SWITCH (R330): At ACT_AT, H is set and SEL switches, or the switch is refused on OFFSET. -/
  | activeDomainSwitch
  /-- SLEW_COMPLETE (R331): The hold offset H reaches 0 and SLEWING clears. -/
  | slewComplete
  /-- GRID_ALIGNED (R337): The lane grid finishes realigning and ALIGNED returns to 1. -/
  | gridAligned (q : PortCode)
  /-- TIME_FRAME_SEND (R344): Every 16,384 clk_time cycles a TIME frame is sent on each Urral port with block lock. -/
  | timeFrameSend
  /-- TIME_FRAME_RECEIVE (R344): A TIME frame gives a delay and offset measurement, and every 64 exchanges a domain sample. -/
  | timeFrameReceive (k : Fin 4) (hops : BitVec 8) (sourceLink : Bool) (x0 x1 : TimeExchange)
  /-- TIME_SOURCE_TIMEOUT (R345): The time source port carries no TIME frame for 4 exchange periods, and the worker changes its source. -/
  | timeSourceTimeout
  /-- TTO_ARM (R347): TTO_CTRL.ARM commits the staged trigger settings, or is refused LATE or BAD. -/
  | ttoArm (p : Party) (n : Fin 32) (v : Reg32)
  /-- TTO_EDGE (R347): A scheduled trigger output edge is produced, or skipped. -/
  | ttoEdge (n : Fin 32)
  /-- TCAP_EDGE (R349): A capture input edge is stamped into the FIFO and reported. -/
  | tcapEdge (n : Fin 16) (rising : Bool) (interp : BitVec 7)
  /-- TCAP_TS_READ (R349): A read of TCAP_TS +0x10 pops the capture FIFO and latches both stamps. -/
  | tcapTsRead (p : Party) (tag : BitVec 10) (n : Fin 16)
  /-- PPS_IN_EDGE (R349): A PPS_IN edge is stamped, reported, and may give a domain sample. -/
  | ppsInEdge (rising : Bool) (interp : BitVec 7)
  /-- PPS_OUT_EDGE (R349): PPS_OUT rises at each whole second of TA and falls after PPS_WIDTH. -/
  | ppsOutEdge (rising : Bool)
  /-- CAN_CONFIG_WRITE (R352): A write of CAN configuration, bit timing, TT registers or objects, accepted only in INIT. -/
  | canConfigWrite (p : Party) (n : Fin 8) (off : BitVec 16) (v : Reg32)
  /-- CAN_ON (R354): CAN_CTRL.ON leaves INIT and integrates onto the bus, or sets CFG_ERR. -/
  | canOn (p : Party) (n : Fin 8)
  /-- CAN_OFF (R352): CAN_CTRL.ON = 0 returns the controller to INIT after the frame in progress. -/
  | canOff (p : Party) (n : Fin 8)
  /-- CAN_SLEEP (R371): CAN_CTRL.SLEEP = 1 puts the controller to sleep after the frame in progress. -/
  | canSleep (p : Party) (n : Fin 8)
  /-- CAN_SLEEP_CLEAR (R372): A write of SLEEP = 0 wakes the controller. -/
  | canSleepClear (p : Party) (n : Fin 8)
  /-- CAN_SLEEP_WAKE (R372): A dominant level or a wake frame takes a sleeping controller out of SLEEP and raises WAKE. -/
  | canSleepWake (n : Fin 8) (w : CanWake)
  /-- CAN_BOR (R362): CAN_CTRL.BOR starts bus-off recovery. -/
  | canBor (p : Party) (n : Fin 8)
  /-- BUS_OFF_RECOVERY_COMPLETE (R362): 128 occurrences of 11 recessive bits end bus-off. -/
  | busOffRecoveryComplete (n : Fin 8)
  /-- CAN_FRAME_RECEIVE (R355): A valid frame is stored in its matching receive object, or counted RX_NOMATCH or RX_REMOTE. -/
  | canFrameReceive (n : Fin 8) (f : CanFrame)
  /-- CAN_TRANSMIT_START (R356): At start of frame a READY object is copied into the transmit buffer and READY clears. -/
  | canTransmitStart (n : Fin 8)
  /-- CAN_TRANSMIT_END (R363): A transmission is acknowledged and sets TXDONE, or fails and updates UNACK and ALONE. -/
  | canTransmitEnd (n : Fin 8) (acked : Bool)
  /-- CAN_ERROR (R362): A protocol error updates the error counters and the error-passive and bus-off states. -/
  | canError (n : Fin 8) (e : CanErr)
  /-- OBJ_SEND (R356): The SEND command commits staged data to a transmit object and sets READY. -/
  | objSend (p : Party) (n : Fin 8) (m : Fin 64)
  /-- OBJ_ABORT (R356): The ABORT command clears READY of an object. -/
  | objAbort (p : Party) (n : Fin 8) (m : Fin 64)
  /-- OBJ_RESUME (R363): The RESUME command clears STOPPED of an object. -/
  | objResume (p : Party) (n : Fin 8) (m : Fin 64)
  /-- OBJ_BAR0_WRITE (R357): A BAR0 write of OBJ_FMT or OBJ_DATA, accepted only for a transmit object with READY = 0. -/
  | objBar0Write (p : Party) (n : Fin 8) (m : Fin 64) (off : BitVec 7) (v : Reg32)
  /-- CAN_SNAPSHOT (R358): CAN_OSEL with SNAP = 1 copies an object into the snapshot and clears its flags. -/
  | canSnapshot (bk : Fin 52) (n : Fin 8) (v : Word)
  /-- CAN_EVT_READ (R361): A window read of CAN_EVT returns the event bits and clears them. -/
  | canEvtRead (bk : Fin 52) (n : Fin 8)
  /-- CAN_TSCL_READ (R358): A read of CAN_TSCL latches the high half of CAN_TSC. -/
  | canTsclRead (bk : Fin 52) (n : Fin 8)
  /-- ANCHOR_LATCH (R360): Every 819.2 µs plumb latches ANC_CNT, ANC_TD0 and ANC_TD1. -/
  | anchorLatch
  /-- TRIGGER_TIME_MARK (R369): A trigger entry's time mark is reached and its window acts. -/
  | triggerTimeMark (n : Fin 8) (e : Fin 128) (busIdle : Bool)
  /-- TT_REFERENCE_SEND (R365): A potential time master schedules its reference message at the cycle end. -/
  | ttReferenceSend (n : Fin 8)
  /-- TT_REFERENCE_RECEIVE (R366): A received reference starts a basic cycle and settles the TT roles. -/
  | ttReferenceReceive (n : Fin 8) (prio : BitVec 3) (cycle : BitVec 6) (gtime : Word)
  /-- TT_WATCH_TIMEOUT (R366): No reference arrives within WATCH_NTU, so a master starts or a slave goes to S2. -/
  | ttWatchTimeout (n : Fin 8)
  /-- STREAM_FRAME (R375): Every 1 µs a barrier stream frame is exchanged with the field die. -/
  | streamFrame (valid : Bool)
  /-- STREAM_TIMEOUT (R377): No valid stream frame for 4 µs switches the DO channels off, or clears STREAM_OK. -/
  | streamTimeout (logicSide : Bool)
  /-- DI_CHANGE_ACCEPT (R379): An input level holds for FILT µs and the change is accepted, stamped and queued as an edge record. -/
  | diChangeAccept (n : Fin 32) (level : Bool) (since : Nat)
  /-- WIRE_BREAK (R380): An input current stays below 0.20 mA for WB_MS ms and the channel reports open. -/
  | wireBreak (n : Fin 32)
  /-- EDGE_POP (R392): A read of EDGE_POP pops an edge record and latches its stamp. -/
  | edgePop (p : Party) (tag : BitVec 10)
  /-- DO_CMD_WRITE (R387): A write of DO_CMD changes the commanded output levels at once. -/
  | doCmdWrite (p : Party) (v : Word)
  /-- TIMED_COMMAND_ARM (R387): A write of DO_TT2, or of DO_TTIME +0x4C, arms a timed output command. -/
  | timedCommandArm (p : Party) (v : Reg32)
  /-- TIMED_COMMAND_APPLY (R387): At T, or late, the field die applies the timed command. -/
  | timedCommandApply
  /-- DO_OVERLOAD (R383): A channel stays in current limit for 100 µs, sets DO_OVL, and latches off if OVL_OFF. -/
  | doOverload (m : Fin 16)
  /-- DO_OVER_TEMPERATURE (R383): A channel sensor passes 160 °C, sets DO_OT and latches off. -/
  | doOverTemperature (m : Fin 16)
  /-- GROUP_LIMIT (R383): The module current exceeds its total for 100 µs, and the highest channel that is on is latched off. -/
  | groupLimit
  /-- OPEN_LOAD (R383): An open-load condition for 10 ms sets DO_OPEN. -/
  | openLoad (m : Fin 16)
  /-- FV24_OK_CHANGE (R384): FV24 crosses its thresholds; the outputs all switch off, or the commanded ones turn on together. -/
  | fv24OkChange (ok : Bool)
  /-- FIO_CFG_WRITE (R386): A write of FIO_CFG; a change of FIELD_LIMIT is refused unless all outputs are off. -/
  | fioCfgWrite (p : Party) (v : Reg32)
  /-- PULSE_TEST (R388): PT_CTRL.GO pulses one channel off for a test, or is refused. -/
  | pulseTest (p : Party) (v : Word)
  /-- PULSE_TEST_END (R388): The test pulse ends, giving PASS or FAIL, and the channel turns back on. -/
  | pulseTestEnd (below4V : Bool)
  /-- URRAL_SIGNAL_LOSS (R394): An Urral port loses signal and goes DOWN. -/
  | urralSignalLoss (k : Fin 4)
  /-- URRAL_SIGNAL_DETECT (R394): Signal is detected and the port enters TRAINING. -/
  | urralSignalDetect (k : Fin 4)
  /-- URRAL_TRAINING_TIMEOUT (R394): A port not HEALTHY within 6 ms of TRAINING enters FAULT. -/
  | urralTrainingTimeout (k : Fin 4)
  /-- URRAL_HEALTHY (R394): Block lock, a peer HELLO and TIME frames make the port HEALTHY or LOOPED. -/
  | urralHealthy (k : Fin 4) (looped : Bool)
  /-- URRAL_FRAME_RECEIVE (R398): An Urral frame is checked and taken, forwarded in ring transit, or dropped. -/
  | urralFrameReceive (k : Fin 4) (bytes : List Byte)
  /-- HELLO (R401): A received CTRL HELLO identifies the peer on the port. -/
  | hello (k : Fin 4) (h : HelloInfo)
  /-- CLAIM (R401): A received CLAIM that ranks higher stops the device's own claim. -/
  | claim (k : Fin 4) (c : Claim)
  /-- CLAIM_WIN (R401): Three ticks of claiming with no higher claim make the device manager. -/
  | claimWin
  /-- ENUM (R402): A CTRL ENUM assigns device numbers along the chain and is reflected to device 0. -/
  | enum (k : Fin 4) (number : BitVec 8) (chainId : BitVec 16)
  /-- LEASE (R413): A received LEASE frame renews the lease, ends output holds, and sets MGR_DEV and the epoch. -/
  | lease (k : Fin 4) (src : Fin 64) (mepoch : BitVec 8) (chainId : BitVec 16)
  /-- LEASE_RENEWAL (R412): Every 2 ticks the manager sends LEASE frames and toggles LEASE_OUT. -/
  | leaseRenewal
  /-- LEASE_LAPSE (R415): 8 ticks without renewal lapse the lease; outputs are held and the standby claims. -/
  | leaseLapse
  /-- CKPT_DUE (R414): Every 100 ticks the manager's keystone raises CKPT_DUE to its host. -/
  | ckptDue
  /-- CKPT (R414): CTRL CKPT frames deliver a checkpoint to the standby, which records CKPT_SEQ. -/
  | ckpt (seq : Word) (data : List Byte) (digest : BitVec 512)
  /-- READY (R415): PAIR_CTRL.READY lets the new manager renew at the next tick. -/
  | ready (p : Party)
  /-- RESTORE_LATE (R415): 25 ticks after the last renewal without READY, the new manager renews anyway and records RESTORE_LATE. -/
  | restoreLate
  /-- ROLE_SWAP (R417): Every SWAP_MIN minutes the manager hands its role to the standby. -/
  | roleSwap
  /-- SWAP_NOW (R417): PAIR_CTRL.SWAP_NOW starts a role handover at once. -/
  | swapNow (p : Party)
  /-- HANDOFF (R417): A CTRL HANDOFF makes the standby restore, claim with LEASE_HELD and renew. -/
  | handoff (seq : Word)
  /-- SWAP_FAIL (R417): The standby has not renewed within 6 ticks; the old manager renews again and records SWAP_FAIL. -/
  | swapFail (cause : Option (BitVec 8))
  /-- ACCESS_READ (R405): An ACCESS READ is performed at the target and answered, or refused BUSY. -/
  | accessRead (src : Fin 64) (locked : Bool) (tag : BitVec 8) (count : Fin 16) (off : Offset)
  /-- ACCESS_WRITE (R406): A posted ACCESS WRITE is performed at the target and acknowledged. -/
  | accessWrite (src : Fin 64) (locked : Bool) (off : Offset) (data : List Reg32)
  /-- ACCESS_LOCK (R408): An ACCESS LOCK grants the target's register bus, or answers LOCK_RETRY. -/
  | accessLock (src : Fin 64) (rivals : List (Fin 64))
  /-- ACCESS_UNLOCK (R408): An ACCESS UNLOCK releases the bus lock. -/
  | accessUnlock (src : Fin 64)
  /-- ACCESS_RESPONSE (R405): A read response frees its tag, or is discarded as ACC_LATE. -/
  | accessResponse (k : Fin 4) (tag : BitVec 8) (status : BitVec 3) (data : List Reg32)
  /-- WRITE_ACK (R406): A WRITE_ACK returns a write slot to the requester. -/
  | writeAck (dev : Fin 64)
  /-- ACCESS_TIMEOUT (R405): A read tag frees after TMO ticks with no response. -/
  | accessTimeout (tag : BitVec 8)
  /-- BUS_LOCK_EXPIRY (R408): A bridge lock ends 1,024 clk_periph cycles after its grant. -/
  | busLockExpiry
  /-- MSG_INTERRUPT (R410): A MSG of CODE 1 delivers a forwarded interrupt cause. -/
  | msgInterrupt (src : Fin 64) (cause : Reg32) (fence : Bool)
  /-- MSG_MAILBOX_POST (R439): A MSG of CODE 2 locks, writes and posts a mailbox as party 0x10 + d. -/
  | msgMailboxPost (src : Fin 64) (sepoch : BitVec 4) (j : Fin 32) (words : List Reg32) (fence : Bool)
  /-- MSG_DOORBELL (R440): A MSG of CODE 3 sets BELL of the named mailbox. -/
  | msgDoorbell (src : Fin 64) (j : Fin 32) (fence : Bool)
  /-- MSG_RECORDER_EVENT (R410): A MSG of CODE 4 enters a forwarded record as code 0x0902. -/
  | msgRecorderEvent (src : Fin 64) (words : List Reg32) (fence : Bool)
  /-- MSG_MAILBOX_NOTICE (R410): A MSG of CODE 5 reports an empty, refused or discarded message and sets CHAIN_MB. -/
  | msgMailboxNotice (src : Fin 64) (party : BitVec 8) (sub : BitVec 8) (fence : Bool)
  /-- ORPH_READ (R409): A read of ORPH(t) +8 returns the recorded data and clears VALID. -/
  | orphRead (p : Party) (tag : BitVec 10) (t : BitVec 8)
  /-- ORPH_PF_READ (R435): A read of ORPH_PF DATA returns the recorded word and clears VALID. -/
  | orphPfRead (p : Party) (f : Fin 2) (t : BitVec 10)
  /-- RING_TAIL_WRITE (R426): A write of RING_TAIL is the ring doorbell; an out-of-range TAIL stops the ring with ERR 3. -/
  | ringTailWrite (p : Party) (n : Fin 64) (v : Reg32)
  /-- RING_CTRL_WRITE (R426): A write of RING_CTRL or RING_BASE starts or stops a ring, or resets its pointers while EN = 0. -/
  | ringCtrlWrite (p : Party) (n : Fin 64) (reg : Fin 3) (v : Reg32)
  /-- HOST_TX_FRAME (R431): A complete transmit frame is read from a ring, checked, admitted or dropped, and written back. -/
  | hostTxFrame (fail : Option HostReadFail)
  /-- HOST_RX_DELIVERY (R433): A frame for H is written to a receive descriptor and buffer, with writeback and MSI-X. -/
  | hostRxDelivery (descFail : Bool)
  /-- IRQ_MOD_TIMER (R428): The moderation time passes and the ring vector fires. -/
  | irqModTimer (n : Fin 64)
  /-- MAILBOX_LOCK (R438): A read of MB_LOCK grants the lock, or returns its holder, SENDER or 0xFF. -/
  | mailboxLock (p : Party) (tag : BitVec 10) (j : Fin 32) (rivals : List Party)
  /-- MAILBOX_DATA_WRITE (R439): The lock holder writes a message word. -/
  | mailboxDataWrite (p : Party) (j : Fin 32) (k : Fin 8) (v : Reg32)
  /-- MAILBOX_POST (R439): A post makes the mailbox FULL and raises the receiver's wake event. -/
  | mailboxPost (p : Party) (j : Fin 32) (len : BitVec 4)
  /-- TAKE (R439): The receiver's TAKE empties the mailbox and raises the sender's empty event. -/
  | take (p : Party) (j : Fin 32)
  /-- UNLOCK (R438): MB_CMD.UNLOCK releases the lock and clears the words written under it. -/
  | unlock (p : Party) (j : Fin 32)
  /-- RING (R440): MB_CMD.RING sets BELL. -/
  | ring (p : Party) (j : Fin 32)
  /-- CLR_DISC (R442): MB_CMD.CLR_DISC clears DISCARDED and DCOUNT. -/
  | clrDisc (p : Party) (j : Fin 32)
  /-- BELL_CLEAR (R440): A W1C of BELL clears it only for the receiver. -/
  | bellClear (p : Party) (j : Fin 32)
  /-- MAILBOX_LOCK_EXPIRY (R438): A mailbox lock expires after 65.536 µs and sets LOCK_LOST. -/
  | mailboxLockExpiry (j : Fin 32)
  /-- MB_RECV_WRITE (R437): A write of MB_RECV changes the receiver and may raise the new receiver's wake event. -/
  | mbRecvWrite (p : Party) (j : Fin 32) (v : Reg32)
  /-- SERVICE_BOUNDARY (R462): The data-plane boundary named by a keystone service is reached and the deferred action takes effect. -/
  | serviceBoundary
  /-- COURSE_TEST (R463): COURSE.TEST runs a trowel on a course, a buffer segment or the journal. -/
  | courseTest (r : SvcReq)
  /-- COURSE_RESET (R463): COURSE.RESET applies a COURSE reset at the boundary. -/
  | courseReset (r : SvcReq)
  /-- FENCE (R316): COURSE.FENCE fences a buffer segment, or returns it to service. -/
  | fence (r : SvcReq)
  /-- POWER_DOZE (R463): POWER.DOZE writes the doze selections and requests doze at a boundary. -/
  | powerDoze (r : SvcReq)
  /-- POWER_WAKE (R463): POWER.WAKE wakes the gated blocks at a boundary. -/
  | powerWake (r : SvcReq)
  /-- POWER_RESET (R463): POWER.RESET applies a reset at a boundary. -/
  | powerReset (r : SvcReq)
  /-- TIME_SAMPLE (R461): TIME.SAMPLE writes a domain sample on behalf of the caller. -/
  | timeSample (r : SvcReq)
  /-- CKPT_PUSH (R414): CKPT.PUSH sends a host checkpoint to the standby. -/
  | ckptPush (r : SvcReq)
  /-- ATTEST_REPORT (R470): ATTEST.REPORT writes a signed attestation report into the buffer. -/
  | attestReport (r : SvcReq)
  /-- ID_PUB (R470): ATTEST.ID_PUB writes the identity public key into the buffer. -/
  | idPub (r : SvcReq)
  /-- AUTH_CHALLENGE (R465): AUTH.CHALLENGE writes a new nonce, or is refused under lockout. -/
  | authChallenge (r : SvcReq)
  /-- AUTH_END (R467): AUTH.END ends the debug session. -/
  | authEnd (r : SvcReq)
  /-- PROVISION (R452): The PROVISION authorisation fuses the owner key digest and the identity key. -/
  | provision (r : SvcReq)
  /-- DEBUG (R467): A signed DEBUG authorisation opens a debug session at a level and scope. -/
  | debugAuth (r : SvcReq)
  /-- DEPLOY (R452): The DEPLOY authorisation moves the device to DEPLOYED. -/
  | deploy (r : SvcReq)
  /-- RETURN (R452): The RETURN authorisation erases images and moves the device to RETURNED. -/
  | returnAuth (r : SvcReq)
  /-- RETIRE (R452): The RETIRE authorisation destroys the identity key and retires the device. -/
  | retire (r : SvcReq)
  /-- ROTATE (R452): The ROTATE authorisation fuses a new owner key into slot 1 and revokes slot 0. -/
  | rotate (r : SvcReq)
  /-- SVN_COMMIT (R455): The SVN_COMMIT authorisation raises an SVN floor, or is refused ROLLBACK. -/
  | svnCommit (r : SvcReq)
  /-- DEBUG_SESSION_EXPIRY (R467): The session's LEFT reaches 0 and the level returns to its default. -/
  | debugSessionExpiry
  /-- LOCKOUT_END (R465): The 1,000-tick challenge lockout ends. -/
  | lockoutEnd
  /-- FLASH_WRITE (R461): FLASH.WRITE checks, stores and re-verifies an image in a flash slot. -/
  | flashWrite (r : SvcReq)
  /-- CLEAR_START (R92): The footing service clears the start count and applies a DEVICE reset. -/
  | clearStart (r : SvcReq)
  /-- RECORDER_READ (R461): RECORDER.READ copies recorder records to a host buffer. -/
  | recorderRead (r : SvcReq)
  /-- READ_FLUSH (R484): RECORDER.READ_FLUSH copies the records of a flash flush block to the host. -/
  | readFlush (r : SvcReq)
  /-- CAL_READ (R499): CAL.READ copies the calibration page to a host buffer. -/
  | calRead (r : SvcReq)
  /-- CAL_WRITE (R499): CAL.WRITE replaces the calibration page with a valid one from the host. -/
  | calWrite (r : SvcReq)
  /-- JOURNAL_START (R491): JOURNAL.START writes JRN_CFG and starts journaling a course at a boundary. -/
  | journalStart (r : SvcReq)
  /-- JOURNAL_STOP (R491): JOURNAL.STOP ends recording at a boundary with an END record. -/
  | journalStop (r : SvcReq)
  /-- REPLAY (R493): JOURNAL.REPLAY preloads a keyframe into the standby course in replay mode. -/
  | replay (r : SvcReq)
  /-- PORT_CONFIG (R463): PORT.CONFIG rewrites PORT_CFG around EN at a boundary. -/
  | portConfig (r : SvcReq)
  /-- PORT_HOLD (R463): PORT.HOLD writes a port's hold time. -/
  | portHold (r : SvcReq)
  /-- PORT_LOOP (R463): PORT.LOOP changes a port's loopback at a boundary. -/
  | portLoop (r : SvcReq)
  /-- PORT_RESET (R463): PORT.RESET applies a PORT reset at a boundary. -/
  | portReset (r : SvcReq)
  /-- REC_CLEAR (R480): REC_CTRL.CLEAR empties the recorder without changing the numbering. -/
  | recClear (p : Party)
  /-- REC_FREEZE (R481): Setting FREEZE stops array changes and queues new events in the side queue. -/
  | recFreeze (p : Party)
  /-- REC_UNFREEZE (R481): Clearing FREEZE writes the side queue into the array. -/
  | recUnfreeze (p : Party)
  /-- FREEZE_TIMEOUT (R481): A freeze ends after 1,000 ticks. -/
  | freezeTimeout
  /-- REC_FLUSH (R483): REC_CTRL.FLUSH starts a recorder flush to flash. -/
  | recFlush (p : Party)
  /-- KEYFRAME (R488): The journal tap takes a keyframe of the course state. -/
  | keyframe
  /-- JOURNAL_TRIGGER (R489): JRN_CTRL.TRIGGER starts the post-trigger count of a WRAP journal. -/
  | journalTrigger (p : Party)
  /-- JOURNAL_FREEZE (R489): POST_TICKS after a trigger, recording stops and the journal reads FROZEN. -/
  | journalFreeze
  /-- SPILL_BLOCK (R489): A 4,096-byte journal block is copied to the spill host ring. -/
  | spillBlock
  /-- REPLAY_RELEASE (R493): After the preload, the standby course is released at the keyframe cycle in replay. -/
  | replayRelease
  /-- REPLAY_FEED (R494): The replay feeder presents a journaled input at its recorded cycle. -/
  | replayFeed
  /-- REPLAY_STARVE (R495): An empty feeder staging buffer gates the replaying course until it refills. -/
  | replayStarve
  /-- PCIE_LINK_DOWN (R256): The PCIe link of the host port goes down; H stops its egress queues and starts a PORT_HOLD hold. -/
  | pcieLinkDown
  /-- PCIE_LINK_UP (R515): The PCIe link of the host port trains up, ending H's hold or its drop-on-arrival state after reset. -/
  | pcieLinkUp
  /-- BUS_INTEGRATION_COMPLETE (R350): A CAN controller completes bus integration after ON or a wake, clears INTEG and joins the bus. -/
  | busIntegrationComplete (n : Fin 8)
  /-- WIRE_BREAK_CLEAR (R380): An input current rises above 0.25 mA and the channel's wire-break report clears. -/
  | wireBreakClear (n : Fin 32)
  /-- REPLAY_STAGING_FILLED (R495): The replay feeder's staging buffer is filled again, ungating the replaying course. -/
  | replayStagingFilled
deriving DecidableEq, Repr

end Sys2Proof
end

