-- ==== Sys2Proof/Decode.lean ====
section
/-! DEFINITION. The commands that a word of spec/opcode_table.json spells: no row of the table gives bits, so no word spells
one. The decoder of brick instruction words is in Machine/BrickIsa.lean, that of tile words in Machine/TileOps.lean. -/

namespace Sys2Proof

/-- The command of a table word: none, since no row gives bits. -/
def decodeTableWord (_nbits _w : Nat) : Option Instr := none

end Sys2Proof
end

