-- ==== Sys2Proof/Config.lean ====
section
/-! DEFINITION. What the spec leaves open, as constants without a value: the codes and parameters of recorder
events, free values, and the cryptographic functions that the spec names by their standards. Nothing in Lean can
evaluate them, so a statement about one of them holds whatever it is. -/

namespace Sys2Proof

/-- The recorder events the spec asks for, by the rule that raises each. R476 fixes the class of each; the low
byte of the code, SEV, INST, P0 and P1 are open except where R476 and R484 give them (log 18). -/
inductive EvKind where
  /-- R59: a rising edge on WAKE -/
  | wakeEdge
  /-- R86: the start enters a phase -/
  | startPhase
  /-- R87: a start fails -/
  | startFailed
  /-- R88: a course is fenced at start -/
  | courseFenced
  /-- R47: BOOT_SEL 0b11 treated as 0b00 -/
  | strapFault
  /-- R56: PFAIL_N rises during a flush -/
  | pfailRise
  /-- R68: a block stayed ungated -/
  | dozeUngated
  /-- R66: REQ 3 without the key -/
  | standbyKey
  /-- R83: a COURSE reset ends a live reload or a replay -/
  | courseResetEndsReload
  /-- R136: a double fault -/
  | doubleFault
  /-- R160: a second watchdog expiry stops a brick -/
  | watchdogStop
  /-- R467: bricks that a session left halted -/
  | sessionHalted
  /-- R438: a mailbox lock expires -/
  | lockExpiry
  /-- R483: a flush starts -/
  | flushStart
  /-- R483: a flush completes -/
  | flushEnd
  /-- R481: the recorder freezes -/
  | freeze
  /-- R481: the recorder unfreezes -/
  | unfreeze
  /-- R480: the recorder is cleared -/
  | clear
  /-- R491: journal start -/
  | journalStart
  /-- R491: journal stop -/
  | journalStop
  /-- R495: a replay ends -/
  | replayEnd
  /-- R516: a service outcome -/
  | service
  /-- R457: a request dropped, its reply mailbox not the requester's -/
  | badRequest
  /-- R453: a lifecycle transition -/
  | lifecycle
  /-- R467: a debug session starts or ends -/
  | session
  /-- R246: a load outcome -/
  | load
  /-- R255: a step of a live reload -/
  | handover
  /-- R249: a patch outcome -/
  | patch
  /-- R229: a trowel run ends -/
  | trowelEnd
  /-- R511: over-temperature -/
  | overTemperature
  /-- R284: a hold of a port expires -/
  | holdExpired
  /-- R328: a step of a domain -/
  | tdStep
  /-- R328: a domain enters HOLDOVER -/
  | tdHoldover
  /-- R328: LOCKED of a domain changes -/
  | tdLock
  /-- R332: an automatic switch of the active domain, made or refused -/
  | actAuto
  /-- R317: BUF_CE has advanced -/
  | bufCe
  /-- R317: an uncorrectable error names its cell -/
  | bufUe
  /-- R377: the logic side receives no valid frame for 4 µs -/
  | streamLost
  /-- R386: a refused change of FIELD_LIMIT -/
  | fieldLimit
  /-- R402: a worker took no number -/
  | chainFull
  /-- R415: the manager renews before READY -/
  | restoreLate
  /-- R417: a role swap fails -/
  | swapFail
  /-- R439: a mailbox notice from a chain device -/
  | chainNotice
  /-- R410: a record forwarded by a chain device (code 0x0902) -/
  | forwarded
  /-- R87: a keystone fatal fault -/
  | fatal
deriving DecidableEq, Repr

/-- The class byte of an event (R476). -/
def EvKind.cls : EvKind → BitVec 8
  | .wakeEdge => 0x01
  | .startPhase => 0x01
  | .startFailed => 0x01
  | .courseFenced => 0x03
  | .strapFault => 0x01
  | .pfailRise => 0x0C
  | .dozeUngated => 0x01
  | .standbyKey => 0x01
  | .courseResetEndsReload => 0x03
  | .doubleFault => 0x02
  | .watchdogStop => 0x02
  | .sessionHalted => 0x0B
  | .lockExpiry => 0x0A
  | .flushStart => 0x0C
  | .flushEnd => 0x0C
  | .freeze => 0x0C
  | .unfreeze => 0x0C
  | .clear => 0x0C
  | .journalStart => 0x0C
  | .journalStop => 0x0C
  | .replayEnd => 0x0C
  | .service => 0x0B
  | .badRequest => 0x0B
  | .lifecycle => 0x0B
  | .session => 0x0B
  | .load => 0x03
  | .handover => 0x03
  | .patch => 0x03
  | .trowelEnd => 0x03
  | .overTemperature => 0x01
  | .holdExpired => 0x04
  | .tdStep => 0x06
  | .tdHoldover => 0x06
  | .tdLock => 0x06
  | .actAuto => 0x06
  | .bufCe => 0x05
  | .bufUe => 0x05
  | .streamLost => 0x08
  | .fieldLimit => 0x08
  | .chainFull => 0x09
  | .restoreLate => 0x09
  | .swapFail => 0x09
  | .chainNotice => 0x0A
  | .forwarded => 0x09
  | .fatal => 0x01

/-- The low byte of an event's code (R476 leaves it open). -/
opaque Config.eventCode : EvKind → BitVec 8
/-- SEV of an event (R475 leaves it open). -/
opaque Config.eventSev : EvKind → BitVec 2
/-- INST of an event, from what the event is about (R475, R476). -/
opaque Config.eventInst : EvKind → List Nat → BitVec 8
/-- P0 of an event (R475, R476). -/
opaque Config.eventP0 : EvKind → List Nat → BitVec 32
/-- P1 of an event (R475, R476). -/
opaque Config.eventP1 : EvKind → List Nat → BitVec 32

/-- The free value number n (log 1). -/
opaque Config.free : Nat → Nat

/-- SHA-512 of a byte string (FIPS 180-4; R235, R236). -/
opaque Config.sha512 : List Byte → BitVec 512
/-- Whether an ECDSA signature on P-521 verifies: public key, digest, signature r then s (FIPS 186-5; R236). -/
opaque Config.ecdsaVerify : List Byte → BitVec 512 → List Byte → Bool
/-- The ECDSA signature that a private key gives a digest, with a nonce value (FIPS 186-5; R470). -/
opaque Config.ecdsaSign : List Byte → BitVec 512 → Nat → List Byte
/-- The public key of a private key, X then Y (FIPS 186-5; R470). -/
opaque Config.ecdsaPublic : List Byte → List Byte
/-- The Oliaz public key in the boot ROM (R448). -/
opaque Config.oliazKey : List Byte
/-- Word k of the state block of the keyframe at a word index of the journal (R488 gives the block no layout; log 30). -/
opaque Config.keyWord : Nat → Nat → BitVec 64
/-- Number k that the state block of a keyframe read from a host buffer holds (R488 gives the block no layout; log 30). -/
opaque Config.blockWord : List Byte → Nat → Nat

/-- The GPIO ball of tile pin k (4 × tile + pin) under a binding: the binding table has no word for it (R239 to R241; log 35). -/
opaque Config.tileBall : List (BitVec 16) → Nat → BitVec 7

/-- The code that the MODE record gives a wake cause: 0 a reset, 1 a mailbox wake event, 2 DOZE_TIMER, 3 PWR_CTRL.REQ = 2 (R71, R487
leave the codes open; log 38). -/
opaque Config.wakeCode : Nat → BitVec 4

end Sys2Proof
end

