-- ==== Sys2Proof/Machine/Bits.lean ====
section
/-! DEFINITION. Bit-field, byte-order and list helpers, and the sparse maps in canonical form in which the
model holds its memories and its sparse register files. -/

namespace Sys2Proof.Machine

/-- Bits [hi:lo] of a word, as a natural number. -/
def bits {w : Nat} (v : BitVec w) (hi lo : Nat) : Nat := (v.extractLsb' lo (hi + 1 - lo)).toNat

/-- Bit n of a word. -/
def bit {w : Nat} (v : BitVec w) (n : Nat) : Bool := v.getLsbD n

/-- The mask with ones in bits [hi:lo]. -/
def maskOf (w hi lo : Nat) : BitVec w := (BitVec.allOnes w >>> (w - (hi + 1 - lo))) <<< lo

/-- The word with bits [hi:lo] replaced by the low bits of x. -/
def setBits {w : Nat} (v : BitVec w) (hi lo x : Nat) : BitVec w :=
  (v &&& ~~~ maskOf w hi lo) ||| ((BitVec.ofNat w x <<< lo) &&& maskOf w hi lo)

/-- The word with bit n set or cleared. -/
def setBit {w : Nat} (v : BitVec w) (n : Nat) (b : Bool) : BitVec w :=
  if b then v ||| BitVec.twoPow w n else v &&& ~~~ BitVec.twoPow w n

/-- A Boolean as the number 0 or 1. -/
def b2n (b : Bool) : Nat := if b then 1 else 0

/-- Increment that holds at all ones (the saturating counters of the registers). -/
def satInc {w : Nat} (v : BitVec w) : BitVec w := if v = BitVec.allOnes w then v else v + 1

/-- Add n and hold at all ones. -/
def satAdd {w : Nat} (v : BitVec w) (n : Nat) : BitVec w :=
  if v.toNat + n < 2 ^ w then v + BitVec.ofNat w n else BitVec.allOnes w

/-- The number that a list of bytes spells, least significant byte first. -/
def leNat : List Byte → Nat
  | [] => 0
  | b :: bs => b.toNat + 256 * leNat bs

/-- The number that a list of bytes spells, most significant byte first. -/
def beNat (bs : List Byte) : Nat := bs.foldl (fun n b => n * 256 + b.toNat) 0

/-- n bytes of a number, least significant first. -/
def toLe : (n : Nat) → Nat → List Byte
  | 0, _ => []
  | n + 1, v => BitVec.ofNat 8 v :: toLe n (v / 256)

/-- n bytes of a number, most significant first. -/
def toBe (n v : Nat) : List Byte := (toLe n v).reverse

/-- Element n of a list, or d past its end. -/
def nth {α : Type} (l : List α) (n : Nat) (d : α) : α := (l[n]?).getD d

/-- The list with element n replaced. -/
def setNth {α : Type} (l : List α) (n : Nat) (v : α) : List α := l.set n v

/-- The first element that satisfies p together with the list without it. -/
def takeFirst {α : Type} (p : α → Bool) : List α → Option (α × List α)
  | [] => none
  | x :: xs =>
    if p x then some (x, xs)
    else match takeFirst p xs with
      | some (y, ys) => some (y, x :: ys)
      | none => none

/-! ### Sparse maps

A sparse map is a list of (address, value) pairs with strictly rising addresses and no entry equal to what an
unlisted address reads as; `d a` is what the unlisted address a reads as. -/

/-- What address a reads as. -/
def Sparse.read {α : Type} (d : Nat → α) : List (Nat × α) → Nat → α
  | [], a => d a
  | (b, v) :: m, a => if b = a then v else Sparse.read d m a

/-- The map without address a. -/
def Sparse.erase {α : Type} : List (Nat × α) → Nat → List (Nat × α)
  | [], _ => []
  | (b, v) :: m, a => if b = a then m else (b, v) :: Sparse.erase m a

/-- The map with v listed at address a. -/
def Sparse.insert {α : Type} : List (Nat × α) → Nat → α → List (Nat × α)
  | [], a, v => [(a, v)]
  | (b, w) :: m, a, v =>
    if a < b then (a, v) :: (b, w) :: m
    else if a = b then (a, v) :: m
    else (b, w) :: Sparse.insert m a v

/-- A write: the value an unlisted address reads as removes the entry. -/
def Sparse.write {α : Type} [DecidableEq α] (d : Nat → α) (m : List (Nat × α)) (a : Nat) (v : α) :
    List (Nat × α) :=
  if v = d a then Sparse.erase m a else Sparse.insert m a v

/-- The canonical form, above a bound on the addresses. -/
def Sparse.wfFrom {α : Type} [DecidableEq α] (d : Nat → α) : Nat → List (Nat × α) → Bool
  | _, [] => true
  | n, (b, v) :: m => decide (n ≤ b) && (decide (v ≠ d b) && Sparse.wfFrom d (b + 1) m)

/-- The canonical form of a sparse map. -/
def Sparse.wf {α : Type} [DecidableEq α] (d : Nat → α) (m : List (Nat × α)) : Bool := Sparse.wfFrom d 0 m

/-! ### Byte memories -/

/-- A memory: bytes by address (Host.Cell), in the canonical form of sparse maps. -/
abbrev Memory := List (Nat × Byte)

/-- The canonical form of a memory whose unlisted bytes read as `d`. -/
def Memory.wf (d : Nat → Byte) (m : Memory) : Bool := Sparse.wf d m

/-- Erased flash reads as ones (log 8). -/
def flashBlank (_ : Nat) : Byte := 0xFF

/-- Host memory that nothing has written reads as zero (log 10). -/
def hostBlank (_ : Nat) : Byte := 0

/-- The background that the start-up march test leaves in a bank or an instruction memory: 0x00FF in each
word, low byte first (R521, R23; log 11). -/
def bankBlank (a : Nat) : Byte := if a % 2 = 0 then 0xFF else 0x00

/-- n bytes from address a on. -/
def Memory.readBytes (d : Nat → Byte) (m : Memory) (a : Nat) : (n : Nat) → List Byte
  | 0 => []
  | n + 1 => Sparse.read d m a :: Memory.readBytes d m (a + 1) n

/-- Write a list of bytes from address a on. -/
def Memory.writeBytes (d : Nat → Byte) (m : Memory) (a : Nat) : List Byte → Memory
  | [] => m
  | b :: bs => Memory.writeBytes d (Sparse.write d m a b) (a + 1) bs

/-- Word w of a bank or an instruction memory (R23). -/
def Memory.word (m : Memory) (w : Nat) : Word :=
  Sparse.read bankBlank m (2 * w + 1) ++ Sparse.read bankBlank m (2 * w)

/-- Write word w of a bank or an instruction memory (R23). -/
def Memory.setWord (m : Memory) (w : Nat) (v : Word) : Memory :=
  Sparse.write bankBlank (Sparse.write bankBlank m (2 * w) (v.extractLsb' 0 8)) (2 * w + 1) (v.extractLsb' 8 8)

/-- Write words from word address w on, wrapping modulo n words. -/
def Memory.setWords (m : Memory) (n w : Nat) : List Word → Memory
  | [] => m
  | v :: vs => Memory.setWords (Memory.setWord m (w % n) v) n (w + 1) vs

/-- k words from word address w on, wrapping modulo n words. -/
def Memory.words (m : Memory) (n w : Nat) : (k : Nat) → List Word
  | 0 => []
  | k + 1 => Memory.word m (w % n) :: Memory.words m n (w + 1) k

end Sys2Proof.Machine
end

