-- ==== Sys2Proof/Machine/State.lean ====
section
/-! DEFINITION. The state of the LZ9264 as plain data, block by block, and its value at reset; the faults and
refusals. Structures of one block stand together, each with its reset value. -/

namespace Sys2Proof.Machine

/-! ### Power, reset, start, pins (02, 03) -/

/-- What supplies the device (R64): all rails, VAON alone, or nothing. -/
inductive Supply where
  | on | standby | off
deriving DecidableEq, Repr

/-- START_STATUS.PHASE (R84). -/
inductive Phase where
  | rom | keystoneLoad | clocks | trowel | courseLoad | ports | running | footing
deriving DecidableEq, Repr

/-- The start record in flash (R86). -/
structure StartRecord where
  count : Nat
  phase : BitVec 4
  code  : BitVec 8
  param : Reg32
  number : Reg32
deriving DecidableEq, Repr

/-- The doze machinery (R66 to R70): blocks that a request still waits for, its time, gated CAN controllers
and ports, and the end of DOZE_TIMER. Gated courses are in `Course.gatedAt`. -/
structure Doze where
  waitCourses : BitVec 13
  waitCans    : BitVec 8
  since       : Nat
  cans  : BitVec 8
  ports : BitVec 32
  timerEnd : Option Nat
deriving DecidableEq, Repr

/-- The wake settings of a CAN controller in the wake domain (R373): WAKE_EN, WAKE_MODE, and the IDE, identifier and mask of the
wake frame. -/
structure WakeCfg where
  en    : Bool
  frame : Bool
  ide   : Bool
  id    : BitVec 29
  mask  : BitVec 29
deriving DecidableEq, Repr

/-- Supply, resets, the start sequence and the wake domain (R64 to R92). -/
structure Power where
  supply : Supply
  /-- Some rail has left its range since the last time the recorder SRAM was good (R80, R478). -/
  sramLost : Bool
  /-- RST_N is low (R43). -/
  rstLow : Bool
  tap    : TapInstr
  phase  : Phase
  /-- START_STATUS.CAUSE. -/
  cause  : BitVec 4
  startCount : BitVec 4
  fwSrc    : Bool
  fallback : Bool
  strapFault : Bool
  calDefault : Bool
  degraded : Bool
  bootSel  : BitVec 2
  /-- The keystone waits for firmware over PCIe, since this tick (R85). -/
  pcieWait : Option Nat
  /-- A cause has been recorded for the failure of the start in progress (R91). -/
  failRecorded : Bool
  /-- FAULT_N is asserted (R43, R87). -/
  fault  : Bool
  stbyReady : Bool
  /-- The STANDBY sequence of R72 runs. -/
  stbySeq   : Bool
  /-- WAKE_SRC (R75) and the wake settings of CAN0 to CAN7 copied at step 6 of R72. -/
  wakeSrc : Reg32
  wakeCfg : List WakeCfg
  /-- The WAKE pin is high. -/
  wakePin : Bool
  doze   : Doze
  /-- The tick at which the readings above 125 °C began (R511). -/
  hotFrom : Option Nat
  /-- The calibration page as phase CLOCKS read it (R84, R499). -/
  calPage : List Byte
  startRec : StartRecord
  /-- LC_STATUS as the boot ROM loaded it in phase ROM (R469). -/
  lcStatus : Reg32
deriving DecidableEq, Repr

def Doze.reset : Doze := { waitCourses := 0, waitCans := 0, since := 0, cans := 0, ports := 0, timerEnd := none }

def StartRecord.blank : StartRecord := { count := 0, phase := 0, code := 0, param := 0, number := 0 }

/-- The device as RST_N holds it in its first start (R43, R84; logs 3, 6 and 7). -/
def Power.reset : Power :=
  { supply := .on, sramLost := true, rstLow := true, tap := .idcode, phase := .rom, cause := 0, startCount := 0,
    fwSrc := false, fallback := false, strapFault := false, calDefault := false, degraded := false, bootSel := 0,
    pcieWait := none, failRecorded := false, fault := true, stbyReady := false, stbySeq := false, wakeSrc := 0,
    wakeCfg := [], wakePin := false, doze := .reset, hotFrom := none, calPage := [], startRec := .blank, lcStatus := 0 }

/-- The pins that carry a level of their own (R43, R48, R52, R54). -/
structure Pins where
  pfailLow : Bool
  vhold    : Bool
  leaseIn  : Bool
  leaseOut : Bool
  /-- Levels of BYP_A_EN and BYP_B_EN, and the tick from which each may rise again (R48). -/
  bypA : Bool
  bypB : Bool
  bypALow : Nat
  bypBLow : Nat
  ppsOut : Bool
  /-- The PCIe link of the host port is up (R256). -/
  pcieUp : Bool
deriving DecidableEq, Repr

def Pins.reset : Pins :=
  { pfailLow := false, vhold := true, leaseIn := false, leaseOut := false, bypA := false, bypB := false, bypALow := 0,
    bypBLow := 0, ppsOut := false, pcieUp := false }

/-! ### Bricks (04, 05) -/

/-- BRK_STATUS.STATE (R171). -/
inductive BrickRun where
  | idle | running | waiting | halted | stopped
deriving DecidableEq, Repr

/-- The watchdog of a brick (R158 to R161). `left` cycles remained at root time `since`; it counts while the
brick runs or waits. -/
structure Watchdog where
  period  : BitVec 15
  lock    : Bool
  left    : Nat
  since   : Nat
  pending : Bool
  /-- A watchdog trap has been taken and no kick has followed (R160). -/
  trapped : Bool
deriving DecidableEq, Repr

/-- INJ_WORDS, INJ_CTRL and INJ_CYCLE (R162 to R165, R171). -/
structure Injection where
  words  : Reg32
  busy   : Bool
  result : BitVec 4
  cycle  : Nat
deriving DecidableEq, Repr

/-- A compare armed by a write of TIME_CMP2 (R518): the domain that TIME_SEL named and the compare time. -/
structure ArmedCompare where
  sel : BitVec 2
  ns  : Nat
  sec : Nat
deriving DecidableEq, Repr

/-- A transmit segment: FM_TXA, FM_TXB and FM_TXC (R215, R222). -/
structure TxSeg where
  addr : Word
  b    : Word
deriving DecidableEq, Repr

/-- The frame-mover queues of a brick (R215 to R223). -/
structure FmQueue where
  rxa   : Word
  txa   : Word
  txb   : Word
  /-- Receive buffers handed over, oldest first: address and FM_RXL. -/
  bufs  : List (Word × Word)
  /-- Receive completions, oldest first: buffer address and FM_RXC1. -/
  rxc   : List (Word × Word)
  rxc1  : Word
  /-- Segments pushed since the last LAST, oldest first. -/
  segs  : List TxSeg
  /-- Transmit completions, oldest first. -/
  txc   : List Word
  stat  : BitVec 4
  nobuf : Word
  /-- What FM_NOBUF held when it was last read (R7). -/
  nobufShadow : Word
  seqno : BitVec 8
deriving DecidableEq, Repr

/-- The private I/O registers of a brick (R156, R157, R173, R518). -/
structure BrickIo where
  /-- TIME_W0 to TIME_W5 as latched, W0 in the low word. -/
  timeLatch : BitVec 96
  timeSel   : BitVec 2
  cmp0 : Word
  cmp1 : Word
  cmp2 : Word
  armed : Option ArmedCompare
  /-- CONF_HI(m) as latched. -/
  confHi : Vector Word 8
  /-- The latched event lines at their bits 11 to 15 (R157). -/
  events : Word
  /-- The level lines as the journal last recorded them (R487). -/
  levels : Word
deriving DecidableEq, Repr

/-- A brick: the architectural state of R93, its instruction memory and prefetch (R96, R144), its place in
time, and what R157 to R172 add. -/
structure Brick where
  g      : Vector Word 16
  pc     : Word
  /-- The return stack, entry 0 (the oldest) first; its length is RSD (R119, R171). -/
  rstk   : List Word
  repc   : Word
  tpc    : Word
  tcause : Word
  tinfo  : Word
  trepc  : Word
  trep   : Bool
  inTrap : Bool
  /-- The instruction at the PC is being repeated (R124). -/
  inRep  : Bool
  /-- CYCHI and CYCMID as latched by a read of CYCLO (R121). -/
  cycLatch : BitVec 32
  imem   : Memory
  /-- Words from the PC on that FE has read: the instruction in DE and the prefetch buffer (R144, R145). -/
  pre    : List Word
  /-- The root time up to which FE has filled the buffer. -/
  feAt   : Nat
  /-- The root time at which the next instruction issues (R104). -/
  ready  : Nat
  run    : BrickRun
  stopCause : BitVec 2
  waitD    : BitVec 4
  waitMask : Word
  haltReq  : Bool
  stopReq  : Bool
  /-- BRK_CTRL.RUN and BRK_CTRL.BKPT_HALT (R171). -/
  runBit   : Bool
  bkptHalt : Bool
  wd  : Watchdog
  inj : Injection
  io  : BrickIo
  fm  : FmQueue
deriving DecidableEq, Repr

def Watchdog.reset : Watchdog :=
  { period := 0, lock := false, left := 0, since := 0, pending := false, trapped := false }

def Injection.reset : Injection := { words := 0, busy := false, result := 0, cycle := 0 }

def FmQueue.reset : FmQueue :=
  { rxa := 0, txa := 0, txb := 0, bufs := [], rxc := [], rxc1 := 0, segs := [], txc := [], stat := 0, nobuf := 0,
    nobufShadow := 0, seqno := 0 }

def BrickIo.reset : BrickIo :=
  { timeLatch := 0, timeSel := 0, cmp0 := 0, cmp1 := 0, cmp2 := 0, armed := none, confHi := Vector.replicate 8 0,
    events := 0, levels := 0 }

/-- A brick after a DEVICE reset (R94, R171, R173). -/
def Brick.reset : Brick :=
  { g := Vector.replicate 16 0, pc := 0, rstk := [], repc := 0, tpc := 0, tcause := 0, tinfo := 0, trepc := 0,
    trep := false, inTrap := false, inRep := false, cycLatch := 0, imem := [], pre := [], feAt := 0, ready := 0,
    run := .idle, stopCause := 0, waitD := 0, waitMask := 0, haltReq := false, stopReq := false, runBit := false,
    bkptHalt := false, wd := .reset, inj := .reset, io := .reset, fm := .reset }

/-! ### Tiles (06) -/

/-- TILE_STATUS.STATE (R201). -/
inductive TileRun where
  | reset | stopped | running | waiting | stalledTx | stalledRx
deriving DecidableEq, Repr

/-- A tile FIFO (R192, R193, R196). Each element is a bank that the writer has passed on, with the root time
from which the reader sees it; in native mode a bank is one word. `freed` holds the root times at which stages
or banks freed by the reader become visible to the writer. -/
structure TileFifo where
  banks : List (List Word × Nat)
  /-- The words in the bank that the writer fills (compatibility mode only). -/
  part  : List Word
  freed : List Nat
  /-- The last word popped. -/
  last  : Word
deriving DecidableEq, Repr

/-- The tile instruction in progress over more than one event (R184, R186, R189). -/
inductive TileOp where
  | waitp (kind : BitVec 3) (pin : BitVec 2)
  /-- HOLD: tile cycles left from the tile edge `edge` on. -/
  | hold (left : Nat)
  /-- SHF: its mode, and whether an automatic put of the bit just shifted still waits for room (R189). -/
  | shf (mode : BitVec 2) (putWaits : Bool)
  | get (half : Bool)
  | put (half endFlag : Bool)
deriving DecidableEq, Repr

/-- A tile (R175) with its registers (R198, R199). -/
structure Tile where
  prog : Vector Word 32
  pc   : BitVec 5
  sr   : BitVec 32
  c0   : Word
  c1   : Word
  scnt : Word
  ob   : Nat
  ib   : Nat
  lvl  : BitVec 4
  dir  : BitVec 4
  /-- The step in force, the step that a write of TILE_STEP_HI has formed, and the two registers (R177). -/
  step     : Nat
  stepNext : Nat
  stepLo   : Word
  stepHi   : BitVec 8
  /-- The accumulator as it stands at the root time `edge`, at which the next tile cycle begins (R176). -/
  acc  : Nat
  edge : Nat
  tx   : TileFifo
  rx   : TileFifo
  txLast : Word
  run  : TileRun
  cur  : Option TileOp
  /-- The end of the two clk_periph cycles of a TILE reset (R207). -/
  holdEnd : Option Nat
  /-- TILE_CTL.RUN, TILE_CTL.COMPAT, and the mode in force (R197). -/
  runBit : Bool
  compatNext : Bool
  compat : Bool
  illegal     : Bool
  partialLost : Bool
  rxOver  : Bool
  txUnder : Bool
  rxUnder : Bool
  txOver  : Bool
  injResult : BitVec 2
  inj   : Option Word
  paddr : BitVec 5
  cfg0  : Word
  cfg1  : Word
  pinmap : Reg32
  /-- The clk_periph cycle of the last write by the brick and the register it wrote, for R200. -/
  brickWrite : Option (Nat × Nat)
deriving DecidableEq, Repr

def TileFifo.reset : TileFifo := { banks := [], part := [], freed := [], last := 0 }

/-- A tile after a DEVICE reset (R198, R201, R207); its program memory is not reset (log 13). -/
def Tile.reset : Tile :=
  { prog := Vector.replicate 32 0, pc := 0, sr := 0, c0 := 0, c1 := 0, scnt := 0, ob := 0, ib := 0, lvl := 0, dir := 0,
    step := 0x800000, stepNext := 0x800000, stepLo := 0, stepHi := 0x80, acc := 0, edge := 0, tx := .reset, rx := .reset,
    txLast := 0, run := .stopped, cur := none, holdEnd := none, runBit := false, compatNext := false, compat := false,
    illegal := false, partialLost := false, rxOver := false, txUnder := false, rxUnder := false, txOver := false,
    injResult := 0, inj := none, paddr := 0, cfg0 := 0, cfg1 := 0, pinmap := 0, brickWrite := none }

/-! ### Mailboxes (15) -/

/-- MB_STATUS.STATE with the lock holder and the time of the grant (R437, R438). -/
inductive MbState where
  | empty
  | locked (holder : Nat) (since : Nat)
  | full
deriving DecidableEq, Repr

/-- A mailbox (R437). Parties are their numbers. -/
structure Mailbox where
  data : Vector Reg32 8
  st   : MbState
  sender : Nat
  epoch  : BitVec 4
  len    : Nat
  crossed   : Bool
  discarded : Bool
  dcount    : BitVec 4
  bell      : Bool
  lockLost  : Bool
  recv      : BitVec 8
  /-- The root time of the post, for the order in which the keystone takes requests (R458). -/
  postedAt  : Nat
deriving DecidableEq, Repr

/-- Mailbox j after a DEVICE reset (R437). -/
def Mailbox.reset (j : Nat) : Mailbox :=
  { data := Vector.replicate 8 0, st := .empty, sender := 0, epoch := 0, len := 0, crossed := false, discarded := false,
    dcount := 0, bell := false, lockLost := false, recv := if j < 16 then 0 else if j < 24 then 1 else 2,
    postedAt := 0 }

/-! ### Plumb (11) -/

/-- TD_STATUS.STATE (R325). -/
inductive TdState where
  | free | acquire | track | holdover
deriving DecidableEq, Repr

/-- A time domain (R321 to R327): at root time `at_` it held `val`, in units of 2^-48 ns, and it advances with RATE.
`servo` is the servo's rate, which the root takes in place of RATE when it follows the domain (R323). -/
structure Domain where
  at_  : Nat
  val  : Nat
  rate : Int
  st   : TdState
  locked : Bool
  far    : Bool
  stepped : Bool
  servo  : Int
  integ  : Int
  /-- The local time of the last accepted sample in 2^-16 ns, and have_prev of R327. -/
  tPrev  : Option Nat
  havePrev : Bool
  /-- Consecutive samples within LOCK_THR. -/
  near   : Nat
  last   : Int
  lastTick : Nat
  stale  : Reg32
  staleShadow : Reg32
deriving DecidableEq, Repr

def Domain.reset : Domain :=
  { at_ := 0, val := 0, rate := 0, st := .free, locked := false, far := false, stepped := false, servo := 0, integ := 0,
    tPrev := none, havePrev := false, near := 0, last := 0, lastTick := 0, stale := 0, staleShadow := 0 }

/-- The active time (R329 to R332): at root time `hAt` the hold offset was `h`, in units of 2^-48 ns. -/
structure ActiveTime where
  sel  : Fin 2
  h    : Int
  hAt  : Nat
  slewing : Bool
  /-- The switch requested: its time in TA, in units of 2^-48 ns, and its domain. -/
  pending : Option (Nat × Fin 2)
  result  : BitVec 4
deriving DecidableEq, Repr

/-- ROOT_STATUS.SOURCE (R323). -/
inductive RootSource where
  | refclk | domain | carrier | holdover
deriving DecidableEq, Repr

/-- The time block of a port code 0 to 35 (R333 to R346). -/
structure PortTime where
  aligned : Bool
  calValid : Bool
  rxDelay : BitVec 24
  txDelay : BitVec 24
  reportDrop : Reg32
  reportDropShadow : Reg32
  urrDelay : Reg32
  urrHops  : BitVec 8
  /-- TIME exchanges since the last sample, the sums of 2x in each domain and of 2d, and the time of the last one (R344). -/
  exchanges : Nat
  sum0 : Int
  sum1 : Int
  sumD : Int
  lastTime : Option Nat
  /-- The peer sets SOURCE_LINK (R418), and t2 and t3 of the last exchange in both domains. -/
  peerSrc : Bool
  stamps  : List Int
deriving DecidableEq, Repr

def PortTime.reset : PortTime :=
  { aligned := true, calValid := false, rxDelay := 0, txDelay := 0, reportDrop := 0, reportDropShadow := 0, urrDelay := 0,
    urrHops := 0xFF, exchanges := 0, sum0 := 0, sum1 := 0, sumD := 0, lastTime := none, peerSrc := false, stamps := [] }

/-- TTO_STATUS.STATE (R347). -/
inductive TtoState where
  | idle | armed | running | done
deriving DecidableEq, Repr

/-- A trigger output (R347, R348): the settings committed (TTO_CTRL, start and period in 2^-48 ns, width, count, ADJ),
and the edges still to come, each with its time in the output's domain and its level. -/
structure Tto where
  ctrl  : Reg32
  start : Nat
  period : Nat
  width  : Nat
  count  : Nat
  adj    : Int
  st     : TtoState
  late   : Bool
  skipped : Bool
  bad     : Bool
  level   : Bool
  pulses  : Word
  edges   : List (Nat × Bool)
  /-- The number of the next pulse of a periodic schedule. -/
  nextK   : Nat
  /-- The root time of the last edge, and the scheduled time of the last edge produced. -/
  lastRoot : Option Nat
deriving DecidableEq, Repr

def Tto.reset : Tto :=
  { ctrl := 0, start := 0, period := 0, width := 0, count := 0, adj := 0, st := .idle, late := false, skipped := false,
    bad := false, level := false, pulses := 0, edges := [], nextK := 0, lastRoot := none }

/-- A capture input or PPS_IN (R349): stamps are (TD0, TD1) as the 96-bit values of R319. -/
structure Tcap where
  fifo  : List (BitVec 96 × BitVec 96)
  /-- TCAP_TS as latched by the last pop; in the PPS block the stamps of the last edge. -/
  latch : BitVec 96 × BitVec 96
  level : Bool
  overs : BitVec 8
  drop  : BitVec 8
  /-- TCAP_STATUS's RC fields as last read (R7): OVER and DROP. -/
  shadow : Word
  missed : BitVec 8
  seqno  : Word
  lastRoot : Option Nat
deriving DecidableEq, Repr

def Tcap.reset : Tcap :=
  { fifo := [], latch := (0, 0), level := false, overs := 0, drop := 0, shadow := 0, missed := 0, seqno := 0, lastRoot := none }

/-- Plumb (R319 to R349). -/
structure Plumb where
  dom : Vector Domain 2
  /-- TD0 at the start of the present management tick (R11, R516). -/
  tickTd0 : Nat
  act  : ActiveTime
  /-- The pull in ppb and its source (R323). -/
  pull : Int
  source : RootSource
  /-- The time source port (R345). -/
  srcPort : Option (Fin 4)
  /-- Time quads committed by a write of +0xC, and latched by a read of +0x0 per quad and requester code (R320). -/
  quads   : List (Nat × BitVec 96)
  latches : List (Nat × BitVec 96)
  ports : Vector PortTime 36
  ttos  : Vector Tto 32
  tcaps : Vector Tcap 16
  pps   : Tcap
  /-- The whole second of TA at which PPS_OUT last rose, in 2^-48 ns. -/
  ppsRise : Option Nat
  /-- The next TIME exchange (R344). -/
  nextTime : Nat
deriving DecidableEq, Repr

/-- Plumb at the release of a DEVICE reset (R321, R328 to R349; log 15). -/
def Plumb.reset : Plumb :=
  { dom := Vector.replicate 2 .reset, tickTd0 := 0,
    act := { sel := 0, h := 0, hAt := 0, slewing := false, pending := none, result := 0 }, pull := 0, source := .refclk,
    srcPort := none, quads := [], latches := [], ports := Vector.replicate 36 .reset, ttos := Vector.replicate 32 .reset,
    tcaps := Vector.replicate 16 .reset, pps := .reset, ppsRise := none, nextTime := 131072 }

/-! ### The event recorder (17) -/

/-- A recorder record (R475); `dirty`: added or changed since the last completed flush (R483). -/
structure RecEntry where
  seq  : Reg32
  code : BitVec 16
  sev  : BitVec 2
  inst : BitVec 8
  rpt  : BitVec 16
  party : BitVec 8
  tv   : Bool
  tick : Reg32
  tns  : Reg32
  tsec : Reg32
  p0   : Reg32
  p1   : Reg32
  dirty : Bool
deriving DecidableEq, Repr

/-- A flush block in the flash region of R484: cause, start count, records, and whether its end marker stands. -/
structure FlushBlock where
  cause : Nat
  starts : Reg32
  recs  : List RecEntry
  ended : Bool
  /-- A start has reported that the end marker is missing (R484). -/
  reported : Bool
deriving DecidableEq, Repr

/-- The recorder in the flush domain (R474 to R485). -/
structure Recorder where
  /-- The ring, newest first. -/
  recs   : List RecEntry
  next   : Reg32
  oldest : Reg32
  /-- The side queue, oldest first, and the tick at which FREEZE was set (R481). -/
  side   : List RecEntry
  frozen : Option Nat
  lost   : Reg32
  lostShadow : Reg32
  /-- A CLEAR written while a flush runs (R480). -/
  clearPending : Bool
  flushState : BitVec 2
  /-- The flush block being programmed (R483). -/
  flushing : Option FlushBlock
  /-- The flush blocks in flash, newest first. -/
  blocks : List FlushBlock
  /-- REC_CFG (R485). -/
  cfg : Reg32
deriving DecidableEq, Repr

def Recorder.reset : Recorder :=
  { recs := [], next := 0, oldest := 0, side := [], frozen := none, lost := 0, lostShadow := 0, clearPending := false,
    flushState := 0, flushing := none, blocks := [], cfg := 0x32 }

/-! ### The journal and replay (17) -/

/-- What a keyframe holds of a course (R488): the bank, the bricks with their instruction memories and queues, the tiles, the
conflict counters, the digests, and the root time of the course's cycle 0 when it was taken. -/
structure KeySnap where
  bank   : Memory
  bricks : List Brick
  tiles  : List Tile
  conf   : Vector Reg32 8
  digests : List (BitVec 512)
  base   : Nat
deriving DecidableEq, Repr

/-- A journal record (R487); `cyc` is the course cycle at which the course took the input. -/
inductive JRec where
  | iord (b : Fin 4) (addr : BitVec 12) (v : Word) (cyc : Nat)
  | evline (b : Fin 4) (line : Nat) (level : Bool) (cyc : Nat)
  | time (b : Fin 4) (w : BitVec 96) (cyc : Nat)
  | fmburst (tx : Bool) (addr : Word) (words : List Word) (count : Nat) (cyc : Nat)
  | fmcomp (b : Fin 4) (queue : Nat) (w0 w1 : Word) (cyc : Nat)
  | dbgw (imem : Bool) (b : Fin 4) (addr data : Word) (cyc : Nat)
  | inj (unit : Nat) (words : Reg32) (cyc : Nat)
  | dbg (b : Fin 4) (what : BitVec 4) (w : BitVec 64) (cyc : Nat)
  | mode (m : BitVec 2) (gated : Bool) (wake : BitVec 4) (cyc : Nat)
  | out (b : Fin 4) (addr : BitVec 12) (v : Word) (cyc : Nat)
  | mark (b : Fin 4) (v : Word) (cyc : Nat)
  | sync (cyc : Nat) (tns tsec : Reg32) (tick : Nat)
  | keyframe (cyc : Nat) (k : KeySnap)
  | gap (cyc : Nat) (lost : Nat)
  | fin (cyc : Nat) (cause : BitVec 4)
deriving DecidableEq, Repr

/-- A record in the SRAM: the word index of its header, counted from the start of the run, and its DELTA. -/
structure JEntry where
  what  : JRec
  at_   : Nat
  delta : Nat
deriving DecidableEq, Repr

/-- JRN_STATUS.STATE (R492). -/
inductive JrnState where
  | off | recording | post | frozen
deriving DecidableEq, Repr

/-- The journal (R486 to R492). -/
structure Journal where
  /-- The records of which the SRAM still holds a word, oldest first. -/
  recs  : List JEntry
  st    : JrnState
  wptr  : Nat
  kf    : Nat
  trig  : Nat
  gap   : Bool
  /-- Records lost and not yet marked by a GAP record, with the cycle of the first (R489). -/
  lost  : Nat
  lostAt : Nat
  /-- The tick at which recording stops after a trigger. -/
  postEnd : Nat
  /-- Words not yet copied to the spill ring. -/
  unspilled : Nat
  lastCyc   : Nat
  sinceSync : Nat
  /-- The tick of the last keyframe taken or skipped, and the end of the one being written. -/
  kfTick : Nat
  kfBusyUntil : Nat
  cfg   : Reg32
  mark  : Word
  page  : BitVec 4
  /-- What a word that no record covers holds, when a march test has left it (R521). -/
  fill  : Option (BitVec 64)
deriving DecidableEq, Repr

def Journal.reset : Journal :=
  { recs := [], st := .off, wptr := 0, kf := 0, trig := 0, gap := false, lost := 0, lostAt := 0, postEnd := 0,
    unspilled := 0, lastCyc := 0, sinceSync := 0, kfTick := 0, kfBusyUntil := 0, cfg := 0x00643D05, mark := 0xFFFF,
    page := 0, fill := none }

/-- JT_STATUS.STATE (R495). -/
inductive ReplayState where
  | idle | loading | running | done | diverged | aborted
deriving DecidableEq, Repr

/-- The replay of a course (R493 to R495). -/
structure Replay where
  st     : ReplayState
  course : Fin 13
  /-- The records still to be presented, oldest first. -/
  feed   : List JRec
  /-- The cycle of the keyframe. -/
  start  : Nat
  index  : Nat
  starved : Bool
  starving : Bool
  brick  : BitVec 2
  cause  : BitVec 2
  cycle  : Nat
deriving DecidableEq, Repr

def Replay.reset : Replay :=
  { st := .idle, course := 0, feed := [], start := 0, index := 0, starved := false, starving := false, brick := 0,
    cause := 0, cycle := 0 }

/-! ### Courses, images, live reload (07, 08) -/

/-- Where a frame came from and what travels with it (R29, R30, R220). -/
structure FrameMeta where
  ingress : PortCode
  cls     : Fin 8
  /-- The error marker (R29). -/
  err     : Bool
  tsValid : Bool
  td      : Bool
  /-- The ingress timestamp: the six words of R220, the fraction lowest. -/
  ts      : BitVec 96
deriving DecidableEq, Repr

/-- A frame that the mortar has staged for the frame mover (R225, R520). -/
structure RxFrame where
  bytes : List Byte
  info  : FrameMeta
  /-- Bytes staged so far, bytes written into the bank so far, and whether the frame found no buffer (R218). -/
  staged  : Nat
  /-- The root time at which the last cell staged is complete. -/
  at_     : Nat
  written : Nat
  dropped : Bool
  /-- Brick and buffer taken at the first burst: address, length in words, lane. -/
  buf : Option (Fin 4 × Word × Nat × Bool)
deriving DecidableEq, Repr

/-- A transmit frame whose LAST segment has been pushed (R222, R223). -/
structure TxFrame where
  brick : Fin 4
  seqno : BitVec 8
  segs  : List TxSeg
  /-- FM_TXC of the LAST segment. -/
  ctl   : Word
  dropped : Bool
  /-- Bytes read from the bank so far, and the identity that the mortar gave the frame at its first burst. -/
  got   : List Byte
  id    : Option Nat
deriving DecidableEq, Repr

/-- A boundary named by a service (R12, R462): a cycle of a course, or a time of a domain. -/
inductive Boundary where
  | cycle (c : Fin 13) (n : Nat)
  | time (d : Fin 2) (sec ns : Nat)
deriving DecidableEq, Repr

/-- A trowel run in progress (R226 to R231), with the request to answer at its end. -/
structure TrowelRun where
  target : BitVec 2
  preserving : Bool
  bg     : BitVec 5
  alg    : BitVec 3
  endsAt : Nat
  /-- A COURSE reset waits for the end of the segment (R230). -/
  abort  : Bool
  req    : Option SvcReq
deriving DecidableEq, Repr

/-- A switch fragment record (R243). -/
structure FragRec where
  cls   : Nat
  index : Nat
  off   : Nat
  value : Reg32
deriving DecidableEq, Repr

/-- What an attestation entry says of an image (R234, R236, R470). -/
structure ImageId where
  kind    : Nat
  svn     : Nat
  network : Nat
  version : Reg32
  digest  : BitVec 512
deriving DecidableEq, Repr

/-- The image loaded in a course (R238 to R247, R456). -/
structure LoadedImage where
  id        : ImageId
  /-- RESOURCES, 64 bytes (R239), and HANDOVER, 32 bytes (R250). -/
  resources : List Byte
  handover  : Option (List Byte)
  /-- Patches and stand-alone fragments, in the order of application (R456). -/
  patches   : List ImageId
  /-- The binding table of R240 and the receivers of word 31 of R241. -/
  binding   : List Word
  receivers : Reg32
  gen       : BitVec 4
  /-- The fragment held back until the release (R245). -/
  fragment  : List FragRec
deriving DecidableEq, Repr

/-- A course (R93, R148, R153, R211 to R231). -/
structure Course where
  bank   : Memory
  /-- Root time of cycle 0; it moves on while the course is gated (R121). -/
  base   : Nat
  gatedAt : Option Nat
  mode   : BitVec 2
  conf   : Vector Reg32 8
  image  : Option LoadedImage
  released : Bool
  /-- The release that a LOAD waits for (R247). -/
  release  : Option (Boundary × SvcReq)
  /-- FENCED (R229), and which memory failed: true for the instruction memories. -/
  fenced : Bool
  fencedMem : Bool
  rxmap  : Word
  trwCtrl : Reg32
  trwStatus : Reg32
  trwAddr : Reg32
  trwData : Reg32
  trowel : Option TrowelRun
  fmRx   : List RxFrame
  fmTx   : List TxFrame
  /-- The first cycle in which the frame mover may start a burst (R225). -/
  fmFree : Nat
  /-- The root times at which the cells in transmit staging have entered CPn (R520). -/
  txCells : List Nat
  /-- During a handover, the one port that egress from CPn reaches, and whether what is discarded counts as SHADOW_DROP
  (R252, R253). -/
  egressOnly : Option (PortCode × Bool)
deriving DecidableEq, Repr

/-- Course c after a DEVICE reset: COURSE_MODE 1 until a release (R212), trowel registers as R230. -/
def Course.reset : Course :=
  { bank := [], base := 0, gatedAt := none, mode := 1, conf := Vector.replicate 8 0, image := none, released := false,
    release := none, fenced := false, fencedMem := false, rxmap := 0, trwCtrl := 0x00F90008, trwStatus := 0, trwAddr := 0, trwData := 0,
    trowel := none, fmRx := [], fmTx := [], fmFree := 0, txCells := [], egressOnly := none }

/-- A live reload in progress (R251 to R255). -/
structure Handover where
  live    : Fin 13
  standby : Fin 13
  /-- T: its domain, seconds and nanoseconds. -/
  td      : Fin 2
  sec     : Nat
  ns      : Nat
  acked   : Bool
  shadowReady : Bool
  committed   : Bool
  req     : SvcReq
deriving DecidableEq, Repr

/-! ### The keystone (16) -/

/-- What a service does at its boundary (R462, R463). -/
inductive AtBoundary where
  | patch (c : Fin 13)
  | test (c : Fin 13)
  | testSegment (g : Fin 16)
  | testJournal
  | courseReset (c : Fin 13)
  | doze
  | wake
  | reset (v : Reg32)
  | journalStart
  | journalStop
  | replay
  | portConfig
  | portLoop
  | portReset
deriving DecidableEq, Repr

/-- A service that waits for its boundary, with its request (R458). -/
structure Deferred where
  when_ : Boundary
  act   : AtBoundary
  req   : SvcReq
  /-- PATCH (R249): the inject records left, each with its index; the last record carried out (255: none); an injection that has
  not reported; for a stand-alone fragment its records; and what attestation will list. -/
  recs   : List (Nat × List Byte)
  last   : Nat
  flying : Bool
  frags  : List FragRec
  id     : Option ImageId
deriving DecidableEq, Repr

/-- A debug session (R467): level, scope, signer, and the tick at which it expires. -/
structure Session where
  level : BitVec 2
  scope : BitVec 4
  oliaz : Bool
  endTick : Option Nat
deriving DecidableEq, Repr

/-- The keystone's state (R447 to R473). -/
structure Keystone where
  deferred : List Deferred
  handover : Option Handover
  /-- Keystone firmware running, and the start manifest it loaded from (R470). -/
  firmware : Option ImageId
  manifest : Option ImageId
  /-- The authorisation window, bytes 0x000 to 0x22F (R464). -/
  window   : Memory
  challenge : Bool
  sessionNo : Reg32
  fails     : Nat
  lockoutEnd : Option Nat
  session   : Option Session
  /-- The attestation buffer (R470). -/
  attest  : Memory
  attSeq  : Reg32
  /-- Runs of the buffer trowel and the journal trowel (R318, R496). -/
  bufTest : Option (Fin 16 × Nat × SvcReq)
  jrnTest : Option (Nat × SvcReq)
  /-- The request that a replay answers at its end (R463). -/
  replayReq : Option SvcReq
  /-- Replies that wait for their mailbox to be EMPTY, oldest first (R457; log 34). -/
  replies : List (Fin 32 × List Reg32)
deriving DecidableEq, Repr

def Keystone.reset : Keystone :=
  { deferred := [], handover := none, firmware := none, manifest := none, window := [], challenge := false,
    sessionNo := 0, fails := 0, lockoutEnd := none, session := none, attest := [], attSeq := 0, bufTest := none,
    jrnTest := none, replayReq := none, replies := [] }

/-! ### Ports and the mortar (09, 10) -/

/-- A 64-bit port counter with its shadow and the read that filled it: requester code, tag, tick (R279 to R282). -/
structure Cnt where
  v   : BitVec 64
  sh  : BitVec 64
  req : BitVec 8
  tag : BitVec 10
  tick : Nat
deriving DecidableEq, Repr

def Cnt.reset : Cnt := { v := 0, sh := 0, req := 0, tag := 0, tick := 0 }

/-- A gate control list with its parameters (R274, R277): base, cycle and extension in ns, entries as gates and interval. -/
structure Gcl where
  en    : Bool
  td    : Fin 2
  base  : Nat
  cycle : Nat
  ext   : Nat
  entries : List (Byte × Nat)
deriving DecidableEq, Repr

/-- A large send (R270): payload bytes of a segment and the length of the header template. -/
structure LargeSend where
  mss  : Nat
  tlen : Nat
deriving DecidableEq, Repr

/-- A frame in the mortar: its bytes from the destination address to the last byte before the FCS as far as they are
known, and how many there will be. -/
structure Frame where
  /-- The MODEL's identity of the stored frame; its copies share it (R287). -/
  id    : Nat
  bytes : List Byte
  total : Nat
  info  : FrameMeta
  lso   : Option LargeSend
  /-- The ring that steering named, for a frame to H (R433). -/
  ring  : Option (Fin 64)
  /-- Root times at which successive cells hold 64 bytes or the frame's last byte, and at which it is stored in full. -/
  cells : List Nat
  full  : Option Nat
  /-- The root time at which the frame has proved longer than MAX_FRAME (R263). -/
  overAt : Option Nat
  /-- Segments of the buffer that hold its cells (R288; log 24). -/
  segs  : BitVec 16
  /-- The brick and sequence number of a course's frame (R306 step 1). -/
  txOf  : Option (Fin 52 × BitVec 8)
deriving DecidableEq, Repr

/-- A copy of a frame in VOQ(input, out, cls) or on its way there (R289). -/
structure QEntry where
  frame : Frame
  out   : PortCode
  cls   : Fin 8
  input : PortCode
  /-- The flow context that released the copy. -/
  fc    : Option (Fin 256)
  /-- Cut-through is allowed (R291). -/
  ct    : Bool
  /-- Cells charged at admission (R300). -/
  charge : Nat
  sent  : Nat
deriving DecidableEq, Repr

/-- A launch-list entry (R302): the launch time in 2^-48 ns of its domain, and whether it has been counted late. -/
structure Launch where
  l    : Nat
  td   : Fin 2
  fc   : Fin 256
  late : Bool
  e    : QEntry
deriving DecidableEq, Repr

/-- Counters and PEAK of a switch queue (R314). -/
structure QCount where
  peak : BitVec 18
  peakShadow : BitVec 18
  enq  : Reg32
  marked : Reg32
  noect  : Reg32
  tailDrop : Reg32
  eccErr : Reg32
deriving DecidableEq, Repr

def QCount.reset : QCount :=
  { peak := 0, peakShadow := 0, enq := 0, marked := 0, noect := 0, tailDrop := 0, eccErr := 0 }

/-- A port of the mortar with its MAC (09) and its output (10). -/
structure Port where
  up   : Bool
  sync : Bool
  rate : BitVec 3
  anDone  : Bool
  /-- The end of the running hold (R283, R515). -/
  holdEnd : Option Nat
  expired : Bool
  /-- Frames switched to the port are dropped on arrival (R284, R515). -/
  dropping : Bool
  cnt  : Vector Cnt 32
  /-- Staged filter words by their offset in the block (R267). -/
  fltStaged : List (Nat × Reg32)
  oper : Option Gcl
  /-- The pending commit and its change time in ns; GCL_CTRL.STATE and GCL_CT (R277). -/
  pend : Option (Gcl × Nat)
  gclState : BitVec 2
  ct   : Nat
  /-- The gate states last entered. -/
  gates : Byte
  /-- The frame in progress at the output. -/
  cur  : Option QEntry
  /-- Leave times of the cells in the transmit FIFO (R293). -/
  fifo : List Nat
  prevEnd : Nat
  /-- Frames selected or locked that have not started on the line, with S (R295). -/
  starting : List (QEntry × Nat)
  /-- The frame on the line and its end. -/
  onLine : Option (QEntry × Nat)
  launch : List Launch
  gp   : Vector (Fin 50) 8
  ap   : Fin 50
  q    : Vector QCount 8
deriving DecidableEq, Repr

/-- A port at the release of a DEVICE reset: down, nothing queued (R292, R515). -/
def Port.reset : Port :=
  { up := false, sync := false, rate := 0, anDone := false, holdEnd := none, expired := false, dropping := true,
    cnt := Vector.replicate 32 .reset, fltStaged := [], oper := none, pend := none, gclState := 0, ct := 0, gates := 0xFF,
    cur := none, fifo := [], prevEnd := 0, starting := [], onLine := none, launch := [], gp := Vector.replicate 8 0, ap := 0,
    q := Vector.replicate 8 .reset }

/-- A flow context (R305 to R315). -/
structure FlowCtx where
  /-- Tokens with 16 fraction bits as they stood at `tokAt` (R307). -/
  tokens : Nat
  tokAt  : Nat
  /-- FC_LNEXT in 2^-48 ns (R310). -/
  lnext  : Nat
  seqGen : Word
  takeAny : Bool
  rseq   : Word
  /-- The recovery history, bit 0 the sequence number `rseq` (R308). -/
  hist   : BitVec 32
  lastAt : Nat
  cnt    : Vector Reg32 17
  /-- Frames on their way to the context, with the class they came with, and whether a filter entry sent them. -/
  waiting : List (Frame × Fin 8 × Bool)
deriving DecidableEq, Repr

/-- A flow context at reset (R308, R315; log 14). -/
def FlowCtx.reset : FlowCtx :=
  { tokens := 0, tokAt := 0, lnext := 0, seqGen := 0, takeAny := true, rseq := 0xFFFF, hist := 0, lastAt := 0,
    cnt := Vector.replicate 17 0, waiting := [] }

/-- The switch core (R286 to R318). -/
structure Mortar where
  nextId : Nat
  /-- Copies not yet admitted, and admitted copies of all VOQs in the order of admission. -/
  arriving : List QEntry
  queue    : List QEntry
  /-- Frames read out to H, oldest first, for HOST_RX_DELIVERY (R433). -/
  toHost   : List QEntry
  failed   : BitVec 16
  ce  : Reg32
  ceTick : Reg32
  ue  : Reg32
  ueAddr : BitVec 18
  quar : List (BitVec 18)
deriving DecidableEq, Repr

def Mortar.reset : Mortar :=
  { nextId := 0, arriving := [], queue := [], toHost := [], failed := 0, ce := 0, ceTick := 0, ue := 0, ueAddr := 0, quar := [] }

/-- A frame that has left on a P port's line: port, bytes before the FCS, whether the FCS is inverted, whether it was
cut, its identity, and its egress stamp (R264, R283, R333). -/
structure LineFrame where
  port  : PortCode
  bytes : List Byte
  err   : Bool
  cut   : Bool
  id    : Nat
  stamp : BitVec 96
deriving DecidableEq, Repr

/-! ### CAN controllers (12) -/

/-- CAN_STATUS.STATE (R356). -/
inductive CanRun where
  | init | on | sleep | busOff
deriving DecidableEq, Repr

/-- A message object (R354 to R357). Data byte k is bits [8k+7:8k]. -/
structure CanObj where
  cfg   : Reg32
  mode  : BitVec 3
  fmt   : Byte
  data  : BitVec 512
  stamp : Reg32
  seq   : BitVec 4
  missed  : Bool
  txdone  : Bool
  stopped : Bool
  nullrx  : Bool
  ready   : Bool
  lost    : Bool
  new_    : Bool
  /-- The format word and data that the object last sent (R416). -/
  last : Option (Byte × BitVec 512)
deriving DecidableEq, Repr

def CanObj.reset : CanObj :=
  { cfg := 0, mode := 0, fmt := 0, data := 0, stamp := 0, seq := 0, missed := false, txdone := false, stopped := false,
    nullrx := false, ready := false, lost := false, new_ := false, last := none }

/-- The transmit buffer (R356): the object, the frame, the stamp of its start of frame once on the bus, and whether it is
sent only once (R364). -/
structure CanTx where
  obj   : Fin 64
  fmt   : Byte
  data  : BitVec 512
  start : Option Reg32
  once  : Bool
  /-- The frame stands in for the object's own: a null frame, or in a hold the object's last frame (R369, R416). -/
  stand : Bool
deriving DecidableEq, Repr

/-- TT_STATUS.ROLE (R364). -/
inductive TtRole where
  | off | slave | backup | master
deriving DecidableEq, Repr

/-- The window in force (R369). -/
inductive TtWindow where
  | none
  | excl (m : Fin 64)
  | arb (m : Fin 64)
  | free
deriving DecidableEq, Repr

/-- Time-triggered operation (R364 to R370). -/
structure CanTt where
  role   : TtRole
  level  : BitVec 2
  synced : Bool
  cfgErr : Bool
  cyc    : BitVec 6
  /-- The root time of the start of the basic cycle, and the number of that cycle in a run on a domain (R365). -/
  start  : Nat
  run    : Nat
  /-- TT_TUR as a slave has adjusted it; none: as written. -/
  tur    : Option Reg32
  valid  : Bool
  prio   : BitVec 3
  gtime  : Word
  window : TtWindow
  /-- An S1 cause has been seen in this matrix cycle (R370). -/
  cause1 : Bool
  /-- Objects that have received a frame since the start of the cycle (R369). -/
  seen   : BitVec 64
deriving DecidableEq, Repr

def CanTt.reset : CanTt :=
  { role := .off, level := 0, synced := false, cfgErr := false, cyc := 0, start := 0, run := 0, tur := none, valid := false,
    prio := 0, gtime := 0, window := .none, cause1 := false, seen := 0 }

/-- A snapshot of an object (R358): OBJ_CFG, format, status, stamp, data. -/
structure CanSnap where
  cfg   : Reg32
  fmt   : Byte
  st    : Word
  stamp : Reg32
  data  : BitVec 512
deriving DecidableEq, Repr

/-- A CAN controller (R352 to R374). -/
structure Can where
  st    : CanRun
  /-- CAN_CTRL.ON and SLEEP; an ON = 0 or SLEEP = 1 that waits for the frame in progress. -/
  on    : Bool
  sleep : Bool
  offReq   : Bool
  sleepReq : Bool
  integ  : Bool
  cfgErr : Bool
  /-- Bus-off recovery has started (R362). -/
  recovering : Bool
  tec   : BitVec 9
  rec_  : BitVec 8
  unack : BitVec 8
  alone : Bool
  evt   : Word
  cnt   : Vector Reg32 5
  cntShadow : Vector Reg32 5
  objs  : Vector CanObj 64
  tx    : Option CanTx
  sel   : Fin 64
  snap  : CanSnap
  /-- The staging words of the window: format and data (R356, R358). -/
  stFmt  : Byte
  stData : BitVec 512
  tsch   : Word
  /-- The clk_periph cycle in which the brick of the window last acted on an object, and the object (R353). -/
  brickActs : Option (Nat × Fin 64)
  tt    : CanTt
deriving DecidableEq, Repr

/-- A controller after a DEVICE or CANCTL reset (R374). -/
def Can.reset : Can :=
  { st := .init, on := false, sleep := false, offReq := false, sleepReq := false, integ := false, cfgErr := false,
    recovering := false, tec := 0, rec_ := 0, unack := 0, alone := false, evt := 0, cnt := Vector.replicate 5 0,
    cntShadow := Vector.replicate 5 0, objs := Vector.replicate 64 .reset, tx := none, sel := 0,
    snap := { cfg := 0, fmt := 0, st := 0, stamp := 0, data := 0 }, stFmt := 0, stData := 0, tsch := 0, brickActs := none, tt := .reset }

/-- The anchor of the stamp counter (R360): ANC_CNT, ANC_TD0, ANC_TD1, and the root time of the next one. -/
structure CanAnchor where
  cnt  : Reg32
  td0  : BitVec 96
  td1  : BitVec 96
  next : Nat
deriving DecidableEq, Repr

def CanAnchor.reset : CanAnchor := { cnt := 0, td0 := 0, td1 := 0, next := 4096000 }

/-- A frame that a controller has begun to send: controller, identifier word as OBJ_CFG [29:0], format, data, stamp. -/
structure CanSent where
  n    : Fin 8
  id   : BitVec 30
  fmt  : Byte
  data : BitVec 512
  stamp : Reg32
deriving DecidableEq, Repr

/-! ### Field I/O (13) -/

/-- An accepted edge (R379, R381): channel, direction, and the tick at which the new level began, in root periods. -/
structure EdgeRec where
  ch    : Fin 32
  rise  : Bool
  since : Nat
deriving DecidableEq, Repr

/-- A timed command (R387): mask, levels, T in units of 2^-48 ns, its domain, whether it is late, and whether the field die
has it. -/
structure TimedCmd where
  mask : Word
  val  : Word
  at_  : Nat
  td   : Bool
  late : Bool
  sent : Bool
deriving DecidableEq, Repr

/-- A pulse test (R388): channel, WIDTH, and the root time at which the field die began it. -/
structure PulseTest where
  ch    : Fin 16
  width : Nat
  start : Option Nat
deriving DecidableEq, Repr

/-- Field I/O: the logic side (R377, R381, R387, R391) and the field die (R375 to R388). -/
structure FieldIo where
  /-- FIO_CFG and DO_CMD. -/
  cfg : Reg32
  cmd : Word
  /-- Channels commanded on since the last frame. -/
  newOn : Word
  streamOk : Bool
  /-- The time of the next frame, and of the last valid one that each side received. -/
  next : Nat
  logicRx : Nat
  fieldRx : Nat
  /-- What the last frame carried to the logic side: DI_STATE, DI_OPEN, DO_STATE, FV24_OK; and the latched flags. -/
  diSeen : BitVec 32
  wbSeen : BitVec 32
  doSeen : Word
  fvSeen : Bool
  ovl  : Word
  open_ : Word
  ot   : Word
  tcmd : Option TimedCmd
  late : Bool
  test : Option PulseTest
  result : BitVec 3
  /-- The edge FIFO with stamps in the domain of FIO_CFG.TD, oldest first; a loss not yet shown by OVF. -/
  fifo : List (EdgeRec × BitVec 96)
  lost : Bool
  edgeTs : BitVec 96
  /-- DO_TT0 to DO_TT2 of the brick window. -/
  tt0 : Word
  tt1 : Word
  tt2 : Word
  /-- The clk_periph cycle of the window brick's last write and its address (R390). -/
  brickWrite : Option (Nat × Nat)
  /-- The last step of each domain (R376). -/
  fit : Vector (Option Nat) 2
  /-- Configuration words on their way to the field die, oldest first, and the field die's copy of the field block. -/
  cfgOut : List Nat
  regs   : List (Nat × Reg32)
  /-- The field die: DI levels, open reports, commanded levels, channels that a lost stream holds off, channels latched off,
  those of them for over-temperature, and flags not yet reported. -/
  di  : BitVec 32
  wb  : BitVec 32
  out : Word
  held : Word
  off : Word
  hot : Word
  fOvl  : Word
  fOpen : Word
  fOt   : Word
  fv24 : Bool
  /-- Frames arrive. -/
  up   : Bool
  queue : List EdgeRec
deriving DecidableEq, Repr

def FieldIo.reset : FieldIo :=
  { cfg := 0, cmd := 0, newOn := 0, streamOk := false, next := 0, logicRx := 0, fieldRx := 0, diSeen := 0, wbSeen := 0, doSeen := 0,
    fvSeen := false, ovl := 0, open_ := 0, ot := 0, tcmd := none, late := false, test := none, result := 0, fifo := [],
    lost := false, edgeTs := 0, tt0 := 0, tt1 := 0, tt2 := 0, brickWrite := none, fit := Vector.replicate 2 none, cfgOut := [],
    regs := [], di := 0, wb := 0, out := 0, held := 0xFFFF, off := 0, hot := 0, fOvl := 0, fOpen := 0, fOt := 0, fv24 := false,
    up := false, queue := [] }

/-! ### Host functions and rings (15) -/

/-- RING_STATUS.STATE (R425). -/
inductive RingState where
  | stopped | running | error
deriving DecidableEq, Repr

/-- A descriptor ring (R425 to R428). -/
structure Ring where
  baseLo : Reg32
  baseHi : Reg32
  en     : Bool
  func   : Bool
  size   : BitVec 4
  st     : RingState
  err    : BitVec 8
  tail   : BitVec 12
  head   : BitVec 12
  wbLo   : Reg32
  wbHi   : Reg32
  irqMod : Reg32
  drop   : Reg32
  frames : Reg32
  dropShadow   : Reg32
  framesShadow : Reg32
  /-- Interrupt conditions not yet signalled, and the time of the first (R428). -/
  conds   : Nat
  condsAt : Nat
deriving DecidableEq, Repr

def Ring.reset : Ring :=
  { baseLo := 0, baseHi := 0, en := false, func := false, size := 4, st := .stopped, err := 0, tail := 0, head := 0,
    wbLo := 0, wbHi := 0, irqMod := 0, drop := 0, frames := 0, dropShadow := 0, framesShadow := 0, conds := 0, condsAt := 0 }

/-- A physical function: HOST_CAUSE, HOST_CAUSE_EN, its MSI-X table and its pending bits (R424). -/
structure HostFn where
  cause   : Reg32
  causeEn : Reg32
  msix    : List (Nat × Reg32)
  pba     : BitVec 97
deriving DecidableEq, Repr

def HostFn.reset : HostFn := { cause := 0, causeEn := 0, msix := [], pba := 0 }

/-- An orphan-read record (R409, R435): validity, requester code, offset, data. -/
structure Orphan where
  valid : Bool
  req   : BitVec 8
  off   : Offset
  data  : Reg32
deriving DecidableEq, Repr

def Orphan.reset : Orphan := { valid := false, req := 0, off := 0, data := 0 }

/-! ### The Urral link (14) -/

/-- URR_PSTAT.STATE (R394). -/
inductive UrrState where
  | down | training | fault | healthy | looped
deriving DecidableEq, Repr

/-- A Urral port (R394 to R400, R420). -/
structure UrrPort where
  st      : UrrState
  /-- END in force (R420). -/
  endRole : Bool
  wrapped : Bool
  peer    : Fin 64
  /-- A peer HELLO has been received since the port was last DOWN, and TIME frames since then (R394). -/
  hello   : Bool
  times   : Nat
  /-- Header and CRC errors in this management tick, and the root time at which TRAINING began. -/
  errs    : Nat
  since   : Nat
  devs    : BitVec 6
  txf : Reg32
  rxf : Reg32
  crc : Reg32
  late : Reg32
  txfShadow : Reg32
  rxfShadow : Reg32
  crcShadow : Reg32
  lateShadow : Reg32
deriving DecidableEq, Repr

def UrrPort.reset : UrrPort :=
  { st := .down, endRole := false, wrapped := false, peer := 0, hello := false, times := 0, errs := 0, since := 0, devs := 0,
    txf := 0, rxf := 0, crc := 0, late := 0, txfShadow := 0, rxfShadow := 0, crcShadow := 0, lateShadow := 0 }

/-- URR_STATUS.ROLE (R420). -/
inductive UrrRole where
  | forming | worker | manager | standby
deriving DecidableEq, Repr

/-- What the device has handed to its Urral link, in the order of R399. -/
inductive UrrOut where
  /-- A MSG of R410: destination, CODE, party, SUB, SEPOCH and words. -/
  | msg (dst code party sub : Nat) (sepoch : BitVec 4) (words : List Reg32)
  /-- A DATA frame that a U port sends: its bytes, the error marker, its identity and its egress stamp. -/
  | data (k : Fin 4) (bytes : List Byte) (err : Bool) (id : Nat) (stamp : BitVec 96)
  /-- A TIME frame: the transmit stamp in both domains, t2 and t3 of the last exchange, hops, SOURCE_LINK (R344, R418). -/
  | time (k : Fin 4) (td0 td1 : BitVec 96) (stamps : List Int) (hops : BitVec 8) (src : Bool)
  /-- A frame in ring transit (R399). -/
  | transit (k : Fin 4) (bytes : List Byte)
  /-- CTRL frames (R401, R402, R412, R414, R417). -/
  | hello (k : Fin 4) (uid : BitVec 64) (cap : BitVec 2) (prio : BitVec 8) (endRole : Bool)
  | claim (k : Fin 4) (c : Claim)
  | enum (k : Fin 4) (number : BitVec 8) (chainId : BitVec 16)
  | lease (k : Fin 4) (mepoch : BitVec 8) (chainId : BitVec 16)
  | ckpt (seq : Word) (data : List Byte) (digest : BitVec 512)
  | handoff (seq : Word)
  /-- A RESPONSE and a WRITE_ACK of R404 to R408: destination, tag, STATUS and data. -/
  | response (dst : Fin 64) (tag : BitVec 8) (status : BitVec 3) (data : List Reg32)
  | writeAck (dst : Fin 64) (status : BitVec 3)
deriving DecidableEq, Repr

/-- A register access that a bus lock holds back (R408). -/
inductive HeldAcc where
  | write (p : Party) (off : Offset) (v : Reg32)
  | read (p : Party) (tag : BitVec 10) (off : Offset)
  | accRead (src : Fin 64) (tag : BitVec 8) (count : Nat) (off : Offset)
  | accWrite (src : Fin 64) (off : Offset) (data : List Reg32)
deriving DecidableEq, Repr

/-- A role swap on the side of the manager: it waits for the final checkpoint, or has handed over at a tick (R417). -/
inductive Swap where
  | none
  | checkpoint
  | handed (since : Nat)
deriving DecidableEq, Repr

/-- The chain, the manager pair and the bridge (R396 to R418). -/
structure Urral where
  ports  : Vector UrrPort 4
  role   : UrrRole
  devnum : Fin 64
  /-- The device has a number (R402). -/
  numbered : Bool
  mepoch : BitVec 8
  /-- The device that holds the manager role (R403). -/
  mgrDev : Fin 64
  /-- Outputs are held (R416). -/
  hold   : Bool
  /-- CAP and PRIO in force, and the tick of the start (R413, R420). -/
  cap    : BitVec 2
  prio   : BitVec 8
  started : Nat
  chainId : Option (BitVec 16)
  /-- A LEASE has been received since the start (R413). -/
  heard  : Bool
  /-- The claim that the device sends, with the tick of the first; the best claim received, with its tick (R401). -/
  claim  : Option (Claim × Nat)
  best   : Option (Claim × Nat)
  /-- The lease (R412): in force, the tick of the last renewal, and the paths on which it was seen. -/
  leaseOk : Bool
  renewed : Nat
  pinSeen : Bool
  linkSeen : Bool
  /-- The manager renews (R415, R417), and PAIR_CTRL.READY has been written. -/
  renewing : Bool
  ready    : Bool
  restoreLate : Bool
  swapFail : Bool
  swap   : Swap
  /-- The standby has received a HANDOFF (R417). -/
  handoff : Bool
  /-- The tick at which the manager took the role or last swapped. -/
  swapFrom : Nat
  /-- The last complete checkpoint received, and the last one sent (R414). -/
  ckptSeq  : Word
  ckptSent : Word
  /-- The bridge (R405 to R408): outstanding read tags with their ticks, write slots in use by target, the lock with its
  holder and time, and the accesses held back, oldest first. -/
  tags  : List (BitVec 8 × Nat)
  slots : Vector (Fin 17) 64
  lock  : Option (Fin 64 × Nat)
  held  : List HeldAcc
deriving DecidableEq, Repr

def Urral.reset : Urral :=
  { ports := Vector.replicate 4 .reset, role := .forming, devnum := 0, numbered := false, mepoch := 0, mgrDev := 0, hold := false, cap := 0,
    prio := 0x80, started := 0, chainId := none, heard := false, claim := none, best := none, leaseOk := false, renewed := 0,
    pinSeen := false, linkSeen := false, renewing := false, ready := false, restoreLate := false, swapFail := false,
    swap := .none, handoff := false, swapFrom := 0, ckptSeq := 0, ckptSent := 0, tags := [], slots := Vector.replicate 64 0,
    lock := none, held := [] }

/-! ### The device -/

/-- Why the machine stops: the spec gives the case no effect at all. -/
inductive Fault where
  /-- Raised by RST_N_RELEASE: BOOT_SEL 0b11 in MANUFACTURE or RETURNED selects manufacturing test (R47), of
  which the spec says nothing more. Safe: the machine stops where the part goes on. -/
  | manufacturingTest
deriving DecidableEq, Repr

/-- Why a command is refused. -/
inductive Refusal where
  /-- Raised by an arm of Dispatch.lean for a command that has no meaning yet, by its mnemonic. Safe. -/
  | notModelled (mnemonic : String)
deriving DecidableEq, Repr

/-- The state of the device: the block's queue, the model's own counters, and one field for each block. -/
structure State where
  /-- The commands that are waiting, first in first out. -/
  pending : List Instr
  /-- The MODEL's counter of free values (log 1). -/
  freeCtr : Nat
  /-- The value the last read command returned (log 5). -/
  readValue : Reg32
  /-- Root-PLL periods of 0.2 ns since the release of the last DEVICE reset (R13). -/
  now  : Nat
  /-- Management ticks since the last DEVICE reset (R11). -/
  tick : Nat
  /-- 1 on the LZ9264-A0E (R1, R3; log 2). -/
  fieldFitted : Bool
  /-- BAR0 registers that hold what was written to them, by offset, where they differ from their reset value. -/
  regs : List (Nat × Reg32)
  flash : Memory
  otp  : List (Nat × Reg32)
  hostMem : Memory
  pins : Pins
  power : Power
  bricks : Vector Brick 52
  tiles  : Vector Tile 208
  courses : Vector Course 13
  mailboxes : Vector Mailbox 32
  /-- Reset epochs by party number (R443). -/
  epochs : List (Nat × BitVec 4)
  recorder : Recorder
  journal : Journal
  replay  : Replay
  pf0 : HostFn
  pf1 : HostFn
  rings : Vector Ring 64
  ringLast : Fin 64
  /-- ORPH_PF(f, t) at index 1024 f + t (R435), and ORPH(t) (R409). -/
  orphPf : List (Nat × Orphan)
  orph   : List (Nat × Orphan)
  keystone : Keystone
  plumb : Plumb
  ports : Vector Port 50
  fcs   : Vector FlowCtx 256
  mortar : Mortar
  cans  : Vector Can 8
  anchor : CanAnchor
  field : FieldIo
  urral : Urral
  /-- Frames that the CAN controllers have begun to send since the DEVICE reset, oldest first: the model's output (log 21). -/
  canOut : List CanSent
  /-- Frames that have left on the lines of P0 to P31 since the DEVICE reset, oldest first: the model's output (log 21). -/
  lineOut : List LineFrame
  /-- What the device has handed to its Urral link since the DEVICE reset, oldest first: the model's output (log 21). -/
  chainOut : List UrrOut
deriving DecidableEq, Repr

/-- The device in the DEVICE reset of its first start: RST_N low, rails present, nothing placed. -/
def State.reset : State :=
  { pending := [], freeCtr := 0, readValue := 0, now := 0, tick := 0, fieldFitted := true, regs := [], flash := [], otp := [],
    hostMem := [], pins := .reset, power := .reset, bricks := Vector.replicate 52 .reset,
    tiles := Vector.replicate 208 .reset, courses := Vector.replicate 13 .reset,
    mailboxes := Vector.ofFn (fun j => Mailbox.reset j.val), epochs := [], recorder := .reset, journal := .reset,
    replay := .reset, pf0 := .reset, pf1 := .reset, rings := Vector.replicate 64 .reset, ringLast := 31, orphPf := [],
    orph := [], keystone := .reset, plumb := .reset, ports := Vector.replicate 50 .reset,
    fcs := Vector.replicate 256 .reset, mortar := .reset, cans := Vector.replicate 8 .reset, anchor := .reset, field := .reset,
    urral := .reset, canOut := [], lineOut := [], chainOut := [] }

end Sys2Proof.Machine
end

