-- ==== Sys2Proof/Machine/Ops.lean ====
section
/-! DEFINITION. The operations that every block uses: reaching one instance of a block, the clocks, the rights of
parties, free values, host causes and MSI-X, recorder events, and journal records. -/

namespace Sys2Proof

/-! ### Parties and TAP instructions -/

/-- An EXTEST-class instruction is in effect (R62). -/
def TapInstr.extestClass : TapInstr → Bool
  | .extest | .clamp | .extestPulse | .extestTrain => true
  | _ => false

/-- The party is PF1, or the TAP, which has the rights of PF1 (R466). -/
def Party.isPf1 : Party → Bool
  | .pf1 | .tap => true
  | _ => false

/-- Party numbers (R437); the TAP acts with the rights of PF1. -/
def Party.num : Party → Nat
  | .keystone => 0x01
  | .pf1 => 0x02
  | .tap => 0x02
  | .pf0 => 0x03
  | .chain d => 0x10 + d.val
  | .brick k => 0x80 + k.val

/-- Requester codes (R280, R466). -/
def Party.code : Party → BitVec 8
  | .pf0 => 0x00
  | .pf1 => 0x01
  | .keystone => 0x02
  | .tap => 0x03
  | .chain d => BitVec.ofNat 8 (0x40 + d.val)
  | .brick k => BitVec.ofNat 8 (0x80 + k.val)

end Sys2Proof

namespace Sys2Proof.Machine

/-! ### Instances -/

/-- The course of a brick (R6). -/
def courseOf (bk : Fin 52) : Fin 13 := ⟨bk.val / 4, by omega⟩
/-- The local number of a brick (R6). -/
def localOf (bk : Fin 52) : Fin 4 := ⟨bk.val % 4, by omega⟩
/-- Brick b of course c (R6). -/
def brickOf (c : Fin 13) (b : Fin 4) : Fin 52 := ⟨4 * c.val + b.val, by omega⟩
/-- The brick of a tile (R6). -/
def brickOfTile (tl : Fin 208) : Fin 52 := ⟨tl.val / 4, by omega⟩
/-- The course of a tile (R6). -/
def courseOfTile (tl : Fin 208) : Fin 13 := ⟨tl.val / 16, by omega⟩
/-- Tile t of a brick (R6). -/
def tileOf (bk : Fin 52) (t : Fin 4) : Fin 208 := ⟨4 * bk.val + t.val, by omega⟩
/-- Tile i of a course (R199). -/
def tileOfCourse (c : Fin 13) (i : Fin 16) : Fin 208 := ⟨16 * c.val + i.val, by omega⟩

def State.brick (s : State) (k : Fin 52) : Brick := s.bricks[k]
def State.setBrick (s : State) (k : Fin 52) (b : Brick) : State := { s with bricks := s.bricks.set k b }
def State.modBrick (s : State) (k : Fin 52) (f : Brick → Brick) : State := s.setBrick k (f (s.brick k))
def State.tile (s : State) (k : Fin 208) : Tile := s.tiles[k]
def State.setTile (s : State) (k : Fin 208) (t : Tile) : State := { s with tiles := s.tiles.set k t }
def State.modTile (s : State) (k : Fin 208) (f : Tile → Tile) : State := s.setTile k (f (s.tile k))
def State.course (s : State) (c : Fin 13) : Course := s.courses[c]
def State.setCourse (s : State) (c : Fin 13) (x : Course) : State := { s with courses := s.courses.set c x }
def State.modCourse (s : State) (c : Fin 13) (f : Course → Course) : State := s.setCourse c (f (s.course c))
def State.mailbox (s : State) (j : Fin 32) : Mailbox := s.mailboxes[j]
def State.setMailbox (s : State) (j : Fin 32) (m : Mailbox) : State := { s with mailboxes := s.mailboxes.set j m }
def State.ring (s : State) (n : Fin 64) : Ring := s.rings[n]
def State.setRing (s : State) (n : Fin 64) (r : Ring) : State := { s with rings := s.rings.set n r }
/-- The copy of a function's host registers: `f` is true for PF1 (R424). -/
def State.hostFn (s : State) (f : Bool) : HostFn := if f then s.pf1 else s.pf0
def State.setHostFn (s : State) (f : Bool) (h : HostFn) : State := if f then { s with pf1 := h } else { s with pf0 := h }

/-! ### Clocks (R13), in root-PLL periods of 0.2 ns -/

/-- One clk_brick cycle. -/
def brickCycle : Nat := 4
/-- One clk_mortar cycle. -/
def mortarCycle : Nat := 5
/-- One clk_time cycle. -/
def timeCycle : Nat := 8
/-- One clk_periph cycle. -/
def periphCycle : Nat := 20
/-- One microsecond. -/
def microsecond : Nat := 5000
/-- One management tick of 1,000 clk_slow cycles (R11). -/
def tickPeriod : Nat := 5000000

/-- Move the device time on to an event's time; it never moves back. -/
def State.at_ (s : State) (t : Nat) : State := { s with now := max s.now t }

/-- The first edge at or after time t of a clock with period p. -/
def edgeFrom (p t : Nat) : Nat := (t + p - 1) / p * p

/-- The course cycle at root time t: it stands while the course is gated (R121). -/
def Course.cycleAt (x : Course) (t : Nat) : Nat :=
  match x.gatedAt with
  | some g => (g - x.base) / brickCycle
  | none => (t - x.base) / brickCycle

/-! ### Free values -/

/-- A free value and the state that will draw the next one (log 1). -/
def State.fresh (s : State) : Nat × State := (Config.free s.freeCtr, { s with freeCtr := s.freeCtr + 1 })

/-! ### BAR0 registers held in `regs` -/

/-- Reset values of the registers of a port block that `State.regs` holds, MODE on P ports only (R261 to R269, R314). -/
def portRegReset (isP : Bool) (o : Nat) : Reg32 :=
  if o = 0x0000 then (if isP then 0x2B0005F2 else 0x0B0005F2) else if o = 0x0004 then 1 else if o = 0x000C then 2000 else if o = 0x0010 then 0xC0000000
  else if 0x400 ≤ o ∧ o < 0x800 ∧ o % 16 = 12 then 0xC0000000
  else if 0x3000 ≤ o ∧ o < 0x3200 then
    (if o % 0x40 = 0 then 16 else if o % 0x40 = 4 then 4096 else if o % 0x40 = 8 then 8192 else 0)
  else 0

/-- Reset values of the flow-context registers (R315). -/
def fcRegReset (o : Nat) : Reg32 :=
  if o = 0x00 then 0xF00 else if o = 0x04 then 0xFFFFFFFF else if o = 0x10 then 2000 else 0

/-- Reset values of the plumb registers (R324, R328, R332, R343, R347, R349). -/
def plumbRegReset (o : Nat) : Reg32 :=
  if o = 0x0000 then 0x88B6E03F else if o = 0x0004 then 0x20000050
  else if 0x100 ≤ o ∧ o < 0x300 then
    (if o % 0x100 = 0x00 then 0x34100BB8 else if o % 0x100 = 0x38 then 1000 else if o % 0x100 = 0x3C then 0x8000 else 0)
  else if o = 0x428 ∨ o = 0x42C then 1000
  else if 0x2000 ≤ o ∧ o < 0x2800 then (if o % 0x40 = 0x28 then 6400 else 0)
  else if o = 0x380C then 100000000
  else 0

/-- Reset values of DI_CFG and DO_CFG (R391). -/
def fieldRegReset (o : Nat) : Reg32 := if o < 0x180 then 0x000A0003 else 2

/-- The reset values of the registers that `State.regs` holds. -/
def regReset (off : Nat) : Reg32 :=
  if off = 0x40 then 0x8000000C
  else if 0x200000 ≤ off ∧ off < 0x300000 then plumbRegReset (off - 0x200000)
  else if 0x8F8000 ≤ off ∧ off < 0x8F8034 then BitVec.ofNat 32 ((off - 0x8F8000) / 4)
  else if 0x890040 ≤ off ∧ off < 0x890078 then 63
  else if 0x800000 ≤ off ∧ off < 0x900000 then portRegReset (decide (off < 0x880000)) (off % 0x4000)
  else if 0x900000 ≤ off ∧ off < 0x910000 then fcRegReset (off % 0x100)
  else if off = 0x980000 then 0x88B5
  else if off = 0x600000 then 0x0080000F else if off = 0x600010 then 0x05A03E00 else if off = 0x600030 then 1
  else if 0x400100 ≤ off ∧ off < 0x4001C0 then fieldRegReset (off - 0x400000)
  else if 0x300000 ≤ off ∧ off < 0x380000 ∧ off % 0x10000 = 0 then 0x60008000
  else 0

/-- A register of `State.regs`. -/
def State.reg (s : State) (off : Nat) : Reg32 := Sparse.read regReset s.regs off
/-- Store into a register of `State.regs`. -/
def State.setReg (s : State) (off : Nat) (v : Reg32) : State := { s with regs := Sparse.write regReset s.regs off v }

/-! ### Power and scope -/

/-- The device is out of the DEVICE reset: rails present, RST_N high, no EXTEST-class instruction (R43, R62, R80). -/
def State.alive (s : State) : Bool :=
  decide (s.power.supply = .on) && (!s.power.rstLow && !s.power.tap.extestClass)

/-- The blocks other than PF1, the secure mailboxes and the recorder work: footing mode holds them in reset (R89), and after
STBY_READY the device does nothing further (R73). -/
def State.blocksUp (s : State) : Bool := s.alive && (decide (s.power.phase ≠ .footing) && !s.power.stbyReady)

/-- The device runs: phase RUNNING has been reached (R84). -/
def State.running (s : State) : Bool := s.alive && decide (s.power.phase = .running)

/-! ### Identity, lifecycle and debug rights -/

/-- An OTP word; nothing is set in a blank part (R447; log 9). -/
def State.otpWord (s : State) (w : Nat) : Reg32 := Sparse.read (fun _ => 0) s.otp w

/-- DEV_UID (R3, R447). -/
def State.uid (s : State) : BitVec 64 := s.otpWord 1 ++ s.otpWord 0

/-- DEV_ID (R3): revision A0. -/
def State.devId (s : State) : Reg32 := if s.fieldFitted then 0x92640090 else 0x92640010

/-- The lifecycle states (R447, R451). -/
inductive Lifecycle where
  | manufacture | provisioned | deployed | returned | retired
deriving DecidableEq, Repr

/-- The highest lifecycle bit set (R447). -/
def State.lifecycle (s : State) : Lifecycle :=
  let w := s.otpWord 2
  if bit w 3 then .retired else if bit w 2 then .returned else if bit w 1 then .deployed
  else if bit w 0 then .provisioned else .manufacture

/-- LC_STATUS.LC (R469). -/
def Lifecycle.code : Lifecycle → Nat
  | .manufacture => 0 | .provisioned => 1 | .deployed => 2 | .returned => 3 | .retired => 4

/-- The debug level in force: that of the session, or the default of the lifecycle (R451, R467). -/
def State.debugLevel (s : State) : BitVec 2 :=
  match s.keystone.session with
  | some x => x.level
  | none => if s.lifecycle = .manufacture then 2 else 0

/-- SCOPE in force: 0xF in MANUFACTURE, 0 without a session (DBG_STATUS, R469). -/
def State.debugScope (s : State) : BitVec 4 :=
  match s.keystone.session with
  | some x => x.scope
  | none => if s.lifecycle = .manufacture then 0xF else 0

/-- Chain device d holds the chain manager's rights on this device (R403). -/
def State.isManager (s : State) (d : Fin 64) : Bool := decide (s.urral.mgrDev = d)

/-- The party is the chain manager (R403). -/
def State.isMgr (s : State) : Party → Bool
  | .chain d => s.isManager d
  | _ => false

/-- PF1 or the chain manager. -/
def State.pf1OrMgr (s : State) (p : Party) : Bool := p.isPf1 || s.isMgr p

/-- PF1, the chain manager or the keystone. -/
def State.pf1MgrKey (s : State) (p : Party) : Bool := s.pf1OrMgr p || decide (p = .keystone)

/-- The right to brick and tile debug (R166, R170, R199, R466, R522): the keystone at every level; PF1 at OPEN or
with SCOPE[0]; the chain manager with SCOPE[2] as well. -/
def State.brickDebug (s : State) (p : Party) : Bool :=
  let lv := s.debugLevel; let sc := s.debugScope
  let own := decide (lv = 2) || (decide (lv = 1) && sc.getLsbD 0)
  match p with
  | .keystone => true
  | .pf1 | .tap => own
  | .chain d => s.isManager d && (own && (decide (lv ≠ 0) && sc.getLsbD 2))
  | _ => false

/-- The course is gated for DOZE (R67). -/
def State.gated (s : State) (c : Fin 13) : Bool := (s.course c).gatedAt.isSome

/-! ### Host causes and MSI-X (R424) -/

/-- What an unlisted word of an MSI-X table holds: vector control masks the vector (PCI Express; log 19). -/
def msixBlank (i : Nat) : Reg32 := if i % 4 = 3 then 1 else 0

/-- Fire vector v of a function: the message is a posted write of the table's data word to the table's address; a
masked vector becomes pending. Vectors 80 to 95 of PF0 never fire (R424; log 19). -/
def State.fireVector (s : State) (f : Bool) (v : Nat) : State :=
  if v < 97 ∧ ¬ (f = false ∧ 80 ≤ v ∧ v ≤ 95) then
    let h := s.hostFn f
    let w := fun k => Sparse.read msixBlank h.msix (4 * v + k)
    if bit (w 3) 0 then s.setHostFn f { h with pba := setBit h.pba v true }
    else { s with hostMem := Memory.writeBytes hostBlank s.hostMem ((w 1).toNat * 2 ^ 32 + (w 0).toNat) (toLe 4 (w 2).toNat) }
  else s

/-- SEPOCH of the MSGs the device sends: the low bits of its start number (R410, R443). -/
def State.sepoch (s : State) : BitVec 4 := s.power.startRec.number.setWidth 4

/-- A MSG to the manager, unless the device is the manager itself (R410, R482). -/
def State.msgManager (s : State) (code : Nat) (words : List Reg32) : State :=
  if s.urral.mgrDev = s.urral.devnum then s
  else { s with chainOut := s.chainOut ++ [.msg s.urral.mgrDev.val code 0 0 s.sepoch words] }

/-- Set bits of HOST_CAUSE of a function; vector 96 fires when a bit is set there and in HOST_CAUSE_EN (R424). -/
def State.raiseIn (s : State) (f : Bool) (m : Reg32) : State :=
  let h := s.hostFn f
  let s1 := s.setHostFn f { h with cause := h.cause ||| m }
  if m &&& h.causeEn = 0 then s1 else s1.fireVector f 96

/-- The same; causes that URR_EVFWD names go to the manager, once for both functions (R410, R420). -/
def State.raiseCause (s : State) (f : Bool) (m : Reg32) : State :=
  let s1 := s.raiseIn f m
  let w := m &&& s.reg 0x600034
  if f = false ∨ w = 0 then s1 else s1.msgManager 1 [w]

/-! ### Time (R321) -/

/-- The advance of a domain over one step of 40 root periods, in units of 2^-48 ns (R321). -/
def Domain.stepLen (d : Domain) : Int := 8 * 2 ^ 48 + 8 * d.rate

/-- The value of a domain at root time t, in units of 2^-48 ns (R321). -/
def Domain.value (d : Domain) (t : Nat) : Nat :=
  let part := fun (x : Nat) => d.stepLen * (x / 40 : Nat) + d.stepLen * (x % 40 : Nat) / 40
  ((d.val : Int) + (part t - part d.at_)).toNat

/-- Units of 2^-48 ns in one second. -/
def unitsPerSec : Nat := 1000000000 * 2 ^ 48

/-- Seconds of a value. -/
def secOf (v : Nat) : Nat := v / unitsPerSec
/-- Nanoseconds of a value. -/
def nsOf (v : Nat) : Nat := v % unitsPerSec / 2 ^ 48
/-- The visible 16 bits of the fraction (R319, R321). -/
def fracOf (v : Nat) : Nat := v % 2 ^ 48 / 2 ^ 32

/-- The six words of TIME_W0 to TIME_W5 and of R220, the fraction lowest. -/
def timeWords (v : Nat) : BitVec 96 :=
  BitVec.ofNat 48 (secOf v) ++ BitVec.ofNat 32 (nsOf v) ++ BitVec.ofNat 16 (fracOf v)

/-- A domain's value at root time t. -/
def State.tdValue (s : State) (d : Fin 2) (t : Nat) : Nat := (s.plumb.dom[d]).value t

/-! ### The journal (R486 to R491) -/

/-- The number of 64-bit words of a record (R487, R488). -/
def JRec.size : JRec → Nat
  | .iord .. | .evline .. | .inj .. | .mode .. | .out .. | .mark .. | .fin .. => 1
  | .time .. => 3
  | .fmburst tx _ _ count _ => if tx then 1 else 1 + (count + 3) / 4
  | .fmcomp .. | .dbgw .. | .dbg .. | .gap .. => 2
  | .sync .. => 3
  | .keyframe .. => 25089

/-- The course cycle of a record. -/
def JRec.cyc : JRec → Nat
  | .iord _ _ _ c | .evline _ _ _ c | .time _ _ c | .fmburst _ _ _ _ c | .fmcomp _ _ _ _ c | .dbgw _ _ _ _ c
  | .inj _ _ c | .dbg _ _ _ c | .mode _ _ _ c | .out _ _ _ c | .mark _ _ c | .sync c _ _ _ | .keyframe c _
  | .gap c _ | .fin c _ => c

/-- Bits of DELTA in a record's header (R487); records that carry a full cycle have none. -/
def JRec.deltaBits : JRec → Option Nat
  | .inj .. => some 24
  | .sync .. | .keyframe .. | .gap .. | .fin .. => none
  | _ => some 28

/-- The words of the journal SRAM (R486). -/
def journalWords : Nat := 524288

/-- Drop the oldest records, of which a ring of the SRAM's size no longer holds a word. -/
def trimJournal (w : Nat) (l : List JEntry) : List JEntry := l.filter (fun p => decide (w < p.at_ + p.what.size + journalWords))

/-- Put a record at the write pointer. `wptr` counts all words written; the register shows it modulo the SRAM. -/
def Journal.put (j : Journal) (r : JRec) : Journal :=
  let spill := bit j.cfg 30
  if spill ∧ j.unspilled + r.size > journalWords then
    { j with lost := j.lost + 1, lostAt := if j.lost = 0 then r.cyc else j.lostAt }
  else
    let w := j.wptr + r.size
    { j with recs := trimJournal w (j.recs ++ [{ what := r, at_ := j.wptr, delta := r.cyc - j.lastCyc }]), wptr := w, lastCyc := r.cyc,
             sinceSync := (match r with | .sync .. => 0 | _ => j.sinceSync + 1),
             kf := (match r with | .keyframe .. => j.wptr | _ => j.kf),
             unspilled := if spill then j.unspilled + r.size else j.unspilled }

/-- One GAP record marks a loss once room returns (R489). -/
def Journal.closeGap (j : Journal) : Journal :=
  if j.lost ≠ 0 ∧ j.unspilled + 2 ≤ journalWords then
    { (Journal.put { j with lost := 0 } (.gap j.lostAt j.lost)) with gap := true }
  else j

/-- The record is one of course c's and the journal records that course now. -/
def State.journaled (s : State) (c : Fin 13) : Bool :=
  (decide (s.journal.st = .recording) || decide (s.journal.st = .post)) && decide (bits s.journal.cfg 27 24 = c.val)

/-- Write one record of course c, with a SYNC before it where R487 asks for one. -/
def State.jrec (s : State) (c : Fin 13) (r : JRec) : State :=
  if s.journaled c then
    let j := s.journal.closeGap
    let far := match r.deltaBits with
      | some n => decide (2 ^ n ≤ r.cyc - j.lastCyc)
      | none => false
    let v := s.tdValue 0 s.now
    let j1 := if far = true ∨ j.sinceSync ≥ 65536
      then j.put (.sync r.cyc (BitVec.ofNat 32 (nsOf v)) (BitVec.ofNat 32 (secOf v)) s.tick) else j
    { s with journal := j1.put r }
  else s

/-- A trigger of a WRAP journal: recording stops POST_TICKS later; a trigger that is already counting stands (R489). -/
def State.journalTrig (s : State) : State :=
  if s.journal.st = .recording ∧ bit s.journal.cfg 30 = false then
    let c := s.courses[bits s.journal.cfg 27 24]?
    let cyc := match c with
      | some x => x.cycleAt s.now
      | none => 0
    { s with journal := { s.journal with st := .post, trig := cyc, postEnd := s.tick + bits s.journal.cfg 7 0 } }
  else s

/-! ### Recorder events (R474 to R482, R516) -/

/-- An event to be recorded. -/
structure Event where
  code  : BitVec 16
  sev   : BitVec 2
  inst  : BitVec 8
  party : BitVec 8
  p0    : Reg32
  p1    : Reg32
  /-- Raised by the management plane as R516 defines it. -/
  mgmt  : Bool
deriving DecidableEq, Repr

/-- The ring holds 16,384 records (R474). -/
def recorderSize : Nat := 16384
/-- The side queue holds 64 entries (R481). -/
def sideSize : Nat := 64

/-- The event repeats the record (R477). -/
def Event.repeats (e : Event) (r : RecEntry) : Bool :=
  decide (r.code = e.code) && (decide (r.inst = e.inst) && (decide (r.party = e.party) &&
    (decide (r.p0 = e.p0) && decide (r.p1 = e.p1))))

/-- The record of an event: sequence number, tick and TD0 time given (R475). -/
def Event.entry (e : Event) (seq : Reg32) (tick td0 : Nat) : RecEntry :=
  { seq := seq, code := e.code, sev := e.sev, inst := e.inst, rpt := 0, party := e.party, tv := true,
    tick := BitVec.ofNat 32 tick, tns := BitVec.ofNat 32 (nsOf td0), tsec := BitVec.ofNat 32 (secOf td0), p0 := e.p0,
    p1 := e.p1, dirty := true }

/-- The record repeated once more (R477). -/
def RecEntry.again (r : RecEntry) : RecEntry := { r with rpt := satInc r.rpt, dirty := true }

/-- The oldest record kept once the ring has taken the one numbered n - 1 (R474). -/
def oldestAfter (old n : Reg32) : Reg32 :=
  if (n - old).toNat > recorderSize then n - BitVec.ofNat 32 recorderSize else old

/-- Put a record into the array. -/
def Recorder.push (r : Recorder) (e : RecEntry) : Recorder :=
  { r with recs := (e :: r.recs).take recorderSize, next := e.seq + 1, oldest := oldestAfter r.oldest (e.seq + 1) }

/-- Take an event: fold it, queue it, count it as lost, or record it; true when a new record was made (R477, R481). -/
def Recorder.take (r : Recorder) (e : Event) (tick td0 : Nat) : Recorder × Bool :=
  match r.frozen with
  | none =>
    match r.recs with
    | x :: xs =>
      if r.oldest ≠ r.next ∧ e.repeats x then ({ r with recs := x.again :: xs }, false)
      else (r.push (e.entry r.next tick td0), true)
    | [] => (r.push (e.entry r.next tick td0), true)
  | some _ =>
    match r.side.getLast? with
    | some x =>
      if e.repeats x then ({ r with side := r.side.dropLast ++ [x.again] }, false)
      else if r.side.length < sideSize then
        ({ r with side := r.side ++ [e.entry r.next tick td0], next := r.next + 1 }, true)
      else ({ r with lost := satInc r.lost }, false)
    | none => ({ r with side := r.side ++ [e.entry r.next tick td0], next := r.next + 1 }, true)

/-- The eight words of a record (R475). -/
def RecEntry.words (r : RecEntry) : List Reg32 :=
  [r.seq, r.code ++ (r.sev ++ ((0 : BitVec 6) ++ r.inst)), r.rpt ++ (r.party ++ ((0 : BitVec 7) ++ BitVec.ofNat 1 (b2n r.tv))), r.tick,
    r.tns, r.tsec, r.p0, r.p1]

/-- Record an event, tell the hosts at NOTIFY_SEV and the manager at FWD_SEV, and trigger the journal at SEV 3 (R477, R482,
R489). -/
def State.recordEvent (s : State) (e : Event) : State :=
  let td0 := if e.mgmt then s.plumb.tickTd0 else s.tdValue 0 s.now
  let (r, isNew) := s.recorder.take e s.tick td0
  let s1 := { s with recorder := r }
  if isNew then
    let s2 := if bits s.recorder.cfg 1 0 ≤ e.sev.toNat then (s1.raiseCause false 0x200).raiseCause true 0x200 else s1
    let s3 := if bit s.recorder.cfg 6 ∧ bits s.recorder.cfg 5 4 ≤ e.sev.toNat then
        s2.msgManager 4 (e.entry s.recorder.next s.tick td0).words else s2
    if e.sev = 3 then s3.journalTrig else s3
  else s1

/-- Record an event of an open code about `args`, raised by or for a party (R476). -/
def State.event (s : State) (k : EvKind) (mgmt : Bool) (party : BitVec 8) (args : List Nat) : State :=
  s.recordEvent { code := k.cls ++ Config.eventCode k, sev := Config.eventSev k, inst := Config.eventInst k args,
                  party := party, p0 := Config.eventP0 k args, p1 := Config.eventP1 k args, mgmt := mgmt }

/-- Record a refused write or access: code 0x0D01 (R476). -/
def State.refused (s : State) (p : Party) (off v : Nat) : State :=
  s.recordEvent { code := 0x0D01, sev := 1, inst := 0, party := BitVec.ofNat 8 p.num, p0 := BitVec.ofNat 32 off,
                  p1 := BitVec.ofNat 32 v, mgmt := false }

/-! ### Outcomes -/

/-- A command that happens only in some states changes nothing in the others (log 20). -/
def State.when_ (s : State) (c : Bool) (f : State → State) : Host.Outcome State Fault Refusal :=
  .next (if c then f s else s)

end Sys2Proof.Machine
end

