-- ==== Sys2Proof/Machine/Mailbox.lean ====
section
/-! DEFINITION. Mailboxes and doorbells: R437 to R446. Parties are known by their numbers (R437). -/

namespace Sys2Proof.Machine

/-- A lock lasts at most 16,384 clk_periph cycles (R438). -/
def lockLife : Nat := 16384 * periphCycle

/-- The party reaches mailbox j by its registers (R437): chain devices do so by MSG only. -/
def mbReaches (p : Party) (j : Fin 32) : Bool :=
  match p with
  | .keystone | .pf1 | .tap => true
  | .pf0 | .brick _ => decide (j.val < 16)
  | .chain _ => false

/-- The reset epoch of a party (R443). -/
def State.epoch (s : State) (p : Nat) : BitVec 4 := Sparse.read (fun _ => 0) s.epochs p

/-- A reset of a party increments its epoch (R443). -/
def State.bumpEpoch (s : State) (p : Nat) : State :=
  { s with epochs := Sparse.write (fun _ => 0) s.epochs p (s.epoch p + 1) }

/-- MB_STATUS (R437). -/
def Mailbox.status (m : Mailbox) : Reg32 :=
  let st := match m.st with
    | .empty => 0
    | .locked .. => 1
    | .full => 2
  BitVec.ofNat 32 (m.sender * 2 ^ 24 + m.epoch.toNat * 2 ^ 20 + m.len * 2 ^ 16 + st * 2 ^ 14 + b2n m.crossed * 2 ^ 13 +
    b2n m.discarded * 2 ^ 12 + m.dcount.toNat * 2 ^ 8 + b2n m.bell * 2 ^ 7 + b2n m.lockLost * 2 ^ 6)

/-- The mailbox counts as unread for its receiver: FULL, or its BELL set (R157, R440). -/
def Mailbox.unread (m : Mailbox) : Bool := decide (m.st = .full) || m.bell

/-- MBX of a brick: a mailbox that it receives is unread (R157, R441). -/
def State.mbxLevel (s : State) (bk : Fin 52) : Bool :=
  s.mailboxes.toList.any (fun m => decide (m.recv.toNat = 0x80 + bk.val) && m.unread)

/-- Latch an event line of a brick, journaled (R157, R487). -/
def State.latchLine (s : State) (bk : Fin 52) (line : Nat) : State :=
  let b := s.brick bk
  let s1 := s.setBrick bk { b with io := { b.io with events := setBit b.io.events line true } }
  s1.jrec (courseOf bk) (.evline (localOf bk) line true ((s.course (courseOf bk)).cycleAt s.now))

/-- The hold that the gating of a port's block began ends, while its link is up (R69). -/
def State.endGateHold (s : State) (q : PortCode) : State :=
  let p := s.ports[q]
  if p.up then { s with ports := s.ports.set q { p with holdEnd := none, dropping := false } } else s

/-- A gated course wakes: its cycle counter goes on from where it stopped (R70, R71, R121). -/
def State.ungateCourse (s : State) (c : Fin 13) (cause : BitVec 4) : State :=
  let x := s.course c
  match x.gatedAt with
  | none => s
  | some g =>
    let t := edgeFrom brickCycle s.now
    let shift := (t - g) / brickCycle * brickCycle
    let s1 := s.setCourse c { x with base := x.base + shift, gatedAt := none }
    let up := fun (b : Brick) => { b with ready := b.ready + shift, feAt := b.feAt + shift, wd := { b.wd with since := b.wd.since + shift } }
    let s2 := (List.finRange 4).foldl (fun s b => s.modBrick (brickOf c b) up) s1
    let tup := fun (x : Tile) => { x with edge := x.edge + edgeFrom periphCycle shift }
    let s3 := (List.finRange 16).foldl (fun s i => s.modTile (tileOfCourse c i) tup) s2
    (s3.endGateHold ⟨37 + c.val, by omega⟩).jrec c (.mode x.mode false cause ((s3.course c).cycleAt s.now))

/-- The brick of a party number, if it names one (R437). -/
def brickOfParty (n : Nat) : Option (Fin 52) := if h : 0x80 ≤ n ∧ n < 0x80 + 52 then some ⟨n - 0x80, by omega⟩ else none

/-- The wake event of mailbox j at party r (R441). MBX itself is the level that the mailbox shows. -/
def State.wakeEvent (s : State) (r : Nat) (j : Fin 32) : State :=
  if r = 0x02 then s.fireVector true (64 + j.val)
  else if r = 0x03 then s.fireVector false (64 + j.val)
  else match brickOfParty r with
    | some bk => s.ungateCourse (courseOf bk) 1
    | none => s

/-- A mailbox notice to chain device d (R439): SUB 1 empty event, 2 refused post, 3 discarded message. -/
def State.mbNotice (s : State) (p : Nat) (sub : Nat) (j : Fin 32) : State :=
  if 0x10 ≤ p ∧ p < 0x50 then
    { s with chainOut := s.chainOut ++ [.msg (p - 0x10) 5 p sub s.sepoch [BitVec.ofNat 32 j.val]] }
  else s

/-- The empty event of mailbox j at its sender (R441). -/
def State.emptyEvent (s : State) (p : Nat) (j : Fin 32) : State :=
  if p = 0x02 then s.fireVector true (64 + j.val)
  else if p = 0x03 then s.fireVector false (64 + j.val)
  else match brickOfParty p with
    | some bk => s.latchLine bk 11
    | none => s.mbNotice p 1 j

/-- The mailbox emptied: SENDER, EPOCH, LEN, the words and CROSSED cleared (R439, R445). -/
def Mailbox.emptied (m : Mailbox) : Mailbox :=
  { m with st := .empty, sender := 0, epoch := 0, len := 0, data := Vector.replicate 8 0, crossed := false }

/-- The mailbox that a message from `snd` to `rcv` crosses: FULL, from `rcv`, received by `snd` (R445). -/
def Mailbox.crosses (m : Mailbox) (snd rcv : Nat) : Bool :=
  decide (m.st = .full) && (decide (m.recv.toNat = snd) && decide (m.sender = rcv))

/-- CROSSED clears in both mailboxes when either message is taken or discarded (R445): a mailbox keeps it only
while another FULL mailbox still crosses it. -/
def State.recross (s : State) : State :=
  let keep := fun (m : Mailbox) =>
    m.crossed && s.mailboxes.toList.any (fun y => y.crosses m.sender m.recv.toNat && y.crossed)
  { s with mailboxes := s.mailboxes.map (fun m => { m with crossed := keep m }) }

/-- A read of MB_LOCK by party p (R438): the value returned and the state after it. `rivals` are the lock reads of
the same clk_periph cycle; the lowest party number is granted. -/
def State.lockRead (s : State) (p : Nat) (j : Fin 32) (rivals : List Nat) : Nat × State :=
  let m := s.mailbox j
  let r := m.recv.toNat
  let lower := rivals.filter (fun q => decide (q < p ∧ q ≠ r))
  if r = 0 ∨ p = r then (0xFF, s)
  else match m.st with
    | .empty =>
      match lower.min? with
      | some q => (q, s)
      | none => (0, s.setMailbox j { m with st := .locked p s.now })
    | .locked h _ => (h, s)
    | .full => (m.sender, s)

/-- A post of LEN words by the lock holder makes the mailbox FULL (R439) and settles crossings (R445). -/
def State.postAs (s : State) (p : Nat) (ep : BitVec 4) (j : Fin 32) (len : Nat) : State :=
  let m := s.mailbox j
  let r := m.recv.toNat
  let hit := s.mailboxes.toList.any (fun y => y.crosses p r)
  let s1 := if hit then { s with mailboxes := s.mailboxes.map (fun y => if y.crosses p r then { y with crossed := true } else y) } else s
  let s2 := s1.setMailbox j { m with st := .full, sender := p, epoch := ep, len := len, crossed := hit, postedAt := s.now,
                                     data := Vector.ofFn (fun k => if k.val < len then m.data[k] else 0) }
  let s3 := s2.wakeEvent r j
  if hit then s3.wakeEvent p j else s3

/-! ### Replies of the keystone (R457, R458) -/

/-- The oldest reply that waits for mailbox j is posted once the mailbox is EMPTY: the keystone locks it and posts at once
(R457; log 34). -/
def State.postReply (s : State) (j : Fin 32) : State :=
  match takeFirst (fun (r : Fin 32 × List Reg32) => decide (r.1 = j)) s.keystone.replies with
  | some (r, rest) =>
    if (s.mailbox j).st = .empty then
      let s1 := { s with keystone := { s.keystone with replies := rest } }
      (s1.setMailbox j { s1.mailbox j with data := Vector.ofFn (fun k => nth r.2 k.val 0) }).postAs 0x01 (s.epoch 0x01) j 8
    else s
  | none => s

/-- The reply to a request of service `code` (SVC in the high byte, OP in the low byte), with its recorder event: STATUS and
the result words from word 1 on (R457, R460, R516). -/
def State.svcReply (s : State) (code : Nat) (r : SvcReq) (status : Nat) (results : List Reg32) : State :=
  let s1 := s.event .service true (BitVec.ofNat 8 r.caller.num) [code, r.tag.toNat, status]
  if r.noreply ∧ status = 0 then s1
  else
    let w0 := BitVec.ofNat 32 (code / 256 * 2 ^ 24 + status * 65536 + r.tag.toNat * 256)
    { s1 with keystone := { s1.keystone with replies := s1.keystone.replies ++ [(r.reply, w0 :: results)] } }.postReply r.reply

/-- JT_STATUS (R495). -/
def Replay.status (r : Replay) : Reg32 :=
  let st := match r.st with
    | .idle => 0 | .loading => 1 | .running => 2 | .done => 3 | .diverged => 4 | .aborted => 5
  BitVec.ofNat 32 (st * 2 ^ 29 + b2n r.starved * 2 ^ 28 + r.brick.toNat * 2 ^ 26 + r.cause.toNat * 2 ^ 24)

/-- A replay has ended: its recorder event, and the reply to its request (R463, R495). -/
def State.replayEnded (s : State) (why : Nat) : State :=
  let s1 := s.event .replayEnd false 0 [s.replay.course.val, why]
  match s1.keystone.replayReq with
  | some r =>
    { s1 with keystone := { s1.keystone with replayReq := none } }.svcReply 0x0E03 r 0
      [s1.replay.status, BitVec.ofNat 32 s1.replay.cycle, BitVec.ofNat 32 (s1.replay.cycle / 2 ^ 32 % 65536)]
  | none => s1

/-- A write of MB_POST (R439). `off` is what a refusal records. -/
def State.post (s : State) (p : Party) (j : Fin 32) (len : Nat) (off : Nat) : State :=
  match (s.mailbox j).st with
  | .locked h _ =>
    if h = p.num ∧ 1 ≤ len ∧ len ≤ 8 then s.postAs p.num (s.epoch p.num) j len else s.refused p off len
  | _ => s.refused p off len

/-- A write of a message word (R439): only the lock holder, while LOCKED. `m` selects the bits written. -/
def State.mbWrite (s : State) (p : Party) (j : Fin 32) (k : Fin 8) (mask v : Reg32) (off : Nat) : State :=
  let b := s.mailbox j
  match b.st with
  | .locked h _ =>
    if h = p.num then s.setMailbox j { b with data := b.data.set k ((b.data[k] &&& ~~~ mask) ||| (v &&& mask)) }
    else s.refused p off v.toNat
  | _ => s.refused p off v.toNat

/-- A read of a message word (R439): while FULL only the receiver, the sender and the keystone see it. -/
def State.mbRead (s : State) (p : Nat) (j : Fin 32) (k : Fin 8) : Reg32 :=
  let m := s.mailbox j
  if m.st = .full ∧ ¬ (p = m.recv.toNat ∨ p = m.sender ∨ p = 0x01) then 0 else m.data[k]

/-- TAKE by the receiver of a FULL mailbox (R439). -/
def State.takeMail (s : State) (p : Nat) (j : Fin 32) : State :=
  let m := s.mailbox j
  if m.st = .full ∧ p = m.recv.toNat then
    (((s.setMailbox j m.emptied).recross).emptyEvent m.sender j).postReply j
  else s

/-- UNLOCK by the holder clears the words written under the lock (R438). -/
def State.unlockMail (s : State) (p : Nat) (j : Fin 32) : State :=
  let m := s.mailbox j
  match m.st with
  | .locked h _ => if h = p then (s.setMailbox j { m with st := .empty, data := Vector.replicate 8 0 }).postReply j else s
  | _ => s

/-- RING sets BELL and wakes the receiver (R440, R441). -/
def State.ringBell (s : State) (j : Fin 32) : State :=
  let m := s.mailbox j
  (s.setMailbox j { m with bell := true }).wakeEvent m.recv.toNat j

/-- CLR_DISC, or a W1C of DISCARDED, clears DISCARDED and DCOUNT (R442). -/
def State.clearDisc (s : State) (j : Fin 32) : State :=
  s.setMailbox j { s.mailbox j with discarded := false, dcount := 0 }

/-- A write to the W1C bits of MB_STATUS (R437, R440, R442): BELL answers the receiver only. -/
def State.mbStatusWrite (s : State) (p : Party) (j : Fin 32) (v : Nat) (off : Nat) : State :=
  let w := BitVec.ofNat 32 v
  let s1 := if bit w 12 then s.clearDisc j else s
  let s2 := if bit w 6 then s1.setMailbox j { s1.mailbox j with lockLost := false } else s1
  if bit w 7 then
    if (s2.mailbox j).recv.toNat = p.num then s2.setMailbox j { s2.mailbox j with bell := false }
    else s2.refused p off v
  else s2

/-- A write of MB_CMD: RING, CLR_DISC, UNLOCK, TAKE (R437). TAKE and RING in one write both act (R444). -/
def State.mbCommand (s : State) (p : Nat) (j : Fin 32) (v : Nat) : State :=
  let w := BitVec.ofNat 32 v
  let s1 := if bit w 0 then s.takeMail p j else s
  let s2 := if bit w 1 then s1.unlockMail p j else s1
  let s3 := if bit w 2 then s2.clearDisc j else s2
  if bit w 3 then s3.ringBell j else s3

/-- A lock reaches its age: LOCK_LOST, the words cleared, a recorder event (R438). -/
def State.lockExpire (s : State) (j : Fin 32) : State :=
  let m := s.mailbox j
  match m.st with
  | .locked h t =>
    (((s.at_ (t + lockLife)).setMailbox j { m with st := .empty, data := Vector.replicate 8 0, lockLost := true }).event
      .lockExpiry false (BitVec.ofNat 8 h) [j.val]).postReply j
  | _ => s

/-- The receiver of a mailbox changes: a FULL message or a BELL wakes the new one (R437). -/
def State.setRecv (s : State) (j : Fin 32) (r : BitVec 8) : State :=
  let m := s.mailbox j
  let s1 := s.setMailbox j { m with recv := r }
  if m.recv ≠ r ∧ m.unread then s1.wakeEvent r.toNat j else s1

/-- A reset of a receiver discards what one of its mailboxes holds (R442): BELL clears, a FULL message is counted
and its sender told. -/
def State.discardMail (s : State) (r : Nat) (j : Fin 32) : State :=
  let m := s.mailbox j
  if m.recv.toNat = r then
    match m.st with
    | .full =>
      let s1 := (s.setMailbox j { m.emptied with bell := false, discarded := true, dcount := satInc m.dcount }).recross
      (if 0x10 ≤ m.sender ∧ m.sender < 0x50 then s1.mbNotice m.sender 3 j else s1.emptyEvent m.sender j).postReply j
    | _ => s.setMailbox j { m with bell := false }
  else s

/-- A reset of a sender releases the lock it holds and clears the words under it (R443). -/
def State.releaseLock (s : State) (p : Nat) (j : Fin 32) : State := s.unlockMail p j

/-- A reset of a party, as receiver and as sender (R81, R442, R443). -/
def State.resetParty (s : State) (p : Nat) : State :=
  let s1 := (List.finRange 32).foldl (fun s j => s.discardMail p j) s
  let s2 := (List.finRange 32).foldl (fun s j => s.releaseLock p j) s1
  s2.bumpEpoch p

end Sys2Proof.Machine
end

