-- ==== Sys2Proof/Machine/Windows.lean ====
section
/-! DEFINITION. What the image of a course gives its bricks: the RESOURCES section and the binding (R239, R240), and
the windows assigned from them (R173). -/

namespace Sys2Proof.Machine

/-- Byte k of RESOURCES (R239). -/
def LoadedImage.resByte (im : LoadedImage) (k : Nat) : Byte := nth im.resources k 0
/-- Little-endian number of n bytes at k of RESOURCES (R239). -/
def LoadedImage.resNat (im : LoadedImage) (k n : Nat) : Nat := leNat ((im.resources.drop k).take n)
/-- TILE_MASK (R239). -/
def LoadedImage.tileMask (im : LoadedImage) : BitVec 16 := BitVec.ofNat 16 (im.resNat 0 2)
/-- BRICK_MASK (R239). -/
def LoadedImage.brickMask (im : LoadedImage) : BitVec 4 := (im.resByte 2).extractLsb' 0 4
/-- Binding word k (R240). -/
def LoadedImage.bindWord (im : LoadedImage) (k : Nat) : Nat := (nth im.binding k 0).toNat
/-- Logical ports, CAN controllers, mailboxes, TTOs, TCAPs and flow contexts (R239). -/
def LoadedImage.ports (im : LoadedImage) : Nat := (im.resByte 0x18).toNat
def LoadedImage.cans (im : LoadedImage) : Nat := (im.resByte 0x1A).toNat
def LoadedImage.mbxs (im : LoadedImage) : Nat := (im.resByte 0x1B).toNat
def LoadedImage.ttos (im : LoadedImage) : Nat := (im.resByte 0x1F).toNat
def LoadedImage.tcaps (im : LoadedImage) : Nat := (im.resByte 0x20).toNat
def LoadedImage.fcs (im : LoadedImage) : Nat := (im.resByte 0x21).toNat
/-- The local brick given logical CAN controller l (R239). -/
def LoadedImage.canBrick (im : LoadedImage) (l : Nat) : Nat := im.resNat 0x1C 2 / 4 ^ l % 4
/-- The local brick that is the party of logical mailbox l (R239). -/
def LoadedImage.mbBrick (im : LoadedImage) (l : Nat) : Nat := (im.resByte 0x1E).toNat / 4 ^ l % 4

/-- The course's image owns what its binding names: it has been released and does not replay (R173, R253, R494). -/
def Course.owner (x : Course) : Option LoadedImage := if x.released ∧ x.mode ≠ 2 then x.image else none

/-- Mailbox window j is assigned to the brick (R173, R239). -/
def State.mbWindow (s : State) (bk : Fin 52) (j : Nat) : Bool :=
  match (s.course (courseOf bk)).owner with
  | some im => (List.range im.mbxs).any (fun l => decide (im.bindWord (17 + l) = j ∧ im.mbBrick l = (localOf bk).val))
  | none => false

/-- CAN window n is assigned to the brick (R173, R239). -/
def State.canWindow (s : State) (bk : Fin 52) (n : Nat) : Bool :=
  match (s.course (courseOf bk)).owner with
  | some im => (List.range im.cans).any (fun l => decide (im.bindWord (9 + l) = n ∧ im.canBrick l = (localOf bk).val))
  | none => false

/-- The field window is assigned to the brick (R173, R239). -/
def State.fieldWindow (s : State) (bk : Fin 52) : Bool :=
  match (s.course (courseOf bk)).owner with
  | some im => bit (im.resByte 3) 0 && decide (bits (im.resByte 3) 7 6 = (localOf bk).val)
  | none => false

/-- The brick that CAN controller n belongs to, if any (R157, R361). -/
def State.canOwner (s : State) (n : Nat) : Option (Fin 52) := (List.finRange 52).find? (fun bk => s.canWindow bk n)

/-- The brick that the field window belongs to, if any. -/
def State.fieldOwner (s : State) : Option (Fin 52) := (List.finRange 52).find? (fun bk => s.fieldWindow bk)

/-- A loaded course holds the mailbox (R437). -/
def State.mbBound (s : State) (j : Nat) : Bool :=
  s.courses.toList.any (fun x => match x.image with
    | some im => (List.range im.mbxs).any (fun l => decide (im.bindWord (17 + l) = j))
    | none => false)

/-- A loaded image's binding names port code n (R240). -/
def LoadedImage.bindsPort (im : LoadedImage) (n : Nat) : Bool := (List.range im.ports).any (fun l => decide (im.bindWord (1 + l) = n))
/-- A loaded image's binding names CAN controller n. -/
def LoadedImage.bindsCan (im : LoadedImage) (n : Nat) : Bool := (List.range im.cans).any (fun l => decide (im.bindWord (9 + l) = n))
/-- A loaded image's binding names TTO n. -/
def LoadedImage.bindsTto (im : LoadedImage) (n : Nat) : Bool := (List.range im.ttos).any (fun l => decide (im.bindWord (22 + l) = n))
/-- A loaded image's binding names TCAP n. -/
def LoadedImage.bindsTcap (im : LoadedImage) (n : Nat) : Bool := (List.range im.tcaps).any (fun l => decide (im.bindWord (26 + l) = n))

/-- Some loaded course's image satisfies p. -/
def State.anyImage (s : State) (p : LoadedImage → Bool) : Bool :=
  s.courses.toList.any (fun x => match x.image with
    | some im => p im
    | none => false)

/-- The port is bound to a loaded course, or is a loaded course's own (R262). -/
def State.portBound (s : State) (q : PortCode) : Bool := s.anyImage (fun im => im.bindsPort q.code)

/-- A write right of R262: the keystone always; PF1 and the chain manager where nothing loaded holds the resource. -/
def State.mayConfigure (s : State) (p : Party) (bound : Bool) : Bool := decide (p = .keystone) || (s.pf1OrMgr p && !bound)

/-- The course has an image (R15, R246). -/
def State.loaded (s : State) (c : Fin 13) : Bool := (s.course c).image.isSome

/-- A brick's party reaches the mailbox only through a window assigned to it; others by R437. -/
def State.mbOpen (s : State) (p : Party) (j : Fin 32) (reach : Bool) : Bool :=
  (if j.val < 16 then s.blocksUp else s.alive) && (reach && (match p with
    | .brick k => s.mbWindow k j.val
    | _ => true))

end Sys2Proof.Machine
end

