-- ==== Sys2Proof/Machine/MailboxCmds.lean ====
section
/-! DEFINITION. The commands of the mailbox family (R437 to R446). -/

namespace Sys2Proof.Machine

/-- BAR0 offset of the block of mailbox j (R437). -/
def mbBase (j : Fin 32) : Nat := if j.val < 16 then 0x100000 + 0x100 * j.val else 0x180000 + 0x100 * (j.val - 16)

/-- Record a read for ORPH_PF when a function issues it (R435). -/
def State.notePfRead (s : State) (p : Party) (tag : Nat) (off : Nat) (v : Reg32) : State :=
  match p with
  | .pf0 => { s with orphPf := Sparse.write (fun _ => Orphan.reset) s.orphPf tag ⟨true, p.code, BitVec.ofNat 26 off, v⟩ }
  | .pf1 => { s with orphPf := Sparse.write (fun _ => Orphan.reset) s.orphPf (1024 + tag) ⟨true, p.code, BitVec.ofNat 26 off, v⟩ }
  | _ => s

/-- Return a value to the reader (log 5) and record the read (R435). -/
def State.returnRead (s : State) (p : Party) (tag : Nat) (off : Nat) (v : Reg32) : State :=
  { s.notePfRead p tag off v with readValue := v }

/-- A brick's read of an I/O window is a journaled course input (R19, R441). -/
def State.journalRead (s : State) (p : Party) (addr : Nat) (v : Nat) : State :=
  match p with
  | .brick k => s.jrec (courseOf k) (.iord (localOf k) (BitVec.ofNat 12 addr) (BitVec.ofNat 16 v)
      ((s.course (courseOf k)).cycleAt s.now))
  | _ => s

/-- MAILBOX_LOCK (R438): the value read is the result. PF0 on the secure page reads zero and is recorded (R24). -/
def execMailboxLock (p : Party) (tag : BitVec 10) (j : Fin 32) (rivals : List Party) (s : State) : Host.Outcome State Fault Refusal :=
  if s.mbOpen p j (mbReaches p j) then
    let (v, s1) := s.lockRead p.num j (rivals.map Party.num)
    .next ((s1.journalRead p (0x201 + 4 * j.val) v).returnRead p tag.toNat (mbBase j + 0x24) (BitVec.ofNat 32 v))
  else if p = .pf0 ∧ s.blocksUp then .next ((s.refused p (mbBase j + 0x24) 0).returnRead p tag.toNat (mbBase j + 0x24) 0)
  else .next { s with readValue := 0 }

/-- MAILBOX_DATA_WRITE (R439). -/
def execMailboxDataWrite (p : Party) (j : Fin 32) (k : Fin 8) (v : Reg32) (s : State) : Host.Outcome State Fault Refusal :=
  s.when_ (s.mbOpen p j (mbReaches p j)) (fun s => s.mbWrite p j k (BitVec.allOnes 32) v (mbBase j + 4 * k.val))

/-- MAILBOX_POST (R439). -/
def execMailboxPost (p : Party) (j : Fin 32) (len : BitVec 4) (s : State) : Host.Outcome State Fault Refusal :=
  s.when_ (s.mbOpen p j (mbReaches p j)) (fun s => s.post p j len.toNat (mbBase j + 0x28))

/-- TAKE (R439). -/
def execTake (p : Party) (j : Fin 32) (s : State) : Host.Outcome State Fault Refusal :=
  s.when_ (s.mbOpen p j (mbReaches p j)) (fun s => s.takeMail p.num j)

/-- UNLOCK (R438). -/
def execUnlock (p : Party) (j : Fin 32) (s : State) : Host.Outcome State Fault Refusal :=
  s.when_ (s.mbOpen p j (mbReaches p j)) (fun s => s.unlockMail p.num j)

/-- RING (R440). -/
def execRing (p : Party) (j : Fin 32) (s : State) : Host.Outcome State Fault Refusal :=
  s.when_ (s.mbOpen p j (mbReaches p j)) (fun s => s.ringBell j)

/-- CLR_DISC (R442). -/
def execClrDisc (p : Party) (j : Fin 32) (s : State) : Host.Outcome State Fault Refusal :=
  s.when_ (s.mbOpen p j (mbReaches p j)) (fun s => s.clearDisc j)

/-- BELL_CLEAR: a W1C of BELL (R440). -/
def execBellClear (p : Party) (j : Fin 32) (s : State) : Host.Outcome State Fault Refusal :=
  s.when_ (s.mbOpen p j (mbReaches p j)) (fun s => s.mbStatusWrite p j 0x80 (mbBase j + 0x20))

/-- MAILBOX_LOCK_EXPIRY (R438): the lock held reaches 16,384 clk_periph cycles. -/
def execMailboxLockExpiry (j : Fin 32) (s : State) : Host.Outcome State Fault Refusal :=
  s.when_ s.alive (fun s => s.lockExpire j)

/-- A write of MB_RECV (R437): PF1 on a mailbox that no loaded course holds, the keystone on any; a secure mailbox takes
only 0x01 and 0x02. Any other write is ignored and recorded. -/
def State.recvWrite (s : State) (p : Party) (j : Fin 32) (v : Reg32) : State :=
  let r : BitVec 8 := v.extractLsb' 0 8
  let who := decide (p = .keystone) || (p.isPf1 && !s.mbBound j.val)
  let what := decide (j.val < 16) || (decide (r = 1) || decide (r = 2))
  if who && what then s.setRecv j r else s.refused p (mbBase j + 0x30) v.toNat

/-- MB_RECV_WRITE (R437). -/
def execMbRecvWrite (p : Party) (j : Fin 32) (v : Reg32) (s : State) : Host.Outcome State Fault Refusal :=
  s.when_ (if j.val < 16 then s.blocksUp else s.alive) (fun s => s.recvWrite p j v)

end Sys2Proof.Machine
end

