-- ==== Sys2Proof/Machine/FrameMover.lean ====
section
/-! DEFINITION. Bank arbitration and the frame mover: R149, R153, R212 to R225. -/

namespace Sys2Proof.Machine

/-! ### Bank arbitration (R149, R153) -/

/-- The first of a list of masters that requests. -/
def firstOf (req : BitVec 8) : List Nat → Nat
  | [] => 0
  | m :: ms => if req.getLsbD m then m else firstOf req ms

/-- The master granted bank k in course cycle n (R149): rotating over all in modes 0 and 2, bricks first in mode 1. -/
def bankWinner (mode : BitVec 2) (n k : Nat) (req : BitVec 8) : Nat :=
  if mode = 1 then
    firstOf req (((List.range 4).map (fun i => ((n + k) % 4 + i) % 4)) ++ [6, 7, 4, 5])
  else firstOf req ((List.range 8).map (fun i => ((n + k) % 8 + i) % 8))

/-- The stall of an access by master m to a bank word from cycle n on: the cycles lost before the grant. Each
element of the list names the other masters that request the bank in one cycle. -/
def bankStall (mode : BitVec 2) (m addr : Nat) : Nat → Contention → Nat
  | _, [] => 0
  | n, r :: rs =>
    if bankWinner mode n (addr % 8) (setBit r m true) = m then 0 else 1 + bankStall mode m addr (n + 1) rs

/-- Add lost cycles to CONF_CNT(m) (R153). -/
def Course.lose (x : Course) (m : Fin 8) (n : Nat) : Course := { x with conf := x.conf.set m (satAdd x.conf[m] n) }

/-- A burst of word accesses from cycle n on, one request a cycle in order: the cycle after the last grant (R151). -/
def burstEnd (mode : BitVec 2) (m : Nat) : Nat → List Nat → List Contention → Nat
  | n, [], _ => n
  | n, a :: as, ct =>
    burstEnd mode m (n + 1 + bankStall mode m a n (ct.headD [])) as ct.tail

/-! ### Queues of a brick (R215 to R223) -/

/-- A write of FM_RXL (R215, R217). -/
def FmQueue.pushRx (f : FmQueue) (v : Word) : FmQueue :=
  if bits v 14 12 ≠ 0 ∨ bits v 11 0 < 16 then { f with stat := setBit f.stat 3 true }
  else if 16 ≤ f.bufs.length then { f with stat := setBit f.stat 0 true }
  else { f with bufs := f.bufs ++ [(f.rxa, v)] }

/-- A read of FM_RXC0 (R215, R217): pops a completion and latches FM_RXC1. -/
def FmQueue.popRx (f : FmQueue) : Word × FmQueue :=
  match f.rxc with
  | (a, c) :: rest => (a, { f with rxc := rest, rxc1 := c })
  | [] => (0, { f with rxc1 := 0 })

/-- A read of FM_TXD (R215, R217). -/
def FmQueue.popTx (f : FmQueue) : Word × FmQueue :=
  match f.txc with
  | c :: rest => (c, { f with txc := rest })
  | [] => (0, f)

/-- Segments of brick b in frames that the frame mover has not finished. -/
def Course.queuedSegs (x : Course) (b : Fin 4) : Nat :=
  ((x.fmTx.filter (fun f => decide (f.brick = b))).map (fun f => f.segs.length)).sum

/-- Transmit segment slots free (FM_LVL1). -/
def State.txSlots (s : State) (bk : Fin 52) : Nat :=
  16 - ((s.brick bk).fm.segs.length + (s.course (courseOf bk)).queuedSegs (localOf bk))

/-- The length in bytes of a segment and its byte lane (R215). -/
def TxSeg.len (g : TxSeg) : Nat := bits g.b 12 0
def TxSeg.lane (g : TxSeg) : Nat := b2n (bit g.b 15)

/-- The egress port of a code, or none where the code is unassigned (R216). -/
def portOfCode (n : Nat) : Option PortCode :=
  if h : n ≤ 36 then some ⟨n, by omega⟩ else if h : 48 ≤ n ∧ n ≤ 60 then some ⟨n - 11, by omega⟩ else none

/-- The frame of these segments is dropped without being read (R216, R222). -/
def txDropped (segs : List TxSeg) (ctl : Word) : Bool :=
  let n := (segs.map TxSeg.len).sum
  decide (n = 0) || (decide (8 < (segs.filter (fun g => decide (g.len ≠ 0))).length) ||
    (!bit ctl 14 && (portOfCode (bits ctl 7 0)).isNone))

/-- Post a transmit completion (R215, R223). -/
def FmQueue.postTx (f : FmQueue) (dropped : Bool) (n : BitVec 8) : FmQueue :=
  { f with txc := f.txc ++ [BitVec.ofNat 16 (0x8000 + b2n dropped * 0x4000 + n.toNat)] }

/-- Post a transmit completion to a brick, journaled (R223, R487). -/
def State.postTxComp (s : State) (bk : Fin 52) (dropped : Bool) (n : BitVec 8) : State :=
  let s1 := s.modBrick bk (fun b => { b with fm := b.fm.postTx dropped n })
  s1.jrec (courseOf bk) (.fmcomp (localOf bk) 1 (BitVec.ofNat 16 (0x8000 + b2n dropped * 0x4000 + n.toNat)) 0
    ((s.course (courseOf bk)).cycleAt s.now))

/-- Completions keep sequence order: a dropped frame's is posted once no earlier frame of its brick is open (R223). -/
def State.postDropped (s : State) (bk : Fin 52) : (fuel : Nat) → State
  | 0 => s
  | n + 1 =>
    let x := s.course (courseOf bk)
    match takeFirst (fun (f : TxFrame) => decide (f.brick = localOf bk)) x.fmTx with
    | some (f, rest) =>
      if f.dropped then
        ((s.setCourse (courseOf bk) { x with fmTx := rest }).postTxComp bk true f.seqno).postDropped bk n
      else s
    | none => s

/-- A write of FM_TXC (R215, R217, R222, R223): one segment; with LAST the frame takes its sequence number. -/
def State.pushTx (s : State) (bk : Fin 52) (v : Word) : State :=
  let b := s.brick bk
  let f := b.fm
  if s.txSlots bk = 0 then s.setBrick bk { b with fm := { f with stat := setBit f.stat 1 true } }
  else
    let segs := f.segs ++ [{ addr := f.txa, b := f.txb }]
    if bit v 15 then
      let c := courseOf bk
      let x := s.course c
      let gather := decide (8 < (segs.filter (fun g => decide (g.len ≠ 0))).length)
      let fr : TxFrame := { brick := localOf bk, seqno := f.seqno, segs := segs, ctl := v, dropped := txDropped segs v, got := [], id := none }
      let s1 := s.setBrick bk { b with fm := { f with segs := [], seqno := f.seqno + 1, stat := if gather then setBit f.stat 2 true else f.stat } }
      (s1.setCourse c { x with fmTx := x.fmTx ++ [fr] }).postDropped bk (x.fmTx.length + 1)
    else s.setBrick bk { b with fm := { f with segs := segs } }

/-! ### Receive bursts (R218 to R221, R225) -/

/-- The local brick that receives class c (FM_RXMAP, R214). -/
def Course.classBrick (x : Course) (c : Fin 8) : Fin 4 := ⟨bits x.rxmap (2 * c.val + 1) (2 * c.val) % 4, by omega⟩

/-- Bytes of a frame that a buffer of L words at a lane takes (R218). -/
def rxRoom (len lane : Nat) : Nat := 2 * (len - 8) - lane

/-- The metadata words of a received frame (R220). -/
def metaWords (f : RxFrame) (trunc : Bool) : List Word :=
  let i := f.info
  let w1 := i.ingress.code * 1024 + i.cls.val * 128 + b2n i.err * 64 + b2n trunc * 32 + b2n i.tsValid * 16 + b2n i.td * 8
  [BitVec.ofNat 16 f.bytes.length, BitVec.ofNat 16 w1] ++ (List.range 6).map (fun k => i.ts.extractLsb' (16 * k) 16)

/-- Write bytes into a bank of 131,072 bytes from byte address a on, wrapping (R97, R219). -/
def bankBytes (m : Memory) (a : Nat) : List Byte → Memory
  | [] => m
  | b :: bs => bankBytes (Sparse.write bankBlank m (a % 131072) b) (a + 1) bs

/-- The words that byte addresses a to a + n - 1 touch, in address order. -/
def wordsOf (a n : Nat) : List Nat := if n = 0 then [] else (List.range ((a + n - 1) / 2 - a / 2 + 1)).map (fun i => (a / 2 + i) % 65536)

/-- A frame leaves receive staging. -/
def Course.dropRx (x : Course) : Course := { x with fmRx := x.fmRx.tail }

/-- The frame at the head of staging takes the oldest buffer of its brick, or is dropped and counted (R218). -/
def State.takeBuffer (s : State) (c : Fin 13) (f : RxFrame) : State × Option RxFrame :=
  let b := (s.course c).classBrick f.info.cls
  let bk := brickOf c b
  let q := (s.brick bk).fm
  match f.buf with
  | some _ => (s, some f)
  | none =>
    match q.bufs with
    | (a, l) :: rest =>
      (s.modBrick bk (fun x => { x with fm := { q with bufs := rest } }), some { f with buf := some (b, a, bits l 11 0, bit l 15) })
    | [] => (s.modBrick bk (fun x => { x with fm := { q with nobuf := satInc q.nobuf } }), none)

/-- The staged part of the head frame is a whole cell, or its remainder, not yet written (R151, R225). -/
def RxFrame.burstReady (f : RxFrame) : Bool :=
  !f.dropped && decide (f.written + min 256 (f.bytes.length - f.written) ≤ f.staged ∧ 0 < f.staged)

/-- One receive burst of the frame mover, master 4: a cell of the head frame, with the metadata and the completion
after the last one (R218 to R221). -/
def State.rxBurst (s : State) (c : Fin 13) (ct : List Contention) : State :=
  match (s.course c).fmRx with
  | f :: rest =>
    if f.burstReady then
      match s.takeBuffer c f with
      | (s1, none) =>
        let f1 := { f with dropped := true }
        s1.modCourse c (fun x => { x with fmRx := if f.bytes.length ≤ f.staged then rest else f1 :: rest })
      | (s1, some f1) =>
        match f1.buf with
        | some (b, a, l, lane) =>
          let x := s1.course c
          let lam := b2n lane
          let room := rxRoom l lam
          let cell := min 256 (f1.bytes.length - f1.written)
          let stored := min f1.bytes.length room
          let part := ((f1.bytes.drop f1.written).take cell).take (room - f1.written)
          let start := 2 * a.toNat + lam + f1.written
          let last := decide (f1.bytes.length ≤ f1.written + cell)
          let trunc := decide (room < f1.bytes.length)
          let mw := if last then metaWords f1 trunc else []
          let m := a.toNat + (lam + stored + 1) / 2
          let addrs := wordsOf start part.length ++ (List.range mw.length).map (fun i => (m + i) % 65536)
          let n0 := max (max (x.cycleAt s1.now) x.fmFree) (x.cycleAt (f.at_ + 3))
          let n1 := burstEnd x.mode 4 n0 addrs ct
          let bank1 := bankBytes x.bank start part
          let bank2 := Memory.setWords bank1 65536 m mw
          let f2 := { f1 with written := f1.written + cell }
          let x1 := { x with bank := bank2, fmFree := n1, fmRx := if last then rest else f2 :: rest }
          let s2 := (s1.at_ (x.base + n1 * brickCycle)).setCourse c (x1.lose 4 (n1 - n0 - addrs.length))
          let s3 := s2.jrec c (.fmburst false (BitVec.ofNat 16 (start / 2)) (addrs.map (fun i => bank2.word i)) addrs.length n0)
          if last then
            let w1 : Word := BitVec.ofNat 16 (0x8000 + b2n f1.info.err * 0x4000 + b2n trunc * 0x2000 + stored)
            (s3.modBrick (brickOf c b) (fun k => { k with fm := { k.fm with rxc := k.fm.rxc ++ [(a, w1)] } })).jrec c
              (.fmcomp b 0 a w1 n1)
          else s3
        | none => s
    else s
  | [] => s

/-! ### Transmit bursts (R222, R223, R225, R520) -/

/-- The byte addresses in the bank of a frame's byte stream, in order (R222). -/
def streamAddrs : List TxSeg → List Nat
  | [] => []
  | g :: gs => (List.range g.len).map (fun i => (2 * g.addr.toNat + g.lane + i) % 131072) ++ streamAddrs gs

/-- Consecutive byte addresses of one word are one request. -/
def wordRequests : List Nat → List Nat
  | [] => []
  | a :: as =>
    match wordRequests as with
    | w :: ws => if w = a / 2 then w :: ws else a / 2 :: w :: ws
    | [] => [a / 2]

/-- The transmit staging buffer has room for a cell (R520). -/
def Course.txRoom (x : Course) (t : Nat) : Bool := decide ((x.txCells.filter (fun e => decide (t < e))).length < 2)

/-- The flow context that a frame names denies a frame of course c (R306 step 1), which its completion reports. -/
def State.ownerDenied (s : State) (ctl : Word) (c : Fin 13) : Bool :=
  bit ctl 14 && decide (bits (s.reg (0x900000 + bits ctl 7 0 * 0x100)) 11 8 ≠ c.val)

/-- What a transmit burst hands over: the frame it read from, the bytes of the cell, the times at which the cell began
and ended to enter CPn, and whether it was the frame's last (R223, R520). -/
structure TxCell where
  frame : TxFrame
  bytes : List Byte
  start : Nat
  leave : Nat
  first : Bool
  last  : Bool
deriving DecidableEq, Repr

/-- One transmit burst: a cell of the oldest open frame, read at its own time (R222, R223, R225, R520). -/
def State.txBurst (s : State) (c : Fin 13) (ct : List Contention) : State × Option TxCell :=
  let x := s.course c
  match takeFirst (fun (f : TxFrame) => !f.dropped) x.fmTx with
  | some (f, rest) =>
    if x.txRoom s.now then
      let addrs := ((streamAddrs f.segs).drop f.got.length).take 256
      let words := wordRequests addrs
      let n0 := max (x.cycleAt s.now) x.fmFree
      let n1 := burstEnd x.mode 4 n0 words ct
      let bytes := addrs.map (fun a => Sparse.read bankBlank x.bank a)
      let id := f.id.getD s.mortar.nextId
      let f1 := { f with got := f.got ++ bytes, id := some id }
      let done := decide ((streamAddrs f.segs).length ≤ f1.got.length)
      let t1 := x.base + n1 * brickCycle
      let enter := max t1 (x.txCells.getLastD 0)
      let leave := enter + 4 * addrs.length
      let fm1 := if done then rest else x.fmTx.map (fun g => if g = f then f1 else g)
      let x1 := { x with fmFree := n1, fmTx := fm1, txCells := x.txCells.filter (fun e => decide (s.now < e)) ++ [leave] }
      let s1 := (s.at_ t1).setCourse c (x1.lose 4 (n1 - n0 - words.length))
      let s2 := s1.jrec c (.fmburst true (BitVec.ofNat 16 (words.headD 0)) [] words.length n0)
      let cell : TxCell := { frame := f1, bytes := bytes, start := enter, leave := leave, first := decide (f.got = []), last := done }
      if done then
        let bk := brickOf c f.brick
        ((s2.postTxComp bk (s.ownerDenied f.ctl c) f.seqno).postDropped bk (x.fmTx.length + 1), some cell)
      else (s2, some cell)
    else (s, none)
  | none => (s, none)

/-! ### Levels -/

/-- FM_LVL0 and FM_LVL1 (R215). -/
def FmQueue.lvl0 (f : FmQueue) : Word := BitVec.ofNat 16 (f.bufs.length * 256 + f.rxc.length)
def State.fmLvl1 (s : State) (bk : Fin 52) : Word := BitVec.ofNat 16 (s.txSlots bk * 256 + (s.brick bk).fm.txc.length)

end Sys2Proof.Machine
end

