-- ==== Sys2Proof/Machine/TileFifo.lean ====
section
/-! DEFINITION. The tile FIFOs and the tile clock, apart from the machine: R176, R177, R192 to R196. -/

namespace Sys2Proof.Machine

/-! ### FIFOs -/

/-- Stages (native) or banks (compatibility) of a FIFO (R192, R196). -/
def fifoCap (compat : Bool) : Nat := if compat then 2 else 8

/-- A tile-side operation in the clk_periph cycle that begins at `e` reaches the brick side then (R193). -/
def tileOpVisible (e : Nat) : Nat := e + periphCycle + 3 * brickCycle

/-- A brick operation in the clk_brick cycle that begins at `c` reaches the tile side then (R193): the second
clk_periph edge strictly after the end of that cycle. -/
def brickOpVisible (c : Nat) : Nat := ((c + brickCycle) / periphCycle + 2) * periphCycle

/-- Banks that the writer does not hold at time t: passed on, or freed but not yet seen (R193). -/
def TileFifo.away (f : TileFifo) (t : Nat) : Nat := f.banks.length + (f.freed.filter (fun x => decide (t < x))).length

/-- The writer's side is full (R194, R196). -/
def TileFifo.full (f : TileFifo) (compat : Bool) (t : Nat) : Bool := decide (fifoCap compat ≤ f.away t)

/-- The reader's side is empty (R194, R196). -/
def TileFifo.empty (f : TileFifo) (t : Nat) : Bool :=
  match f.banks with
  | (_, vis) :: _ => decide (t < vis)
  | [] => true

/-- Free words that the writer sees (TILE_LVL.TXFREE). -/
def TileFifo.free (f : TileFifo) (compat : Bool) (t : Nat) : Nat :=
  if compat then (if f.full true t then 0 else 4 - f.part.length) else 8 - f.away t

/-- Words that the reader sees (TILE_LVL.RXLVL). -/
def TileFifo.level (f : TileFifo) (compat : Bool) (t : Nat) : Nat :=
  if compat then
    match f.banks with
    | (ws, vis) :: _ => if t < vis then 0 else ws.length
    | [] => 0
  else (f.banks.filter (fun b => decide (b.2 ≤ t))).length

/-- Pass the bank being filled to the reader, if it holds a word (R196). -/
def TileFifo.pass (f : TileFifo) (vis : Nat) : TileFifo :=
  if f.part = [] then f else { f with banks := f.banks ++ [(f.part, vis)], part := [] }

/-- Write a word into a FIFO with room. -/
def TileFifo.push (f : TileFifo) (compat : Bool) (vis : Nat) (w : Word) : TileFifo :=
  if compat then
    let f1 := { f with part := f.part ++ [w] }
    if f1.part.length = 4 then f1.pass vis else f1
  else { f with banks := f.banks ++ [([w], vis)] }

/-- Take the oldest word of a FIFO that is not empty at time t; the stage or the bank is seen free at `vis`. -/
def TileFifo.pop (f : TileFifo) (t vis : Nat) : Option (Word × TileFifo) :=
  match f.banks with
  | (w :: ws, v) :: rest =>
    if t < v then none
    else
      let banks := if ws = [] then rest else (ws, v) :: rest
      let freed := f.freed.filter (fun x => decide (t < x))
      some (w, { f with banks := banks, freed := if ws = [] then freed ++ [vis] else freed, last := w })
  | _ => none

/-! ### The tile clock -/

/-- 2^24 (R176). -/
def accSpan : Nat := 16777216

/-- k tile cycles on with a constant step (R176). -/
def Tile.cyclesOn (t : Tile) (step k : Nat) : Tile :=
  let m := (k * accSpan - t.acc + step - 1) / step
  { t with edge := t.edge + periphCycle * m, acc := t.acc + m * step - k * accSpan }

/-- k tile cycles on; a new step applies from the first tile cycle boundary (R177). -/
def Tile.advance (t : Tile) (k : Nat) : Tile :=
  if k = 0 then t
  else
    let t1 := t.cyclesOn t.step 1
    { t1 with step := t1.stepNext }.cyclesOn t1.stepNext (k - 1)

/-- The tile edges that begin before root time `at_`, counted from the one at `edge`; the clock runs on whatever the tile
does. -/
def Tile.edgesBefore (t : Tile) (at_ : Nat) : Nat :=
  if at_ ≤ t.edge then 0
  else (t.acc + ((at_ - t.edge + periphCycle - 1) / periphCycle - 1) * t.step) / accSpan + 1

/-- Move `edge` to the first tile edge at or after root time `at_`. -/
def Tile.sync (t : Tile) (at_ : Nat) : Tile := t.advance (t.edgesBefore at_)

/-! ### Fields of the configuration registers (R201) -/

def Tile.lsbFirst (t : Tile) : Bool := bit t.cfg0 13
def Tile.autoGet (t : Tile) : Bool := bit t.cfg0 12
def Tile.autoPut (t : Tile) : Bool := bit t.cfg0 11
def Tile.sclkIdle (t : Tile) : Bool := bit t.cfg0 9
def Tile.sclkEn (t : Tile) : Bool := bit t.cfg0 8
def Tile.sclkPin (t : Tile) : Nat := bits t.cfg0 7 6
def Tile.outPin (t : Tile) : Nat := bits t.cfg0 5 4
def Tile.inPin (t : Tile) : Nat := bits t.cfg0 3 2
def Tile.brPin (t : Tile) : Nat := bits t.cfg0 1 0
def Tile.mkEn (t : Tile) : Bool := bit t.cfg1 2
def Tile.mkPin (t : Tile) : Nat := bits t.cfg1 1 0

/-- The level a tile pin drives: the shift clock holds its pin at SCLK_IDLE between bits (R181, R519). -/
def Tile.pinOut (t : Tile) (i : Nat) : Bool := if t.sclkEn ∧ i = t.sclkPin then t.sclkIdle else bit t.lvl i

/-! ### The shift register (R188) -/

def Tile.srh (t : Tile) : Word := t.sr.extractLsb' 16 16
def Tile.srl (t : Tile) : Word := t.sr.extractLsb' 0 16

/-- Load SRH (false) or SRL (true); the output half sets OB, the input half clears IB (R188). -/
def Tile.loadHalf (t : Tile) (low : Bool) (w : Word) : Tile :=
  let t1 := { t with sr := if low then t.srh ++ w else w ++ t.srl }
  if low = t.lsbFirst then { t1 with ob := 16 } else { t1 with ib := 0 }

/-- SRH (false) or SRL (true). -/
def Tile.half (t : Tile) (low : Bool) : Word := if low then t.srl else t.srh

/-- One shift that enters bit b (R188). -/
def Tile.shiftIn (t : Tile) (b : Bool) : Tile :=
  { t with sr := if t.lsbFirst then setBit (t.sr >>> 1) 31 b else setBit (t.sr <<< 1) 0 b }

/-- The output bit of SR (R188). -/
def Tile.outBit (t : Tile) : Bool := if t.lsbFirst then bit t.sr 0 else bit t.sr 31

/-- The mark action of an instruction (R183). -/
def Tile.mark (t : Tile) (mk : BitVec 2) : Tile :=
  if t.mkEn then
    if mk = 1 then { t with lvl := setBit t.lvl t.mkPin false }
    else if mk = 2 then { t with lvl := setBit t.lvl t.mkPin true }
    else if mk = 3 then { t with lvl := setBit t.lvl t.mkPin (!bit t.lvl t.mkPin) }
    else t
  else t

/-- Counter C0 (false) or C1 (true). -/
def Tile.counter (t : Tile) (c : Bool) : Word := if c then t.c1 else t.c0
def Tile.setCounter (t : Tile) (c : Bool) (v : Word) : Tile := if c then { t with c1 := v } else { t with c0 := v }

/-- CPY's source by register code (R184). -/
def Tile.cpySource (t : Tile) (src : BitVec 3) (pins : BitVec 4) : Word :=
  if src = 0 then pins.setWidth 16 else if src = 1 then t.c0 else if src = 2 then t.c1 else if src = 3 then t.srh
  else if src = 4 then t.srl else if src = 5 then t.scnt else 0

/-- CPY's function: copy, invert, reverse (R184). -/
def cpyFn (fn : BitVec 2) (w : Word) : Word := if fn = 1 then ~~~ w else if fn = 2 then w.reverse else w

/-- CPY's destination; SCNT only while a SHF is in progress (R184, R203). -/
def Tile.cpyDest (t : Tile) (dest : BitVec 3) (inShf : Bool) (w : Word) : Tile :=
  if dest = 0 then { t with lvl := w.setWidth 4 } else if dest = 1 then { t with c0 := w }
  else if dest = 2 then { t with c1 := w } else if dest = 3 then t.loadHalf false w else if dest = 4 then t.loadHalf true w
  else if dest = 5 ∧ inShf then { t with scnt := w } else t

/-- DRV (R184). -/
def Tile.drive (t : Tile) (dirs : Bool) (mask value : BitVec 4) : Tile :=
  if dirs then { t with dir := (t.dir &&& ~~~ mask) ||| (value &&& mask) }
  else { t with lvl := (t.lvl &&& ~~~ mask) ||| (value &&& mask) }

/-- GET at the tile edge: the word into its half, or none when the tile side is empty (R190, R193). -/
def Tile.get (t : Tile) (low : Bool) : Option Tile :=
  match t.tx.pop t.edge (tileOpVisible t.edge) with
  | some (w, f) => some ({ t with tx := f }.loadHalf low w)
  | none => none

/-- PUT at the tile edge, or none when the tile side is full (R190, R196). The input half clears IB (R188). -/
def Tile.put (t : Tile) (low endFlag : Bool) : Option Tile :=
  if t.rx.full t.compat t.edge then none
  else
    let vis := tileOpVisible t.edge
    let f := t.rx.push t.compat vis (t.half low)
    let t1 := { t with rx := if t.compat && endFlag then f.pass vis else f }
    some (if low = t.lsbFirst then t1 else { t1 with ib := 0 })

/-- BR's condition (R184). -/
def Tile.brHolds (t : Tile) (cond : BitVec 3) (pins : BitVec 4) : Bool :=
  if cond = 0 then true else if cond = 1 then bit pins t.brPin else if cond = 2 then !bit pins t.brPin
  else if cond = 3 then decide (t.c0 = 0) else if cond = 4 then decide (t.c1 = 0) else if cond = 5 then decide (t.c0 = t.c1)
  else !t.tx.empty t.edge

/-- The condition of a level WAITP (R184). -/
def levelHolds (kind : BitVec 3) (pin : BitVec 2) (pins : BitVec 4) : Bool :=
  if kind = 0 then !bit pins pin.toNat else if kind = 1 then bit pins pin.toNat else false

/-- The edge that an edge WAITP waits for (R184, R187). -/
def edgeMatches (kind : BitVec 3) (rising : Bool) : Bool :=
  if kind = 2 then rising else if kind = 3 then !rising else decide (kind = 4)

/-- The word is illegal (R185). -/
def tileIllegal (w : Word) : Bool :=
  let op := bits w 15 12
  if op = 0 then decide (2 ≤ bits w 9 8) || decide (bits w 7 0 ≠ 0)
  else if op = 1 then decide (bits w 9 7 = 7) || decide (bits w 6 5 ≠ 0)
  else if op = 2 then decide (bits w 8 5 ≠ 0)
  else if op = 3 then decide (5 ≤ bits w 9 7) || decide (bits w 6 2 ≠ 0)
  else if op = 4 then bit w 9 && decide (bits w 7 0 ≠ 0)
  else if op = 5 then decide (bits w 9 8 = 3) || (bit w 5 || (bit w 7 && decide (bits w 4 0 ≠ 0)))
  else if op = 6 then decide (bits w 7 0 ≠ 0)
  else if op = 7 then decide (bits w 6 0 ≠ 0)
  else if op = 8 then bit w 9
  else if op = 9 then false
  else if op = 10 then
    decide (bits w 9 7 = 6) || (decide (bits w 6 4 = 6) || (decide (bits w 3 2 = 3) || decide (bits w 1 0 ≠ 0)))
  else true

end Sys2Proof.Machine
end

