-- ==== Sys2Proof/Machine/TileOps.lean ====
section
/-! DEFINITION. Tiles in the machine: pins and the crossbar, one tile instruction at its place in time, the registers
of a tile and its reset (R178 to R208). -/

namespace Sys2Proof.Machine

/-! ### Pins and the crossbar (R178 to R182) -/

/-- BAR0 offset of GPIO_OWN(n) (R182). -/
def gpioOwnOff (n : Nat) : Nat := 0x1000 + 4 * n

/-- GPIO_OWN(n) (R182). -/
def State.gpioOwn (s : State) (n : Nat) : Reg32 := s.reg (gpioOwnOff n)

/-- The level that the device drives on GPIO n, or none (R179). -/
def State.gpioDrive (s : State) (n : Nat) : Option Bool :=
  let g := s.gpioOwn n
  match s.tiles[bits g 15 8]? with
  | some t =>
    if bit g 31 ∧ t.run ≠ .reset ∧ bit t.dir (bits g 1 0) then some (t.pinOut (bits g 1 0)) else none
  | none => none

/-- The level that pin i of a tile reads: 0 with its enable clear; what the device drives; else what stands at the
ball (R178, R179). -/
def State.pinIn (s : State) (t : Tile) (ball : BitVec 4) (i : Nat) : Bool :=
  let f := bits t.pinmap (8 * i + 7) (8 * i)
  if f < 128 then false
  else match s.gpioDrive (f - 128) with
    | some b => b
    | none => bit ball i

/-- The four input levels of a tile. -/
def State.pinsIn (s : State) (t : Tile) (ball : BitVec 4) : BitVec 4 :=
  (List.range 4).foldl (fun v i => setBit v i (s.pinIn t ball i)) 0

/-! ### Issue of tile instructions -/

/-- The word at a tile's PC. -/
def Tile.word (t : Tile) : Word := t.prog[t.pc.toNat]

/-- The tile stands at an instruction boundary and would start the next instruction (R202, R205). -/
def State.tileReady (s : State) (tl : Fin 208) : Bool :=
  let t := s.tile tl
  s.blocksUp && (!s.gated (courseOfTile tl) && (decide (t.run = .running) && (decide (t.cur = none) &&
    (t.inj.isNone && decide ((s.course (courseOfTile tl)).mode ≠ 2)))))

/-- A tile instruction issues: the tile is ready and the word at its PC is `w` and legal. The mark action applies from the
edge that starts its first tile cycle (R183). -/
def State.tileIssue (s : State) (tl : Fin 208) (w : Word) (mk : BitVec 2) (f : Tile → Tile) : State :=
  let t := s.tile tl
  if s.tileReady tl ∧ t.word = w ∧ tileIllegal w = false then (s.at_ t.edge).setTile tl (f (t.mark mk)) else s

/-- The instruction done: k tile cycles on and to the next address (R186). -/
def Tile.next (t : Tile) (k : Nat) : Tile := { t with pc := t.pc + 1 }.advance k

/-- The instruction done with a transfer to `addr` (R184). -/
def Tile.goto (t : Tile) (addr : BitVec 5) : Tile := { t with pc := addr }.advance 1

/-- The word of a tile instruction: OP, MK and the ten operand bits (R183). -/
def tileWord (op : Nat) (mk : BitVec 2) (operand : Nat) : Word := BitVec.ofNat 16 (op * 0x1000 + mk.toNat * 0x400 + operand)

/-- An instruction in progress has completed: PC at the next address, and the tile runs on or stops (R205). -/
def Tile.finish (t : Tile) : Tile :=
  let t1 := { t with pc := t.pc + 1, cur := none }
  if t1.runBit then { t1 with run := .running } else { t1 with run := .stopped }

/-- GET of a native instruction at its first cycle (R190). -/
def Tile.startGet (t : Tile) (blk low : Bool) : Tile :=
  match t.get low with
  | some t1 => t1.next 1
  | none => if blk then { t with cur := some (.get low), run := .stalledTx } else ({ t with txUnder := true }).next 1

/-- PUT at its first cycle (R190). -/
def Tile.startPut (t : Tile) (blk low endFlag : Bool) : Tile :=
  match t.put low endFlag with
  | some t1 => t1.next 1
  | none => if blk then { t with cur := some (.put low endFlag), run := .stalledRx } else ({ t with rxOver := true }).next 1

/-- SHF at its first cycle: SCNT bits to shift; none takes one cycle (R184, R186). -/
def Tile.startShf (t : Tile) (mode : BitVec 2) (n : Nat) : Tile :=
  if n = 0 then { t with scnt := 0 }.next 1 else { t with scnt := BitVec.ofNat 16 n, cur := some (.shf mode false) }

/-- MODE 0 out, 1 in, 2 both (R184). -/
def shfOut (mode : BitVec 2) : Bool := decide (mode ≠ 1)
def shfIn (mode : BitVec 2) : Bool := decide (mode ≠ 0)

/-- The end of one bit: SCNT counts down and the last bit ends the SHF (R189). -/
def Tile.bitDone (t : Tile) : Tile :=
  let t1 := { t with scnt := t.scnt - 1, run := .running }
  if t1.scnt = 0 then t1.finish else t1

/-- The automatic put of the input half, or a stall (R189). -/
def Tile.autoPutStep (t : Tile) (mode : BitVec 2) : Tile :=
  match t.put (!t.lsbFirst) false with
  | some t1 => { t1 with cur := some (.shf mode false) }.bitDone
  | none => { t with cur := some (.shf mode true), run := .stalledRx }

/-- One bit of a SHF after its automatic get: it takes one tile cycle, two with the shift clock (R189, R191). -/
def Tile.shiftBit (t : Tile) (mode : BitVec 2) (level : Bool) : Tile :=
  let t1 := if shfOut mode then { t with lvl := setBit t.lvl t.outPin t.outBit } else t
  let t2 := t1.shiftIn (shfIn mode && level)
  let t3 := if shfOut mode then { t2 with ob := t2.ob - 1 } else t2
  let t4 := if shfIn mode then { t3 with ib := min (t3.ib + 1) 32 } else t3
  let t5 := t4.advance (if t4.sclkEn then 2 else 1)
  if shfIn mode ∧ t5.autoPut ∧ t5.ib = 16 then t5.autoPutStep mode else t5.bitDone

/-- The next bit of the SHF in progress, or a stalled tile cycle (R189). -/
def Tile.shfStep (t : Tile) (mode : BitVec 2) (putWaits level : Bool) : Tile :=
  if putWaits then
    match t.put (!t.lsbFirst) false with
    | some _ => t.autoPutStep mode
    | none => t.advance 1
  else if t.scnt = 0 then t.finish
  else if shfOut mode ∧ t.autoGet ∧ t.ob = 0 then
    match t.get t.lsbFirst with
    | some t1 => { t1 with run := .running }.shiftBit mode level
    | none => { t with run := .stalledTx }.advance 1
  else { t with run := .running }.shiftBit mode level

/-! ### Injection (R202 to R204) -/

/-- The slot of a tile can be taken now (R202). -/
def State.tileInjectable (s : State) (tl : Fin 208) : Bool :=
  let t := s.tile tl
  s.blocksUp && (!s.gated (courseOfTile tl) && (t.inj.isSome && decide (t.run ≠ .reset)))

/-- The refusals of R204 that depend on the word and the tile. -/
def Tile.injRefused (t : Tile) (w : Word) : Bool :=
  let op := bits w 15 12
  tileIllegal w || (decide (op = 5 ∨ op = 3 ∨ op = 4) || ((decide (op = 0) && decide (bits w 9 8 = 1)) ||
    ((decide (op = 1 ∨ op = 2) && decide (t.cur ≠ none)) ||
    ((decide (op = 6) && (bit w 9 && t.tx.empty t.edge)) || (decide (op = 7) && (bit w 9 && t.rx.full t.compat t.edge))))))

/-- A SHF is in progress. -/
def Tile.inShf (t : Tile) : Bool :=
  match t.cur with
  | some (.shf ..) => true
  | _ => false

/-- The partial word discarded by an injection that wrote SR or SCNT (R203). -/
def Tile.discardPartial (t : Tile) (loadedOut : Bool) : Tile :=
  if t.inShf then { t with ib := 0, ob := if loadedOut then t.ob else 0, partialLost := true } else t

/-- What an injected word does (R184, R203, R204); GET and PUT act as their first cycle. -/
def Tile.injected (t : Tile) (w : Word) (pins : BitVec 4) : Tile :=
  let op := bits w 15 12
  if op = 1 then (if t.brHolds (w.extractLsb' 7 3) pins then { t with pc := w.extractLsb' 0 5 } else t)
  else if op = 2 then
    let c := bit w 9
    let v := t.counter c - 1
    let t1 := t.setCounter c v
    if v = 0 then t1 else { t1 with pc := w.extractLsb' 0 5 }
  else if op = 6 then
    match t.get (bit w 8) with
    | some t1 => t1.discardPartial (decide (bit w 8 = t.lsbFirst))
    | none => { t with txUnder := true }
  else if op = 7 then
    match t.put (bit w 8) (bit w 7) with
    | some t1 => t1
    | none => { t with rxOver := true }
  else if op = 8 then t.drive (bit w 8) (w.extractLsb' 4 4) (w.extractLsb' 0 4)
  else if op = 9 then t.setCounter (bit w 9) (BitVec.ofNat 16 (bits w 8 0))
  else if op = 10 then
    let dest : BitVec 3 := w.extractLsb' 7 3
    let t1 := t.cpyDest dest t.inShf (cpyFn (w.extractLsb' 2 2) (t.cpySource (w.extractLsb' 4 3) pins))
    if dest = 3 then t1.discardPartial (decide (false = t.lsbFirst))
    else if dest = 4 then t1.discardPartial (decide (true = t.lsbFirst))
    else if dest = 5 then t1.discardPartial false
    else t1
  else t

/-- A HOLD that stands still during an injection counts on from where it was (R202). -/
def Tile.holdCounted (t : Tile) (at_ : Nat) : Tile :=
  match t.cur with
  | some (.hold n) => { t.sync at_ with cur := some (.hold (n - t.edgesBefore at_)) }
  | _ => t.sync at_

/-- Take the slot: refuse it, or execute it in one tile cycle; a SHF left with SCNT = 0 completes at once (R202 to R204). -/
def Tile.takeInjection (t : Tile) (w : Word) (at_ : Nat) (pins : BitVec 4) : Tile :=
  let t0 := { t with inj := none }
  if (t0.sync at_).injRefused w then { t0 with injResult := 2 }
  else
    let t1 := (((t0.holdCounted at_).mark (w.extractLsb' 10 2)).injected w pins)
    let t2 := { t1 with injResult := 1 }.advance 1
    if t2.inShf ∧ t2.scnt = 0 then t2.finish else t2

/-! ### The brick side (R193, R194) -/

/-- The brick side of the FIFOs during a reset hold shows full and empty (R207). -/
def Tile.held (t : Tile) : Bool := decide (t.run = .reset)

/-- TX_FULL (R194, R207). -/
def Tile.txFull (t : Tile) (at_ : Nat) : Bool := t.held || t.tx.full t.compat at_
/-- RX_EMPTY (R194, R207). -/
def Tile.rxEmpty (t : Tile) (at_ : Nat) : Bool := t.held || t.rx.empty at_

/-- A brick write of TtTX with IO2 in the clk_brick cycle at `at_` (R194). -/
def Tile.txWrite (t : Tile) (at_ : Nat) (v : Word) : Tile :=
  let t1 := { t with txLast := v }
  if t.txFull at_ then { t1 with txOver := true } else { t1 with tx := t1.tx.push t1.compat (brickOpVisible at_) v }

/-- A brick read of TtRX (R194): the word popped, or the last one. -/
def Tile.rxRead (t : Tile) (at_ : Nat) : Word × Tile :=
  if t.rxEmpty at_ then (t.rx.last, { t with rxUnder := true })
  else match t.rx.pop at_ (brickOpVisible at_) with
    | some (w, f) => (w, { t with rx := f })
    | none => (t.rx.last, { t with rxUnder := true })

/-- TILE_CTL.TX_SEND (R196). -/
def Tile.txSend (t : Tile) (at_ : Nat) : Tile :=
  if t.compat ∧ t.held = false then { t with tx := t.tx.pass (brickOpVisible at_) } else t

/-- TILE_LVL (R201). -/
def Tile.lvlReg (t : Tile) (at_ : Nat) : Word :=
  if t.held then 0 else BitVec.ofNat 16 (t.tx.free t.compat at_ * 256 + t.rx.level t.compat at_)

/-- TILE_STATUS.STATE (R201). -/
def TileRun.code : TileRun → Nat
  | .reset => 0 | .stopped => 1 | .running => 2 | .waiting => 3 | .stalledTx => 4 | .stalledRx => 5

/-- TILE_STATUS (R201). -/
def Tile.statusReg (t : Tile) (at_ : Nat) : Word :=
  BitVec.ofNat 16 (t.run.code * 2 ^ 13 + b2n t.illegal * 2 ^ 12 + b2n t.partialLost * 2 ^ 11 + t.injResult.toNat * 2 ^ 9 +
    b2n t.inj.isSome * 2 ^ 8 + b2n t.rxOver * 2 ^ 7 + b2n t.txUnder * 2 ^ 6 + b2n t.rxUnder * 2 ^ 5 + b2n t.txOver * 2 ^ 4 +
    b2n t.compat * 2 ^ 3 + b2n (t.txFull at_) * 2 + b2n (t.rxEmpty at_))

/-- A read of tile register r, 0x2 to 0xF (R198): none has a side effect. -/
def Tile.regRead (t : Tile) (r : Nat) (at_ : Nat) : Word :=
  if r = 0x2 then t.lvlReg at_ else if r = 0x3 then t.statusReg at_
  else if r = 0x4 then BitVec.ofNat 16 (b2n t.compatNext * 8 + b2n t.runBit)
  else if r = 0x5 then t.cfg0 else if r = 0x6 then t.cfg1 else if r = 0x7 then t.stepLo else if r = 0x8 then t.stepHi.setWidth 16
  else if r = 0xA then BitVec.ofNat 16 (t.ib * 1024 + t.ob * 32 + t.pc.toNat) else if r = 0xB then t.c0 else if r = 0xC then t.c1
  else if r = 0xD then t.scnt else if r = 0xE then t.paddr.setWidth 16 else if r = 0xF then t.prog[t.paddr.toNat] else 0

/-- A write of TILE_CTL.RUN (R205). -/
def Tile.setRun (t : Tile) (v : Bool) (at_ : Nat) : Tile :=
  if v then
    if t.run = .stopped ∧ t.runBit = false then { t with runBit := true, run := .running }.sync (at_ + 1) else { t with runBit := true }
  else
    let t1 := { t with runBit := false }
    match t1.run, t1.cur with
    | .reset, _ => t1
    | _, some (.shf ..) => t1
    | _, _ => { t1 with run := .stopped, cur := none }

/-- A TILE reset begins: the tile side is held for two clk_periph cycles (R207). -/
def Tile.resetBegin (t : Tile) (at_ : Nat) : Tile :=
  { t with pc := 0, sr := 0, c0 := 0, c1 := 0, scnt := 0, ob := 0, ib := 0, lvl := 0, dir := 0, acc := 0,
           edge := edgeFrom periphCycle at_ + 2 * periphCycle, tx := .reset, rx := .reset, run := .reset, cur := none,
           holdEnd := some (edgeFrom periphCycle at_ + 2 * periphCycle), runBit := false, compat := t.compatNext,
           illegal := false, partialLost := false, rxOver := false, txUnder := false, rxUnder := false, txOver := false,
           injResult := if t.inj.isSome then 2 else 0, inj := none, step := t.stepNext }

/-- The hold of a TILE reset ends: STOPPED, or running from PC 0 if RUN was written meanwhile (R207). -/
def Tile.resetEnd (t : Tile) : Tile :=
  match t.holdEnd with
  | some e =>
    let t1 := { t with holdEnd := none, run := .stopped }
    if t1.runBit then { t1 with run := .running }.sync (e + 1) else t1
  | none => t

/-- The step that TILE_STEP_HI and TILE_STEP_LO form (R177). -/
def stepOf (hi : BitVec 8) (lo : Word) : Nat :=
  let v := hi.toNat * 65536 + lo.toNat
  if v = 0 then 1 else min v 0x800000

/-- A write of TILE_STEP_HI (R177). -/
def Tile.stepWrite (t : Tile) (v : Word) : Tile :=
  { t with stepHi := v.extractLsb' 0 8, stepNext := stepOf (v.extractLsb' 0 8) t.stepLo }

/-- A write of TILE_PDATA (R198, R206). -/
def Tile.pdataWrite (t : Tile) (v : Word) : Tile := { t with prog := t.prog.set t.paddr.toNat v, paddr := t.paddr + 1 }

/-- A write of TILE_INJ (R202, R204). -/
def Tile.injWrite (t : Tile) (v : Word) : Tile :=
  if t.held then { t with injResult := 2 } else if t.inj.isSome then t else { t with inj := some v }

/-- A write to the W1C bits of TILE_STATUS (R201). -/
def Tile.statusWrite (t : Tile) (v : Word) : Tile :=
  { t with illegal := t.illegal && !bit v 12, partialLost := t.partialLost && !bit v 11, rxOver := t.rxOver && !bit v 7,
           txUnder := t.txUnder && !bit v 6, rxUnder := t.rxUnder && !bit v 5, txOver := t.txOver && !bit v 4 }

/-- A write of TILE_CTL: RESET with its key, TX_SEND, COMPAT, RUN (R201). -/
def Tile.ctlWrite (t : Tile) (v : Word) (at_ : Nat) : Tile :=
  let t0 := if bit v 4 then t.txSend at_ else t
  let t1 := { t0 with compatNext := bit v 3 }
  if bit v 2 ∧ bits v 15 8 = 0x7E then t1.resetBegin at_ else t1.setRun (bit v 0) at_

/-- A write of tile register r, 0x3 to 0xF (R198); reserved bits read zero (R9). -/
def Tile.regWrite (t : Tile) (r : Nat) (v : Word) (at_ : Nat) : Tile :=
  if r = 0x3 then t.statusWrite v else if r = 0x4 then t.ctlWrite v at_
  else if r = 0x5 then { t with cfg0 := v &&& 0x3FFF } else if r = 0x6 then { t with cfg1 := v &&& 0x7 }
  else if r = 0x7 then { t with stepLo := v } else if r = 0x8 then t.stepWrite v else if r = 0x9 then t.injWrite v
  else if r = 0xE then { t with paddr := v.extractLsb' 0 5 } else if r = 0xF then t.pdataWrite v else t

/-- The offset of tile register r in the course window (R199). -/
def tileWinOff (tl : Fin 208) (r : Nat) : Nat := 0x1050000 + 0x100000 * (tl.val / 16) + 0x400 * (tl.val % 16) + 4 * r

/-- A write to a tile by a party (R199, R200, R468): its brick through the I/O space, others through the course window
under the brick-debug right; in one clk_periph cycle the brick's write to the same register wins. `r` numbers the
register; 0x40 + a is program word a and 0x60 the pin map. -/
def State.tileWrite (s : State) (p : Party) (tl : Fin 208) (r : Nat) (v : Nat) (f : Tile → Tile) : State :=
  let t := s.tile tl
  let now := s.now / periphCycle
  match p with
  | .brick k => if brickOfTile tl = k then s.setTile tl (f { t with brickWrite := some (now, r) }) else s
  | _ =>
    if s.brickDebug p ∧ s.gated (courseOfTile tl) = false ∧ t.brickWrite ≠ some (now, r) then s.setTile tl (f t)
    else s.refused p (tileWinOff tl r) v

/-- A COURSE reset of a tile: a TILE reset, and the COURSE-scope registers back to their reset values (R207, R208). -/
def Tile.courseReset (t : Tile) (at_ : Nat) : Tile :=
  { { t with cfg0 := 0, cfg1 := 0, step := 0x800000, stepNext := 0x800000, stepLo := 0, stepHi := 0x80, pinmap := 0,
             compatNext := false, paddr := 0, txLast := 0 }.resetBegin at_ with brickWrite := none }

end Sys2Proof.Machine
end

