-- ==== Sys2Proof/Machine/TileCmds.lean ====
section
/-! DEFINITION. The commands of the tile family (R184 to R207): tile instructions, their completion, the brick side of
the FIFOs, tile control and injection, and GPIO ownership. -/

namespace Sys2Proof.Machine

/-- The clk_brick cycle in which a brick access made now has its IO2 phase. -/
def State.brickEdge (s : State) : Nat := s.now / brickCycle * brickCycle

/-- The course of the tile runs tiles and its bricks: out of reset, not gated, not in replay (R209, R210). -/
def State.tileLive (s : State) (tl : Fin 208) : Bool :=
  s.blocksUp && (!s.gated (courseOfTile tl) && decide ((s.course (courseOfTile tl)).mode ≠ 2))

/-- The I/O address of register r of a tile (R198). -/
def tileIo (tl : Fin 208) (r : Nat) : Nat := 0x40 + 16 * (tl.val % 4) + r

/-- TTX_WRITE (R194). -/
def execTtxWrite (tl : Fin 208) (v : Word) (s : State) : Host.Outcome State Fault Refusal :=
  s.when_ (s.tileLive tl) (fun s => s.modTile tl (fun t => t.txWrite s.brickEdge v))

/-- TRX_READ (R194): the word popped, or the last one, is the value read and a journaled input. -/
def execTrxRead (tl : Fin 208) (s : State) : Host.Outcome State Fault Refusal :=
  s.when_ (s.tileLive tl) (fun s =>
    let (v, t) := (s.tile tl).rxRead s.brickEdge
    { (s.setTile tl t).journalRead (.brick (brickOfTile tl)) (tileIo tl 1) v.toNat with readValue := v.setWidth 32 })

/-- TILE_NOP: CTL with FN 0 (R184). -/
def execTileNop (tl : Fin 208) (mk : BitVec 2) (s : State) : Host.Outcome State Fault Refusal :=
  .next (s.tileIssue tl (tileWord 0 mk 0) mk (fun t => t.next 1))

/-- TILE_STOP: CTL with FN 1 (R184, R205). -/
def execTileStop (tl : Fin 208) (mk : BitVec 2) (s : State) : Host.Outcome State Fault Refusal :=
  .next (s.tileIssue tl (tileWord 0 mk 0x100) mk (fun t => { t.next 1 with run := .stopped, runBit := false }))

/-- TILE_BR (R184). -/
def execTileBr (tl : Fin 208) (mk : BitVec 2) (cond : BitVec 3) (addr : BitVec 5) (ball : BitVec 4) (s : State) :
    Host.Outcome State Fault Refusal :=
  let pins := s.pinsIn (s.tile tl) ball
  .next (s.tileIssue tl (tileWord 1 mk (cond.toNat * 128 + addr.toNat)) mk (fun t =>
    if t.brHolds cond pins then t.goto addr else t.next 1))

/-- LOOP (R184). -/
def execLoop (tl : Fin 208) (mk : BitVec 2) (c : Bool) (addr : BitVec 5) (s : State) : Host.Outcome State Fault Refusal :=
  .next (s.tileIssue tl (tileWord 2 mk (b2n c * 512 + addr.toNat)) mk (fun t =>
    let v := t.counter c - 1
    let t1 := t.setCounter c v
    if v = 0 then t1.next 1 else t1.goto addr))

/-- WAITP (R184, R186): a level that holds at the first cycle ends it in that cycle. -/
def execWaitp (tl : Fin 208) (mk : BitVec 2) (kind : BitVec 3) (pin : BitVec 2) (ball : BitVec 4) (s : State) :
    Host.Outcome State Fault Refusal :=
  let pins := s.pinsIn (s.tile tl) ball
  .next (s.tileIssue tl (tileWord 3 mk (kind.toNat * 128 + pin.toNat)) mk (fun t =>
    if levelHolds kind pin pins then t.next 1 else { t with cur := some (.waitp kind pin), run := .waiting }.advance 1))

/-- WAITP_COMPLETE (R186, R187): the condition holds at the start of a tile cycle, or its edge has been detected. -/
def execWaitpComplete (tl : Fin 208) (ball : BitVec 4) (edge : Option Bool) (s : State) : Host.Outcome State Fault Refusal :=
  let t := s.tile tl
  match t.cur with
  | some (.waitp kind pin) =>
    let t1 := t.sync s.now
    let holds := levelHolds kind pin (s.pinsIn t ball) || (match edge with
      | some r => edgeMatches kind r
      | none => false)
    s.when_ (s.tileLive tl && holds) (fun s => (s.at_ t1.edge).setTile tl (t1.finish.advance 1))
  | _ => .next s

/-- HOLD (R184, R186). -/
def execHold (tl : Fin 208) (mk : BitVec 2) (n : HoldCount) (s : State) : Host.Outcome State Fault Refusal :=
  match n with
  | .imm k => .next (s.tileIssue tl (tileWord 4 mk k.toNat) mk (fun t => { t with cur := some (.hold (k.toNat + 1)) }))
  | .counter c =>
    .next (s.tileIssue tl (tileWord 4 mk (512 + b2n c * 256)) mk (fun t =>
      { t with cur := some (.hold ((t.counter c).toNat + 1)) }))

/-- HOLD_COMPLETE: the last of its tile cycles ends (R186). -/
def execHoldComplete (tl : Fin 208) (s : State) : Host.Outcome State Fault Refusal :=
  let t := s.tile tl
  match t.cur with
  | some (.hold n) => s.when_ (s.tileLive tl) (fun s => (s.at_ (t.advance n).edge).setTile tl (t.finish.advance n))
  | _ => .next s

/-- SHF (R184). With FROMC = 0 bit 6 of the word names no counter and is not looked at. -/
def execShf (tl : Fin 208) (mk : BitVec 2) (mode : BitVec 2) (n : ShfCount) (s : State) : Host.Outcome State Fault Refusal :=
  match n with
  | .imm nm1 =>
    let c := b2n (bit (s.tile tl).word 6)
    .next (s.tileIssue tl (tileWord 5 mk (mode.toNat * 256 + c * 64 + nm1.toNat)) mk (fun t => t.startShf mode (nm1.toNat + 1)))
  | .counter c =>
    .next (s.tileIssue tl (tileWord 5 mk (mode.toNat * 256 + 128 + b2n c * 64)) mk (fun t => t.startShf mode (t.counter c).toNat))

/-- SHF_BIT: one bit of the SHF in progress, or a stalled tile cycle (R189, R191). -/
def execShfBit (tl : Fin 208) (ball : BitVec 4) (s : State) : Host.Outcome State Fault Refusal :=
  let t := s.tile tl
  match t.cur with
  | some (.shf mode w) =>
    let t1 := if t.run = .running then t else t.sync s.now
    s.when_ (s.tileLive tl && t.inj.isNone) (fun s => (s.at_ t1.edge).setTile tl (t1.shfStep mode w (s.pinIn t ball t.inPin)))
  | _ => .next s

/-- GET (R184, R190). -/
def execGet (tl : Fin 208) (mk : BitVec 2) (blk half : Bool) (s : State) : Host.Outcome State Fault Refusal :=
  .next (s.tileIssue tl (tileWord 6 mk (b2n blk * 512 + b2n half * 256)) mk (fun t => t.startGet blk half))

/-- PUT (R184, R190, R196). -/
def execPut (tl : Fin 208) (mk : BitVec 2) (blk half endFlag : Bool) (s : State) : Host.Outcome State Fault Refusal :=
  .next (s.tileIssue tl (tileWord 7 mk (b2n blk * 512 + b2n half * 256 + b2n endFlag * 128)) mk (fun t => t.startPut blk half endFlag))

/-- BLOCKED_GET_PUT_COMPLETE (R190): the FIFO allows the blocked GET or PUT at a tile edge. -/
def execBlockedGetPutComplete (tl : Fin 208) (s : State) : Host.Outcome State Fault Refusal :=
  let t := s.tile tl
  let t1 := t.sync s.now
  let done := match t.cur with
    | some (.get half) => t1.get half
    | some (.put half e) => t1.put half e
    | _ => none
  match done with
  | some t2 => s.when_ (s.tileLive tl) (fun s => (s.at_ t1.edge).setTile tl (t2.finish.advance 1))
  | none => .next s

/-- DRV (R184): it acts from the edge that starts the next tile cycle (R186). -/
def execDrv (tl : Fin 208) (mk : BitVec 2) (dirs : Bool) (mask value : BitVec 4) (s : State) : Host.Outcome State Fault Refusal :=
  .next (s.tileIssue tl (tileWord 8 mk (b2n dirs * 256 + mask.toNat * 16 + value.toNat)) mk (fun t => (t.drive dirs mask value).next 1))

/-- LDI (R184). -/
def execLdi (tl : Fin 208) (mk : BitVec 2) (c : Bool) (value : BitVec 9) (s : State) : Host.Outcome State Fault Refusal :=
  .next (s.tileIssue tl (tileWord 9 mk (b2n c * 512 + value.toNat)) mk (fun t => (t.setCounter c (value.setWidth 16)).next 1))

/-- CPY (R184). -/
def execCpy (tl : Fin 208) (mk : BitVec 2) (dest src : BitVec 3) (fn : BitVec 2) (ball : BitVec 4) (s : State) :
    Host.Outcome State Fault Refusal :=
  let pins := s.pinsIn (s.tile tl) ball
  .next (s.tileIssue tl (tileWord 10 mk (dest.toNat * 128 + src.toNat * 16 + fn.toNat * 4)) mk (fun t =>
    (t.cpyDest dest false (cpyFn fn (t.cpySource src pins))).next 1))

/-- TILE_ILLEGAL (R185): the tile stops with PC at the word, sets ILLEGAL and clears RUN. -/
def execTileIllegal (tl : Fin 208) (s : State) : Host.Outcome State Fault Refusal :=
  s.when_ (s.tileReady tl && tileIllegal (s.tile tl).word) (fun s =>
    (s.at_ (s.tile tl).edge).modTile tl (fun t => { t with run := .stopped, illegal := true, runBit := false }))

/-- TX_SEND (R196). -/
def execTxSend (p : Party) (tl : Fin 208) (s : State) : Host.Outcome State Fault Refusal :=
  s.when_ s.blocksUp (fun s => s.tileWrite p tl 4 0x10 (fun t => t.txSend s.brickEdge))

/-- TILE_RESET (R201, R207): a wrong key is ignored. -/
def execTileReset (p : Party) (tl : Fin 208) (key : BitVec 8) (s : State) : Host.Outcome State Fault Refusal :=
  s.when_ (s.blocksUp && decide (key = 0x7E)) (fun s => s.tileWrite p tl 4 0x7E04 (fun t => t.resetBegin s.now))

/-- TILE_RESET_HOLD_END (R207). -/
def execTileResetHoldEnd (tl : Fin 208) (s : State) : Host.Outcome State Fault Refusal :=
  match (s.tile tl).holdEnd with
  | some e => s.when_ s.blocksUp (fun s => (s.at_ e).modTile tl Tile.resetEnd)
  | none => .next s

/-- TILE_RUN (R205). -/
def execTileRun (p : Party) (tl : Fin 208) (runBit : Bool) (s : State) : Host.Outcome State Fault Refusal :=
  s.when_ s.blocksUp (fun s => s.tileWrite p tl 4 (b2n runBit) (fun t => t.setRun runBit s.now))

/-- TILE_STEP_HI_WRITE (R177). -/
def execTileStepHiWrite (p : Party) (tl : Fin 208) (v : Word) (s : State) : Host.Outcome State Fault Refusal :=
  s.when_ s.blocksUp (fun s => s.tileWrite p tl 8 v.toNat (fun t => t.stepWrite v))

/-- TILE_PDATA_WRITE (R198, R206). -/
def execTilePdataWrite (p : Party) (tl : Fin 208) (v : Word) (s : State) : Host.Outcome State Fault Refusal :=
  s.when_ s.blocksUp (fun s => s.tileWrite p tl 0xF v.toNat (fun t => t.pdataWrite v))

/-- TILE_PROG_WRITE (R199, R206): the course window only, so not the tile's brick. -/
def execTileProgWrite (p : Party) (tl : Fin 208) (a : BitVec 5) (v : Word) (s : State) : Host.Outcome State Fault Refusal :=
  match p with
  | .brick _ => .next s
  | _ => s.when_ s.blocksUp (fun s => s.tileWrite p tl (0x40 + a.toNat) v.toNat (fun t => { t with prog := t.prog.set a.toNat v }))

/-- TILE_INJ_WRITE (R202, R204). -/
def execTileInjWrite (p : Party) (tl : Fin 208) (v : Word) (s : State) : Host.Outcome State Fault Refusal :=
  s.when_ s.blocksUp (fun s => s.tileWrite p tl 9 v.toNat (fun t => t.injWrite v))

/-- TILE_INJECTION_TAKE (R202 to R204): journaled for the course (R487). -/
def execTileInjectionTake (tl : Fin 208) (ball : BitVec 4) (s : State) : Host.Outcome State Fault Refusal :=
  let t := s.tile tl
  match t.inj with
  | some w =>
    s.when_ (s.tileInjectable tl) (fun s =>
      (s.setTile tl (t.takeInjection w s.now (s.pinsIn t ball))).jrec (courseOfTile tl)
        (.inj (tl.val % 16) (w.setWidth 32) ((s.course (courseOfTile tl)).cycleAt s.now)))
  | none => .next s

/-- The ball's entry names a tile of a loaded course as its owner (R180). -/
def State.ownedByLoaded (s : State) (g : Reg32) : Bool :=
  bit g 31 && (match s.courses[bits g 15 8 / 16]? with
    | some x => x.image.isSome
    | none => false)

/-- A write of GPIO_OWN (R180, R182): the keystone; PF1 and the chain manager unless a tile of a loaded course owns the ball
before or after; a write that names tile 208 to 255 is ignored whole. -/
def State.gpioOwnWrite (s : State) (p : Party) (n : Fin 128) (v : Reg32) : State :=
  let ok := decide (bits v 15 8 < 208) && (decide (p = .keystone) ||
    (s.pf1OrMgr p && (!s.ownedByLoaded (s.gpioOwn n.val) && !s.ownedByLoaded v)))
  if ok then s.setReg (gpioOwnOff n.val) (v &&& 0x8000FF03) else s.refused p (gpioOwnOff n.val) v.toNat

/-- GPIO_OWN_WRITE (R180, R182). -/
def execGpioOwnWrite (p : Party) (n : Fin 128) (v : Reg32) (s : State) : Host.Outcome State Fault Refusal :=
  s.when_ s.blocksUp (fun s => s.gpioOwnWrite p n v)

end Sys2Proof.Machine
end

