-- ==== Sys2Proof/Machine/IoMap.lean ====
section
/-! DEFINITION. The brick I/O space apart from its windows: which registers exist and how they may be accessed (R173,
R174, R198, R215), and the event lines (R157). -/

namespace Sys2Proof.Machine

/-- The access code of an I/O register as DIRECTION needs it (R117, R174). -/
inductive IoAccess where
  | none | ro | wo | rw
deriving DecidableEq, Repr

/-- Tile registers by offset (R198). -/
def tileAccess (r : Nat) : IoAccess :=
  if r = 0x1 ∨ r = 0x2 ∨ (0xA ≤ r ∧ r ≤ 0xD) then .ro else if r = 0x9 then .wo else .rw

/-- Frame-mover registers (R215). -/
def fmAccess (a : Nat) : IoAccess :=
  if a = 0x80 ∨ a = 0x88 ∨ a = 0x89 ∨ a = 0x92 then .rw else if a = 0x81 ∨ a = 0x8A then .wo
  else if a = 0x84 ∨ a = 0x85 ∨ a = 0x8C ∨ a = 0x90 ∨ a = 0x91 ∨ a = 0x93 then .ro else .none

/-- The registers of the map outside the CAN and field windows (R173). -/
def plainAccess (a : Nat) : IoAccess :=
  if a = 0x000 then .ro else if a = 0x001 then .wo else if a = 0x010 then .rw else if a = 0x011 then .wo
  else if a = 0x012 then .ro
  else if 0x40 ≤ a ∧ a < 0x80 then tileAccess (a % 16)
  else if 0x80 ≤ a ∧ a < 0xC0 then fmAccess a
  else if 0xC0 ≤ a ∧ a ≤ 0xC5 then .ro else if a = 0xC6 ∨ (0xC8 ≤ a ∧ a ≤ 0xCA) then .rw
  else if 0x100 ≤ a ∧ a < 0x200 then .rw
  else if 0x200 ≤ a ∧ a < 0x240 then (if a % 4 = 1 then .ro else if a % 4 = 2 then .wo else .rw)
  else if a = 0x800 then .wo else if 0x810 ≤ a ∧ a < 0x820 then .ro else if a = 0x820 ∨ a = 0x830 then .wo
  else if a = 0x831 then .ro else .none

/-- The level lines of a brick at root time t (R157): bits 0 to 10. In replay they are those of the journal (R494). -/
def State.levelLines (s : State) (bk : Fin 52) (t : Nat) : Word :=
  let b := s.brick bk
  let tiles := (List.finRange 4).foldl (fun (v : Word) i =>
    setBit (setBit v i.val (!(s.tile (tileOf bk i)).rxEmpty t)) (4 + i.val) (!(s.tile (tileOf bk i)).txFull t)) 0
  if (s.course (courseOf bk)).mode = 2 then b.io.levels
  else setBit (setBit (setBit tiles 8 (decide (b.fm.rxc ≠ []))) 9 (decide (b.fm.txc ≠ []))) 10 (s.mbxLevel bk)

/-- EV_STATUS of a brick at root time t (R157). -/
def State.eventLines (s : State) (bk : Fin 52) (t : Nat) : Word := s.levelLines bk t ||| ((s.brick bk).io.events &&& 0xF800)

/-- Journal the level lines that differ from those last recorded (R487; log 22). -/
def State.journalLines (s : State) (bk : Fin 52) : State :=
  let c := courseOf bk
  if s.journaled c then
    let b := s.brick bk
    let now := s.levelLines bk s.now
    let cyc := (s.course c).cycleAt s.now
    let s1 := (List.range 11).foldl (fun s n =>
      if bit now n = bit b.io.levels n then s else s.jrec c (.evline (localOf bk) n (bit now n) cyc)) s
    s1.setBrick bk { b with io := { b.io with levels := now } }
  else s

/-! ### The watchdog (R158 to R161) -/

/-- The watchdog counts: the brick runs or waits (R158). -/
def Brick.counts (b : Brick) : Bool := decide (b.run = .running) || decide (b.run = .waiting)

/-- Cycles left at root time t (R158). -/
def Brick.wdLeft (b : Brick) (t : Nat) : Nat := if b.counts then b.wd.left - (t - b.wd.since) / brickCycle else b.wd.left

/-- The count reloaded from PERIOD at root time t (R158). -/
def Watchdog.reload (w : Watchdog) (t : Nat) : Watchdog := { w with left := 64 * w.period.toNat, since := t }

/-- An expiry (R159, R160): pending, or a stop when one is pending already or a trap has been taken since the kick. -/
def Brick.wdExpire (b : Brick) (t : Nat) : Brick :=
  if b.wd.pending ∨ b.wd.trapped then { b with stopReq := true, wd := b.wd.reload t }
  else { b with wd := { b.wd.reload t with pending := true } }

/-- A write of WDOG_KICK (R158, R159). -/
def Brick.wdKick (b : Brick) (v : Word) (t : Nat) : Brick :=
  if v = 0x5AA5 then { b with wd := { b.wd.reload t with pending := false, trapped := false } } else b.wdExpire t

/-- A write of WDOG_CFG (R158, R161): nothing while LOCK is set. -/
def Brick.wdConfig (b : Brick) (v : Word) (t : Nat) : Brick :=
  if b.wd.lock then b
  else { b with wd := ({ b.wd with period := v.extractLsb' 0 15, lock := bit v 15 }.reload t) }

/-- The brick changes its run state at root time t; the count is kept where counting stops (R158). -/
def Brick.goTo (b : Brick) (r : BrickRun) (t : Nat) : Brick :=
  { b with run := r, wd := { b.wd with left := b.wdLeft t, since := t } }

end Sys2Proof.Machine
end

