-- ==== Sys2Proof/Machine/Frames.lean ====
section
/-! DEFINITION. What the MACs, the switch and plumb read and change in a frame's bytes: tags (R265), ECN and device tag
marks (R301), R-TAGs (R308, R309), PTP messages (R340, R342), and the segments of a large send (R271, R272). Header
layouts are those of the standards that these rules name (IEEE 802.1Q, 802.1CB, 1588; IPv4, IPv6, TCP, UDP). -/

namespace Sys2Proof.Machine

/-- Byte k of a frame, 0 past its end. -/
def byteAt (l : List Byte) (k : Nat) : Nat := (nth l k 0).toNat
/-- The big-endian number of n bytes at k. -/
def beAt (l : List Byte) (k n : Nat) : Nat := beNat ((l.drop k).take n)
/-- The frame with n big-endian bytes of v at k. -/
def putBe (l : List Byte) (k n v : Nat) : List Byte :=
  if k + n ≤ l.length then l.take k ++ (toBe n v ++ l.drop (k + n)) else l

/-- What steering reads (R265): tags, the outer tag's control field, the offset of the type field and its value. -/
structure Parsed where
  tags : Nat
  tci  : Nat
  at_  : Nat
  etype : Nat
deriving DecidableEq, Repr

/-- The tags and type of a frame, at most two tags read (R265). -/
def parseFrame (l : List Byte) : Parsed :=
  let t := beAt l 12 2
  if t = 0x88A8 ∨ t = 0x8100 then
    let t2 := beAt l 16 2
    if t2 = 0x8100 then { tags := 2, tci := beAt l 14 2, at_ := 20, etype := beAt l 20 2 }
    else { tags := 1, tci := beAt l 14 2, at_ := 16, etype := t2 }
  else { tags := 0, tci := 0, at_ := 12, etype := t }

/-- VID of a frame, PVID when it is untagged (R265). -/
def Parsed.vid (p : Parsed) (pvid : Nat) : Nat := if p.tags = 0 then pvid else p.tci % 4096
/-- PCP of a frame, DEF_PCP when it is untagged (R265). -/
def Parsed.pcp (p : Parsed) (dflt : Nat) : Nat := if p.tags = 0 then dflt else p.tci / 8192
/-- TAG of a frame (R265): 1 untagged, 2 one tag, 3 two tags. -/
def Parsed.tag (p : Parsed) : Nat := p.tags + 1

/-! ### Checksums -/

/-- The ones' complement sum of the 16-bit words of a list of bytes, padded with a zero byte. -/
def onesSum : List Byte → Nat
  | a :: b :: r => (a.toNat * 256 + b.toNat) + onesSum r
  | [a] => a.toNat * 256
  | [] => 0

/-- Fold a sum into 16 bits. -/
def foldSum (n : Nat) : Nat :=
  let a := n % 65536 + n / 65536
  let b := a % 65536 + a / 65536
  b % 65536 + b / 65536

/-- The Internet checksum of a sum. -/
def checksum (n : Nat) : Nat := 65535 - foldSum n

/-- A checksum updated for one 16-bit word that changes from m to m'. -/
def checksumUpdate (hc m m' : Nat) : Nat := 65535 - foldSum ((65535 - hc) + (65535 - m) + m')

/-! ### Marks (R301) -/

/-- A frame over the mark threshold: none where it can be neither marked nor needs to be; the flag is "counted in
Q_NOECT". -/
inductive Mark where
  | marked (l : List Byte)
  | noect
  | unchanged
deriving DecidableEq, Repr

/-- The mark of a frame (R301); `dtag` is the device tag's type when device tags are marked. -/
def markFrame (dtag : Option Nat) (l : List Byte) : Mark :=
  let p := parseFrame l
  let h := p.at_ + 2
  if p.etype = 0x0800 then
    let w := beAt l h 2
    let ecn := w % 4
    if ecn = 0 then .noect else if ecn = 3 then .unchanged
    else
      let w' := w / 4 * 4 + 3
      .marked (putBe (putBe l h 2 w') (h + 10) 2 (checksumUpdate (beAt l (h + 10) 2) w w'))
  else if p.etype = 0x86DD then
    let b := byteAt l (h + 1)
    let ecn := b / 16 % 4
    if ecn = 0 then .noect else if ecn = 3 then .unchanged
    else .marked (putBe l (h + 1) 1 (b % 16 + 48 + b / 64 * 64))
  else match dtag with
    | some t => if p.etype = t then .marked (putBe l h 1 (byteAt l h % 128 + 128)) else .noect
    | none => .noect

/-! ### R-TAG (R308, R309) -/

/-- The sequence number of the R-TAG directly after the VLAN tags, if there is one (R308). -/
def rtagOf (l : List Byte) : Option Word :=
  let p := parseFrame l
  if p.etype = 0xF1C1 then some (BitVec.ofNat 16 (beAt l (p.at_ + 4) 2)) else none

/-- The frame without its R-TAG (R308). -/
def popRtag (l : List Byte) : List Byte :=
  let p := parseFrame l
  l.take p.at_ ++ l.drop (p.at_ + 6)

/-- The frame with an R-TAG after its VLAN tags (R309). -/
def pushRtag (l : List Byte) (n : Word) : List Byte :=
  let p := parseFrame l
  l.take p.at_ ++ (toBe 2 0xF1C1 ++ (toBe 2 0 ++ (toBe 2 n.toNat ++ l.drop p.at_)))

/-! ### PTP (R340, R342) -/

/-- Where the PTP message of a frame begins, for IEEE 802.3 and UDP to port 319 (R340), and the offset of the UDP
checksum for IPv4. -/
def ptpAt (l : List Byte) : Option (Nat × Option Nat) :=
  let p := parseFrame l
  let h := p.at_ + 2
  if p.etype = 0x88F7 then some (h, none)
  else if p.etype = 0x0800 ∧ byteAt l (h + 9) = 17 then
    let u := h + byteAt l h % 16 * 4
    if beAt l (u + 2) 2 = 319 then some (u + 8, some (u + 6)) else none
  else if p.etype = 0x86DD ∧ byteAt l (h + 6) = 17 ∧ beAt l (h + 42) 2 = 319 then some (h + 48, none)
  else none

/-- The PTP event message of a frame (R340): its offset, the UDP checksum's offset, and whether it runs over IPv6. -/
def ptpEvent (l : List Byte) : Option (Nat × Option Nat) :=
  match ptpAt l with
  | some (m, u) => if byteAt l m % 16 ≤ 3 then some (m, u) else none
  | none => none

/-- The frame runs over IPv6 (R339). -/
def isIpv6 (l : List Byte) : Bool := decide ((parseFrame l).etype = 0x86DD)

/-- A frame with its correctionField advanced by n (in 2^-16 ns), and its UDP over IPv4 checksum cleared (R342). -/
def addCorrection (l : List Byte) (m : Nat) (n : Int) : List Byte :=
  putBe l (m + 8) 8 (((beAt l (m + 8) 8 : Int) + n) % 2 ^ 64).toNat

/-- The UDP checksum cleared (R342). -/
def clearUdp (l : List Byte) : Option Nat → List Byte
  | some u => putBe l u 2 0
  | none => l

/-- One-step Sync (R342): originTimestamp and the fraction in correctionField; `q` is the stamp. -/
def oneStep (l : List Byte) (m : Nat) (u : Option Nat) (q : BitVec 96) : List Byte :=
  let l1 := putBe (putBe l (m + 34) 6 (q.extractLsb' 48 48).toNat) (m + 40) 4 (q.extractLsb' 16 32).toNat
  clearUdp (addCorrection l1 m (q.extractLsb' 0 16).toNat) u

/-- The message is a Sync with twoStepFlag 0 (R342). -/
def isOneStepSync (l : List Byte) (m : Nat) : Bool := decide (byteAt l m % 16 = 0) && decide (byteAt l (m + 6) / 2 % 2 = 0)

/-! ### Segments of a large send (R270 to R272) -/

/-- The headers of a template: offset of the IP header, of the transport header, IPv6, TCP, and the transport
header's length. -/
structure Template where
  ip  : Nat
  l4  : Nat
  v6  : Bool
  tcp : Bool
  l4len : Nat
deriving DecidableEq, Repr

/-- The template of R271, or none where it breaks the form asked for. -/
def templateOf (l : List Byte) (tlen : Nat) : Option Template :=
  let p := parseFrame l
  let h := p.at_ + 2
  let v4 := decide (p.etype = 0x0800) && (decide (byteAt l h / 16 = 4) && decide (5 ≤ byteAt l h % 16))
  let v6 := decide (p.etype = 0x86DD) && decide (byteAt l h / 16 = 6)
  let proto := if v4 then byteAt l (h + 9) else byteAt l (h + 6)
  let u := if v4 then h + byteAt l h % 16 * 4 else h + 40
  let tl := if proto = 6 then byteAt l (u + 12) / 16 * 4 else 8
  if (v4 || v6) && ((decide (proto = 6 ∧ 20 ≤ tl) || decide (proto = 17)) && decide (u + tl = tlen ∧ tlen ≤ 192)) then
    some { ip := h, l4 := u, v6 := v6, tcp := decide (proto = 6), l4len := tl }
  else none

/-- The sum of the pseudo-header of a segment whose transport part has n bytes. -/
def pseudoSum (l : List Byte) (t : Template) (n : Nat) : Nat :=
  let addrs := if t.v6 then (l.drop (t.ip + 8)).take 32 else (l.drop (t.ip + 12)).take 8
  onesSum addrs + (if t.tcp then 6 else 17) + (n / 65536 + n % 65536)

/-- Segment k of a large send (R272): template, its headers, and the payload of the segment. -/
def segmentOf (tmpl : List Byte) (t : Template) (mss k : Nat) (last : Bool) (pay : List Byte) : List Byte :=
  let n := t.l4len + pay.length
  let l0 := tmpl
  let l1 := if t.v6 then putBe l0 (t.ip + 4) 2 n
    else putBe (putBe l0 (t.ip + 2) 2 (t.l4 - t.ip + n)) (t.ip + 4) 2 ((beAt l0 (t.ip + 4) 2 + k) % 65536)
  let l2 := if t.v6 then l1
    else
      let z := putBe l1 (t.ip + 10) 2 0
      putBe z (t.ip + 10) 2 (checksum (onesSum ((z.drop t.ip).take (t.l4 - t.ip))))
  let l3 := if t.tcp then
      let f := byteAt l2 (t.l4 + 13)
      let f1 := if last then f else f &&& 0xF6
      let f2 := if k = 0 then f1 else f1 &&& 0x7F
      putBe (putBe l2 (t.l4 + 4) 4 ((beAt l2 (t.l4 + 4) 4 + k * mss) % 2 ^ 32)) (t.l4 + 13) 1 f2
    else putBe l2 (t.l4 + 4) 2 n
  let at_ := if t.tcp then t.l4 + 16 else t.l4 + 6
  if !t.tcp && (!t.v6 && decide (beAt tmpl at_ 2 = 0)) then l3 ++ pay
  else
    let z := putBe l3 at_ 2 0
    let c := checksum (pseudoSum z t n + onesSum (z.drop t.l4 ++ pay))
    putBe z at_ 2 (if !t.tcp && decide (c = 0) then 65535 else c) ++ pay

/-- The segments of a payload. -/
def segmentsFrom (tmpl : List Byte) (t : Template) (mss : Nat) : (fuel k : Nat) → List Byte → List (List Byte)
  | 0, _, _ => []
  | n + 1, k, pay =>
    if pay.length ≤ mss then [segmentOf tmpl t mss k true pay]
    else segmentOf tmpl t mss k false (pay.take mss) :: segmentsFrom tmpl t mss n (k + 1) (pay.drop mss)

/-- The segments of a large send, or none where R271 drops it; `maxFrame` is the egress port's. -/
def segmentsOf (l : List Byte) (x : LargeSend) (maxFrame : Nat) : Option (List (List Byte)) :=
  match templateOf l x.tlen with
  | some t =>
    if 1 ≤ x.mss ∧ x.tlen + x.mss + 4 ≤ maxFrame then
      some (segmentsFrom (l.take x.tlen) t x.mss (l.length + 1) 0 (l.drop x.tlen))
    else none
  | none => none

end Sys2Proof.Machine
end

