-- ==== Sys2Proof/Machine/Ports.lean ====
section
/-! DEFINITION. Ports of the mortar: their register blocks, rates, counters (09 R257 to R285) and gates (R274 to R278). -/

namespace Sys2Proof

/-- The port is one of P0 to P31. -/
def PortCode.isP (q : PortCode) : Bool := decide (q.val < 32)
/-- The port is one of U0 to U3. -/
def PortCode.isU (q : PortCode) : Bool := decide (32 ≤ q.val ∧ q.val < 36)
/-- The port is H. -/
def PortCode.isH (q : PortCode) : Bool := decide (q.val = 36)
/-- The port is a course port. -/
def PortCode.isCp (q : PortCode) : Bool := decide (37 ≤ q.val)
/-- The course of a course port. -/
def PortCode.course (q : PortCode) : Fin 13 := ⟨(q.val - 37) % 13, by omega⟩
end Sys2Proof

namespace Sys2Proof.Machine

/-! ### Registers -/

/-- BAR0 offset of the block of a port (R261). -/
def portBase (q : PortCode) : Nat := 0x800000 + q.code * 0x4000

def State.port (s : State) (q : PortCode) : Port := s.ports[q]
def State.setPort (s : State) (q : PortCode) (p : Port) : State := { s with ports := s.ports.set q p }
def State.modPort (s : State) (q : PortCode) (f : Port → Port) : State := s.setPort q (f (s.port q))

/-- The host port. -/
def portH : PortCode := 36
/-- The port of course n. -/
def portCp (n : Fin 13) : PortCode := ⟨37 + n.val, by omega⟩
/-- Port U k. -/
def portU (k : Fin 4) : PortCode := ⟨32 + k.val, by omega⟩

/-- PORT_CFG(q) (R262). -/
def State.portCfg (s : State) (q : PortCode) : Reg32 := s.reg (portBase q)
/-- PORT_CFG.MAX_FRAME. -/
def State.maxFrame (s : State) (q : PortCode) : Nat := bits (s.portCfg q) 13 0
/-- PORT_VLAN.PVID and DEF_PCP. -/
def State.pvid (s : State) (q : PortCode) : Nat := bits (s.reg (portBase q + 4)) 11 0
def State.defPcp (s : State) (q : PortCode) : Nat := bits (s.reg (portBase q + 4)) 14 12

/-- Mb/s of a SPEED code (PORT_CFG). -/
def speedMbps (n : Nat) : Nat :=
  if n = 0 then 10 else if n = 1 then 100 else if n = 2 then 1000 else if n = 3 then 2500 else if n = 4 then 5000 else 10000

/-- The SPEED code of the rate in force when the link comes up (R257): `an` is what the control word says. -/
def rateInForce (cfg : Reg32) (an : BitVec 3) : BitVec 3 :=
  let m := bits cfg 30 28
  if m = 1 then 3 else if m = 2 then 5
  else
    let n := if bit cfg 24 then an.toNat else bits cfg 27 25
    if m = 0 then BitVec.ofNat 3 (min n 2) else BitVec.ofNat 3 n

/-- The rate of a port in Mb/s (R256, R257). -/
def State.rateMbps (s : State) (q : PortCode) : Nat :=
  if q.isP then speedMbps (s.port q).rate.toNat else if q.isU then 25000 else if q.isH then 63000 else 10000

/-- Root-PLL periods that n bytes take at r Mb/s, rounded up. -/
def bytesTime (r n : Nat) : Nat := (40000 * n + r - 1) / r

/-- n byte times of a port. -/
def State.byteTimes (s : State) (q : PortCode) (n : Nat) : Nat := bytesTime (s.rateMbps q) n

/-- Add n to counter k of a port, saturating (R279). -/
def Port.count (p : Port) (k : Fin 32) (n : Nat) : Port :=
  { p with cnt := p.cnt.set k { p.cnt[k] with v := satAdd p.cnt[k].v n } }
def State.countPort (s : State) (q : PortCode) (k : Fin 32) (n : Nat) : State := s.modPort q (fun p => p.count k n)

/-- The counter HOLD_DROP(TCc) (R279). -/
def holdDrop (c : Fin 8) : Fin 32 := ⟨20 + c.val, by omega⟩

/-- The port is a field port gated for DOZE (R67). -/
def State.portDozes (s : State) (q : PortCode) : Bool := bit s.power.doze.ports q.val && q.isP

/-- Egress through the port waits for a wake: a gated field port, or the port of a gated course (R69). -/
def State.portGated (s : State) (q : PortCode) : Bool := s.portDozes q || (q.isCp && s.gated q.course)

/-! ### Gates (R274 to R278); times in ns of the list's domain -/

/-- The entry of a list at a phase of its cycle: its gates, and the phase at which it ends; the last entry holds. -/
def gclWalk (cycle : Nat) : List (Byte × Nat) → Nat → Nat → Byte × Nat
  | [], _, _ => (0xFF, cycle)
  | [(g, _)], _, _ => (g, cycle)
  | (g, n) :: r, start, ph => if ph < start + n then (g, min (start + n) cycle) else gclWalk cycle r (start + n) ph

/-- The start of the cycle that holds time t. -/
def Gcl.cycleStart (g : Gcl) (t : Nat) : Nat := if g.cycle = 0 then t else t - (((t : Int) - g.base) % g.cycle).toNat

/-- The gates at time t and the time of the next change (R274). -/
def Gcl.at (g : Gcl) (t : Nat) : Byte × Nat :=
  if g.en = false ∨ g.entries = [] ∨ g.cycle = 0 then (0xFF, t + 2 ^ 64)
  else
    let b := g.cycleStart t
    let (m, e) := gclWalk g.cycle g.entries 0 (t - b)
    (m, b + e)

/-- The gates that the last entry leaves (R278). -/
def Gcl.lastGates (g : Gcl) : Byte := (g.entries.getLastD (0xFF, 0)).1

/-- The gates of a port at time t of its operational list's domain, with a pending change at `ct` of that domain
(R278), and the time of the next change. -/
def Port.gateAt (p : Port) (ct : Option Nat) (t : Nat) : Byte × Nat :=
  let old := match p.oper with
    | some g => g
    | none => { en := false, td := 0, base := 0, cycle := 0, ext := 0, entries := [] }
  match p.pend, ct with
  | some (g, _), some c =>
    if c ≤ t then { g with base := c }.at t
    else
      let (m, n) := old.at t
      let s0 := if c = 0 then 0 else old.cycleStart (c - 1)
      if old.en ∧ s0 ≤ t ∧ c - s0 ≤ old.ext then (old.lastGates, c) else (m, min n c)
  | _, _ => old.at t

/-- The domain of a port's operational list. -/
def Port.gateTd (p : Port) : Fin 2 := match p.oper with
  | some g => g.td
  | none => 0

/-- A domain's time in ns at root time t. -/
def State.nsAt (s : State) (d : Fin 2) (t : Nat) : Nat := s.tdValue d t / 2 ^ 48

/-- The pending change time of a port in the domain of its operational list. -/
def State.changeIn (s : State) (p : Port) : Option Nat :=
  p.pend.map (fun (g, ct) => ((ct : Int) + s.nsAt p.gateTd s.now - s.nsAt g.td s.now).toNat)

/-- Gate c is open from a to b without a break. -/
def Port.openThrough (p : Port) (ct : Option Nat) (c : Fin 8) (b : Nat) : (fuel : Nat) → (a : Nat) → Bool
  | 0, _ => true
  | n + 1, a =>
    let (m, e) := p.gateAt ct a
    bit m c.val && (decide (b ≤ e) || p.openThrough ct c b n (max e (a + 1)))

/-- Gate c of port q is open from root time a through root time b (R275). -/
def State.gateOpen (s : State) (q : PortCode) (c : Fin 8) (a b : Nat) : Bool :=
  let p := s.port q
  if p.oper = none ∧ p.pend = none then true
  else
    let d := p.gateTd
    let x := s.nsAt d a; let y := s.nsAt d b + 1
    p.openThrough (s.changeIn p) c y (y - x + 2) x

/-- The entries of a list cut or stretched to its cycle, as (gates, length). -/
def Gcl.fitted (cycle : Nat) : List (Byte × Nat) → List (Byte × Nat)
  | [] => []
  | [(g, _)] => [(g, cycle)]
  | (g, n) :: r => (g, min n cycle) :: Gcl.fitted (cycle - n) r

/-- The longest run of entries with gate c open. -/
def longestRun (c : Fin 8) : List (Byte × Nat) → (run best : Nat) → Nat
  | [], run, best => max run best
  | (g, n) :: r, run, best => if bit g c.val then longestRun c r (run + n) best else longestRun c r 0 (max run best)

/-- A time of `need` ns of gate c exceeds its longest continuous open period (R276). -/
def Port.neverOpen (p : Port) (c : Fin 8) (need : Nat) : Bool :=
  match p.oper with
  | some g =>
    if g.en = false ∨ g.entries = [] then false
    else
      let l := Gcl.fitted g.cycle g.entries
      !l.all (fun x => bit x.1 c.val) && decide (longestRun c (l ++ l) 0 0 < need)
  | none => false

/-- GCL_MAXSDU(c) (R276). -/
def State.maxSdu (s : State) (q : PortCode) (c : Fin 8) : Nat := bits (s.reg (portBase q + 0x860 + 4 * c.val)) 13 0

/-- R276 drops a frame of `len` bytes at the head of class c. -/
def State.gateDrops (s : State) (q : PortCode) (c : Fin 8) (len : Nat) : Bool :=
  let p := s.port q
  p.oper.isSome && ((decide (s.maxSdu q c ≠ 0) && decide (s.maxSdu q c < len)) ||
    p.neverOpen c (s.byteTimes q (8 + len) / 5))

/-! ### Stamps (R319, R333) -/

/-- Units of 2^-48 ns in 1/64 ns. -/
def stampUnit : Int := 2 ^ 42

/-- The 96-bit value of a time in units of 2^-48 ns (R319). -/
def quadOf (v : Nat) : BitVec 96 := timeWords v

/-- The time in units of 2^-48 ns of a 96-bit value. -/
def ofQuad (q : BitVec 96) : Nat :=
  (q.extractLsb' 48 48).toNat * unitsPerSec + (q.extractLsb' 16 32).toNat * 2 ^ 48 + (q.extractLsb' 0 16).toNat * 2 ^ 32

/-- A stamp in domain d of a point in the clk_time cycle of root time t: `interp` and `corr` in 1/64 ns (R333). -/
def State.stampAt (s : State) (d : Fin 2) (t : Nat) (interp : Nat) (corr : Int) : Nat :=
  let x := s.plumb.dom[d]
  let v : Int := s.tdValue d (t / timeCycle * timeCycle) + (interp : Int) * stampUnit +
    (interp : Int) * stampUnit * x.rate / 2 ^ 48 + corr * stampUnit
  ((v + stampUnit / 2) / stampUnit * stampUnit).toNat

/-- A signed field of 24 bits (TS_RX_ADJ, TS_TX_ADJ, TS_ASYM). -/
def signed24 (v : Reg32) : Int := (v.extractLsb' 0 24).toInt
/-- A signed field of 16 bits (TTO_ADJ, TCAP_ADJ). -/
def signed16 (v : Reg32) : Int := (v.extractLsb' 0 16).toInt

/-- BAR0 offset of the time block of a port code (R343). -/
def ptimeBase (q : Nat) : Nat := 0x201000 + q * 0x40

/-- TS_CFG(q) (R343). -/
def State.tsCfg (s : State) (q : PortCode) : Reg32 := if q.val < 36 then s.reg (ptimeBase q.val) else 0

/-- The time block of a P or U port. -/
def State.ptime (s : State) (q : PortCode) : PortTime := if h : q.val < 36 then s.plumb.ports[q.val] else .reset

/-- What the receive delay takes from a stamp of port q, in 1/64 ns (R333). -/
def State.rxCorr (s : State) (q : PortCode) : Int :=
  -((s.ptime q).rxDelay.toNat + signed24 (s.reg (ptimeBase q.val + 0x10)))
/-- What the transmit delay adds to a stamp of port q, in 1/64 ns (R333). -/
def State.txCorr (s : State) (q : PortCode) : Int :=
  (s.ptime q).txDelay.toNat + signed24 (s.reg (ptimeBase q.val + 0x14))

/-- The first root time from `from_` on at which a domain reaches a value. -/
def Domain.reach (d : Domain) (v from_ : Nat) : Nat :=
  let diff : Int := (v : Int) - d.value from_
  if diff ≤ 0 then from_
  else
    let t := from_ + ((diff * 40 + d.stepLen - 1) / d.stepLen).toNat
    if d.value t < v then t + 1 else if 0 < t ∧ from_ < t ∧ v ≤ d.value (t - 1) then t - 1 else t

/-- The first root time from now on at which domain d reaches a value. -/
def State.tdReach (s : State) (d : Fin 2) (v from_ : Nat) : Nat := (s.plumb.dom[d]).reach v from_

/-- The granule of a port in units of 2^-48 ns (R311). -/
def State.granule (s : State) (q : PortCode) : Nat :=
  let ps := if q.isU then 1280
    else
      let m := bits (s.portCfg q) 30 28
      let r := (s.port q).rate.toNat
      if m = 0 then (if r = 0 then 800000 else if r = 1 then 80000 else 8000)
      else if m = 3 then
        (if r = 5 then 3200 else if r = 4 then 6400 else if r = 3 then 12800 else if r = 2 then 32000
         else if r = 1 then 320000 else 3200000)
      else 3200
  ps * 2 ^ 48 / 1000

/-- The smallest multiple of g at or after v. -/
def roundUp (g v : Nat) : Nat := if g = 0 then v else (v + g - 1) / g * g

end Sys2Proof.Machine
end

