-- ==== Sys2Proof/Machine/Mortar.lean ====
section
/-! DEFINITION. The mortar: frames, admission and marking (R286 to R301), the scheduler of a cell time (R292 to R298,
R303), and what leaves an output. -/

namespace Sys2Proof.Machine

/-! ### Frames in the buffer -/

/-- Cells of a frame with n bytes before the FCS (R287). -/
def cellsOf (n : Nat) : Nat := (n + 4 + 255) / 256

/-- From the last bit of a frame's first 64 bytes, or of the frame, to its admission: 14.4 ns, or 38.4 ns from a Urral
port (R304). -/
def intoBuffer (q : PortCode) : Nat := if q.isU then 192 else 72

/-- The first clk_mortar edge at or after t. -/
def mortarEdge (t : Nat) : Nat := edgeFrom mortarCycle t

/-- The root times at which the cells of a frame of n bytes and FCS hold 64 bytes or the last byte (R290). -/
def cellTimes (sof rate lead n : Nat) : List Nat :=
  (List.range (cellsOf n)).map (fun k => mortarEdge (sof + bytesTime rate (min (256 * k + 64) (n + 4)) + lead))

/-- Segments in which a new frame's cells lie: none that is fenced (R316; log 24). -/
def State.segsFor (s : State) (n : Nat) : BitVec 16 := BitVec.ofNat 16 n &&& ~~~ ((s.reg 0x980010).extractLsb' 0 16)

/-- A frame that is received whole: its first bit crosses at `sof`. -/
def State.newFrame (s : State) (q : PortCode) (bytes : List Byte) (info : FrameMeta) (sof rate : Nat) : Frame × State :=
  let (r, s1) := s.fresh
  let lead := intoBuffer q
  let n := bytes.length
  ({ id := s.mortar.nextId, bytes := bytes, total := n, info := info, lso := none, ring := none,
     cells := cellTimes sof rate lead n, full := some (mortarEdge (sof + bytesTime rate (n + 4) + lead)), overAt := none,
     segs := s.segsFor r, txOf := none },
   { s1 with mortar := { s1.mortar with nextId := s1.mortar.nextId + 1 } })

/-- When a copy becomes eligible and is admitted (R290, R300). -/
def QEntry.eligAt (e : QEntry) : Option Nat := if e.ct then e.frame.cells.head? else e.frame.full

/-- When cell k of a copy is eligible (R290). -/
def QEntry.cellAt (e : QEntry) (k : Nat) : Option Nat := if e.ct then e.frame.cells[k]? else e.frame.full

/-- Cells that a copy is charged at time t (R300). -/
def QEntry.charged (e : QEntry) (t : Nat) : Nat :=
  match e.frame.full with
  | some f => if f ≤ t ∧ e.charge ≠ 0 then min e.charge (cellsOf e.frame.total) else e.charge
  | none => e.charge

/-- Cut-through is allowed from input to output (R291). -/
def State.mayCut (s : State) (f : Frame) (input out : PortCode) (fc : Option (Fin 256)) : Bool :=
  decide (s.rateMbps out ≤ s.rateMbps input) && (!bit (s.portCfg input) 20 && (!bit (s.portCfg out) 20 &&
    (!input.isH && (f.lso.isNone && (fc.isNone && !out.isCp)))))

/-! ### Queues and depths -/

/-- The copies charged to switch queue (o, c): queued, in progress, and in the launch list. -/
def State.chargedTo (s : State) (o : PortCode) (c : Fin 8) : List QEntry :=
  let p := s.port o
  (s.mortar.queue.filter (fun e => decide (e.out = o ∧ e.cls = c))) ++
    ((p.cur.toList ++ p.launch.map (fun l => l.e)).filter (fun e => decide (e.cls = c)))

/-- The depth of a switch queue (R289, R300). -/
def State.depth (s : State) (o : PortCode) (c : Fin 8) : Nat := ((s.chargedTo o c).map (fun e => e.charged s.now)).sum

/-- BAR0 offset of the registers of a switch queue (R314). -/
def queueBase (o : PortCode) (c : Fin 8) : Nat := portBase o + 0x3000 + 0x40 * c.val
/-- Q_MIN, Q_MARK and Q_DROP (R299, R314). -/
def State.qMin (s : State) (o : PortCode) (c : Fin 8) : Nat := bits (s.reg (queueBase o c)) 17 0
def State.qMark (s : State) (o : PortCode) (c : Fin 8) : Nat := bits (s.reg (queueBase o c + 4)) 17 0
def State.qDrop (s : State) (o : PortCode) (c : Fin 8) : Nat := bits (s.reg (queueBase o c + 8)) 17 0

/-- The sum of a function over all 400 switch queues. -/
def sumQueues (f : PortCode → Fin 8 → Nat) : Nat :=
  ((List.finRange 50).map (fun o => ((List.finRange 8).map (f o)).sum)).sum

/-- Number of ones in the low n bits. -/
def ones {w : Nat} (v : BitVec w) (n : Nat) : Nat := ((List.range n).filter (fun i => bit v i)).length

/-- The shared pool (R299). -/
def State.sharedSize (s : State) : Nat :=
  196608 - 12288 * ones (s.reg 0x980010 ||| s.mortar.failed.setWidth 32) 16 - sumQueues s.qMin

/-- Shared cells charged (R300): what each queue holds above its guaranteed share. -/
def State.sharedUsed (s : State) : Nat := sumQueues (fun o c => s.depth o c - s.qMin o c)

/-- Change the counters of a switch queue. -/
def State.modQ (s : State) (o : PortCode) (c : Fin 8) (f : QCount → QCount) : State :=
  s.modPort o (fun p => { p with q := p.q.set c (f p.q[c]) })

/-! ### Admission (R299 to R301) -/

/-- The type of device tags, when they are marked (MORTAR_CFG). -/
def State.dtag (s : State) : Option Nat := if bit (s.reg 0x980000) 31 then some (bits (s.reg 0x980000) 15 0) else none

/-- A copy over Q_MARK is marked (R301). -/
def State.markCopy (s : State) (e : QEntry) : QEntry × State :=
  match markFrame s.dtag e.frame.bytes with
  | .marked l => ({ e with frame := { e.frame with bytes := l } }, s.modQ e.out e.cls (fun q => { q with marked := q.marked + 1 }))
  | .noect => (e, s.modQ e.out e.cls (fun q => { q with noect := q.noect + 1 }))
  | .unchanged => (e, s)

/-- The entries that a copy becomes in its queue: a large send is cut into its segments (R273). -/
def State.entriesOf (s : State) (e : QEntry) (n : Nat) : Option (List QEntry) :=
  match e.frame.lso with
  | none => some [{ e with charge := n }]
  | some x =>
    match segmentsOf e.frame.bytes x (s.maxFrame e.out) with
    | some l =>
      let seg := fun (b : List Byte) (k : Nat) =>
        { e with charge := k, frame := { e.frame with bytes := b, total := b.length } }
      some ((l.dropLast.map (fun b => seg b 0)) ++ (l.getLast?.toList.map (fun b => seg b n)))
    | none => none

/-- Admission of a copy (R300): dropped whole, or charged and linked at the tail of its queue. The flag tells whether
it was admitted. -/
def State.admitCopy (s : State) (e : QEntry) : Bool × State :=
  let p := s.port e.out
  if p.dropping then (false, s.countPort e.out (holdDrop e.cls) 1)
  else
    let known := match e.frame.full with
      | some f => decide (f ≤ s.now) || decide (e.fc.isSome)
      | none => false
    let n := if known || decide (e.frame.txOf.isSome) then cellsOf e.frame.total else (s.maxFrame e.input + 255) / 256
    let d := s.depth e.out e.cls
    let m := s.qMin e.out e.cls
    let more := (d + n - m) - (d - m)
    if s.qDrop e.out e.cls < d + n ∨ s.sharedSize < s.sharedUsed + more then
      (false, s.modQ e.out e.cls (fun q => { q with tailDrop := q.tailDrop + 1 }))
    else match s.entriesOf e n with
      | none => (false, s.countPort e.out 15 1)
      | some es =>
        let s1 := s.modQ e.out e.cls (fun q => { q with enq := q.enq + 1, peak := BitVec.ofNat 18 (max q.peak.toNat (d + n)) })
        let (es1, s2) := if s.qMark e.out e.cls < d + n then
            match es with
            | [x] => let (y, s2) := s1.markCopy x; ([y], s2)
            | _ => es.foldl (fun (acc : List QEntry × State) x => let (y, s2) := acc.2.markCopy x; (acc.1 ++ [y], s2)) ([], s1)
          else (es, s1)
        (true, { s2 with mortar := { s2.mortar with queue := s2.mortar.queue ++ es1 } })

/-! ### Switching to a port -/

/-- The course that a code 48 + n stands for (R269). -/
def State.cpTarget (s : State) (n : Fin 13) : Fin 13 :=
  let t := bits (s.reg (0x8F8000 + 4 * n.val)) 3 0
  if h : t < 13 then ⟨t, h⟩ else n

/-- The course that receives a copy of what goes to code 48 + n (R269). -/
def State.cpShadow (s : State) (n : Fin 13) : Option (Fin 13) :=
  let w := s.reg (0x8F8000 + 4 * n.val)
  if h : bits w 27 24 < 13 then (if bit w 31 then some ⟨bits w 27 24, h⟩ else none) else none

/-- The outputs of a frame switched to a port code (R269). -/
def State.outputsOf (s : State) (out : PortCode) : List PortCode :=
  if out.isCp then portCp (s.cpTarget out.course) :: (s.cpShadow out.course).toList.map portCp else [out]

/-- A handover discards what this course sends to this port (R252, R253). -/
def State.discards (s : State) (input out : PortCode) : Option Bool :=
  if input.isCp then
    match (s.course input.course).egressOnly with
    | some (q, count) => if out = q then none else some count
    | none => none
  else none

/-- A frame of an input is switched to a port: one copy an output, on its way to admission. -/
def State.switchTo (s : State) (f : Frame) (input : PortCode) (cls : Fin 8) (out : PortCode) : State :=
  match s.discards input out with
  | some count => if count then s.countPort input 19 1 else s
  | none =>
    (s.outputsOf out).foldl (fun s o =>
      let e : QEntry := { frame := f, out := o, cls := cls, input := input, fc := none, ct := s.mayCut f input o none,
                          charge := 0, sent := 0 }
      { s with mortar := { s.mortar with arriving := s.mortar.arriving ++ [e] } }) s

/-- The one of two copies that is admitted first: the earlier, then the lower input (R300). -/
def firstCopy (a : Option (QEntry × Nat)) (e : QEntry) : Option (QEntry × Nat) :=
  match e.eligAt with
  | none => a
  | some t =>
    match a with
    | none => some (e, t)
    | some (x, u) => if t < u ∨ (t = u ∧ e.input < x.input) then some (e, t) else a

/-- The next copy that becomes eligible, with its time. -/
def State.nextArrival (s : State) : Option (QEntry × Nat) := s.mortar.arriving.foldl firstCopy none

/-- The first of the copies on their way becomes eligible and is admitted or dropped (R300). -/
def State.admitNext (s : State) : State :=
  match s.nextArrival with
  | some (e, t) =>
    let s1 := (s.at_ t)
    ({ s1 with mortar := { s1.mortar with arriving := s1.mortar.arriving.erase e } }.admitCopy e).2
  | none => s

/-! ### A course's frame grows cell by cell (R520) -/

/-- More bytes of the stored frame `id`: its next cell holds 64 bytes at `t`, and it is full at `full`. -/
def Frame.extend (f : Frame) (id : Nat) (more : List Byte) (t : Nat) (full : Option Nat) : Frame :=
  if f.id = id then { f with bytes := f.bytes ++ more, cells := f.cells ++ [t], full := full } else f

def QEntry.extend (e : QEntry) (id : Nat) (more : List Byte) (t : Nat) (full : Option Nat) : QEntry :=
  { e with frame := e.frame.extend id more t full }

def Port.extend (p : Port) (id : Nat) (more : List Byte) (t : Nat) (full : Option Nat) : Port :=
  let f := fun (e : QEntry) => e.extend id more t full
  { p with cur := p.cur.map f, starting := p.starting.map (fun x => (f x.1, x.2)), onLine := p.onLine.map (fun x => (f x.1, x.2)) }

def State.extendFrame (s : State) (id : Nat) (more : List Byte) (t : Nat) (full : Option Nat) : State :=
  let f := fun (e : QEntry) => e.extend id more t full
  let m := s.mortar
  { s with
    mortar := { m with arriving := m.arriving.map f, queue := m.queue.map f, toHost := m.toHost.map f }
    ports := s.ports.map (fun p => p.extend id more t full)
    fcs := s.fcs.map (fun x => { x with waiting := x.waiting.map (fun w => (w.1.extend id more t full, w.2)) })
    lineOut := s.lineOut.map (fun l => if l.id = id then { l with bytes := l.bytes ++ more } else l) }

/-! ### Outputs -/

/-- Cells staged for a course's frame mover and not yet taken by a burst (R520). -/
def Course.stagedCells (x : Course) : Nat := (x.fmRx.map (fun f => if f.dropped then 0 else (f.staged - f.written + 255) / 256)).sum

/-- The output has room for a cell at time t (R293, R520). -/
def State.fifoRoom (s : State) (o : PortCode) (t : Nat) : Bool :=
  if o.isCp then decide ((s.course o.course).stagedCells < 2)
  else decide (((s.port o).fifo.filter (fun l => decide (t < l))).length < 2)

/-- The output sends: its port is up and no hold runs (R69, R297). -/
def Port.sends (p : Port) : Bool := p.up && (p.holdEnd.isNone && !p.dropping)

/-- A frame of n bytes before the FCS is at least 60 on an Ethernet line (R264). -/
def lineBytes (q : PortCode) (n : Nat) : Nat := (if q.isP then max n 60 else n) + 4

/-- EG_UNTAG strips the outer tag of a frame at output q: its VID is PVID (R262). -/
def State.untags (s : State) (q : PortCode) (l : List Byte) : Bool :=
  let p := parseFrame l
  bit (s.portCfg q) 21 && (decide (p.tags ≠ 0) && decide (p.tci % 4096 = s.pvid q))

/-- The bytes of a frame that leave output q. -/
def State.untag (s : State) (q : PortCode) (l : List Byte) : List Byte := if s.untags q l then l.take 12 ++ l.drop 16 else l

/-- How many bytes of a frame leave output q, before the FCS. -/
def State.egressTotal (s : State) (q : PortCode) (f : Frame) : Nat := if s.untags q f.bytes then f.total - 4 else f.total

/-- The start of a frame selected in cell time t (R295). -/
def State.startAt (s : State) (o : PortCode) (t : Nat) : Nat := max (t + 500) ((s.port o).prevEnd + s.byteTimes o 12)

/-- The end of a frame of `len` bytes with its FCS that starts at `st` (R295). -/
def State.endAt (s : State) (o : PortCode) (st len : Nat) : Nat := st + s.byteTimes o (8 + len)

/-- A course's staging buffer takes a cell of n bytes that has crossed at the rate of CPn (R520). -/
def RxFrame.stage (f : RxFrame) (n t : Nat) : RxFrame :=
  { f with staged := f.staged + n, at_ := max f.at_ t + bytesTime 10000 n }

/-- The staged frames after a cell of e has moved. -/
def Course.stageCell (x : Course) (e : QEntry) (n t : Nat) : Course :=
  if e.sent = 0 then
    let f : RxFrame := { bytes := e.frame.bytes, info := { e.frame.info with cls := e.cls }, staged := 0, at_ := 0,
                         written := 0, dropped := false, buf := none }
    { x with fmRx := x.fmRx ++ [f.stage n t] }
  else match x.fmRx.getLast? with
    | some f => { x with fmRx := x.fmRx.dropLast ++ [f.stage n t] }
    | none => x

/-- The cell of e that moves next, in bytes. -/
def QEntry.cellBytes (e : QEntry) : Nat := min 256 (e.frame.total - 256 * e.sent)

/-- A cell of e moves to output o in cell time t; the last one ends the frame at the output. -/
def State.moveCell (s : State) (o : PortCode) (e : QEntry) (t : Nat) : State :=
  let n := e.cellBytes
  let e1 := { e with sent := e.sent + 1 }
  let done := decide (cellsOf e.frame.total ≤ e1.sent)
  let p := s.port o
  let leave := max (t + 500) (p.fifo.getLastD 0) + s.byteTimes o n
  let s1 := s.setPort o { p with fifo := (p.fifo.filter (fun l => decide (t < l))) ++ [leave], cur := if done then none else some e1 }
  if o.isCp then
    let s2 := s1.modCourse o.course (fun x => x.stageCell e n t)
    if done then (s2.countPort o 10 1).countPort o 11 (e.frame.total + 4) else s2
  else if o.isH then
    if done then
      (({ s1 with mortar := { s1.mortar with toHost := s1.mortar.toHost ++ [e1] } }).countPort o 10 1).countPort o 11 (e.frame.total + 4)
    else s1
  else s1

/-- A new frame takes output o: it leaves its queue, and starts on the line at `st` (R295). Toward a course or the host its
outer tag is stripped here (R262); on a line, when it starts. -/
def State.takeFrame (s : State) (o : PortCode) (e : QEntry) (st t : Nat) : State :=
  let s1 := { s with mortar := { s.mortar with queue := s.mortar.queue.erase e } }
  let n := s.egressTotal o e.frame
  if o.isCp ∨ o.isH then
    let e1 := { e with frame := { e.frame with bytes := s.untag o e.frame.bytes, total := n } }
    (s1.modPort o (fun p => { p with prevEnd := s.endAt o st (n + 4) })).moveCell o e1 t
  else
    (s1.modPort o (fun p => { p with prevEnd := s.endAt o st (lineBytes o n), starting := p.starting ++ [(e, st)] })).moveCell o e t

/-! ### Launch lists (R302, R303) -/

/-- The latest root time at which a preamble starts for launch time l. -/
def State.launchRoot (s : State) (o : PortCode) (x : Launch) : Nat := s.tdReach x.td x.l s.now - s.byteTimes o 8

/-- Count at a flow context (R315). -/
def State.countFc (s : State) (f : Fin 256) (k : Fin 17) : State :=
  let x := s.fcs[f]
  { s with fcs := s.fcs.set f { x with cnt := x.cnt.set k (x.cnt[k] + 1) } }

/-- The head of a launch list is dropped and counted. -/
def State.dropLaunch (s : State) (o : PortCode) (k : Fin 17) : State :=
  match (s.port o).launch with
  | x :: r => (s.modPort o (fun p => { p with launch := r })).countFc x.fc k
  | [] => s

/-- The lane of an output keeps its grid (R337). -/
def State.laneAligned (s : State) (o : PortCode) : Bool := if o.val < 36 then (s.ptime o).aligned else true

/-- FC_CFG.LATE_ACT (R303). -/
def State.lateAct (s : State) (f : Fin 256) : Bool := bit (s.reg (0x900000 + f.val * 0x100)) 21

/-- The head whose start `x` cannot be met: dropped, or moved to the earliest granule that can (R303). -/
def State.lateHead (s : State) (o : PortCode) (x : Launch) (t : Nat) : State :=
  if s.lateAct x.fc then
    let from_ := max (t + 500) ((s.port o).prevEnd + s.byteTimes o 12) + s.byteTimes o 8
    let g := s.granule o
    let l1 := max (roundUp g (s.tdValue x.td from_)) (x.l + if x.late then g else 0)
    let s1 := s.modPort o (fun p => { p with launch := { x with l := l1, late := true } :: p.launch.tail })
    if x.late then s1 else s1.countFc x.fc 13
  else s.dropLaunch o 13

/-- What the launch list of output o asks for in cell time t: a head due with its start, or the state in which a late,
missed or unservable head has been settled (R303). -/
def State.launchDue (s : State) (o : PortCode) (t : Nat) : State × Option (Launch × Nat) :=
  match (s.port o).launch with
  | [] => (s, none)
  | x :: _ =>
    let p := s.port o
    let st := s.launchRoot o x
    let len := lineBytes o (s.egressTotal o x.e.frame)
    if t + 580 ≤ st then (s, none)
    else if p.neverOpen x.e.cls (s.byteTimes o (8 + len) / 5) then (s.dropLaunch o 14, none)
    else if p.up = false ∨ s.portGated o then (if st < t + 500 then s.dropLaunch o 13 else s, none)
    else if st < t + 500 ∨ st < p.prevEnd + s.byteTimes o 12 ∨ p.cur.isSome ∨ s.laneAligned o = false ∨
        s.gateOpen o x.e.cls st (s.endAt o st len) = false then (s.lateHead o x t, none)
    else (s, some (x, st))

/-! ### The scheduler (R292, R297, R298) -/

/-- The scheduler within a cell time: the state, the pairs moved, the matched inputs and outputs, the class each free
output selected. -/
structure Sched where
  st    : State
  moved : Nat
  ins   : List PortCode
  outs  : List PortCode
  cls   : List (PortCode × Fin 8)
deriving DecidableEq, Repr

/-- The head of VOQ(i, o, c) (R289). -/
def State.headOf (s : State) (i o : PortCode) (c : Fin 8) : Option QEntry :=
  s.mortar.queue.find? (fun e => decide (e.input = i ∧ e.out = o ∧ e.cls = c))

/-- The head is eligible in t (R290). -/
def QEntry.headEligible (e : QEntry) (t : Nat) : Bool :=
  match e.eligAt with
  | some x => decide (x ≤ t)
  | none => false

/-- The length with FCS that the checks of R297 take for a head: MAX_FRAME of the egress where it is unknown (R295). -/
def State.checkLen (s : State) (o : PortCode) (e : QEntry) (t : Nat) : Nat :=
  let known := match e.frame.full with
    | some f => decide (f ≤ t)
    | none => false
  if known || e.frame.txOf.isSome then lineBytes o (s.egressTotal o e.frame) else s.maxFrame o

/-- A head may start at output o in cell time t (R297). -/
def State.mayStart (s : State) (o : PortCode) (e : QEntry) (t : Nat) : Bool :=
  let st := s.startAt o t
  let en := s.endAt o st (s.checkLen o e t)
  let guard := match (s.port o).launch with
    | x :: _ => decide (en + s.byteTimes o 12 ≤ s.launchRoot o x)
    | [] => true
  e.headEligible t && (((s.port o).sends && !s.portGated o) && (s.gateOpen o e.cls st en && guard))

/-- Heads that R276 or R263 drops leave their queue (R298). -/
def State.cullHeads (s : State) (o : PortCode) (c : Fin 8) (t : Nat) : State :=
  let bad := fun (e : QEntry) => decide (e.out = o ∧ e.cls = c ∧ e.sent = 0) && e.headEligible t
  let late := fun (e : QEntry) => bad e && (match e.frame.overAt with
    | some x => decide (x ≤ t)
    | none => false)
  let gate := fun (e : QEntry) => bad e && s.gateDrops o c (s.checkLen o e t)
  let k := (s.mortar.queue.filter gate).length
  let s1 := { s with mortar := { s.mortar with queue := s.mortar.queue.filter (fun e => !late e && !gate e) } }
  if k = 0 then s1 else s1.countPort o 16 k

/-- The class that a free output selects: the highest with a head that may start (R297). -/
def State.classOf (s : State) (o : PortCode) (t : Nat) : Option (Fin 8) :=
  (List.finRange 8).reverse.find? (fun c =>
    (List.finRange 50).any (fun i => match s.headOf i o c with
      | some e => s.mayStart o e t
      | none => false))

/-- Step 1 for one output: a due launch, or the next cell of the frame in progress. -/
def Sched.locked (x : Sched) (o : PortCode) (t : Nat) : Sched :=
  let (s, due) := x.st.launchDue o t
  match due with
  | some (l, st) =>
    let y := { x with outs := o :: x.outs, ins := l.e.input :: x.ins }
    if x.moved < 5 ∧ s.fifoRoom o t = true then
      let s1 := s.modPort o (fun p => { p with launch := p.launch.tail })
      { y with st := s1.takeFrame o l.e st t, moved := x.moved + 1 }
    else { y with st := s }
  | none =>
    match (s.port o).cur with
    | some e =>
      let ready := match e.cellAt e.sent with
        | some a => decide (a ≤ t) && s.fifoRoom o t
        | none => false
      if ready then
        let y := { x with outs := o :: x.outs, ins := e.input :: x.ins }
        if x.moved < 5 then { y with st := s.moveCell o e t, moved := x.moved + 1 } else { y with st := s }
      else { x with st := s }
    | none => { x with st := s }

/-- Outputs in the order of cells held in the transmit FIFO, then of index. -/
def State.byFifo (s : State) (t : Nat) : List PortCode :=
  let held := fun (o : PortCode) => ((s.port o).fifo.filter (fun l => decide (t < l))).length
  (List.range 3).flatMap (fun n => (List.finRange 50).filter (fun o => decide (min (held o) 2 = n)))

/-- Step 2 for one output. -/
def Sched.select (x : Sched) (o : PortCode) (t : Nat) : Sched :=
  if x.outs.contains o ∨ x.st.fifoRoom o t = false ∨ (x.st.port o).cur.isSome then x
  else
    let s1 := (List.finRange 8).foldl (fun s c => s.cullHeads o c t) x.st
    match s1.classOf o t with
    | some c => { x with st := s1, cls := x.cls ++ [(o, c)] }
    | none => { x with st := s1 }

/-- The first of the 50 indices from `from_` on, modulo 50, that satisfies p. -/
def rotFind (from_ : Nat) (p : Fin 50 → Bool) : Option (Fin 50) :=
  ((List.range 50).map (fun k => (⟨(from_ + k) % 50, by omega⟩ : Fin 50))).find? p

/-- The grant of a free output: the first requesting input (R292). -/
def Sched.grant (x : Sched) (t : Nat) (oc : PortCode × Fin 8) : Option (PortCode × Fin 8 × PortCode) :=
  if x.outs.contains oc.1 then none
  else (rotFind ((x.st.port oc.1).gp[oc.2]).val (fun i => !x.ins.contains i && (match x.st.headOf i oc.1 oc.2 with
    | some e => x.st.mayStart oc.1 e t
    | none => false))).map (fun i => (oc.1, oc.2, i))

/-- The accept of one input among the grants, and the move of its first cell (R292). -/
def Sched.accept (first : Bool) (t : Nat) (grants : List (PortCode × Fin 8 × PortCode)) (x : Sched) (i : PortCode) : Sched :=
  let mine := grants.filter (fun g => decide (g.2.2 = i))
  match rotFind (x.st.port i).ap.val (fun o => mine.any (fun g => decide (g.1 = o))) with
  | some o =>
    match mine.find? (fun g => decide (g.1 = o)) with
    | some (_, c, _) =>
      match x.st.headOf i o c with
      | some e =>
        if x.moved < 5 then
          let s1 := x.st.takeFrame o e (x.st.startAt o t) t
          let s2 := if first then
              (s1.modPort o (fun p => { p with gp := p.gp.set c ⟨(i.val + 1) % 50, by omega⟩ })).modPort i
                (fun p => { p with ap := ⟨(o.val + 1) % 50, by omega⟩ })
            else s1
          { x with st := s2, moved := x.moved + 1, ins := i :: x.ins, outs := o :: x.outs }
        else x
      | none => x
    | none => x
  | none => x

/-- One iteration of the matching. -/
def Sched.iter (first : Bool) (t : Nat) (x : Sched) : Sched :=
  let grants := x.cls.filterMap (x.grant t)
  (List.finRange 50).foldl (fun x i => if x.ins.contains i then x else x.accept first t grants i) x

/-- One cell time t (R292). -/
def State.cellTime (s : State) (t : Nat) : State :=
  let x0 : Sched := { st := s.at_ t, moved := 0, ins := [], outs := [], cls := [] }
  let x1 := (s.byFifo t).foldl (fun x o => x.locked o t) x0
  let x2 := (List.finRange 50).foldl (fun x o => x.select o t) x1
  let x3 := x2.iter true t
  let x4 := ((x3.iter false t).iter false t).iter false t
  x4.st

/-- The next cell time from root time t on (R292). -/
def nextCellTime (t : Nat) : Nat := edgeFrom 80 t

end Sys2Proof.Machine
end

