-- ==== Sys2Proof/Machine/FlowCtx.lean ====
section
/-! DEFINITION. Flow contexts: R305 to R312 and R523. -/

namespace Sys2Proof.Machine

/-- BAR0 offset of flow context f (R315). -/
def fcBase (f : Fin 256) : Nat := 0x900000 + f.val * 0x100

def State.fc (s : State) (f : Fin 256) : FlowCtx := s.fcs[f]
def State.setFc (s : State) (f : Fin 256) (x : FlowCtx) : State := { s with fcs := s.fcs.set f x }
def State.modFc (s : State) (f : Fin 256) (g : FlowCtx → FlowCtx) : State := s.setFc f (g (s.fc f))
/-- FC_CFG(f) (R315). -/
def State.fcCfg (s : State) (f : Fin 256) : Reg32 := s.reg (fcBase f)

/-- A time of three words: ns, s low, s high (R310, R315), in 2^-48 ns. -/
def State.time3 (s : State) (off : Nat) : Nat :=
  (bits (s.reg (off + 8)) 15 0 * 2 ^ 32 + (s.reg (off + 4)).toNat) * unitsPerSec + bits (s.reg off) 29 0 * 2 ^ 48

/-! ### Policing (R307) -/

/-- Tokens at root time t: CIR a clk_mortar cycle up to CBS, with 16 fraction bits. -/
def FlowCtx.tokensAt (x : FlowCtx) (cir cbs t : Nat) : Nat := min (cbs * 65536) (x.tokens + cir * ((t - x.tokAt) / mortarCycle))

/-- The bucket after a frame of n bytes, and whether the frame conforms. -/
def FlowCtx.police (x : FlowCtx) (cir cbs t n : Nat) : FlowCtx × Bool :=
  let k := x.tokensAt cir cbs t
  if n * 65536 ≤ k then ({ x with tokens := k - n * 65536, tokAt := t }, true) else ({ x with tokens := k, tokAt := t }, false)

/-- Add to a counter of a flow context; the counters wrap (R315). -/
def FlowCtx.add (x : FlowCtx) (k : Fin 17) (n : Nat) : FlowCtx := { x with cnt := x.cnt.set k (x.cnt[k] + BitVec.ofNat 32 n) }

/-! ### Recovery (R308): the sequence recovery function of IEEE 802.1CB -/

/-- The difference of two sequence numbers, from -32768 to 32767. -/
def seqDelta (a b : Word) : Int := (a - b).toInt

/-- Shift the history by one and count a number that was never received as lost. -/
def FlowCtx.shift (x : FlowCtx) (len : Nat) (b : Bool) : FlowCtx :=
  let lost := !bit x.hist (len - 1)
  let h := setBit (x.hist <<< 1) 0 b
  if lost then { x with hist := h }.add 9 1 else { x with hist := h }

/-- Shift the history n times with zeros. -/
def FlowCtx.shiftZeros (x : FlowCtx) (len : Nat) : (n : Nat) → FlowCtx
  | 0 => x
  | n + 1 => (x.shift len false).shiftZeros len n

/-- A frame passes the recovery function at root time t. -/
def FlowCtx.pass (x : FlowCtx) (t : Nat) : FlowCtx × Bool := ({ x with lastAt := t }.add 5 1, true)

/-- The vector recovery algorithm with a history of `len` numbers. -/
def FlowCtx.vector (x : FlowCtx) (len : Nat) (seq : Word) (t : Nat) : FlowCtx × Bool :=
  let d := seqDelta seq x.rseq
  if x.takeAny then { x with takeAny := false, hist := setBit x.hist 0 true, rseq := seq }.pass t
  else if (len : Int) ≤ d ∨ d ≤ -(len : Int) then ((x.add 8 1).add 6 1, false)
  else if d ≤ 0 then
    if bit x.hist (-d).toNat then (x.add 6 1, false)
    else ({ x with hist := setBit x.hist (-d).toNat true }.add 7 1).pass t
  else
    let x1 := if d = 1 then x else x.add 7 1
    let x2 := (x1.shiftZeros len (d.toNat - 1)).shift len true
    { x2 with rseq := seq }.pass t

/-- The match recovery algorithm. -/
def FlowCtx.matching (x : FlowCtx) (seq : Word) (t : Nat) : FlowCtx × Bool :=
  let d := seqDelta seq x.rseq
  if x.takeAny then { x with takeAny := false, rseq := seq }.pass t
  else if d = 0 then (x.add 6 1, false)
  else { (if d = 1 then x else x.add 7 1) with rseq := seq }.pass t

/-- Recovery of a frame (R308) under FC_RCV_CFG. -/
def FlowCtx.recover (x : FlowCtx) (cfg : Reg32) (seq : Word) (t : Nat) : FlowCtx × Bool :=
  if bit cfg 31 then x.matching seq t else x.vector (bits cfg 20 16 + 1) seq t

/-- The recovery reset of its timeout. -/
def FlowCtx.recoveryReset (x : FlowCtx) : FlowCtx := { x with rseq := 0xFFFF, hist := 0, takeAny := true }.add 10 1

/-! ### Launch times (R310) and triggers that follow them (R347) -/

/-- The launch time for a frame ready at `ready`: the smallest lbase + k × lperiod at or after both bounds. -/
def launchTime (lbase lperiod bound : Nat) : Nat :=
  if bound ≤ lbase ∨ lperiod = 0 then lbase else lbase + (bound - lbase + lperiod - 1) / lperiod * lperiod

/-- A trigger output in mode 4 takes a pulse at launch time l of the context it follows (R347). -/
def Tto.follow (x : Tto) (f : Fin 256) (l : Nat) : Tto :=
  if bits x.ctrl 30 28 = 4 ∧ bits x.ctrl 7 0 = f.val ∧ x.st ≠ .idle then
    let lv := bit x.ctrl 25
    { x with edges := x.edges ++ [(l, lv), (l + x.width, !lv)] }
  else x

/-- All trigger outputs that follow f. -/
def State.ttoFollow (s : State) (f : Fin 256) (l : Nat) : State :=
  { s with plumb := { s.plumb with ttos := s.plumb.ttos.map (fun x => x.follow f l) } }

/-- Put a launch into a list in the order of time, then of context (R302). -/
def insertLaunch (x : Launch) : List Launch → List Launch
  | [] => [x]
  | y :: r => if x.l < y.l ∨ (x.l = y.l ∧ x.fc < y.fc) then x :: y :: r else y :: insertLaunch x r

/-! ### Replication (R306 step 8) -/

/-- The members of a context in the order M0 to M3 (R315). -/
def State.members (s : State) (f : Fin 256) : List PortCode :=
  (List.range 4).filterMap (fun k => portOfCode (bits (s.reg (fcBase f + 4)) (8 * k + 7) (8 * k)))

/-- One copy for member o: dropped where the member is down or the copy too long, else admitted, and listed where it
has a launch time `l` (R302, R306). -/
def State.replicate (s : State) (f : Fin 256) (fr : Frame) (cls : Fin 8) (l : Option Nat) (td : Fin 2) (o : PortCode) : State :=
  if !(s.port o).up then s.countFc f 12
  else if s.maxFrame o < fr.total + 4 then s.countFc f 16
  else
    let e : QEntry := { frame := fr, out := o, cls := cls, input := fr.info.ingress, fc := some f, ct := false, charge := 0, sent := 0 }
    match l with
    | none => (s.admitCopy e).2
    | some l =>
      if 64 ≤ (s.port o).launch.length then s.countFc f 15
      else
        let (ok, s1) := s.admitCopy e
        match ok, s1.mortar.queue.getLast? with
        | true, some x =>
          let s2 := { s1 with mortar := { s1.mortar with queue := s1.mortar.queue.dropLast } }
          let y : Launch := { l := roundUp (s.granule o) l, td := td, fc := f, late := false, e := x }
          s2.modPort o (fun p => { p with launch := insertLaunch y p.launch })
        | _, _ => s1

/-- The outputs of a context's members, course codes resolved (R269). -/
def State.memberOutputs (s : State) (f : Fin 256) : List PortCode := (s.members f).flatMap s.outputsOf

/-- The context acts on a frame (R306): owner, key, policing, recovery, generation, class, launch, replication. -/
def State.flowAct (s : State) (f : Fin 256) (fr : Frame) (cls : Fin 8) (byFilter : Bool) : State :=
  let cfg := s.fcCfg f
  let b := fcBase f
  let s0 := s.countFc f 0
  let src := if fr.info.ingress.isH then 13 else fr.info.ingress.val - 37
  let kh := s.reg (b + 0xC)
  let p := parseFrame fr.bytes
  let keyOk := decide (beAt fr.bytes 0 2 = bits kh 15 0) && (decide (beAt fr.bytes 2 4 = (s.reg (b + 8)).toNat) &&
    (!bit kh 30 || decide (p.vid (s.pvid fr.info.ingress) = bits kh 27 16)))
  if fr.info.err then s
  else if !bit cfg 31 then s
  else if !byFilter ∧ bits cfg 11 8 ≠ src then s0.countFc f 2
  else if bit kh 31 ∧ keyOk = false then s0.countFc f 1
  else
    let (x1, conf) := if bit cfg 29 then (s0.fc f).police (bits (s.reg (b + 0x30)) 23 0) (bits (s.reg (b + 0x34)) 23 0) s.now (fr.total + 4)
      else (s0.fc f, true)
    if !conf ∧ !bit cfg 28 then (s0.setFc f (x1.add 3 1))
    else
      let x2 := if conf then x1 else x1.add 4 1
      let cls1 : Fin 8 := if conf then cls else ⟨bits cfg 27 25 % 8, by omega⟩
      let tag := rtagOf fr.bytes
      if bit cfg 23 ∧ tag = none then s0.setFc f (x2.add 11 1)
      else
        let (x3, pass) := if bit cfg 23 then x2.recover (s.reg (b + 0x44)) (tag.getD 0) s.now else (x2, true)
        if !pass then s0.setFc f x3
        else
          let by1 := if bit cfg 23 ∧ bit cfg 22 then popRtag fr.bytes else fr.bytes
          let (by2, x4) := if bit cfg 24 then (pushRtag by1 x3.seqGen, { x3 with seqGen := x3.seqGen + 1 }) else (by1, x3)
          let cls2 : Fin 8 := if bit cfg 16 ∧ conf = true then ⟨bits cfg 19 17 % 8, by omega⟩ else cls1
          let fr2 := { fr with bytes := by2, total := by2.length }
          let td : Fin 2 := if bit cfg 20 then 1 else 0
          if bit cfg 30 then
            let ready := s.tdValue td (fr.full.getD s.now)
            let per := (s.reg (b + 0x20)).toNat * 2 ^ 48
            let l := launchTime (s.time3 (b + 0x14)) per (max (ready + bits (s.reg (b + 0x10)) 23 0 * 2 ^ 48) x4.lnext)
            let s1 := (s0.setFc f { x4 with lnext := l + per }).ttoFollow f l
            (s.memberOutputs f).foldl (fun s o => s.replicate f fr2 cls2 (some l) td o) s1
          else (s.memberOutputs f).foldl (fun s o => s.replicate f fr2 cls2 none td o) (s0.setFc f x4)

/-- A frame is sent to a context and waits until it is stored in full (R305). -/
def State.toFlow (s : State) (f : Fin 256) (fr : Frame) (cls : Fin 8) (byFilter : Bool) : State :=
  s.modFc f (fun x => { x with waiting := x.waiting ++ [(fr, cls, byFilter)] })

/-- The waiting frame that the context takes first: stored earliest, then of the lowest port (R305). -/
def firstWaiting (a : Option (Frame × Fin 8 × Bool)) (w : Frame × Fin 8 × Bool) : Option (Frame × Fin 8 × Bool) :=
  match w.1.full with
  | none => a
  | some t =>
    match a with
    | none => some w
    | some x =>
      let u := x.1.full.getD 0
      if t < u ∨ (t = u ∧ w.1.info.ingress < x.1.info.ingress) then some w else a

/-- The context takes one frame (R305). -/
def State.flowTake (s : State) (f : Fin 256) : State :=
  match (s.fc f).waiting.foldl firstWaiting none with
  | some w =>
    let s1 := (s.at_ (w.1.full.getD 0)).modFc f (fun x => { x with waiting := x.waiting.erase w })
    s1.flowAct f w.1 w.2.1 w.2.2
  | none => s

/-! ### Writes (R312, R338) -/

/-- The owner of a context is a loaded course. -/
def State.fcBound (s : State) (f : Fin 256) : Bool :=
  match s.courses[bits (s.fcCfg f) 11 8]? with
  | some x => x.image.isSome
  | none => false

/-- The lane domain of a port (R337). -/
def State.laneTd (s : State) (o : PortCode) : Bool := if o.isU then bit (s.reg 0x200004) 30 else bit (s.tsCfg o) 26

/-- FC_CFG value v is one that R310, R312 or R338 refuses with these members and period. -/
def State.fcCfgBad (s : State) (f : Fin 256) (v : Reg32) : Bool :=
  let codes := ((List.range 4).map (fun k => bits (s.reg (fcBase f + 4)) (8 * k + 7) (8 * k))).filter (fun n => decide (n ≠ 0xFF))
  let m := s.members f
  bit v 31 && ((bit v 24 && bit v 23) || ((bit v 30 && decide (s.reg (fcBase f + 0x20) = 0)) || (decide (codes = []) ||
    (!decide codes.Nodup || (bit v 30 && m.any (fun o => o.isH || (o.isCp || (s.laneTd o != bit v 20))))))))

/-- A write of FC_CFG (R312). -/
def State.fcCfgWrite (s : State) (p : Party) (f : Fin 256) (v : Reg32) : State :=
  if s.mayConfigure p (s.fcBound f) = false ∨ s.fcCfgBad f v then s.refused p (fcBase f) v.toNat
  else s.setReg (fcBase f) (v &&& 0xFFFF0F00)

/-- A write of another register of a context: FC_CIR and FC_CBS refill the bucket, FC_LBASE restarts LNEXT (R307, R310). -/
def State.fcRegWrite (s : State) (p : Party) (f : Fin 256) (o : Nat) (v : Reg32) : State :=
  if s.mayConfigure p (s.fcBound f) = false then s.refused p (fcBase f + o) v.toNat
  else
    let s1 := s.setReg (fcBase f + o) (if o = 0x10 ∨ o = 0x30 ∨ o = 0x34 then v &&& 0xFFFFFF else if o = 0x14 then v &&& 0x3FFFFFFF
      else if o = 0x1C then v &&& 0xFFFF else if o = 0x0C then v &&& 0xCFFFFFFF else if o = 0x44 then v &&& 0x801FFFFF else v)
    if o = 0x30 ∨ o = 0x34 then
      s1.modFc f (fun x => { x with tokens := bits (s1.reg (fcBase f + 0x34)) 23 0 * 65536, tokAt := s.now })
    else if o = 0x14 ∨ o = 0x18 ∨ o = 0x1C then s1.modFc f (fun x => { x with lnext := s1.time3 (fcBase f + 0x14) })
    else if o = 0x40 then s.modFc f (fun x => { x with seqGen := v.extractLsb' 0 16 })
    else s1

end Sys2Proof.Machine
end

