-- ==== Sys2Proof/Machine/Mac.lean ====
section
/-! DEFINITION. The MACs of the ports: reception and steering (R263 to R269), transmission (R264, R333 to R343), stamp
reports (R343), link state and outage (R259, R283 to R285, R515). -/

namespace Sys2Proof.Machine

/-! ### Stamp reports (R343) -/

/-- PLUMB_CFG (R343). -/
def State.plumbCfg (s : State) : Reg32 := s.reg 0x200000

/-- The 12 bytes of a time in a report: seconds, ns, fraction, big-endian (R343). -/
def timeBytes (q : BitVec 96) : List Byte :=
  toBe 6 (q.extractLsb' 48 48).toNat ++ (toBe 4 (q.extractLsb' 16 32).toNat ++ toBe 2 (q.extractLsb' 0 16).toNat)

/-- A stamp report of 60 bytes before the FCS (R343). -/
def State.reportBytes (s : State) (kind b15 b16 b17 n18 : Nat) (t0 t1 : BitVec 96) : List Byte :=
  List.replicate 12 0 ++ (toBe 2 (bits s.plumbCfg 31 16) ++ ([BitVec.ofNat 8 kind, BitVec.ofNat 8 b15, BitVec.ofNat 8 b16,
    BitVec.ofNat 8 b17] ++ (toBe 2 n18 ++ (timeBytes t0 ++ (timeBytes t1 ++ List.replicate 16 0)))))

/-- A report enters the mortar as a frame of input code 36 (R343): true where it is admitted everywhere it goes. -/
def State.sendReport (s : State) (bytes : List Byte) (td : Bool) (ts : BitVec 96) (dest : PortCode) (ring : Option (Fin 64)) :
    Bool × State :=
  let cls : Fin 8 := ⟨bits s.plumbCfg 15 13 % 8, by omega⟩
  let info : FrameMeta := { ingress := portH, cls := cls, err := false, tsValid := true, td := td, ts := ts }
  let (f, s1) := s.newFrame portH bytes info s.now 63000
  let fr := { f with full := some s.now, ring := ring }
  (s.outputsOf dest).foldl (fun (acc : Bool × State) o =>
    let (ok, s2) := acc.2.admitCopy { frame := fr, out := o, cls := cls, input := portH, fc := none, ct := false, charge := 0, sent := 0 }
    (acc.1 && ok, s2)) (true, s1)

/-! ### Steering (R265 to R268) -/

/-- Filter entry e of port q matches a frame (R266). -/
def State.filterMatch (s : State) (q : PortCode) (p : Parsed) (e : Nat) : Bool :=
  let b := portBase q + 0x400 + 16 * e
  let k0 := s.reg b; let k1 := s.reg (b + 4); let k2 := s.reg (b + 8)
  let same := fun (v w m : Nat) => decide ((v &&& m) = (w &&& m))
  bit k0 31 && (same (p.vid (s.pvid q)) (bits k0 11 0) (bits k0 23 12) && (same (p.pcp (s.defPcp q)) (bits k2 2 0) (bits k2 6 4) &&
    (same p.etype (bits k1 15 0) (bits k1 31 16) && (decide (bits k0 30 29 = 0) || decide (bits k0 30 29 = p.tag)))))

/-- The action for a frame: of the first entry that matches, or PORT_DEFAULT (R266). -/
def State.steerAct (s : State) (q : PortCode) (p : Parsed) : Reg32 :=
  match (List.range 64).find? (s.filterMatch q p) with
  | some e => s.reg (portBase q + 0x400 + 16 * e + 12)
  | none => s.reg (portBase q + 0x10)

/-- A received frame goes where steering sends it (R266, R268). -/
def State.steer (s : State) (q : PortCode) (f : Frame) : State :=
  let p := parseFrame f.bytes
  let a := s.steerAct q p
  let cls : Fin 8 := if bit a 26 then ⟨p.pcp (s.defPcp q) % 8, by omega⟩ else ⟨bits a 29 27 % 8, by omega⟩
  let fr := { f with info := { f.info with cls := cls } }
  let target := bits a 7 0
  match bits a 31 30 with
  | 0 =>
    match portOfCode target with
    | some o => if o = q ∨ o.isH then s.countPort q 9 1 else s.switchTo fr q cls o
    | none => s.countPort q 9 1
  | 1 => if h : 32 ≤ target ∧ target < 64 then s.switchTo { fr with ring := some ⟨target, by omega⟩ } q cls portH else s.countPort q 9 1
  | 2 => if h : target < 256 then s.toFlow ⟨target, h⟩ fr cls true else s.countPort q 9 1
  | _ => s.countPort q 7 1

/-! ### Reception (R259, R263, R335) -/

/-- The domain in which port q stamps a frame (R335). -/
def State.stampDomain (s : State) (q : PortCode) (l : List Byte) : Bool :=
  let c := s.tsCfg q
  match (if bit c 31 then ptpEvent l else none) with
  | some (m, _) => if bit c 25 ∧ byteAt l (m + 4) = bits c 15 8 then true else bit c 27
  | none => bit c 27

/-- The ingress data of a frame whose timestamp point falls in the clk_time cycle of root time t (R30, R333). -/
def State.ingressMeta (s : State) (q : PortCode) (l : List Byte) (err : Bool) (t interp : Nat) : FrameMeta :=
  let td := s.stampDomain q l
  { ingress := q, cls := 0, err := err, tsValid := true, td := td,
    ts := quadOf (s.stampAt (if td then 1 else 0) t interp (s.rxCorr q)) }

/-- A frame of n bytes and FCS is longer than MAX_FRAME: it keeps MAX_FRAME - 4 bytes and the error marker, and is
dropped unless it has begun to leave by then (R263). -/
def State.oversize (s : State) (q : PortCode) (f : Frame) (t : Nat) : Frame :=
  let m := s.maxFrame q - 4
  let over_ := mortarEdge (t + bytesTime (s.rateMbps q) (m + 5) + intoBuffer q)
  { f with bytes := f.bytes.take m, total := m, cells := f.cells.take (cellsOf m), full := some over_, overAt := some over_,
           info := { f.info with err := true } }

/-- Copies that are stored in full before they leave are dropped: an oversize frame goes on only where it is cut
through (R263). -/
def State.dropStored (s : State) (id : Nat) : State :=
  { s with mortar := { s.mortar with arriving := s.mortar.arriving.filter (fun e => decide (e.frame.id ≠ id) || e.ct) }
           fcs := s.fcs.map (fun x => { x with waiting := x.waiting.filter (fun w => decide (w.1.id ≠ id)) }) }

/-- A frame arrives on port q with its timestamp point now; `bytes` go up to the FCS (R263). -/
def State.receive (s : State) (q : PortCode) (bytes : List Byte) (fin : LineEnd) (interp : Nat) : State :=
  let n := bytes.length + 4
  let rate := s.rateMbps q
  let err := decide (fin ≠ .good)
  let s0 := match fin with
    | .codeError => s.countPort q 5 1
    | _ => s
  if fin ≠ .codeError ∧ n < 64 then s.countPort q 3 1
  else
    let big := decide (fin ≠ .codeError) && decide (s.maxFrame q < n)
    let (f, s1) := s0.newFrame q bytes (s.ingressMeta q bytes err s.now interp) s.now rate
    let mac := decide ((parseFrame bytes).etype = 0x8808)
    if big then
      let s2 := s1.countPort q 4 1
      if s.portDozes q then s2 else (s2.steer q (s.oversize q f s.now)).dropStored f.id
    else
      let s2 := if fin = .badFcs then s1.countPort q 2 1 else s1
      if fin = .good ∧ mac = true then s2.countPort q 6 1
      else if s.portDozes q then (if fin = .good then s2.countPort q 8 1 else s2)
      else
        let s3 := if fin = .good then (s2.countPort q 0 1).countPort q 1 n else s2
        s3.steer q f

/-! ### Transmission (R264, R283, R333, R341, R342) -/

/-- The course or host whose frame it is, for stamp reports (R341): a course, or H. -/
def State.reportTo (s : State) (e : QEntry) : Option (PortCode × Option (Fin 64)) :=
  let owner := match e.fc with
    | some f => bits (s.fcCfg f) 11 8
    | none => if e.input.isCp then e.input.val - 37 else if e.input.isH then 13 else 15
  let ring : Fin 64 := ⟨bits s.plumbCfg 7 0 % 64, by omega⟩
  if h : owner < 13 then some (portCp ⟨owner, h⟩, none)
  else if e.input.isH then some (portH, some ring) else none

/-- The frame comes from a course or the host (R342). -/
def QEntry.sourced (e : QEntry) : Bool := e.input.isCp || e.input.isH

/-- What plumb changes in a frame at its egress with stamp ts (R342). -/
def State.plumbEdit (s : State) (q : PortCode) (e : QEntry) (l : List Byte) (ts : Nat) : List Byte :=
  let c := s.tsCfg q
  match (if bit c 31 then ptpEvent l else none) with
  | some (m, u) =>
    if isIpv6 l then l
    else if bit c 29 ∧ e.sourced = true ∧ isOneStepSync l m = true then oneStep l m u (quadOf ts)
    else if bit c 28 ∧ e.sourced = false then
      clearUdp (addCorrection l m (((ts : Int) - ofQuad e.frame.info.ts) / 2 ^ 32)) u
    else l
  | none => l

/-- The stamp report of a PTP event message (R341, R343); a refused one is counted. -/
def State.egressReport (s : State) (q : PortCode) (e : QEntry) (l : List Byte) (t interp : Nat) : State :=
  let c := s.tsCfg q
  match (if bit c 30 ∧ bit c 31 then ptpEvent l else none), s.reportTo e with
  | some (m, _), some (dest, ring) =>
    let td := s.stampDomain q l
    let t0 := quadOf (s.stampAt 0 t interp (s.txCorr q)); let t1 := quadOf (s.stampAt 1 t interp (s.txCorr q))
    let by_ := s.reportBytes 1 q.code (byteAt l m % 16) (byteAt l (m + 4)) (beAt l (m + 30) 2) t0 t1
    let (ok, s1) := s.sendReport by_ td (if td then t1 else t0) dest ring
    if ok then s1
    else if h : q.val < 36 then
      let x := s1.plumb.ports[q.val]
      { s1 with plumb := { s1.plumb with ports := s1.plumb.ports.set q.val { x with reportDrop := satInc x.reportDrop } } }
    else s1
  | _, _ => s

/-- The frame put on the line of a P or U port. -/
def State.putLine (s : State) (q : PortCode) (l : List Byte) (err : Bool) (id : Nat) (ts : BitVec 96) : State :=
  if q.isP then
    { s with lineOut := s.lineOut ++ [{ port := q, bytes := l ++ List.replicate (60 - l.length) 0, err := err, cut := false, id := id, stamp := ts }] }
  else { s with chainOut := s.chainOut ++ [.data ⟨(q.val - 32) % 4, by omega⟩ l err id ts] }

/-- The oldest frame selected for port q starts on the line (R295, R333): stamped, edited, reported and counted. -/
def State.egressStart (s : State) (q : PortCode) (interp : Nat) : State :=
  match (s.port q).starting with
  | (e, st) :: r =>
    let s0 := s.at_ st
    let point := st + s.byteTimes q 8
    let l0 := e.frame.bytes
    let d : Fin 2 := if e.sourced then (if s0.stampDomain q l0 then 1 else 0) else if e.frame.info.td then 1 else 0
    let ts := s0.stampAt d point interp (s0.txCorr q)
    let l := s0.plumbEdit q e (s0.untag q l0) ts
    let n := lineBytes q (s0.egressTotal q e.frame)
    let s1 := s0.modPort q (fun p => { p with starting := r, onLine := some (e, s0.endAt q st n) })
    let s2 := (s1.countPort q 10 1).countPort q 11 n
    let s3 := if e.frame.info.err then s2.countPort q 12 1 else s2
    let s4 := if e.frame.lso.isSome then s3.countPort q 14 1 else s3
    let s5 := s4.egressReport q e l0 point interp
    let loop := bits (s.portCfg q) 23 22
    if q.isP ∧ (loop = 1 ∨ loop = 2) then s5.receive q (l ++ List.replicate (60 - l.length) 0) (if e.frame.info.err then .badFcs else .good) interp
    else s5.putLine q l e.frame.info.err e.frame.id (quadOf ts)
  | [] => s

/-! ### Link and outage (R259, R283 to R285, R515) -/

/-- Every frame queued for the port is dropped and counted by class (R284). -/
def State.dropQueued (s : State) (q : PortCode) : State :=
  let mine := s.mortar.queue.filter (fun e => decide (e.out = q))
  let s1 := { s with mortar := { s.mortar with queue := s.mortar.queue.filter (fun e => decide (e.out ≠ q)) } }
  (List.finRange 8).foldl (fun s c => s.countPort q (holdDrop c) (mine.filter (fun e => decide (e.cls = c))).length) s1

/-- The hold of a port expires (R284, R515). -/
def State.holdExpire (s : State) (q : PortCode) : State :=
  let n := fun (c : Fin 8) => (s.mortar.queue.filter (fun e => decide (e.out = q ∧ e.cls = c))).length
  ((s.dropQueued q).modPort q (fun p => { p with holdEnd := none, expired := true, dropping := true })).event .holdExpired false 0
    (q.code :: (List.finRange 8).map n)

/-- A hold of PORT_HOLD microseconds starts now; 0 expires at once (R283, R284). -/
def State.holdStart (s : State) (q : PortCode) : State :=
  let us := bits (s.reg (portBase q + 0xC)) 15 0
  let s1 := s.modPort q (fun p => { p with holdEnd := some (s.now + us * microsecond), dropping := false })
  if us = 0 then s1.holdExpire q else s1

/-- The frames in transmission at the port (R283): selected and not started, or still on the line. -/
def Port.inTransit (p : Port) (t : Nat) : List QEntry :=
  p.starting.map (fun x => x.1) ++ (p.onLine.toList.filter (fun x => decide (t < x.2))).map (fun x => x.1)

/-- The link of a port goes down (R283): frames in transmission are cut, the queues stop, a hold starts. -/
def State.portDown (s : State) (q : PortCode) : State :=
  let p := s.port q
  if p.up then
    let cut := p.inTransit s.now
    let ids := cut.map (fun e => e.frame.id)
    let s1 := s.setPort q { p with up := false, sync := false, anDone := false, cur := none, fifo := [], starting := [], onLine := none }
    let s2 := { s1 with lineOut := s1.lineOut.map (fun (l : LineFrame) => if l.port = q ∧ ids.contains l.id then { l with cut := true } else l) }
    ((s2.countPort q 13 cut.length).countPort q 17 1).holdStart q
  else s

/-- The link of a port comes up (R259, R284). RATE of a course port is 10 Gb/s; SPEED has no code for the rate of a U port or of H,
so RATE is a free value there (log 50). -/
def State.portUp (s : State) (q : PortCode) (rate : BitVec 3) : State :=
  let (r, s1) := if q.isU || q.isH then s.fresh else (5, s)
  s1.modPort q (fun p => { p with up := true, sync := true, rate := if q.isP then rate else BitVec.ofNat 3 r,
                                  anDone := bit (s.portCfg q) 24, holdEnd := none, expired := false, dropping := false })

/-! ### PORT_CFG and the other registers of a port block (R260, R262, R267, R515) -/

/-- PORT_CFG as it is stored: no reserved bits, and MODE on P ports only (R262). -/
def portCfgMask (q : PortCode) : Reg32 := if q.isP then 0xFFF03FFF else 0x8FF03FFF

/-- A PORT_CFG value that is ignored whatever EN holds (R260). -/
def portCfgIllegal (v : Reg32) : Bool :=
  decide (4 ≤ bits v 30 28) || (decide (6 ≤ bits v 27 25) || decide (bits v 13 0 < 64 ∨ 9216 < bits v 13 0))

/-- PORT_CFG value v is refused whole: it is illegal, or it changes MODE, SPEED or AN_EN while EN is 1 (R260). -/
def State.portCfgBad (s : State) (q : PortCode) (v : Reg32) : Bool :=
  portCfgIllegal v || (bit (s.portCfg q) 31 && decide ((v ^^^ s.portCfg q) &&& (portCfgMask q &&& 0x7F000000) ≠ 0))

/-- The path delays of a port's lane mode without a calibration page, in 1/64 ns (R517). -/
def nominalDelays (q : PortCode) (mode : Nat) : BitVec 24 × BitVec 24 :=
  if q.isU then (1232, 816) else if mode = 0 then (6144, 4096) else if mode = 1 then (2560, 1792) else (2464, 1632)

/-- Effects of a change of EN (R259, R515): a course port's link follows EN. -/
def State.portEnable (s : State) (q : PortCode) (was is_ : Bool) : State :=
  if was = is_ then s
  else if is_ then (if q.isCp then s.portUp q 5 else (s.holdStart q)) else s.portDown q

/-- PORT_CFG is written (R260, R262, R515). -/
def State.portCfgWrite (s : State) (p : Party) (q : PortCode) (v : Reg32) : State :=
  if s.mayConfigure p (s.portBound q) = false ∨ s.portCfgBad q v then s.refused p (portBase q) v.toNat
  else
    let was := bit (s.portCfg q) 31
    (s.setReg (portBase q) (v &&& portCfgMask q)).portEnable q was (bit v 31)

/-- A write of FLT_KEY0 puts the staged words of its entry into effect (R267). -/
def State.filterCommit (s : State) (q : PortCode) (e : Nat) (v : Reg32) : State :=
  let o := 0x400 + 16 * e
  let st := (s.port q).fltStaged
  let s1 := [o + 4, o + 8, o + 12].foldl (fun s x =>
    match st.find? (fun y => decide (y.1 = x)) with
    | some y => s.setReg (portBase q + x) y.2
    | none => s) (s.setReg (portBase q + o) (v &&& 0xE0FFFFFF))
  s1.modPort q (fun p => { p with fltStaged := p.fltStaged.filter (fun y => decide (y.1 / 16 ≠ o / 16)) })

/-- The bits of a staged filter word. -/
def filterMask (o : Nat) : Reg32 := if o % 16 = 8 then 0x77 else if o % 16 = 12 then 0xFC0000FF else 0xFFFFFFFF

/-! ### Gate control lists (R277, R278) -/

/-- The admin list as a commit of value v copies it (R277). -/
def State.adminList (s : State) (q : PortCode) (v : Reg32) : Gcl :=
  let b := portBase q
  { en := bit v 31, td := if bit v 27 then 1 else 0, base := s.time3 (b + 0x804) / 2 ^ 48, cycle := (s.reg (b + 0x810)).toNat,
    ext := (s.reg (b + 0x814)).toNat,
    entries := (List.range (min (bits v 8 0) 256)).map (fun e =>
      ((s.reg (b + 0x1000 + 8 * e)).extractLsb' 0 8, (s.reg (b + 0x1004 + 8 * e)).toNat)) }

/-- A list that R277 refuses. -/
def Gcl.bad (g : Gcl) : Bool :=
  decide (g.entries = []) || (g.entries.any (fun e => decide (e.2 < 16)) || decide (g.cycle < 128))

/-- The change time: the earliest base + N × cycle at least two ticks after now (R277). -/
def Gcl.changeTime (g : Gcl) (now : Nat) : Nat :=
  let t := now + 2000000
  if t ≤ g.base then g.base else g.base + (t - g.base + g.cycle - 1) / g.cycle * g.cycle

/-- A write of GCL_CTRL (R277). -/
def State.gclWrite (s : State) (q : PortCode) (v : Reg32) : State :=
  let s1 := s.setReg (portBase q + 0x800) (v &&& 0x880001FF)
  if bit v 30 then
    let g := s.adminList q v
    if g.bad then s1.modPort q (fun p => { p with gclState := 3 })
    else
      let ct := g.changeTime ((s.nsAt g.td s.now) + 1)
      s1.modPort q (fun p => { p with pend := some (g, ct), gclState := 1, ct := ct })
  else s1

/-- The pending list becomes operational at its change time (R278). -/
def State.gclChange (s : State) (q : PortCode) : State :=
  let p := s.port q
  match p.pend with
  | some (g, ct) =>
    let t := mortarEdge (s.tdReach g.td (ct * 2 ^ 48) s.now)
    let g1 := { g with base := ct }
    (s.at_ t).setPort q { p with oper := some g1, pend := none, gclState := 0, gates := (g1.at ct).1 }
  | none => s

/-- The gates enter their next states (R274). -/
def State.gateStep (s : State) (q : PortCode) : State :=
  let p := s.port q
  match p.oper with
  | some g =>
    let (_, e) := p.gateAt (s.changeIn p) (s.nsAt g.td s.now)
    let t := mortarEdge (s.tdReach g.td (e * 2 ^ 48) s.now)
    (s.at_ t).setPort q { p with gates := (p.gateAt (s.changeIn p) e).1 }
  | none => s

/-! ### Counters (R279 to R282) -/

/-- A read of CNT_LO: the count clears into the shadow, but for a re-read over the bridge (R280, R282). -/
def Cnt.readLo (c : Cnt) (code : BitVec 8) (tag : BitVec 10) (tick : Nat) (bridge : Bool) : Reg32 × Cnt :=
  if bridge ∧ c.req = code ∧ c.tag = tag ∧ tick ≤ c.tick + 2 then (c.sh.extractLsb' 0 32, c)
  else (c.v.extractLsb' 0 32, { v := 0, sh := c.v, req := code, tag := tag, tick := tick })

/-- A read of CNT_HI or CNT_SHLO (R281). -/
def Cnt.readShadow (c : Cnt) (code : BitVec 8) (hi : Bool) : Reg32 :=
  if c.req = code then (if hi then c.sh.extractLsb' 32 32 else c.sh.extractLsb' 0 32) else 0

/-- The party reads over the bridge. -/
def isBridge : Party → Bool
  | .chain _ => true
  | _ => false

end Sys2Proof.Machine
end

