-- ==== Sys2Proof/Machine/PlumbTime.lean ====
section
/-! DEFINITION. The active time and the times that bricks read: R329 to R331, R156, R518. -/

namespace Sys2Proof.Machine

/-- ACT_SLEW in ppb (R332). -/
def State.actSlew (s : State) : Nat := bits (s.reg 0x200428) 15 0

/-- What a slew of `ppb` takes from a hold offset in t root periods, in units of 2^-48 ns (R331). -/
def slewed (ppb t : Nat) : Nat := t * ppb * 2 ^ 48 / 5000000000

/-- The hold offset H at root time t (R331). -/
def ActiveTime.hold (a : ActiveTime) (ppb t : Nat) : Int :=
  if a.slewing then
    let d : Int := slewed ppb (t - a.hAt)
    if a.h < 0 then min 0 (a.h + d) else max 0 (a.h - d)
  else a.h

/-- H at root time t. -/
def State.holdAt (s : State) (t : Nat) : Int := s.plumb.act.hold s.actSlew t

/-- TA at root time t (R329). -/
def State.taValue (s : State) (t : Nat) : Nat := (s.tdValue s.plumb.act.sel t + s.holdAt t).toNat

/-- The time that selector 0, 1 or 2 names: TA, TD0, TD1 (R173, R348). -/
def State.brickTime (s : State) (sel : BitVec 2) (t : Nat) : Nat :=
  if sel = 0 then s.taValue t else s.tdValue (if sel = 2 then 1 else 0) t

/-- The first number from lo on that satisfies a monotone p, within 2^n of lo. -/
def firstFrom (p : Nat → Bool) : (n : Nat) → (lo : Nat) → Nat
  | 0, lo => if p lo then lo else lo + 1
  | n + 1, lo => if p (lo + 2 ^ n - 1) then firstFrom p n lo else firstFrom p n (lo + 2 ^ n)

/-- The first root time from `from_` on at which the time of a selector reaches v. -/
def State.selReach (s : State) (sel : BitVec 2) (v from_ : Nat) : Nat :=
  if sel = 0 then firstFrom (fun t => decide (v ≤ s.taValue t)) 72 from_
  else s.tdReach (if sel = 2 then 1 else 0) v from_

/-- The first clk_brick edge from `from_` on whose time in a selector's domain is at or after v (R518). -/
def State.brickTimeReach (s : State) (sel : BitVec 2) (v from_ : Nat) : Nat := edgeFrom brickCycle (s.selReach sel v from_)

end Sys2Proof.Machine
end

