-- ==== Sys2Proof/Machine/Plumb.lean ====
section
/-! DEFINITION. Plumb: root steering (R323, R345), domains and the servo (R322, R325 to R328), the active time (R330 to
R332), the TIME exchange (R344), trigger outputs (R347, R348) and captures (R349). -/

namespace Sys2Proof.Machine

/-! ### Domains -/

def State.dom (s : State) (d : Fin 2) : Domain := s.plumb.dom[d]
def State.setDom (s : State) (d : Fin 2) (x : Domain) : State := { s with plumb := { s.plumb with dom := s.plumb.dom.set d x } }
def State.modDom (s : State) (d : Fin 2) (f : Domain → Domain) : State := s.setDom d (f (s.dom d))

/-- The other domain. -/
def otherTd (d : Fin 2) : Fin 2 := if d = 0 then 1 else 0
/-- The domain a bit names. -/
def tdOf (b : Bool) : Fin 2 := if b then 1 else 0
/-- The first clk_time edge at or after t. -/
def timeEdge (t : Nat) : Nat := edgeFrom timeCycle t

/-- BAR0 offset of the block of domain d (R328). -/
def tdBase (d : Fin 2) : Nat := 0x200100 + d.val * 0x100
/-- ROOT_CTRL (R324). -/
def State.rootCtrl (s : State) : Reg32 := s.reg 0x200004
/-- ROOT_TD. -/
def State.rootTd (s : State) : Fin 2 := tdOf (bit s.rootCtrl 30)
/-- TD_CTRL (R328). -/
def State.tdCtrl (s : State) (d : Fin 2) : Reg32 := s.reg (tdBase d)

/-- The domain with its present value as its new reference, so that RATE may change (R321). -/
def Domain.rebase (x : Domain) (t : Nat) : Domain := { x with val := x.value t, at_ := t }

/-- The root takes the servo's rate of domain d in place of RATE(d) (R323, R324). -/
def State.rootFollows (s : State) (d : Fin 2) : Bool :=
  bit s.rootCtrl 31 && (decide (s.rootTd = d) && !(bit s.rootCtrl 29 && s.plumb.srcPort.isSome))

/-- RATE(d) as the servo and the root's source give it. -/
def State.applyRate (s : State) (d : Fin 2) : State :=
  s.modDom d (fun x => { x.rebase s.now with rate := if s.rootFollows d then 0 else x.servo })

/-- The source of the pull (R323). -/
def State.rootSource (s : State) : RootSource :=
  if bit s.rootCtrl 29 ∧ s.plumb.srcPort.isSome then .carrier
  else if bit s.rootCtrl 31 then (if (s.dom s.rootTd).st = .holdover then .holdover else .domain)
  else if bit s.rootCtrl 29 ∧ (s.plumb.source = .carrier ∨ s.plumb.source = .holdover) then .holdover
  else .refclk

/-- The root's source and both rates after a change of what they depend on. -/
def State.reRoot (s : State) : State :=
  let s1 := (s.applyRate 0).applyRate 1
  { s1 with plumb := { s1.plumb with source := s1.rootSource } }

/-- An event of a domain: the domain, x and the plumb time (R328). -/
def State.tdEvent (s : State) (k : EvKind) (d : Fin 2) (x : Int) : State :=
  s.event k false 0 [d.val, (BitVec.ofInt 64 x).toNat, s.tdValue d s.now]

/-! ### A step of a domain (R328) -/

/-- The time domain that a trigger output reads: selector of R348, or in mode 4 the context's domain. -/
def State.ttoSel (s : State) (x : Tto) : BitVec 2 :=
  if bits x.ctrl 30 28 = 4 then (if bit (s.reg (0x900000 + bits x.ctrl 7 0 * 0x100)) 20 then 2 else 1)
  else x.ctrl.extractLsb' 26 2

/-- The edges of pulse k of a periodic schedule (R347). -/
def Tto.pulse (x : Tto) (k : Nat) : List (Nat × Bool) :=
  let lv := bit x.ctrl 25
  [(x.start + k * x.period, lv), (x.start + k * x.period + x.width, !lv)]

/-- The first pulse of a periodic schedule at or after time v. -/
def Tto.firstPulse (x : Tto) (v : Nat) : Nat :=
  if v ≤ x.start ∨ x.period = 0 then 0 else (v - x.start + x.period - 1) / x.period

/-- The schedule goes on with pulse k, or is done (R347). -/
def Tto.schedule (x : Tto) (k : Nat) : Tto :=
  if x.count ≠ 0 ∧ x.count ≤ k then { x with edges := [], st := .done }
  else { x with edges := x.pulse k, nextK := k + 1 }

/-- Edges that a forward step to v has passed over are not produced (R328). -/
def Tto.passOver (x : Tto) (v : Nat) : Tto :=
  let left := x.edges.filter (fun e => decide (v ≤ e.1))
  if left.length = x.edges.length then x
  else
    let y := { x with skipped := true, edges := left }
    if left ≠ [] then y
    else if bits x.ctrl 30 28 = 3 then y.schedule (max x.nextK (x.firstPulse v))
    else if bits x.ctrl 30 28 = 4 then y else { y with st := .done }

/-- TTO n. -/
def State.tto (s : State) (n : Fin 32) : Tto := s.plumb.ttos[n]
def State.setTto (s : State) (n : Fin 32) (x : Tto) : State := { s with plumb := { s.plumb with ttos := s.plumb.ttos.set n x } }

/-- What R328 changes in the schedules that read selector `sel` once its time stands at v after v0. -/
def State.stepSel (s : State) (sel : BitVec 2) (v0 v : Nat) : State :=
  let s1 := { s with plumb := { s.plumb with ttos := s.plumb.ttos.map (fun x => if s.ttoSel x = sel ∧ v0 < v then x.passOver v else x) } }
  (List.finRange 52).foldl (fun s bk =>
    let b := s.brick bk
    match b.io.armed with
    | some a =>
      let g := a.sec * unitsPerSec + a.ns * 2 ^ 48
      if a.sel = sel ∧ v0 < g ∧ g ≤ v then (s.setBrick bk { b with io := { b.io with armed := none } }).latchLine bk 12 else s
    | none => s) s1

/-- Port q's lane follows domain d (R337). -/
def State.laneIn (s : State) (q : PortCode) (d : Fin 2) : Bool := decide (q.val < 36) && (s.laneTd q == decide (d = 1))

/-- The grid of port q realigns (R337). -/
def State.realign (s : State) (q : PortCode) : State :=
  if h : q.val < 36 then { s with plumb := { s.plumb with ports := s.plumb.ports.set q.val { s.plumb.ports[q.val] with aligned := false } } } else s

/-- The grids of every lane that follows d realign. -/
def State.realignAll (s : State) (p : PortCode → Bool) : State :=
  (List.finRange 50).foldl (fun s q => if p q then s.realign q else s) s

/-- LNEXT of the contexts in domain d after a step to v (R328). -/
def State.stepFlows (s : State) (d : Fin 2) (v : Nat) : State :=
  (List.finRange 256).foldl (fun s f =>
    let cfg := s.fcCfg f
    if bit cfg 30 ∧ bit cfg 20 = decide (d = 1) then
      s.modFc f (fun x => { x with lnext := launchTime (s.time3 (fcBase f + 0x14)) ((s.reg (fcBase f + 0x20)).toNat * 2 ^ 48) v })
    else s) s

/-- A step starts the fit of the field ticks again, and passes over a timed command (R376, R387). -/
def State.stepField (s : State) (d : Fin 2) (v0 v t : Nat) : State :=
  let x := s.field
  let cmd := x.tcmd.map (fun (c : TimedCmd) => if tdOf c.td = d ∧ v0 < c.at_ ∧ c.at_ < v then { c with late := true } else c)
  let late := match cmd with
    | some c => c.late
    | none => false
  { s with field := { x with fit := x.fit.set d (some t), tcmd := cmd, late := x.late || late } }

/-- Domain d steps to v at root time t (R322, R328): x is what the event shows. -/
def State.stepDomain (s : State) (d : Fin 2) (v t : Nat) (x : Int) : State :=
  let v0 := s.tdValue d t
  let ta0 := s.taValue t
  let s1 := s.modDom d (fun y => { y with at_ := t, val := v, stepped := true })
  let s2 := { s1 with ports := s1.ports.map (fun (p : Port) => match p.oper with
    | some g => if g.td = d then { p with gates := (p.gateAt (s1.changeIn p) (v / 2 ^ 48)).1 } else p
    | none => p) }
  let s3 := (s2.stepFlows d v).stepSel (if d = 0 then 1 else 2) v0 v
  let s4 := (if s3.plumb.act.sel = d then s3.stepSel 0 ta0 (s3.taValue t) else s3).stepField d v0 v t
  (s4.realignAll (fun q => s4.laneIn q d)).tdEvent .tdStep d x

/-! ### The active time (R330 to R332) -/

/-- The switch to domain d at root time t (R330). -/
def State.switchActive (s : State) (d : Fin 2) (t : Nat) : State :=
  let s0 := s.at_ t
  let h : Int := (s0.taValue t : Int) - s0.tdValue d t
  let a := s0.plumb.act
  if h.natAbs ≤ (s0.reg 0x20042C).toNat * 2 ^ 48 then
    { s0 with plumb := { s0.plumb with act := { a with sel := d, h := h, hAt := t, slewing := decide (h ≠ 0), pending := none, result := 1 } } }
  else if bit (s0.reg 0x200400) 29 then
    let s1 := { s0 with plumb := { s0.plumb with act := { a with sel := d, h := 0, hAt := t, slewing := false, pending := none, result := 1 } } }
    s1.stepSel 0 (s0.taValue t) (s1.taValue t)
  else { s0 with plumb := { s0.plumb with act := { a with pending := none, result := 4 } } }

/-- The selected domain has entered HOLDOVER or FREE: with AUTO the other one takes over in the next clk_time cycle when
it tracks and is locked (R332). -/
def State.autoSwitch (s : State) (d : Fin 2) : State :=
  let o := otherTd d
  if bit (s.reg 0x200400) 30 ∧ s.plumb.act.sel = d ∧ (s.dom o).st = .track ∧ (s.dom o).locked = true then
    let pend := s.plumb.act.pending
    let s1 := s.switchActive o (timeEdge (s.now + 1))
    let s2 := { s1 with plumb := { s1.plumb with act := { s1.plumb.act with pending := pend } } }
    s2.event .actAuto false 0 [o.val, s2.plumb.act.result.toNat]
  else s

/-- LOCKED of domain d becomes b; a change raises an event (R327, R328). -/
def State.setLocked (s : State) (d : Fin 2) (b : Bool) (x : Int) : State :=
  if (s.dom d).locked = b then s else (s.modDom d (fun y => { y with locked := b })).tdEvent .tdLock d x

/-- Domain d enters HOLDOVER: RATE is the integral term (R325). -/
def State.enterHoldover (s : State) (d : Fin 2) : State :=
  let x := s.dom d
  let s1 := (s.setDom d { x with st := .holdover, servo := x.integ, near := 0 }).reRoot
  ((s1.tdEvent .tdHoldover d x.last).setLocked d false x.last).autoSwitch d

/-- Domain d returns to FREE (R325): RATE is held. -/
def State.enterFree (s : State) (d : Fin 2) : State :=
  let x := s.dom d
  let s1 := (s.setDom d { x with st := .free, near := 0 }).reRoot
  let s2 := s1.setLocked d false x.last
  if x.st = .free then s2 else s2.autoSwitch d

/-! ### Samples (R326, R327) -/

def clampInt (x m : Int) : Int := if x < -m then -m else if m < x then m else x

/-- RMAX_PPM × 10⁻⁶ × 2⁴⁸, rounded down (R327). -/
def State.rmax (s : State) : Int := (bits s.rootCtrl 7 0 * 2 ^ 48 / 1000000 : Nat)

/-- A quotient whose rounding the spec leaves open: one of the two integers beside it (log 1). -/
def State.roundFree (s : State) (n d : Int) : Int × State :=
  let q := n / d
  if n % d = 0 then (q, s) else let (r, s1) := s.fresh; (q + (r % 2 : Nat), s1)

/-- LOCKED after an accepted sample (R327). -/
def State.lockSample (s : State) (d : Fin 2) (x : Int) : State :=
  let thr := bits (s.reg (tdBase d + 0x3C)) 23 0
  let y := s.dom d
  let near := if x.natAbs ≤ thr then y.near + 1 else 0
  let s1 := s.setDom d { y with near := near }
  if 4 * thr < x.natAbs then s1.setLocked d false x else if 8 ≤ near then s1.setLocked d true x else s1

/-- The servo's part of a sample: x and delta in 2^-16 ns (R327). -/
def State.servoStep (s : State) (d : Fin 2) (x delta : Int) : State :=
  let (e0, s1) := s.roundFree (x * 2 ^ 48) delta
  let y := s1.dom d
  let c := s1.tdCtrl d
  let r := s1.rmax
  let far := decide ((s1.reg (tdBase d + 0x38)).toNat * 65536 < x.natAbs)
  let e := if far then clampInt e0 r else e0
  let integ := clampInt (y.integ - e / 2 ^ bits c 27 24) r
  let rate := clampInt (integ - e / 2 ^ bits c 23 20) r
  s1.setDom d { y with integ := integ, servo := rate, far := y.far || far }

/-- A sample of domain d: x and the local time t at which it was measured, in 2^-16 ns (R326, R327). -/
def State.sample (s : State) (d : Fin 2) (x : Int) (t : Nat) : State :=
  let y := s.dom d
  let late := match y.tPrev with
    | some u => decide (t ≤ u)
    | none => false
  if y.st = .free then s
  else if late then s.setDom d { y with stale := satInc y.stale }
  else
    let y1 := { y with last := x, lastTick := s.tick, tPrev := some t }
    if y.st = .acquire then
      let s1 := s.setDom d { y1 with havePrev := false, st := .track }
      ((s1.stepDomain d ((s1.tdValue d s.now : Int) - x * 2 ^ 32).toNat s.now x).reRoot).lockSample d x
    else
      let s1 := s.setDom d { y1 with st := .track, havePrev := true }
      let s2 := match y.havePrev, y.tPrev with
        | true, some u => s1.servoStep d x ((t : Int) - u)
        | _, _ => s1
      s2.reRoot.lockSample d x

/-- The source of a domain's samples (R326). -/
def State.tdSource (s : State) (d : Fin 2) : Nat := bits (s.tdCtrl d) 29 28

/-- A write of SMP_T_S submits the sample that the SMP registers hold (R326, R328). -/
def State.submitSample (s : State) (d : Fin 2) (sec : Nat) : State :=
  let b := tdBase d
  let x : Int := (s.reg (b + 0x44) ++ s.reg (b + 0x40)).toInt
  if s.tdSource d = 0 then s.sample d x ((sec * 1000000000 + bits (s.reg (b + 0x48)) 29 0) * 65536) else s

/-! ### TD_CTRL and TD_SET (R322, R325) -/

/-- A write of TD_CTRL: EN and ARM move the state (R325). -/
def State.tdCtrlWrite (s : State) (d : Fin 2) (v : Reg32) : State :=
  let s1 := s.setReg (tdBase d) (v &&& 0xBFF0FFFF)
  let x := s1.dom d
  if bit v 31 = false then s1.enterFree d
  else if x.st = .free then (s1.setDom d { x with st := .acquire, lastTick := s.tick }).reRoot
  else if bit v 30 ∧ (x.st = .track ∨ x.st = .holdover) then (s1.setDom d { x with st := .acquire }).reRoot
  else s1

/-- A commit of TD_SET in FREE is a step at the next clk_time edge (R322). -/
def State.tdSet (s : State) (p : Party) (d : Fin 2) (q : BitVec 96) : State :=
  if (s.dom d).st = .free then
    let t := timeEdge (s.now + 1)
    let v := ofQuad q
    (s.at_ t).stepDomain d v t (((v : Int) - s.tdValue d t) / 2 ^ 32)
  else s.refused p (tdBase d + 0x2C) 0

/-! ### Time quads (R320) -/

/-- The 96-bit value that a write of +0xC commits. -/
def State.stagedQuad (s : State) (off : Nat) (hi : Reg32) : BitVec 96 :=
  hi.extractLsb' 0 16 ++ (s.reg (off + 8) ++ ((s.reg (off + 4) &&& 0x3FFFFFFF) ++ (s.reg off).extractLsb' 0 16))

/-- A quad committed by +0xC: false where its NS is 10^9 or more. -/
def quadOk (q : BitVec 96) : Bool := decide ((q.extractLsb' 16 32).toNat < 1000000000)

/-- What a quad that software writes holds. -/
def State.quad (s : State) (off : Nat) : BitVec 96 := Sparse.read (fun _ => (0 : BitVec 96)) s.plumb.quads off
def State.setQuad (s : State) (off : Nat) (q : BitVec 96) : State :=
  { s with plumb := { s.plumb with quads := Sparse.write (fun _ => (0 : BitVec 96)) s.plumb.quads off q } }

/-- The value latched for a requester code (R320). -/
def State.quadLatch (s : State) (off : Nat) (code : BitVec 8) : BitVec 96 :=
  Sparse.read (fun _ => (0 : BitVec 96)) s.plumb.latches (off * 256 + code.toNat)
def State.setLatch (s : State) (off : Nat) (code : BitVec 8) (q : BitVec 96) : State :=
  { s with plumb := { s.plumb with latches := Sparse.write (fun _ => (0 : BitVec 96)) s.plumb.latches (off * 256 + code.toNat) q } }

/-- Word k of a quad as it reads (R320). -/
def quadWord (q : BitVec 96) (k : Nat) : Reg32 :=
  if k = 0 then (q.extractLsb' 0 16).setWidth 32 else if k = 1 then q.extractLsb' 16 32 else if k = 2 then q.extractLsb' 48 32
  else (q.extractLsb' 80 16).setWidth 32

/-- The quad at an offset, as a read of its word +0x0 finds it: none where no quad starts there. -/
def State.quadAt (s : State) (off : Nat) : Option (BitVec 96) :=
  if off = 0x200110 then some (quadOf (s.tdValue 0 s.now)) else if off = 0x200210 then some (quadOf (s.tdValue 1 s.now))
  else if off = 0x200430 then some (quadOf (s.taValue s.now))
  else if off = 0x200120 ∨ off = 0x200220 ∨ off = 0x200410 then some (s.quad off)
  else if 0x202000 ≤ off ∧ off < 0x202800 ∧ off % 0x40 = 0x10 then some (s.quad off)
  else if off = 0x203810 then some s.plumb.pps.latch.1 else if off = 0x203820 then some s.plumb.pps.latch.2
  else none

/-! ### The time source port and the TIME exchange (R344, R345, R418) -/

/-- Root periods between two TIME exchanges (R344). -/
def exchangePeriod : Nat := 131072

/-- A Urral port holds block lock (R344). -/
def UrrPort.locked (p : UrrPort) : Bool := decide (p.st = .training) || (decide (p.st = .healthy) || decide (p.st = .looped))

/-- Port k may be the time source (R345, R418). -/
def State.sourceOk (s : State) (k : Fin 4) : Bool :=
  let t := s.ptime (portU k)
  decide (s.urral.ports[k].st = .healthy) && (decide (t.urrHops ≠ 0xFF) && (!t.peerSrc && (match t.lastTime with
    | some u => decide (s.now < u + 4 * exchangePeriod)
    | none => false)))

/-- The source port that R345 chooses: fewest hops, then the lower number; a manager or its standby has none. -/
def State.bestSource (s : State) : Option (Fin 4) :=
  if s.urral.role = .manager ∨ s.urral.role = .standby then none
  else (List.finRange 4).foldl (fun a k =>
    if s.sourceOk k then
      match a with
      | some j => if (s.ptime (portU k)).urrHops < (s.ptime (portU j)).urrHops then some k else a
      | none => some k
    else a) none

/-- The source port changes; domains that lose it enter HOLDOVER (R325, R345). -/
def State.setSource (s : State) (k : Option (Fin 4)) : State :=
  if s.plumb.srcPort = k then s
  else
    let s1 := { s with plumb := { s.plumb with srcPort := k } }.reRoot
    if k = none then
      [0, 1].foldl (fun (s : State) (d : Fin 2) => if (s.dom d).st = .track ∧ s.tdSource d = 1 then s.enterHoldover d else s) s1
    else s1

/-- The present source port is checked, and a new one chosen where it is gone (R345). -/
def State.updateSource (s : State) : State :=
  match s.plumb.srcPort with
  | some k => if s.sourceOk k then s else s.setSource s.bestSource
  | none => s.setSource s.bestSource

/-- The hops that the device advertises (R345, R418). -/
def State.ownHops (s : State) : BitVec 8 :=
  if s.urral.role = .manager ∨ s.urral.role = .standby then 0
  else match s.plumb.srcPort with
    | some k => (s.ptime (portU k)).urrHops + 1
    | none => 0xFF

/-- A TIME frame leaves every Urral port that holds block lock (R344). -/
def State.sendTime (s : State) : State :=
  let t := max s.now s.plumb.nextTime
  let s0 := s.at_ t
  let s1 := { s0 with plumb := { s0.plumb with nextTime := t + exchangePeriod } }
  (List.finRange 4).foldl (fun s k =>
    if s.urral.ports[k].locked then
      let q := portU k
      let c := s.txCorr q
      { s with
        urral := { s.urral with ports := s.urral.ports.set k { s.urral.ports[k] with txf := satInc s.urral.ports[k].txf } }
        chainOut := s.chainOut ++ [.time k (quadOf (s.stampAt 0 t 0 c)) (quadOf (s.stampAt 1 t 0 c)) (s.ptime q).stamps s.ownHops
          (decide (s.plumb.srcPort = some k))] }
    else s) s1

def State.modPtime (s : State) (k : Fin 4) (f : PortTime → PortTime) : State :=
  { s with plumb := { s.plumb with ports := s.plumb.ports.set (⟨32 + k.val, by omega⟩ : Fin 36) (f (s.ptime (portU k))) } }

/-- Twice the link delay of an exchange (R344). -/
def delay2 (x : TimeExchange) : Int := (x.t4 - x.t1) - (x.t3 - x.t2)
/-- Twice the offset of an exchange, with ASYM in 1/64 ns (R344). -/
def offset2 (asym : Int) (x : TimeExchange) : Int := 2 * (x.t2 - x.t1) - delay2 x - asym * 1024

/-- A TIME frame on port k completes an exchange (R344). -/
def State.takeTime (s : State) (k : Fin 4) (hops : BitVec 8) (src : Bool) (x0 x1 : TimeExchange) : State :=
  let asym := signed24 (s.reg (ptimeBase (32 + k.val) + 0x18))
  let u := s.urral.ports[k]
  let s1 := { s with urral := { s.urral with ports := s.urral.ports.set k { u with times := u.times + 1, rxf := satInc u.rxf } } }
  let s2 := s1.modPtime k (fun p =>
    { p with
      urrHops := hops, peerSrc := src, lastTime := some s.now, exchanges := p.exchanges + 1
      sum0 := p.sum0 + offset2 asym x0, sum1 := p.sum1 + offset2 asym x1, sumD := p.sumD + delay2 x0
      stamps := [x0.t2, x0.t3, x1.t2, x1.t3] })
  let s3 := s2.updateSource
  let p := s3.ptime (portU k)
  if p.exchanges < 64 then s3
  else
    let (m0, s4) := s3.roundFree p.sum0 128
    let (m1, s5) := s4.roundFree p.sum1 128
    let (dl, s6) := s5.roundFree p.sumD (128 * 1024)
    let s7 := s6.modPtime k (fun p => { p with exchanges := 0, sum0 := 0, sum1 := 0, sumD := 0, urrDelay := BitVec.ofInt 32 dl })
    if s7.plumb.srcPort = some k then
      let s8 := if s7.tdSource 0 = 1 then s7.sample 0 m0 x0.t2.toNat else s7
      if s8.tdSource 1 = 1 then s8.sample 1 m1 x1.t2.toNat else s8
    else s7

/-! ### Path delays and the pull at a management tick (R323, R334) -/

/-- 12 bytes of the calibration page for a port and lane mode (R497). -/
def State.calEntry (s : State) (q : PortCode) (mode : Nat) : List Byte :=
  (s.power.calPage.drop (if q.isU then 0x640 + 16 * (q.val - 32) else 0x40 + 48 * q.val + 12 * mode)).take 12

/-- The lane mode of a port. -/
def State.laneMode (s : State) (q : PortCode) : Nat := bits (s.portCfg q) 30 28

/-- Plumb loads the path delays of a port's lane mode (R334, R517). -/
def State.loadDelays (s : State) (q : PortCode) : State :=
  if h : q.val < 36 then
    let (rx, tx) := if s.power.calDefault then nominalDelays q (s.laneMode q)
      else
        let l := s.calEntry q (s.laneMode q)
        (BitVec.ofNat 24 (leNat (l.take 3)), BitVec.ofNat 24 (leNat ((l.drop 3).take 3)))
    let p := { s.plumb.ports[q.val] with rxDelay := rx, txDelay := tx, calValid := !s.power.calDefault }
    { s with plumb := { s.plumb with ports := s.plumb.ports.set q.val p } }
  else s

/-- A temperature update moves a delay by at most 1/64 ns; its direction is open (R334; log 1). -/
def driftDelay (coeff : Nat) (r : Nat) (v : BitVec 24) : BitVec 24 :=
  if coeff = 0 then v else if r % 3 = 0 then v else if r % 3 = 1 then v + 1 else v - 1

/-- The tick's update of one port's delays. -/
def State.trackDelays (s : State) (q : PortCode) : State :=
  if h : q.val < 36 then
    let l := s.calEntry q (s.laneMode q)
    let (r1, s1) := s.fresh
    let (r2, s2) := s1.fresh
    let p := s2.plumb.ports[q.val]
    let y := { p with rxDelay := driftDelay (leNat ((l.drop 6).take 2)) r1 p.rxDelay
                      txDelay := driftDelay (leNat ((l.drop 8).take 2)) r2 p.txDelay }
    { s2 with plumb := { s2.plumb with ports := s2.plumb.ports.set q.val y } }
  else s

/-- The pull that the source asks for, in ppb, within ±RMAX_PPM; the carrier's is a free value (R323; log 1). -/
def State.pullTarget (s : State) : Int × State :=
  let lim : Int := bits s.rootCtrl 7 0 * 1000
  match s.plumb.source with
  | .refclk => (0, s)
  | .holdover => (s.plumb.pull, s)
  | .domain => let (x, s1) := s.roundFree ((s.dom s.rootTd).servo * 1000000000) (2 ^ 48); (clampInt x lim, s1)
  | .carrier => let (r, s1) := s.fresh; (clampInt (((r % 200001 : Nat) : Int) - 100000) lim, s1)

/-- What plumb does at a management tick: the pull moves by at most 1 ppm, and the delays follow the temperature. -/
def State.plumbTick (s : State) : State :=
  let (p, s1) := s.pullTarget
  let s2 := { s1 with plumb := { s1.plumb with pull := s1.plumb.pull + clampInt (p - s1.plumb.pull) 1000, tickTd0 := s1.tdValue 0 s1.now } }
  if s2.power.calDefault then s2 else (List.finRange 36).foldl (fun s k => s.trackDelays ⟨k.val, by omega⟩) s2

/-! ### Trigger outputs (R347, R348, R416) -/

/-- BAR0 offset of the block of TTO n (R348). -/
def ttoBase (n : Fin 32) : Nat := 0x202000 + n.val * 0x40

/-- The staged settings of TTO n with a control word (R348). -/
def State.ttoStaged (s : State) (n : Fin 32) (v : Reg32) : Tto :=
  let b := ttoBase n
  { s.tto n with
    ctrl := v &&& 0x7F0000FF
    start := ofQuad (s.quad (b + 0x10))
    period := (s.reg (b + 0x20)).toNat * 2 ^ 48 + bits (s.reg (b + 0x24)) 15 0 * 2 ^ 32
    width := (s.reg (b + 0x28)).toNat * 2 ^ 42
    count := (s.reg (b + 0x2C)).toNat
    adj := signed16 (s.reg (b + 0x30))
    edges := [], nextK := 0, pulses := (s.tto n).pulses }

/-- The limits of WIDTH and PERIOD in the modes that use them (R347). -/
def Tto.limitsBad (x : Tto) : Bool :=
  let m := bits x.ctrl 30 28
  (decide (2 ≤ m) && decide (x.width < 4 * 2 ^ 48)) || (decide (m = 3) && decide (x.period < x.width + 8 * 2 ^ 48 ∨ x.period < 16 * 2 ^ 48))

/-- The settings come into force at time v of the output's domain (R347). -/
def Tto.commit (x : Tto) (v : Nat) : Tto :=
  let lv := bit x.ctrl 25
  let m := bits x.ctrl 30 28
  if m = 0 then { x with st := .idle, level := lv }
  else if m = 1 then { x with st := .armed, edges := [(x.start, lv)] }
  else if m = 2 then { x with st := .armed, level := !lv, edges := [(x.start, lv), (x.start + x.width, !lv)] }
  else if m = 3 then { x with st := .armed, level := !lv }.schedule (x.firstPulse v)
  else { x with st := .armed, level := !lv }

/-- TTO_CTRL is written: with ARM the staged settings are committed at the next clk_time cycle, or refused (R347). -/
def State.ttoCtrlWrite (s : State) (p : Party) (n : Fin 32) (v : Reg32) : State :=
  if s.mayConfigure p (s.anyImage (fun im => im.bindsTto n.val)) = false then s.refused p (ttoBase n) v.toNat
  else
    let s1 := s.setReg (ttoBase n) (v &&& 0x7F0000FF)
    if bit v 31 = false ∨ 5 ≤ bits v 30 28 ∨ bits v 27 26 = 3 then s1
    else
      let t := timeEdge (s.now + 1)
      let x := s1.ttoStaged n v
      let now := s1.brickTime (s1.ttoSel x) t
      let m := bits v 30 28
      let old := s1.tto n
      if x.limitsBad then s1.setTto n { old with bad := true }
      else if (m = 1 ∨ m = 2) ∧ x.start < now then s1.setTto n { old with late := true }
      else
        let y := x.commit now
        let s2 := s1.at_ t
        if s.urral.hold then s2.setTto n { y with level := old.level } else s2.setTto n y

/-- The root time of the next edge of an output, its TTO_ADJ subtracted (R348). -/
def State.ttoWhen (s : State) (x : Tto) (e : Nat) : Nat :=
  s.selReach (s.ttoSel x) ((e : Int) - x.adj * stampUnit).toNat s.now

/-- What is left after the first edge: the next pulse of a periodic schedule, or the end (R347). -/
def Tto.advance (x : Tto) : Tto :=
  match x.edges with
  | _ :: r =>
    let y := { x with edges := r }
    let m := bits x.ctrl 30 28
    if r ≠ [] then { y with st := .running }
    else if m = 3 then { y with st := .running }.schedule x.nextK
    else if m = 4 then { y with st := .running } else { y with st := .done }
  | [] => x

/-- The next edge of TTO n is produced, or skipped within 4 ns of the last one or while outputs are held (R347, R416). -/
def State.ttoEdge (s : State) (n : Fin 32) : State :=
  let x := s.tto n
  match x.edges with
  | (e, lv) :: _ =>
    let t := s.ttoWhen x e
    let near := match x.lastRoot with
      | some u => decide (t < u + 20)
      | none => false
    let y := x.advance
    let s1 := s.at_ t
    if s.urral.hold ∨ near = true then s1.setTto n { y with skipped := true }
    else
      let lead := decide (lv = bit x.ctrl 25)
      s1.setTto n { y with level := lv, lastRoot := some t, pulses := if lead then y.pulses + 1 else y.pulses }
  | [] => s

/-- TTO_STATUS (R348). -/
def Tto.status (x : Tto) : Reg32 :=
  let st := match x.st with
    | .idle => 0 | .armed => 1 | .running => 2 | .done => 3
  BitVec.ofNat 32 (st * 2 ^ 30 + b2n x.late * 2 ^ 29 + b2n x.skipped * 2 ^ 28 + b2n x.bad * 2 ^ 27 + b2n x.level * 2 ^ 26 + x.pulses.toNat)

/-! ### Captures (R349) -/

/-- BAR0 offset of the block of TCAP n; 32 stands for PPS (R349). -/
def tcapBase (n : Nat) : Nat := 0x203000 + n * 0x40

/-- An edge is one that a TCAP_CFG selects. -/
def edgeSelected (cfg : Reg32) (rising : Bool) : Bool := bit cfg 31 && (if rising then bit cfg 29 else bit cfg 30)

/-- Where DEST sends reports (R349). -/
def capDest (cfg : Reg32) : Option (PortCode × Option (Fin 64)) :=
  let d := bits cfg 7 0
  if bits cfg 27 26 = 1 then (if h : d < 13 then some (portCp ⟨d, h⟩, none) else none)
  else if bits cfg 27 26 = 2 then (if h : 32 ≤ d ∧ d < 64 then some (portH, some ⟨d, by omega⟩) else none)
  else none

/-- The stamps of an edge in the clk_time cycle now (R333, R349). -/
def State.capStamps (s : State) (base interp : Nat) : BitVec 96 × BitVec 96 :=
  let c := -signed16 (s.reg (base + 8))
  (quadOf (s.stampAt 0 s.now interp c), quadOf (s.stampAt 1 s.now interp c))

/-- A report of an edge, counted in DROP when it is refused (R343, R349). -/
def State.capReport (s : State) (x : Tcap) (kind num base : Nat) (rising : Bool) (st : BitVec 96 × BitVec 96) : Tcap × State :=
  let cfg := s.reg base
  match capDest cfg with
  | some (dest, ring) =>
    let td := bit cfg 28
    let by_ := s.reportBytes kind num (b2n rising) x.missed.toNat x.seqno.toNat st.1 st.2
    let (ok, s1) := s.sendReport by_ td (if td then st.2 else st.1) dest ring
    ({ x with missed := 0, seqno := x.seqno + 1, drop := if ok then x.drop else satInc x.drop }, s1)
  | none => (x, s)

/-- A stamped edge: the FIFO of a capture input (R349). -/
def Tcap.push (x : Tcap) (st : BitVec 96 × BitVec 96) : Tcap :=
  if 8 ≤ x.fifo.length then { x with overs := satInc x.overs } else { x with fifo := x.fifo ++ [st] }

/-- An edge within 4 ns of the last stamped one is missed (R349). -/
def Tcap.tooSoon (x : Tcap) (t : Nat) : Bool := match x.lastRoot with
  | some u => decide (t < u + 20)
  | none => false

/-- An edge at TCAP n (R349). -/
def State.tcapEdge (s : State) (n : Fin 16) (rising : Bool) (interp : Nat) : State :=
  let b := tcapBase n.val
  let x := { s.plumb.tcaps[n] with level := rising }
  let put := fun (s : State) (x : Tcap) => { s with plumb := { s.plumb with tcaps := s.plumb.tcaps.set n x } }
  if edgeSelected (s.reg b) rising = false then put s x
  else if x.tooSoon s.now then put s { x with missed := satInc x.missed }
  else
    let st := s.capStamps b interp
    let (y, s1) := s.capReport ({ x with lastRoot := some s.now }.push st) 2 n.val b rising st
    put s1 y

/-- x of a PPS sample: the stamp less the nearest whole second, in 2^-16 ns (R326). -/
def ppsOffset (v : Nat) : Int :=
  let r := v % unitsPerSec
  (if 2 * r ≤ unitsPerSec then (r : Int) else (r : Int) - unitsPerSec) / 2 ^ 32

/-- An edge at PPS_IN (R326, R349). -/
def State.ppsEdge (s : State) (rising : Bool) (interp : Nat) : State :=
  let b := tcapBase 32
  let x := { s.plumb.pps with level := rising }
  let put := fun (s : State) (x : Tcap) => { s with plumb := { s.plumb with pps := x } }
  if edgeSelected (s.reg b) rising = false then put s x
  else if x.tooSoon s.now then put s { x with missed := satInc x.missed }
  else
    let st := s.capStamps b interp
    let (y, s1) := s.capReport { x with lastRoot := some s.now, latch := st } 3 0xFF b rising st
    let s2 := put s1 y
    if rising then
      [0, 1].foldl (fun (s : State) (d : Fin 2) =>
        if s.tdSource d = 2 then
          let v := ofQuad (if d = 0 then st.1 else st.2)
          s.sample d (ppsOffset v) (v / 2 ^ 32)
        else s) s2
    else s2

/-- TCAP_STATUS (R349). -/
def Tcap.status (x : Tcap) : Reg32 :=
  BitVec.ofNat 32 (b2n x.level * 2 ^ 31 + x.fifo.length * 65536 + x.overs.toNat * 256 + x.drop.toNat)

/-- The read of TCAP_TS +0x10 pops a stamp into the latch; on an empty FIFO the spec states no result (log 1). -/
def State.tcapPop (s : State) (n : Fin 16) : State :=
  let x := s.plumb.tcaps[n]
  let put := fun (s : State) (x : Tcap) => { s with plumb := { s.plumb with tcaps := s.plumb.tcaps.set n x } }
  match x.fifo with
  | st :: r => put s { x with fifo := r, latch := st }
  | [] =>
    let (a, s1) := s.fresh
    let (b, s2) := s1.fresh
    put s2 { x with latch := (BitVec.ofNat 96 a, BitVec.ofNat 96 b) }

/-! ### PPS_OUT (R349) -/

/-- The whole second of TA at which PPS_OUT next rises: none that it has already risen at (R328). -/
def State.ppsNext (s : State) : Nat :=
  let v := s.taValue s.now
  let up := (v + unitsPerSec - 1) / unitsPerSec * unitsPerSec
  match s.plumb.ppsRise with
  | some u => max up (u + unitsPerSec)
  | none => up

/-- PPS_OUT rises at a whole second of TA, or falls PPS_WIDTH later. -/
def State.ppsOut (s : State) (rising : Bool) : State :=
  if rising ∧ s.pins.ppsOut = false ∧ bit (s.reg (tcapBase 32)) 25 = true then
    let v := s.ppsNext
    let s1 := s.at_ (s.selReach 0 v s.now)
    { s1 with pins := { s1.pins with ppsOut := true }, plumb := { s1.plumb with ppsRise := some v } }
  else if rising = false ∧ s.pins.ppsOut then
    let v := s.plumb.ppsRise.getD 0 + (s.reg (tcapBase 32 + 0xC)).toNat * 2 ^ 48
    let s1 := s.at_ (s.selReach 0 v s.now)
    { s1 with pins := { s1.pins with ppsOut := false } }
  else s

end Sys2Proof.Machine
end

