-- ==== Sys2Proof/Machine/PlumbRegs.lean ====
section
/-! DEFINITION. The registers of plumb in BAR0: R320, R324, R328, R332, R338, R343, R348, R349. -/

namespace Sys2Proof.Machine

/-! ### ROOT_CTRL and the lane domains (R337, R338) -/

/-- A lane domain `td` of port q would differ from an enabled launching context's domain (R338). -/
def State.laneMismatch (s : State) (q : PortCode) (td : Bool) : Bool :=
  (List.finRange 256).any (fun f =>
    let c := s.fcCfg f
    bit c 31 && (bit c 30 && ((bit c 20 != td) && (s.members f).contains q)))

/-- ROOT_CTRL is written (R324, R337, R338). -/
def State.rootCtrlWrite (s : State) (p : Party) (v : Reg32) : State :=
  let change := bit v 30 != bit s.rootCtrl 30
  if change && (List.finRange 4).any (fun k => s.laneMismatch (portU k) (bit v 30)) then s.refused p 0x200004 v.toNat
  else
    let s1 := (s.setReg 0x200004 (v &&& 0xE00000FF)).reRoot
    if change then s1.realignAll PortCode.isU else s1

/-- TS_CFG(q) is written (R338, R343). -/
def State.tsCfgWrite (s : State) (p : Party) (q : PortCode) (v : Reg32) : State :=
  let change := q.isP && (bit v 26 != bit (s.tsCfg q) 26)
  if change && s.laneMismatch q (bit v 26) then s.refused p (ptimeBase q.val) v.toNat
  else
    let s1 := s.setReg (ptimeBase q.val) (v &&& (if q.isP then 0xFE00FF00 else 0xFA00FF00))
    if change then s1.realign q else s1

/-! ### The active time (R330, R332) -/

/-- ACT_CTRL is written: GO requests a switch (R330). -/
def State.actCtrlWrite (s : State) (v : Reg32) : State :=
  let s1 := s.setReg 0x200400 (v &&& 0x70000000)
  if bit v 31 then
    let a := s1.plumb.act
    let at_ := ofQuad (s1.quad 0x200410)
    let put := fun (x : ActiveTime) => { s1 with plumb := { s1.plumb with act := x } }
    if at_ < s1.taValue s1.now + 2000000 * 2 ^ 48 then put { a with result := 2 }
    else if a.pending.isSome ∨ a.slewing then put { a with result := 3 }
    else put { a with pending := some (at_, tdOf (bit v 28)), result := 0 }
  else s1

/-- ACT_SLEW is written: H goes on from where it is (R331). -/
def State.actSlewWrite (s : State) (v : Reg32) : State :=
  let a := s.plumb.act
  { s.setReg 0x200428 (v &&& 0xFFFF) with plumb := { s.plumb with act := { a with h := s.holdAt s.now, hAt := s.now } } }

/-- ACT_STATUS (R332). -/
def ActiveTime.status (a : ActiveTime) : Reg32 :=
  BitVec.ofNat 32 (a.sel.val * 2 ^ 31 + b2n a.slewing * 2 ^ 30 + b2n a.pending.isSome * 2 ^ 29 + a.result.toNat * 2 ^ 24)

/-! ### Status words -/

/-- TD_STATUS (R328). -/
def Domain.status (x : Domain) : Reg32 :=
  let st := match x.st with
    | .free => 0 | .acquire => 1 | .track => 2 | .holdover => 3
  BitVec.ofNat 32 (st * 2 ^ 30 + b2n x.locked * 2 ^ 29 + b2n x.far * 2 ^ 28 + b2n x.stepped * 2 ^ 27)

/-- ROOT_STATUS (R324). -/
def State.rootStatus (s : State) : Reg32 :=
  let src := match s.plumb.source with
    | .refclk => 0 | .domain => 1 | .carrier => 2 | .holdover => 3
  let port := match s.plumb.source, s.plumb.srcPort with
    | .carrier, some k => k.val
    | _, _ => 0
  BitVec.ofNat 32 (src * 2 ^ 30 + port * 2 ^ 28) ||| (BitVec.ofInt 24 s.plumb.pull).setWidth 32

/-! ### Writes -/

/-- A committed quad with a legal NS takes effect; another is ignored and recorded (R320). -/
def State.commitQuad (s : State) (p : Party) (off : Nat) (v : Reg32) (f : BitVec 96 → State → State) : State :=
  let q := s.stagedQuad off v
  if quadOk q then f q (s.setQuad off q) else s.refused p (off + 0xC) v.toNat

/-- A write in the block of domain d (R328). -/
def State.tdWrite (s : State) (p : Party) (d : Fin 2) (o : Nat) (v : Reg32) : State :=
  let b := tdBase d
  if o = 0x00 then s.tdCtrlWrite d v
  else if o = 0x04 then s.modDom d (fun x => { x with far := x.far && !bit v 28, stepped := x.stepped && !bit v 27 })
  else if o = 0x2C then s.commitQuad p (b + 0x20) v (fun q s => s.tdSet p d q)
  else if o = 0x4C then s.submitSample d v.toNat
  else if o = 0x3C then s.setReg (b + o) (v &&& 0xFFFFFF)
  else if o = 0x48 then s.setReg (b + o) (v &&& 0x3FFFFFFF)
  else if o = 0x20 ∨ o = 0x24 ∨ o = 0x28 ∨ o = 0x38 ∨ o = 0x40 ∨ o = 0x44 then s.setReg (b + o) v
  else s

/-- A write in the block of TTO n (R348). -/
def State.ttoWrite (s : State) (p : Party) (n : Fin 32) (o : Nat) (v : Reg32) : State :=
  let b := ttoBase n
  let x := s.tto n
  if o = 0x00 then s.ttoCtrlWrite p n v
  else if s.mayConfigure p (s.anyImage (fun im => im.bindsTto n.val)) = false then s.refused p (b + o) v.toNat
  else if o = 0x04 then s.setTto n { x with late := x.late && !bit v 29, skipped := x.skipped && !bit v 28, bad := x.bad && !bit v 27 }
  else if o = 0x1C then s.commitQuad p (b + 0x10) v (fun _ s => s)
  else if o = 0x10 ∨ o = 0x14 ∨ o = 0x18 ∨ o = 0x20 ∨ o = 0x28 ∨ o = 0x2C then s.setReg (b + o) v
  else if o = 0x24 ∨ o = 0x30 then s.setReg (b + o) (v &&& 0xFFFF)
  else s

/-- A write in the block of TCAP n, or of PPS for 32 (R349); PPS_OUT is low without OUT_EN. -/
def State.tcapWrite (s : State) (p : Party) (n o : Nat) (v : Reg32) : State :=
  let b := tcapBase n
  if s.mayConfigure p (decide (n < 16) && s.anyImage (fun im => im.bindsTcap n)) = false then s.refused p (b + o) v.toNat
  else if o = 0x00 then
    let s1 := s.setReg b (v &&& (if n = 32 then 0xFE0000FF else 0xFC0000FF))
    if n = 32 ∧ bit v 25 = false then { s1 with pins := { s1.pins with ppsOut := false } } else s1
  else if o = 0x08 then s.setReg (b + o) (v &&& 0xFFFF)
  else if o = 0x0C ∧ n = 32 then s.setReg (b + o) v
  else s

/-- A write in the time block of port code q (R343). -/
def State.ptimeWrite (s : State) (p : Party) (q : PortCode) (o : Nat) (v : Reg32) : State :=
  if s.mayConfigure p (s.portBound q) = false then s.refused p (ptimeBase q.val + o) v.toNat
  else if o = 0x00 then s.tsCfgWrite p q v
  else if o = 0x10 ∨ o = 0x14 ∨ o = 0x18 then s.setReg (ptimeBase q.val + o) (v &&& 0xFFFFFF)
  else s

/-- A write of a plumb register (R262, R343). -/
def State.plumbWrite (s : State) (p : Party) (off : Nat) (v : Reg32) : State :=
  let o := off - 0x200000
  if h : 0x1000 ≤ o ∧ o < 0x1900 then s.ptimeWrite p ⟨(o - 0x1000) / 0x40, by omega⟩ (o % 0x40) v
  else if h : 0x2000 ≤ o ∧ o < 0x2800 then s.ttoWrite p ⟨(o - 0x2000) / 0x40, by omega⟩ (o % 0x40) v
  else if 0x3000 ≤ o ∧ o < 0x3400 then s.tcapWrite p ((o - 0x3000) / 0x40) (o % 0x40) v
  else if 0x3800 ≤ o ∧ o < 0x3840 then s.tcapWrite p 32 (o % 0x40) v
  else if s.pf1MgrKey p = false then s.refused p off v.toNat
  else if o = 0x0 then s.setReg off (v &&& 0xFFFFE0FF)
  else if o = 0x4 then s.rootCtrlWrite p v
  else if 0x100 ≤ o ∧ o < 0x300 then s.tdWrite p (tdOf (decide (0x200 ≤ o))) (o % 0x100) v
  else if o = 0x400 then s.actCtrlWrite v
  else if o = 0x41C then s.commitQuad p 0x200410 v (fun _ s => s)
  else if o = 0x428 then s.actSlewWrite v
  else if o = 0x410 ∨ o = 0x414 ∨ o = 0x418 ∨ o = 0x42C then s.setReg off v
  else s

/-! ### Reads -/

/-- A read of word 0 of a quad latches it for the requester (R320). -/
def State.readQuad (s : State) (code : BitVec 8) (off : Nat) (q : BitVec 96) : Reg32 × State :=
  (quadWord q 0, s.setLatch off code q)

/-- A read of TCAP_TS (R349). -/
def State.readCapture (s : State) (code : BitVec 8) (n : Fin 16) (o : Nat) : Reg32 × State :=
  let b := tcapBase n.val
  if o = 0x10 then
    let s1 := s.tcapPop n
    let x := s1.plumb.tcaps[n].latch
    (quadWord x.1 0, (s1.setLatch (b + 0x10) code x.1).setLatch (b + 0x20) code x.2)
  else (quadWord (s.quadLatch (b + o / 16 * 16) code) (o % 16 / 4), s)

/-- A read in the block of domain d (R328). -/
def State.tdRead (s : State) (d : Fin 2) (o : Nat) : Reg32 × State :=
  let x := s.dom d
  let last : BitVec 64 := BitVec.ofInt 64 x.last
  let rate : BitVec 40 := BitVec.ofInt 40 x.rate
  if o = 0x04 then (x.status, s)
  else if o = 0x30 then (rate.extractLsb' 0 32, s)
  else if o = 0x34 then ((rate.extractLsb' 32 8).setWidth 32, s)
  else if o = 0x4C then (0, s)
  else if o = 0x50 then (last.extractLsb' 0 32, s)
  else if o = 0x54 then (last.extractLsb' 32 32, s)
  else if o = 0x58 then (x.stale, s.setDom d { x with stale := 0, staleShadow := x.stale })
  else (s.reg (tdBase d + o), s)

/-- A read in the time block of port code q (R343). -/
def State.ptimeRead (s : State) (q : Fin 36) (o : Nat) : Reg32 × State :=
  let x := s.plumb.ports[q]
  let u := decide (32 ≤ q.val)
  if o = 0x00 then
    let c := s.reg (ptimeBase q.val)
    (if u then setBit c 26 (bit s.rootCtrl 30) else c, s)
  else if o = 0x04 then (BitVec.ofNat 32 (b2n x.aligned * 2 ^ 31 + b2n x.calValid * 2 ^ 30), s)
  else if o = 0x08 then (x.rxDelay.setWidth 32, s)
  else if o = 0x0C then (x.txDelay.setWidth 32, s)
  else if o = 0x1C then
    (x.reportDrop, { s with plumb := { s.plumb with ports := s.plumb.ports.set q { x with reportDrop := 0, reportDropShadow := x.reportDrop } } })
  else if o = 0x20 then (if u then x.urrDelay else 0, s)
  else if o = 0x24 then (if u then x.urrHops.setWidth 32 else 0, s)
  else (s.reg (ptimeBase q.val + o), s)

/-- TCAP_STATUS is read: OVER and DROP clear (R7, R349). -/
def readCaptureStatus (x : Tcap) : Reg32 × Tcap :=
  (x.status, { x with overs := 0, drop := 0, shadow := x.overs ++ x.drop })

/-- H as ACT_H shows it: in 2^-16 ns (R332). -/
def State.actH (s : State) : BitVec 64 := BitVec.ofInt 64 (s.holdAt s.now / 2 ^ 32)

/-- A read of a plumb register by a requester code (R320, R343). -/
def State.plumbRead (s : State) (code : BitVec 8) (off : Nat) : Reg32 × State :=
  let o := off - 0x200000
  match s.quadAt off with
  | some q => s.readQuad code off q
  | none =>
    if (s.quadAt (off / 16 * 16)).isSome then (quadWord (s.quadLatch (off / 16 * 16) code) (off % 16 / 4), s)
    else if h : 0x1000 ≤ o ∧ o < 0x1900 then s.ptimeRead ⟨(o - 0x1000) / 0x40, by omega⟩ (o % 0x40)
    else if h : 0x2000 ≤ o ∧ o < 0x2800 then
      (if o % 0x40 = 4 then (s.tto ⟨(o - 0x2000) / 0x40, by omega⟩).status else s.reg off, s)
    else if h : 0x3000 ≤ o ∧ o < 0x3400 then
      let n : Fin 16 := ⟨(o - 0x3000) / 0x40, by omega⟩
      if o % 0x40 = 4 then
        let (v, x) := readCaptureStatus s.plumb.tcaps[n]
        (v, { s with plumb := { s.plumb with tcaps := s.plumb.tcaps.set n x } })
      else if 0x10 ≤ o % 0x40 ∧ o % 0x40 < 0x30 then s.readCapture code n (o % 0x40)
      else (s.reg off, s)
    else if o = 0x3804 then
      let (v, x) := readCaptureStatus s.plumb.pps
      (v, { s with plumb := { s.plumb with pps := x } })
    else if o = 0x8 then (s.rootStatus, s)
    else if 0x100 ≤ o ∧ o < 0x300 then s.tdRead (tdOf (decide (0x200 ≤ o))) (o % 0x100)
    else if o = 0x404 then (s.plumb.act.status, s)
    else if o = 0x420 then (s.actH.extractLsb' 0 32, s)
    else if o = 0x424 then (s.actH.extractLsb' 32 32, s)
    else (s.reg off, s)

end Sys2Proof.Machine
end

