-- ==== Sys2Proof/Machine/Can.lean ====
section
/-! DEFINITION. The CAN controllers: configuration, objects, frames, error counters, sleep (R350 to R363, R371 to R374). -/

namespace Sys2Proof.Machine

/-! ### Access -/

def State.can (s : State) (n : Fin 8) : Can := s.cans[n]
def State.setCan (s : State) (n : Fin 8) (c : Can) : State := { s with cans := s.cans.set n c }
def State.modCan (s : State) (n : Fin 8) (f : Can → Can) : State := s.setCan n (f (s.can n))
def Can.obj (c : Can) (m : Fin 64) : CanObj := c.objs[m]
def Can.setObj (c : Can) (m : Fin 64) (o : CanObj) : Can := { c with objs := c.objs.set m o }
def Can.modObj (c : Can) (m : Fin 64) (f : CanObj → CanObj) : Can := c.setObj m (f (c.obj m))
def State.modObj (s : State) (n : Fin 8) (m : Fin 64) (f : CanObj → CanObj) : State := s.modCan n (fun c => c.modObj m f)

/-- BAR0 offset of the block of a controller (R356). -/
def canBase (n : Fin 8) : Nat := 0x300000 + n.val * 0x10000
/-- CAN_CFG. -/
def State.canCfg (s : State) (n : Fin 8) : Reg32 := s.reg (canBase n)
/-- TT_CFG. -/
def State.ttCfg (s : State) (n : Fin 8) : Reg32 := s.reg (canBase n + 0x100)

/-- The controller's clock runs: it is not gated for DOZE (R67). -/
def State.canUp (s : State) (n : Fin 8) : Bool := s.blocksUp && !bit s.power.doze.cans n.val

/-- CAN_TSC at root time t (R359). -/
def canTsc (t : Nat) : Reg32 := BitVec.ofNat 32 (8 * (t / periphCycle) / 25)

/-- Data bytes of a DLC (ISO 11898-1). -/
def dlcBytes (fd : Bool) (dlc : Nat) : Nat :=
  if dlc ≤ 8 then dlc else if fd = false then 8
  else if dlc = 9 then 12 else if dlc = 10 then 16 else if dlc = 11 then 20 else if dlc = 12 then 24 else if dlc = 13 then 32
  else if dlc = 14 then 48 else 64

/-- Data bytes as the 64 bytes of an object; what lies past the DLC reads zero (R355). -/
def canData (n : Nat) (l : List Byte) : BitVec 512 := BitVec.ofNat 512 (leNat (l.take n))

/-- OBJ_STAT (R356). -/
def CanObj.status (o : CanObj) : Word :=
  BitVec.ofNat 16 (o.seq.toNat * 4096 + b2n o.missed * 64 + b2n o.txdone * 32 + b2n o.stopped * 16 + b2n o.nullrx * 8 +
    b2n o.ready * 4 + b2n o.lost * 2 + b2n o.new_)

/-- OBJ_CFG: EN and DIR. -/
def CanObj.en (o : CanObj) : Bool := bit o.cfg 31
def CanObj.isTx (o : CanObj) : Bool := bit o.cfg 30

/-- Error-passive (R362). -/
def Can.epass (c : Can) : Bool := decide (128 ≤ c.tec.toNat) || decide (128 ≤ c.rec_.toNat)

/-- CAN_STATUS [31:16] (R356). -/
def Can.stat (c : Can) : Word :=
  let st := match c.st with
    | .init => 0 | .on => 1 | .sleep => 2 | .busOff => 3
  BitVec.ofNat 16 (st * 2 ^ 14 + b2n c.epass * 2 ^ 13 + b2n (decide (96 ≤ c.tec.toNat) || decide (96 ≤ c.rec_.toNat)) * 2 ^ 12 +
    b2n c.alone * 2 ^ 11 + b2n c.integ * 2 ^ 10 + b2n (c.cfgErr || c.tt.cfgErr) * 2 ^ 9 + c.unack.toNat)

/-! ### Events (R361) -/

/-- A CAN_EVT bit is set; an enabled one goes to the controller's brick, or to the hosts where it has none. -/
def State.canEvent (s : State) (n : Fin 8) (b : Nat) : State :=
  let s1 := s.modCan n (fun c => { c with evt := setBit c.evt b true })
  if bit (s.reg (canBase n + 0x1C)) b then
    match s.canOwner n.val with
    | some bk => s1.latchLine bk 14
    | none => (s1.raiseCause false (BitVec.twoPow 32 n.val)).raiseCause true (BitVec.twoPow 32 n.val)
  else s1

/-- Count in RX_OK, TX_OK, RX_NOMATCH, RX_REMOTE or ERR_FRAMES. -/
def State.canCount (s : State) (n : Fin 8) (k : Fin 5) : State := s.modCan n (fun c => { c with cnt := c.cnt.set k (satInc c.cnt[k]) })

/-! ### Error counters (R362) -/

/-- The TT error level rises (R370). -/
def State.ttRaise (s : State) (n : Fin 8) (lv : BitVec 2) : State :=
  if (s.can n).tt.level < lv then (s.modCan n (fun c => { c with tt := { c.tt with level := lv } })).canEvent n 8 else s

/-- A frame that has not been acknowledged waits to be sent again, or is gone where it may be sent only once. -/
def Can.retry (c : Can) : Can :=
  { c with tx := match c.tx with
    | some x => if x.once then none else some { x with start := none }
    | none => none }

/-- New error counters, with the events of a change of EPASS and of bus-off. -/
def State.canErrors (s : State) (n : Fin 8) (tec rec_ : Nat) : State :=
  let c := s.can n
  let c1 := { c with tec := BitVec.ofNat 9 (min tec 511), rec_ := BitVec.ofNat 8 (min rec_ 255) }
  let s1 := s.setCan n c1
  let s2 := if c1.epass = c.epass then s1 else s1.canEvent n 3
  if 255 < tec then
    let s3 := (s2.modCan n (fun c => { c.retry with st := .busOff, recovering := bit (s.canCfg n) 30 })).canEvent n 4
    if bit (s.ttCfg n) 31 then s3.ttRaise n 3 else s3
  else s2

/-- A node is no longer alone (R363). -/
def Can.heard (c : Can) : Can := { c with unack := 0, alone := false }

/-! ### Reception (R350, R354, R355) -/

/-- The object matches the identifier of a frame (R354). -/
def CanObj.names (o : CanObj) (ide : Bool) (id : BitVec 29) : Bool :=
  o.en && (decide (bit o.cfg 29 = ide) && decide (o.cfg.extractLsb' 0 29 = id))

/-- The format word of a frame. -/
def fmtOf (f : CanFrame) : Byte := BitVec.ofNat 8 (b2n f.fdf * 128 + b2n f.brs * 64 + b2n f.esi * 32 + f.dlc.toNat)

/-- A valid frame at its start-of-frame stamp is stored in object m (R355). -/
def State.storeFrame (s : State) (n : Fin 8) (m : Fin 64) (f : CanFrame) (stamp : Reg32) : State :=
  let o := (s.can n).obj m
  let s0 := s.modCan n (fun c => { c with tt := { c.tt with seen := setBit c.tt.seen m.val true } })
  if f.dlc = 0 ∧ bit o.mode 2 then s0.modObj n m (fun o => { o with stamp := stamp, nullrx := true })
  else
    let o1 := { o with fmt := fmtOf f, data := canData (dlcBytes f.fdf f.dlc.toNat) f.data, stamp := stamp, seq := o.seq + 1,
                       lost := o.lost || o.new_, new_ := true }
    let s1 := (s0.modObj n m (fun _ => o1)).canEvent n 0
    if o.new_ then s1.canEvent n 2 else s1

/-- A valid frame goes to its receive object, or is counted (R350, R354). -/
def State.takeFrameCan (s : State) (n : Fin 8) (f : CanFrame) (stamp : Reg32) : State :=
  if f.remote then s.canCount n 3
  else
    let s1 := s.canCount n 0
    match (List.finRange 64).find? (fun m => let o := (s.can n).obj m; !o.isTx && o.names f.ide f.id) with
    | some m => s1.storeFrame n m f stamp
    | none => s1.canCount n 2

/-- REC after a valid reception (ISO 11898-1): from above 127 it takes a value from 119 to 127 that is left open. -/
def State.recDown (s : State) (n : Fin 8) : Nat × State :=
  let r := (s.can n).rec_.toNat
  if r = 0 then (0, s) else if r ≤ 127 then (r - 1, s) else let (x, s1) := s.fresh; (119 + x % 9, s1)

/-- A frame of another node ends without an error (R350, R355, R362, R363). -/
def State.canReceive (s : State) (n : Fin 8) (f : CanFrame) : State :=
  if f.fdf ∧ bit (s.canCfg n) 31 = false then
    (s.canCount n 4).canErrors n (s.can n).tec.toNat ((s.can n).rec_.toNat + 1)
  else
    let (r, s1) := (s.modCan n Can.heard).recDown n
    (s1.canErrors n (s.can n).tec.toNat r).takeFrameCan n f (canTsc s.now)

/-! ### Transmission (R356, R363) -/

/-- The place of an identifier on the bus: a base identifier counts as its eleven bits followed by zeros. -/
def CanObj.rank (o : CanObj) : Nat := (o.cfg.extractLsb' 0 29).toNat * 2 + b2n (bit o.cfg 29)

/-- The object may be sent now. -/
def CanObj.sendable (o : CanObj) : Bool := o.en && (o.isTx && (o.ready && !o.stopped))

/-- The first object to send among those that satisfy p: the lowest identifier. -/
def Can.nextTx (c : Can) (p : Fin 64 → Bool) : Option (Fin 64) :=
  (List.finRange 64).foldl (fun a m =>
    if (c.obj m).sendable && p m then
      match a with
      | some k => if (c.obj m).rank < (c.obj k).rank then some m else a
      | none => some m
    else a) none

/-- No frame of the controller is on the bus. -/
def Can.quiet (c : Can) : Bool := match c.tx with
  | some x => x.start.isNone
  | none => true

/-- A frame goes out at CAN_TXD, which internal loopback holds recessive (R350). -/
def State.putCan (s : State) (f : CanSent) : State := if bit (s.canCfg f.n) 19 then s else { s with canOut := s.canOut ++ [f] }

/-- A frame starts on the bus at root time now (R356, R359). -/
def State.canStart (s : State) (n : Fin 8) (x : CanTx) : State :=
  let c := s.can n
  let st := canTsc s.now
  let s1 := s.setCan n { c with tx := some { x with start := some st } }
  s1.putCan { n := n, id := (c.obj x.obj).cfg.extractLsb' 0 30, fmt := x.fmt, data := x.data, stamp := st }

/-- The object is copied into the transmit buffer and READY clears (R356). -/
def State.startObject (s : State) (n : Fin 8) (m : Fin 64) (once : Bool) : State :=
  let o := (s.can n).obj m
  (s.modObj n m (fun o => { o with ready := false })).canStart n
    { obj := m, fmt := o.fmt, data := o.data, start := none, once := once, stand := false }

/-- The objects that may leave now: all in event-driven operation; in an arbitrating window those it allows (R356, R369). -/
def State.mayLeave (s : State) (n : Fin 8) (m : Fin 64) : Bool :=
  if bit (s.ttCfg n) 31 then
    match (s.can n).tt.window with
    | .arb k => decide (m = k) || !bit ((s.can n).obj m).mode 0
    | _ => false
  else true

/-- A start of frame outside exclusive windows: the frame that waits in the buffer, or the next object (R356). -/
def State.transmitStart (s : State) (n : Fin 8) : State :=
  let c := s.can n
  match c.tx with
  | some x =>
    if (c.obj x.obj).sendable then s.startObject n x.obj x.once else s.canStart n x
  | none =>
    match c.nextTx (s.mayLeave n) with
    | some m => s.startObject n m false
    | none => s

/-- Level S3 stays until TT_EN is written 0 and then 1 (R370). -/
def CanTt.kept (t : CanTt) : BitVec 2 := if t.level = 3 then 3 else 0

/-- The controller leaves for INIT or SLEEP once no frame is in progress (R352, R371). -/
def State.canSettle (s : State) (n : Fin 8) : State :=
  let c := s.can n
  if c.quiet = false then s
  else if c.offReq then s.setCan n { c with st := .init, offReq := false, integ := false, tx := none, tt := { CanTt.reset with level := c.tt.kept, cfgErr := c.tt.cfgErr } }
  else if c.sleepReq then s.setCan n { c with st := .sleep, sleepReq := false, tt := { c.tt with role := .off, synced := false, window := .none } }
  else s

/-- The frame that object x carried, as the controller's own receiver sees it in loopback (R350). -/
def CanTx.frame (x : CanTx) (o : CanObj) : CanFrame :=
  { ide := bit o.cfg 29, id := o.cfg.extractLsb' 0 29, remote := false, fdf := bit x.fmt 7, brs := bit x.fmt 6, esi := bit x.fmt 5,
    dlc := x.fmt.extractLsb' 0 4, data := toLe 64 x.data.toNat }

/-- An acknowledged transmission (R356, R362, R363). -/
def State.canAcked (s : State) (n : Fin 8) (x : CanTx) (st : Reg32) : State :=
  let c := s.can n
  let o := c.obj x.obj
  let o1 := { o with txdone := true, stamp := st, last := if x.stand then o.last else some (x.fmt, x.data) }
  let s1 := (s.setCan n { (c.setObj x.obj o1).heard with tx := none }).canCount n 1
  let s2 := (s1.canEvent n 1).canErrors n (c.tec.toNat - 1) c.rec_.toNat
  if bit (s.canCfg n) 19 then s2.takeFrameCan n (x.frame o) st else s2

/-- A transmission that ends in an acknowledgement error (R363, R370). -/
def State.canUnacked (s : State) (n : Fin 8) (x : CanTx) : State :=
  let c := s.can n
  let lim := bits (s.canCfg n) 15 8
  let u := satInc c.unack
  let alone := c.alone || (decide (lim ≠ 0) && decide (lim ≤ u.toNat))
  let stop := alone && bit (s.canCfg n) 28
  let c1 := { c with unack := u, alone := alone }
  let c2 := if stop then
      { c1.modObj x.obj (fun o => { o with ready := o.ready || !x.stand, stopped := true }) with tx := none }
    else c1.retry
  let c3 := if x.once then { c2 with tt := { c2.tt with cause1 := true } } else c2
  let s1 := s.setCan n c3
  let s2 := if alone ∧ c.alone = false then s1.canEvent n 5 else s1
  if x.once ∧ bit (s.ttCfg n) 31 then s2.ttRaise n 1 else s2

/-- CAN_TRANSMIT_END: the frame on the bus has ended (R363). -/
def State.transmitEnd (s : State) (n : Fin 8) (acked : Bool) : State :=
  match (s.can n).tx with
  | some x =>
    match x.start with
    | some st => (if acked then s.canAcked n x st else s.canUnacked n x).canSettle n
    | none => s
  | none => s

/-- A protocol error (R350, R362). -/
def State.canError (s : State) (n : Fin 8) (e : CanErr) : State :=
  let c := s.can n
  let tec := c.tec.toNat
  let r := c.rec_.toNat
  match e with
  | .txError => (((s.modCan n Can.retry).canCount n 4).canErrors n (tec + 8) r).canSettle n
  | .ackError dominant => (s.canCount n 4).canErrors n (if c.epass ∧ dominant = false then tec else tec + 8) r
  | .rxError => (s.canCount n 4).canErrors n tec (r + 1)
  | .rxDominantAfterFlag => s.canErrors n tec (r + 8)
  | .protocolException =>
    if bit (s.canCfg n) 29 then (s.modCan n (fun c => { c.retry with integ := true })).canEvent n 12
    else (s.canCount n 4).canErrors n tec (r + 1)

/-! ### CAN_CTRL (R352, R354, R362, R368, R371) -/

/-- Two enabled objects hold one identifier (R354). -/
def Can.duplicates (c : Can) : Bool :=
  (List.finRange 64).any (fun m => (c.obj m).en && (List.finRange 64).any (fun k =>
    decide (m < k) && (c.obj k).names (bit (c.obj m).cfg 29) ((c.obj m).cfg.extractLsb' 0 29)))

/-- Words 0 and 1 of trigger entry e (R368). -/
def State.trig (s : State) (n : Fin 8) (e : Nat) : Reg32 := s.reg (canBase n + 0x400 + 8 * e)
def State.trigObj (s : State) (n : Fin 8) (e : Nat) : Fin 64 := ⟨bits (s.reg (canBase n + 0x404 + 8 * e)) 5 0 % 64, by omega⟩

/-- Entries a and b apply in no common cycle. -/
def trigDisjoint (a b : Reg32) : Bool :=
  decide (bits a 9 4 % 2 ^ min (bits a 12 10) (bits b 12 10) ≠ bits b 9 4 % 2 ^ min (bits a 12 10) (bits b 12 10))

/-- Trigger entry e breaks a rule of R368 by itself. -/
def State.trigBad (s : State) (n : Fin 8) (e : Nat) : Bool :=
  let w := s.trig n e
  let o := (s.can n).obj (s.trigObj n e)
  let ty := bits w 15 13
  decide (bits (s.reg (canBase n + 0x104)) 15 0 ≤ bits w 31 16) || (decide (bits (s.ttCfg n) 11 9 < bits w 12 10) ||
    ((decide (ty ≤ 1) && !(o.en && o.isTx)) || (decide (ty = 3) && o.isTx)))

/-- The trigger memory breaks R368. -/
def State.trigsBad (s : State) (n : Fin 8) : Bool :=
  let k := min (bits (s.ttCfg n) 7 0) 128
  (List.range k).any (fun e => s.trigBad n e || (List.range e).any (fun d =>
    let a := s.trig n d; let b := s.trig n e
    !(decide (bits a 31 16 < bits b 31 16) || (decide (bits a 31 16 = bits b 31 16) && trigDisjoint a b))))

/-- ON = 1 in INIT: the configuration is checked, and the controller integrates onto the bus (R354, R368). -/
def State.canTurnOn (s : State) (n : Fin 8) : State :=
  let c := s.can n
  if c.duplicates then s.setCan n { c with on := true, cfgErr := true }
  else
    let tt := bit (s.ttCfg n) 31
    let bad := tt && s.trigsBad n
    let s1 := s.setCan n { c with on := true, st := .on, integ := true, cfgErr := false
                                  tt := { CanTt.reset with cfgErr := bad, level := c.tt.kept, role := if tt then .slave else .off } }
    if bad then s1.ttRaise n 3 else s1

/-- The controller leaves SLEEP (R372): onto the bus, through integration unless a frame woke it. -/
def State.canWake (s : State) (n : Fin 8) (integ : Bool) : State :=
  let c := s.can n
  let st : CanRun := if 255 < c.tec.toNat then .busOff else if c.on then .on else .init
  let tt := bit (s.ttCfg n) 31
  (s.setCan n { c with sleep := false, sleepReq := false, st := st, integ := integ && decide (st = .on)
                       tt := { c.tt with role := if tt then .slave else .off, start := s.now } }).canEvent n 6

/-- A write of CAN_CTRL (R352, R356, R362, R371, R372). -/
def State.canCtrlWrite (s : State) (n : Fin 8) (v : Reg32) : State :=
  let s1 := if (s.can n).st = .busOff ∧ bit v 1 = true then s.modCan n (fun c => { c with recovering := true }) else s
  let s2 :=
    if bit v 0 then (if (s1.can n).st = .init then s1.canTurnOn n else s1.modCan n (fun c => { c with on := true, offReq := false }))
    else if (s1.can n).st = .init then s1.modCan n (fun c => { c with on := false })
    else (s1.modCan n (fun c => { c with on := false, offReq := true })).canSettle n
  if bit v 2 then
    (if (s2.can n).st = .sleep then s2 else (s2.modCan n (fun c => { c with sleep := true, sleepReq := true })).canSettle n)
  else if (s2.can n).st = .sleep then s2.canWake n true
  else s2.modCan n (fun c => { c with sleep := false, sleepReq := false })

/-- CAN_CTRL as it reads. -/
def Can.ctrl (c : Can) : Reg32 := BitVec.ofNat 32 (b2n c.sleep * 4 + b2n c.on)

/-- The frame wakes a controller in WAKE_MODE 1 (R372). -/
def State.wakeMatch (s : State) (n : Fin 8) (f : CanFrame) : Bool :=
  let o := (s.can n).obj ⟨bits (s.canCfg n) 25 20 % 64, by omega⟩
  let m := (s.reg (canBase n + 0x24)).extractLsb' 0 29
  !f.fdf && (decide (f.ide = bit o.cfg 29) && decide ((f.id &&& m) = (o.cfg.extractLsb' 0 29 &&& m)))

/-! ### Commands on objects (R356, R357, R363, R416) -/

/-- SEND: a commit of the words given, refused while outputs are held (R356, R416). -/
def State.commitObject (s : State) (n : Fin 8) (m : Fin 64) (fmt : Byte) (data : BitVec 512) : State :=
  let o := (s.can n).obj m
  if s.urral.hold ∨ o.isTx = false then s
  else
    let s1 := s.modObj n m (fun o => { o with fmt := fmt, data := data, ready := true, stopped := false, lost := o.lost || o.ready })
    if o.ready then s1.canEvent n 2 else s1

/-- The party may write objects and commands (R353). -/
def State.canObjRight (s : State) (p : Party) (n : Fin 8) : Bool :=
  match p with
  | .brick k => s.canWindow k n.val
  | _ => !s.anyImage (fun im => im.bindsCan n.val) && s.pf1MgrKey p

/-- OBJ_CMD or CAN_OCMD: SEND, ABORT, RESUME in the order of their bits. -/
def State.objCommand (s : State) (n : Fin 8) (m : Fin 64) (v : Nat) (fmt : Byte) (data : BitVec 512) : State :=
  let s1 := if v % 2 = 1 then s.commitObject n m fmt data else s
  let s2 := if v / 2 % 2 = 1 then s1.modObj n m (fun o => { o with ready := false }) else s1
  if v / 4 % 2 = 1 then s2.modObj n m (fun o => { o with stopped := false }) else s2

/-- BAR0 offset of object m. -/
def objBase (n : Fin 8) (m : Fin 64) : Nat := canBase n + 0x8000 + 128 * m.val

/-- Replace 32 bits of an object's data. -/
def setData32 (d : BitVec 512) (k : Nat) (v : Reg32) : BitVec 512 := setBits d (32 * k + 31) (32 * k) v.toNat

/-- The brick of the window acts on the object in this clk_periph cycle, so that another write is ignored (R353). -/
def State.objBrickFirst (s : State) (n : Fin 8) (m : Fin 64) : Bool := decide ((s.can n).brickActs = some (s.now / periphCycle, m))

/-- A BAR0 write in the block of object m (R352, R353, R357). -/
def State.objWrite (s : State) (p : Party) (n : Fin 8) (m : Fin 64) (o : Nat) (v : Reg32) : State :=
  let x := (s.can n).obj m
  if s.objBrickFirst n m then s.refused p (objBase n m + o) v.toNat
  else if o = 0x00 ∨ o = 0x04 then
    if s.mayConfigure p (s.anyImage (fun im => im.bindsCan n.val)) = false ∨ (s.can n).st ≠ .init then s.refused p (objBase n m + o) v.toNat
    else if o = 0x00 then s.modObj n m (fun x => { x with cfg := v }) else s.modObj n m (fun x => { x with mode := v.extractLsb' 0 3 })
  else if s.canObjRight p n = false then s.refused p (objBase n m + o) v.toNat
  else if o = 0x0C then
    s.modObj n m (fun x => { x with missed := x.missed && !bit v 6, txdone := x.txdone && !bit v 5, nullrx := x.nullrx && !bit v 3
                                    lost := x.lost && !bit v 1, new_ := x.new_ && !bit v 0 })
  else if o = 0x14 then s.objCommand n m v.toNat x.fmt x.data
  else if o = 0x08 ∨ 0x40 ≤ o then
    if x.isTx = false ∨ x.ready then s.refused p (objBase n m + o) v.toNat
    else if o = 0x08 then s.modObj n m (fun x => { x with fmt := v.extractLsb' 0 8 &&& 0xEF })
    else s.modObj n m (fun x => { x with data := setData32 x.data ((o - 0x40) / 4) v })
  else s

/-! ### Registers in BAR0 (R352, R353, R356, R364) -/

/-- The bits that a configuration register keeps; 0 for what is none. -/
def canCfgMask (o : Nat) : Reg32 :=
  if o = 0x10 then 0xFFFFFFE0 else if o = 0x14 then 0xF81F0F0F else if o = 0x18 then 0x8000007F else if o = 0x100 then 0xFF0FFEFF
  else if o = 0x104 ∨ o = 0x108 ∨ o = 0x110 ∨ o = 0x114 ∨ o = 0x118 then 0xFFFFFFFF
  else if 0x400 ≤ o ∧ o < 0x800 then (if o % 8 = 0 then 0xFFFFFFF0 else 0x3F) else 0

/-- CAN_CFG outside INIT: only the wake fields and ALONE_CNT are taken (R352). -/
def State.canCfgLate (s : State) (p : Party) (n : Fin 8) (v : Reg32) : State :=
  let old := s.canCfg n
  let m : Reg32 := 0x0FF0FF00
  let s1 := s.setReg (canBase n) ((old &&& ~~~ m) ||| (v &&& m))
  if (v ^^^ old) &&& 0xF00C0000 = 0 then s1 else s1.refused p (canBase n) v.toNat

/-- A BAR0 write in the block of a controller. -/
def State.canWrite (s : State) (p : Party) (n : Fin 8) (o : Nat) (v : Reg32) : State :=
  let b := canBase n
  let c := s.can n
  if h : 0x8000 ≤ o ∧ o < 0xA000 then s.objWrite p n ⟨(o - 0x8000) / 128, by omega⟩ (o % 128) v
  else if s.mayConfigure p (s.anyImage (fun im => im.bindsCan n.val)) = false then s.refused p (b + o) v.toNat
  else if o = 0x00 then (if c.st = .init then s.setReg b (v &&& 0xFFFCFF00) else s.canCfgLate p n v)
  else if o = 0x04 then s.canCtrlWrite n v
  else if o = 0x1C then s.setReg (b + o) (v &&& 0x1FFF)
  else if o = 0x20 then s.setCan n { c with evt := c.evt &&& ~~~ (v.extractLsb' 0 16) }
  else if o = 0x24 then s.setReg (b + o) (v &&& 0x1FFFFFFF)
  else if o = 0x11C then (if c.st = .init then s.commitQuad p (b + 0x110) v (fun _ s => s) else s.refused p (b + o) v.toNat)
  else if canCfgMask o = 0 then s
  else if c.st ≠ .init then s.refused p (b + o) v.toNat
  else
    let s1 := s.setReg (b + o) (v &&& canCfgMask o)
    if o = 0x100 ∧ bit v 31 = true ∧ bit (s.ttCfg n) 31 = false then
      s1.setCan n { c with tt := { c.tt with level := 0, cfgErr := false } }
    else if o = 0x108 then s1.setCan n { c with tt := { c.tt with tur := none } }
    else s1

/-- CANCTL reset of a controller (R374): every register, object and trigger entry at its reset value. -/
def State.canReset (s : State) (n : Fin 8) : State :=
  let inBlock := fun (a : Nat) => decide (canBase n ≤ a ∧ a < canBase n + 0x10000)
  { s.setCan n .reset with
    regs := s.regs.filter (fun r => !inBlock r.1)
    plumb := { s.plumb with quads := s.plumb.quads.filter (fun r => !inBlock r.1) } }

end Sys2Proof.Machine
end

