-- ==== Sys2Proof/Machine/CanWindow.lean ====
section
/-! DEFINITION. Time-triggered CAN (R364 to R370), the brick window of a controller (R358), and its BAR0 reads (R356). -/

namespace Sys2Proof.Machine

/-! ### Time-triggered operation -/

/-- TT_TUR in use (R364, R365). -/
def State.ttTur (s : State) (n : Fin 8) : Nat := ((s.can n).tt.tur.getD (s.reg (canBase n + 0x108))).toNat

/-- The domain of a time master's schedule, none for CAN_TSC (R365). -/
def State.ttDomain (s : State) (n : Fin 8) : Option (Fin 2) :=
  if (s.can n).tt.role ≠ .master then none
  else if bits (s.ttCfg n) 25 24 = 1 then some 0 else if bits (s.ttCfg n) 25 24 = 2 then some 1 else none

/-- One NTU of a domain in units of 2^-48 ns: TT_TUR × 2^-16 × 12.5 ns (R365). -/
def ntuUnits (tur : Nat) : Nat := tur * 25 * 2 ^ 31

/-- The domain time at which basic cycle k of a run starts (R365). -/
def State.ttBase (s : State) (n : Fin 8) (k : Nat) : Nat :=
  ofQuad (s.quad (canBase n + 0x110)) + k * bits (s.reg (canBase n + 0x104)) 15 0 * ntuUnits (s.ttTur n)

/-- The clk_periph edge at or after `ntu` NTU from the start of the present basic cycle (R365, R369). -/
def State.ttWhen (s : State) (n : Fin 8) (ntu : Nat) : Nat :=
  let t := (s.can n).tt
  edgeFrom periphCycle (match s.ttDomain n with
    | some d => s.tdReach d (s.ttBase n t.run + ntu * ntuUnits (s.ttTur n)) s.now
    | none => t.start + (ntu * s.ttTur n * 125 + 131071) / 131072)

/-- Cycle time in NTU at root time x (R364). -/
def State.ttTime (s : State) (n : Fin 8) (x : Nat) : Nat :=
  let t := (s.can n).tt
  let u := s.ttTur n
  if u = 0 then 0
  else match s.ttDomain n with
    | some d => (s.tdValue d x - s.ttBase n t.run) / ntuUnits u
    | none => (x - t.start) * 131072 / (u * 125)

/-- The controller takes part in the schedule (R364, R370). -/
def State.ttActive (s : State) (n : Fin 8) : Bool :=
  let c := s.can n
  s.canUp n && (decide (c.st = .on) && (!c.integ && bit (s.ttCfg n) 31))

/-- A basic cycle starts (R368 to R370): level S1 goes at the start of a matrix cycle without its causes before. -/
def State.ttCycle (s : State) (n : Fin 8) (cyc : BitVec 6) : State :=
  let c := s.can n
  let new_ := decide (cyc = 0)
  let t : CanTt :=
    { c.tt with
      cyc := cyc, start := s.now, synced := true, window := .none, seen := 0
      level := if new_ ∧ c.tt.level = 1 ∧ c.tt.cause1 = false then 0 else c.tt.level
      cause1 := c.tt.cause1 && !new_ }
  (s.setCan n { c with tt := t, tx := if c.quiet then none else c.tx }).canEvent n 7

/-- The role and the time master's priority become these; a change raises MASTER (R361). -/
def State.ttRole (s : State) (n : Fin 8) (r : TtRole) (prio : BitVec 3) : State :=
  let t := (s.can n).tt
  let s1 := s.modCan n (fun c => { c with tt := { c.tt with role := r, prio := prio, valid := true } })
  if t.role = r ∧ t.prio = prio ∧ t.valid then s1 else s1.canEvent n 9

/-- The next cycle count in a matrix of 2^MC_LOG2 cycles. -/
def State.ttNext (s : State) (n : Fin 8) : BitVec 6 :=
  BitVec.ofNat 6 (((s.can n).tt.cyc.toNat + 1) % 2 ^ min (bits (s.ttCfg n) 11 9) 6)

/-- PRIO of TT_CFG. -/
def State.ttPrio (s : State) (n : Fin 8) : BitVec 3 := (s.ttCfg n).extractLsb' 26 3

/-- The device's own reference is on the bus and starts a basic cycle (R364 to R366). Its data are those of ISO 11898-4,
left open here. -/
def State.ttSendRef (s : State) (n : Fin 8) (cyc : BitVec 6) : State :=
  let (r, s0) := s.fresh
  let id : BitVec 30 := BitVec.ofNat 30 ((bits (s.ttCfg n) 19 12 * 8 + (s.ttPrio n).toNat) * 2 ^ 18)
  let s1 := s0.putCan { n := n, id := id, fmt := 8, data := BitVec.ofNat 512 (r % 2 ^ 64), stamp := canTsc s.now }
  (s1.ttRole n .master (s.ttPrio n)).ttCycle n cyc

/-- A potential master may send its reference (R366, R370). -/
def State.ttMaySend (s : State) (n : Fin 8) : Bool :=
  let c := s.can n
  bit (s.ttCfg n) 30 && (decide (c.tt.level ≠ 3) && (c.quiet && !bit (s.canCfg n) 18))

/-- TT_REFERENCE_SEND (R365, R366): CYCLE_NTU after the start of the cycle, the reference wins and the next cycle starts. -/
def State.ttReference (s : State) (n : Fin 8) : State :=
  let t := (s.can n).tt
  let len := bits (s.reg (canBase n + 0x104)) 15 0
  let s1 := s.at_ (s.ttWhen n len)
  let s2 := s1.modCan n (fun c => { c with tt := { c.tt with run := t.run + 1, gtime := t.gtime + BitVec.ofNat 16 len } })
  s2.ttSendRef n (s.ttNext n)

/-- The first basic cycle of a run on a domain that is still to come (R365). -/
def State.ttFirstRun (s : State) (n : Fin 8) (d : Fin 2) : Nat :=
  let b := s.ttBase n 0
  let len := bits (s.reg (canBase n + 0x104)) 15 0 * ntuUnits (s.ttTur n)
  let v := s.tdValue d s.now
  if v ≤ b ∨ len = 0 then 0 else (v - b + len - 1) / len

/-- A potential master that has seen no reference sends its own, which starts cycle 0 (R366); its global time starts at a
value the spec does not state. -/
def State.ttStart (s : State) (n : Fin 8) : State :=
  let (r, s0) := s.fresh
  let d := bits (s.ttCfg n) 25 24
  let s1 := s0.modCan n (fun c => { c with tt := { c.tt with role := .master, gtime := BitVec.ofNat 16 r } })
  let k := if d = 1 then s1.ttFirstRun n 0 else if d = 2 then s1.ttFirstRun n 1 else 0
  let s2 := s1.modCan n (fun c => { c with tt := { c.tt with run := k, role := (s.can n).tt.role } })
  let s3 := if d = 1 ∨ d = 2 then
      s2.at_ (edgeFrom periphCycle (s2.tdReach (if d = 2 then 1 else 0) (s2.ttBase n k) s2.now)) else s2
  s3.ttSendRef n 0

/-- TT_WATCH_TIMEOUT (R366): WATCH_NTU without a reference. -/
def State.ttWatch (s : State) (n : Fin 8) : State :=
  let s1 := s.at_ (s.ttWhen n (bits (s.reg (canBase n + 0x104)) 31 16))
  if bit (s.ttCfg n) 30 ∧ (s.can n).tt.synced = false then (if s1.ttMaySend n then s1.ttStart n else s1)
  else (s1.modCan n (fun c => { c with tt := { c.tt with synced := false } })).ttRaise n 2

/-- A slave corrects TT_TUR from the master's global time, by at most 1,000 ppm of what was written; a larger drift raises
the level to S2 (R364, R365). -/
def State.ttCorrect (s : State) (n : Fin 8) (gtime : Word) (since : Nat) : State :=
  let t := (s.can n).tt
  let set := (s.reg (canBase n + 0x108)).toNat
  let dg := (gtime - t.gtime).toNat
  if bit (s.ttCfg n) 29 ∨ t.valid = false ∨ t.synced = false ∨ dg = 0 then s
  else
    let (q, s1) := s.roundFree ((((canTsc s.now) - (canTsc since)).toNat * 65536 : Nat) : Int) dg
    if (q - set).natAbs * 1000 ≤ set then s1.modCan n (fun c => { c with tt := { c.tt with tur := some (BitVec.ofInt 32 q) } })
    else s1.ttRaise n 2

/-- TT_REFERENCE_RECEIVE (R366, R370): the cycle starts in step with the master; level S2 clears. -/
def State.ttTakeRef (s : State) (n : Fin 8) (prio : BitVec 3) (cyc : BitVec 6) (gtime : Word) : State :=
  let t := (s.can n).tt
  let slave := decide (t.role ≠ .master) || decide (bits (s.ttCfg n) 25 24 = 0)
  let s1 := (s.modCan n (fun c => { c.heard with tt := { c.tt with level := if t.level = 2 then 0 else t.level } })).canCount n 0
  let s2 := if slave then s1.ttCorrect n gtime t.start else s1
  let s3 := s2.ttRole n (if bit (s.ttCfg n) 30 then .backup else .slave) prio
  let s4 := s3.modCan n (fun c => { c with tt := { c.tt with gtime := gtime, run := t.run + 1 } })
  s4.ttCycle n cyc

/-- An entry applies in the present cycle (R368). -/
def trigApplies (w : Reg32) (cyc : BitVec 6) : Bool := decide (cyc.toNat % 2 ^ min (bits w 12 10) 6 = bits w 9 4)

/-- A window begins; a frame that waits in the buffer is tried no more (R364, R369). -/
def State.ttWindow (s : State) (n : Fin 8) (w : TtWindow) : State :=
  s.modCan n (fun c => { c with tx := if c.quiet then none else c.tx, tt := { c.tt with window := w } })

/-- A cause of level S1 (R370). -/
def State.ttCause1 (s : State) (n : Fin 8) : State :=
  (s.modCan n (fun c => { c with tt := { c.tt with cause1 := true } })).ttRaise n 1

/-- What an exclusive window sends when its object is not READY (R369, R416). -/
def State.ttStandIn (s : State) (n : Fin 8) (m : Fin 64) : State :=
  let o := (s.can n).obj m
  let put := fun (s : State) (f : Byte) (d : BitVec 512) =>
    s.canStart n { obj := m, fmt := f, data := d, start := none, once := true, stand := true }
  if bit o.mode 1 = false ∨ o.en = false then s
  else match s.urral.hold, o.last with
    | true, some (f, d) => put s f d
    | _, _ => (put s (o.fmt &&& 0x80) 0).canEvent n 11

/-- TRIGGER_TIME_MARK: entry e at its time mark (R369). -/
def State.ttMark (s : State) (n : Fin 8) (e : Nat) (idle : Bool) : State :=
  let w := s.trig n e
  let m := s.trigObj n e
  let s0 := s.at_ (s.ttWhen n (bits w 31 16))
  let quiet := decide ((s.can n).tt.level < 2)
  match bits w 15 13 with
  | 0 =>
    let s1 := s0.ttWindow n (.excl m)
    if idle = false ∨ (s1.can n).quiet = false then s1.ttCause1 n
    else if quiet = false ∨ bit (s.canCfg n) 18 = true then s1
    else if ((s1.can n).obj m).sendable then s1.startObject n m true
    else s1.ttStandIn n m
  | 1 =>
    let s1 := s0.ttWindow n (.arb m)
    if idle then s1 else s1.ttCause1 n
  | 2 => s0.ttWindow n .free
  | 3 =>
    let s1 := s0.ttWindow n .none
    if bit (s.can n).tt.seen m.val then s1
    else ((s1.modObj n m (fun o => { o with missed := true })).canEvent n 10).ttCause1 n
  | 4 => (s0.ttWindow n .none).canEvent n 7
  | _ => s0

/-! ### Reads in BAR0 (R356, R364) -/

/-- TT_STATUS and TT_GTIME (R364). -/
def State.ttStatus (s : State) (n : Fin 8) : Reg32 :=
  let t := (s.can n).tt
  let r := match t.role with
    | .off => 0 | .slave => 1 | .backup => 2 | .master => 3
  BitVec.ofNat 32 (r * 2 ^ 30 + t.level.toNat * 2 ^ 28 + b2n t.synced * 2 ^ 27 + b2n t.cfgErr * 2 ^ 26 + t.cyc.toNat * 65536 +
    s.ttTime n s.now % 65536)
def State.ttGtime (s : State) (n : Fin 8) : Reg32 :=
  let t := (s.can n).tt
  BitVec.ofNat 32 (b2n t.valid * 2 ^ 19 + t.prio.toNat * 65536 + (t.gtime.toNat + s.ttTime n s.now) % 65536)

/-- A read in the block of object m (R356). -/
def CanObj.read (x : CanObj) (o : Nat) : Reg32 :=
  if o = 0x00 then x.cfg else if o = 0x04 then x.mode.setWidth 32 else if o = 0x08 then x.fmt.setWidth 32
  else if o = 0x0C then x.status.setWidth 32 else if o = 0x10 then x.stamp
  else if 0x40 ≤ o then x.data.extractLsb' (8 * (o - 0x40)) 32 else 0

/-- A read in the block of a controller by a requester code (R320, R356). -/
def State.canRead (s : State) (code : BitVec 8) (n : Fin 8) (o : Nat) : Reg32 × State :=
  let b := canBase n
  let c := s.can n
  let quad := fun (a : Nat) (q : BitVec 96) =>
    if o % 16 = 0 then s.readQuad code (b + a) q else (quadWord (s.quadLatch (b + a) code) (o % 16 / 4), s)
  if h : 0x8000 ≤ o ∧ o < 0xA000 then (((c.obj ⟨(o - 0x8000) / 128, by omega⟩).read (o % 128)), s)
  else if o = 0x04 then (c.ctrl, s)
  else if o = 0x08 then (c.stat.setWidth 32 <<< 16, s)
  else if o = 0x0C then
    (BitVec.ofNat 32 (b2n (decide (128 ≤ c.rec_.toNat)) * 2 ^ 31 + min c.rec_.toNat 127 * 65536 + c.tec.toNat), s)
  else if o = 0x20 then (c.evt.setWidth 32, s)
  else if h : 0x30 ≤ o ∧ o < 0x44 then
    let k : Fin 5 := ⟨(o - 0x30) / 4, by omega⟩
    (c.cnt[k], s.setCan n { c with cnt := c.cnt.set k 0, cntShadow := c.cntShadow.set k c.cnt[k] })
  else if o = 0x50 then (canTsc s.now, s)
  else if o = 0x54 then (s.anchor.cnt, s)
  else if 0x60 ≤ o ∧ o < 0x70 then quad 0x60 s.anchor.td0
  else if 0x70 ≤ o ∧ o < 0x80 then quad 0x70 s.anchor.td1
  else if 0x110 ≤ o ∧ o < 0x120 then quad 0x110 (s.quad (b + 0x110))
  else if o = 0x108 then (BitVec.ofNat 32 (s.ttTur n), s)
  else if o = 0x120 then (s.ttStatus n, s)
  else if o = 0x124 then (s.ttGtime n, s)
  else (s.reg (b + o), s)

/-! ### The brick window (R358) -/

/-- The registers of the window. -/
def canAccess (o : Nat) : IoAccess :=
  if o = 0x00 ∨ o = 0x12 ∨ 0x20 ≤ o then .rw else if o = 0x01 then .wo
  else if o < 0x0C ∨ (0x10 ≤ o ∧ o < 0x16) then .ro else .none

/-- CAN_OSEL with SNAP = 1: the snapshot is taken and the object's flags clear (R358). -/
def Can.snapshot (c : Can) : Can :=
  let o := c.obj c.sel
  { c.setObj c.sel { o with new_ := false, lost := false, nullrx := false, txdone := false, missed := false } with
    snap := { cfg := o.cfg, fmt := o.fmt, st := o.status, stamp := o.stamp, data := o.data } }

/-- CAN_NEWk (R358). -/
def Can.newWord (c : Can) (k : Nat) : Word :=
  (List.range 16).foldl (fun (v : Word) i => setBit v i (c.obj ⟨(16 * k + i) % 64, by omega⟩).new_) 0

/-- A read of the window of controller n at root time t. -/
def State.canIoRead (s : State) (n : Fin 8) (o t : Nat) : Word × State :=
  let c := s.can n
  if o = 0x00 then (BitVec.ofNat 16 c.sel.val, s)
  else if o = 0x02 then (c.evt, s.setCan n { c with evt := 0 })
  else if o = 0x03 then (c.stat, s)
  else if 0x04 ≤ o ∧ o < 0x08 then (c.newWord (o - 4), s)
  else if o = 0x08 then
    let v := canTsc t
    (v.extractLsb' 0 16, s.setCan n { c with tsch := v.extractLsb' 16 16 })
  else if o = 0x09 then (c.tsch, s)
  else if o = 0x0A then ((s.ttStatus n).extractLsb' 28 4 ++ (0 : BitVec 6) ++ c.tt.cyc, s)
  else if o = 0x0B then (BitVec.ofNat 16 (s.ttTime n t), s)
  else if o = 0x10 then (c.snap.cfg.extractLsb' 0 16, s)
  else if o = 0x11 then ((c.snap.cfg.extractLsb' 29 1 ++ (0 : BitVec 2)) ++ c.snap.cfg.extractLsb' 16 13, s)
  else if o = 0x12 then (c.snap.fmt.setWidth 16, s)
  else if o = 0x13 then (c.snap.st, s)
  else if o = 0x14 then (c.snap.stamp.extractLsb' 0 16, s)
  else if o = 0x15 then (c.snap.stamp.extractLsb' 16 16, s)
  else if 0x20 ≤ o then (c.snap.data.extractLsb' (16 * (o - 0x20)) 16, s)
  else (0, s)

/-- A write of the window of controller n at root time t; a snapshot or a command acts on the object (R353). -/
def State.canIoWrite (s : State) (n : Fin 8) (o : Nat) (v : Word) (t : Nat) : State :=
  let c := s.can n
  if o = 0x00 then
    let c1 := { c with sel := ⟨bits v 5 0 % 64, by omega⟩ }
    s.setCan n (if bit v 15 then { c1.snapshot with brickActs := some (t / periphCycle, c1.sel) } else c1)
  else if o = 0x01 then (s.setCan n { c with brickActs := some (t / periphCycle, c.sel) }).objCommand n c.sel v.toNat c.stFmt c.stData
  else if o = 0x12 then s.setCan n { c with stFmt := v.extractLsb' 0 8 &&& 0xEF }
  else if 0x20 ≤ o then s.setCan n { c with stData := setBits c.stData (16 * (o - 0x20) + 15) (16 * (o - 0x20)) v.toNat }
  else s

end Sys2Proof.Machine
end

