-- ==== Sys2Proof/Machine/FieldWindow.lean ====
section
/-! DEFINITION. Field I/O: the barrier stream, inputs and outputs, the timed command and the pulse test, the field block of
BAR0 and the brick window (R375 to R392, R416). -/

namespace Sys2Proof.Machine

def State.setField (s : State) (x : FieldIo) : State := { s with field := x }
def State.modField (s : State) (f : FieldIo → FieldIo) : State := s.setField (f s.field)

/-- The field block runs: the field die is fitted and the block is out of reset (R4, R377, R389). -/
def State.fieldUp (s : State) : Bool := s.blocksUp && s.fieldFitted

/-- An image holds the field window (R239, R390). -/
def State.fieldHeld (s : State) : Bool := s.anyImage (fun im => bit (im.resByte 3) 0)

/-- The channels that the field die has switched on, but for a pulse test (R383). -/
def FieldIo.onMask (x : FieldIo) : Word := if x.up && x.fv24 then x.out &&& ~~~ x.held &&& ~~~ x.off else 0

/-- The channel that a pulse holds off (R388). -/
def FieldIo.pulsed (x : FieldIo) : Word :=
  match x.test with
  | some p => if p.start.isSome then BitVec.twoPow 16 p.ch.val else 0
  | none => 0

/-- The outputs on at the balls (R383, R388, R389). -/
def State.doOut (s : State) : Word := if s.fieldUp then s.field.onMask &&& ~~~ s.field.pulsed else 0

/-- A field register as the field die holds it (R375). -/
def FieldIo.reg (x : FieldIo) (off : Nat) : Reg32 := Sparse.read regReset x.regs off
def FieldIo.diCfg (x : FieldIo) (n : Nat) : Reg32 := x.reg (0x400100 + 4 * n)
def FieldIo.doCfg (x : FieldIo) (m : Nat) : Reg32 := x.reg (0x400180 + 4 * m)

/-- The field die takes new commanded levels: a channel commanded off and then on loses its latch, one latched for
over-temperature only if it has cooled, which is open (`cool`); a changed command ends that channel's test (R383, R388). -/
def FieldIo.command (x : FieldIo) (v cool : Word) : FieldIo :=
  let rise := v &&& ~~~ x.out
  let free := rise &&& (~~~ x.hot ||| cool)
  let abort := match x.test with
    | some p => p.start.isSome && (bit v p.ch.val != bit x.out p.ch.val)
    | none => false
  let y := { x with out := v, off := x.off &&& ~~~ free, hot := x.hot &&& ~~~ free }
  if abort then { y with test := none, result := 5 } else y

/-- The same over the state, with the cooling of latched channels as a free value. -/
def State.fieldCommand (s : State) (v : Word) : State :=
  let (r, s1) := s.fresh
  s1.modField (fun x => x.command v (BitVec.ofNat 16 r))

/-! ### The stream (R375 to R377, R381) -/

/-- The logic side gives a record its stamp in the domain of FIO_CFG.TD: the tick less the path delay, within ±20 ns, or
±100 ns in the 64 µs after a step (R376, R379, R497). -/
def State.edgeStamp (s : State) (e : EdgeRec) : BitVec 96 × State :=
  let (r, s1) := s.fresh
  let d := tdOf (bit s.field.cfg 29)
  let path := if s.power.calDefault then 0 else (nth s.power.calPage (0xC90 + e.ch.val) 0).toNat * 10
  let near : Bool := match s.field.fit[d] with
    | some t => decide (s.now < t + 64 * microsecond)
    | none => false
  let lim : Nat := match near with
    | true => 6553600
    | false => 1310720
  let err : Int := ((r % (2 * lim + 1) : Nat) : Int) - lim
  let v : Int := (s.tdValue d e.since : Int) + (err - (path * 65536 : Nat)) * 2 ^ 32
  (quadOf v.toNat, s1)

/-- One record leaves the field queue for the edge FIFO, or is lost (R381). -/
def State.edgeMove (s : State) : State :=
  match s.field.queue with
  | [] => s
  | e :: es =>
    if s.field.fifo.length < 32 then
      let (q, s1) := s.edgeStamp e
      let s2 := s1.modField (fun x => { x with queue := es, fifo := x.fifo ++ [(e, q)] })
      match bit (s.reg (0x400100 + 4 * e.ch.val)) 14, s.fieldOwner with
      | true, some bk => s2.latchLine bk 15
      | _, _ => s2
    else s.modField (fun x => { x with queue := es, lost := true })

/-- What a frame carries to the logic side (R375). -/
def FieldIo.report (x : FieldIo) (t : Nat) : FieldIo :=
  { x with streamOk := true, logicRx := t, diSeen := x.di, wbSeen := x.wb, doSeen := x.onMask &&& ~~~ x.pulsed, fvSeen := x.fv24,
           ovl := x.ovl ||| x.fOvl, open_ := x.open_ ||| x.fOpen, ot := x.ot ||| x.fOt, fOvl := 0, fOpen := 0, fOt := 0 }

/-- The pulse test that a frame requests begins, or is refused (R388). -/
def FieldIo.startTest (x : FieldIo) (t : Nat) : FieldIo :=
  match x.test with
  | some p =>
    if p.start.isSome then x
    else if bit x.onMask p.ch.val then { x with test := some { p with start := some t } }
    else { x with test := none, result := 4 }
  | none => x

/-- One configuration word crosses (R375). -/
def State.fieldCfgMove (s : State) : State :=
  match s.field.cfgOut with
  | [] => s
  | o :: os => s.modField (fun x => { x with cfgOut := os, regs := Sparse.write regReset x.regs o (if o = 0x400000 then x.cfg else s.reg o) })

/-- STREAM_FRAME: the exchange at a whole microsecond (R375, R377). -/
def State.streamFrame (s : State) (valid : Bool) : State :=
  let t := s.field.next
  let s0 := (s.at_ t).modField (fun x => { x with next := t + microsecond })
  if valid then
    let s1 := (s0.modField (fun x => { x with up := true, fieldRx := t, held := x.held &&& ~~~ x.newOn, newOn := 0,
                                              tcmd := x.tcmd.map (fun c => { c with sent := true }) })).fieldCommand s0.field.cmd
    let s2 := s1.fieldCfgMove.modField (fun x => (x.startTest t).report t)
    s2.edgeMove.edgeMove.edgeMove.edgeMove
  else s0

/-- STREAM_TIMEOUT: 4 µs without a valid frame on one side (R377). -/
def State.streamTimeout (s : State) (logic : Bool) : State :=
  if logic then
    ((s.at_ (s.field.logicRx + 4 * microsecond)).modField (fun x => { x with streamOk := false })).event .streamLost false 0 []
  else (s.at_ (s.field.fieldRx + 4 * microsecond)).modField (fun x => { x with up := false, held := 0xFFFF, newOn := 0 })

/-! ### Inputs (R379 to R381) -/

/-- The queue keeps stamp order, and channel order for equal stamps (R381). -/
def insertEdge (e : EdgeRec) : List EdgeRec → List EdgeRec
  | [] => [e]
  | x :: xs => if x.since < e.since ∨ (x.since = e.since ∧ x.ch.val ≤ e.ch.val) then x :: insertEdge e xs else e :: x :: xs

/-- DI_CHANGE_ACCEPT: a level that has held for FILT µs since the tick `tick` (R379, R381). -/
def State.diAccept (s : State) (n : Fin 32) (level : Bool) (tick : Nat) : State :=
  let cfg := s.field.diCfg n.val
  let s1 := (s.at_ (50 * tick + bits cfg 7 0 * microsecond)).modField (fun x => { x with di := setBit x.di n.val level })
  let e : EdgeRec := { ch := n, rise := level, since := 50 * tick }
  if bit cfg (if level then 12 else 13) then
    s1.modField (fun x => if x.queue.length < 64 then { x with queue := insertEdge e x.queue } else { x with lost := true })
  else s1

/-- A record is popped: its word, and the stamp is latched (R392). -/
def FieldIo.pop (x : FieldIo) : Word × FieldIo :=
  match x.fifo with
  | [] => (0, x)
  | (e, q) :: es =>
    (BitVec.ofNat 16 (0x8000 + b2n e.rise * 0x4000 + b2n x.lost * 0x2000 + e.ch.val), { x with fifo := es, edgeTs := q, lost := false })

/-! ### Outputs: commands (R387, R388, R390, R416) -/

/-- DO_CMD is written. While outputs are held only the window brick may act, and only to switch exempt channels off. -/
def State.doCmdWrite (s : State) (p : Party) (off : Nat) (v : Word) : State :=
  let x := s.field
  if s.urral.hold then
    match p with
    | .brick _ =>
      let w := x.cmd &&& (v ||| ~~~ ((s.reg 0x600020).extractLsb' 0 16))
      let s1 := s.setField { x with cmd := w, newOn := x.newOn &&& w }
      if w = v then s1 else s1.refused p off v.toNat
    | _ => s.refused p off v.toNat
  else s.setField { x with cmd := v, newOn := v }

/-- A timed command is armed for T, in units of 2^-48 ns (R387). -/
def State.doArm (s : State) (p : Party) (off : Nat) (v t : Nat) : State :=
  if s.urral.hold then s.refused p off v
  else
    let x := s.field
    let w := s.reg 0x400030
    let late := decide (t < s.tdValue (tdOf (bit x.cfg 29)) s.now + 3000 * 2 ^ 48)
    s.setField { x with late := late, tcmd := some { mask := w.extractLsb' 16 16, val := w.extractLsb' 0 16, at_ := t, td := bit x.cfg 29,
                                                     late := late, sent := false } }

/-- DO_TT2 is written: T lies nearest the present seconds (R392, R518). -/
def State.doTt2Write (s : State) (p : Party) (v : Word) : State :=
  let s1 := s.modField (fun x => { x with tt2 := v })
  let x := s1.field
  let ns := x.tt1.toNat * 65536 + x.tt0.toNat
  let now := secOf (s.tdValue (tdOf (bit x.cfg 29)) s.now)
  let low := (v.toNat + 65536 - now % 65536) % 65536
  let sec := if low < 32768 then now + low else now + low - 65536
  if ns < 1000000000 then s1.doArm p 0x616 v.toNat (sec * unitsPerSec + ns * 2 ^ 48) else s1.refused p 0x616 v.toNat

/-- TIMED_COMMAND_APPLY: at the first tick at or after T within ±20 ns, or at once where the command is late (R387). -/
def State.timedApply (s : State) (c : TimedCmd) : State :=
  let (r, s0) := s.fresh
  let s1 := if c.late then s0 else s0.at_ (s.tdReach (tdOf c.td) c.at_ s.now + r % 201 - 100)
  let put := fun (w : Word) => (w &&& ~~~ c.mask) ||| (c.val &&& c.mask)
  let s2 := s1.modField (fun x => { x with tcmd := none, cmd := put x.cmd, newOn := x.newOn &&& ~~~ c.mask,
                                           held := if x.up then x.held &&& ~~~ (c.val &&& c.mask) else x.held })
  s2.fieldCommand (put s2.field.out)

/-- PT_CTRL is written: GO requests a test; one runs at a time, and a WIDTH below 13 is refused (R388, R416). -/
def State.ptCtrlWrite (s : State) (p : Party) (off : Nat) (go : Bool) (width : Nat) (ch : Fin 16) : State :=
  let s1 := s.setReg 0x400060 (BitVec.ofNat 32 (width * 256 + ch.val))
  if go = false ∨ s.field.test.isSome then s1
  else if s.urral.hold then (s1.modField (fun x => { x with result := 4 })).refused p off 0
  else if width < 13 then s1.modField (fun x => { x with result := 4 })
  else s1.modField (fun x => { x with test := some { ch := ch, width := width, start := none }, result := 1 })

/-- PULSE_TEST_END (R388). -/
def State.testEnd (s : State) (p : PulseTest) (t : Nat) (below : Bool) : State :=
  (s.at_ (t + 4 * microsecond * p.width)).modField (fun x => { x with test := none, result := if below then 2 else 3 })

/-- FIO_CFG is written (R386). -/
def State.fioCfgWrite (s : State) (p : Party) (v : Reg32) : State :=
  let x := s.field
  let lock := bit x.cfg 30
  let change := (bit v 31 != bit x.cfg 31) && !lock
  if change && decide (x.cmd ≠ 0 ∨ x.doSeen ≠ 0) then s.event .fieldLimit false p.code [v.toNat]
  else
    let w := setBit (setBit x.cfg 31 (if lock then bit x.cfg 31 else bit v 31)) 29 (bit v 29)
    s.setField { x with cfg := w, cfgOut := x.cfgOut ++ [0x400000] }

/-- The field window goes to an image that requires FIELD_LIMIT, or its course is unloaded (R386). -/
def State.fieldLimitLock (s : State) (lock : Bool) : State :=
  s.modField (fun x => { x with cfg := if lock then setBit (setBit x.cfg 31 true) 30 true else setBit x.cfg 30 false,
                                cfgOut := x.cfgOut ++ [0x400000] })

/-- A hold begins: a pending timed command is discarded (R416). -/
def State.fieldHold (s : State) : State := s.modField (fun x => { x with tcmd := none })

/-! ### BAR0 (R390, R391) -/

/-- The window brick wrote this register in this clk_periph cycle, and its write stands (R390). -/
def State.fieldBrickFirst (s : State) (o : Nat) : Bool := decide (s.field.brickWrite = some (s.now / periphCycle, o))

/-- Who may write a field register from outside the window (R390): with the window held, the keystone alone may configure,
and the commands are the window brick's. -/
def State.mayField (s : State) (p : Party) (o : Nat) : Bool :=
  if s.fieldHeld then decide (p = .keystone) && !decide (o = 0x10 ∨ (0x30 ≤ o ∧ o < 0x70)) else s.pf1MgrKey p

/-- A write in the field block. -/
def State.fieldWrite (s : State) (p : Party) (o : Nat) (v : Reg32) : State :=
  let off := 0x400000 + o
  let low : Word := v.extractLsb' 0 16
  let flag := fun (a : Nat) (f : FieldIo → FieldIo) => if s.fieldBrickFirst a then s else s.modField f
  if s.mayField p o = false then s.refused p off v.toNat
  else if o = 0x00 then s.fioCfgWrite p v
  else if o = 0x10 then s.doCmdWrite p off low
  else if o = 0x18 then flag 0x18 (fun x => { x with ovl := x.ovl &&& ~~~ low })
  else if o = 0x1C then flag 0x19 (fun x => { x with open_ := x.open_ &&& ~~~ low })
  else if o = 0x20 then flag 0x1A (fun x => { x with ot := x.ot &&& ~~~ low })
  else if o = 0x30 ∨ o = 0x40 ∨ o = 0x44 ∨ o = 0x48 then s.setReg off v
  else if o = 0x4C then s.commitQuad p 0x400040 v (fun q s => s.doArm p off v.toNat (ofQuad q))
  else if o = 0x60 then s.ptCtrlWrite p off (bit v 31) (bits v 15 8) ⟨bits v 3 0 % 16, by omega⟩
  else if 0x100 ≤ o ∧ o < 0x180 then (s.setReg off (v &&& 0x00FFF0FF)).modField (fun x => { x with cfgOut := x.cfgOut ++ [off] })
  else if 0x180 ≤ o ∧ o < 0x1C0 then (s.setReg off (v &&& 6)).modField (fun x => { x with cfgOut := x.cfgOut ++ [off] })
  else s

/-- FIO_STATUS (R391). -/
def FieldIo.status (x : FieldIo) : Nat := b2n x.fvSeen * 4 + b2n x.streamOk * 2 + b2n (bit (x.reg 0x400000) 31)
/-- DO_TSTAT (R391). -/
def FieldIo.tstat (x : FieldIo) : Nat := b2n x.late * 2 + b2n x.tcmd.isSome

/-- A read in the field block by a requester code. -/
def State.fieldRead (s : State) (code : BitVec 8) (o : Nat) : Reg32 × State :=
  let x := s.field
  if o = 0x00 then (x.cfg, s) else if o = 0x04 then (BitVec.ofNat 32 x.status, s) else if o = 0x08 then (x.diSeen, s)
  else if o = 0x0C then (x.wbSeen, s) else if o = 0x10 then (x.cmd.setWidth 32, s) else if o = 0x14 then (x.doSeen.setWidth 32, s)
  else if o = 0x18 then (x.ovl.setWidth 32, s) else if o = 0x1C then (x.open_.setWidth 32, s)
  else if o = 0x20 then (x.ot.setWidth 32, s) else if o = 0x50 then (BitVec.ofNat 32 x.tstat, s)
  else if o = 0x40 then s.readQuad code 0x400040 (s.quad 0x400040)
  else if 0x40 < o ∧ o < 0x50 then (quadWord (s.quadLatch 0x400040 code) (o % 16 / 4), s)
  else if o = 0x64 then (x.result.setWidth 32, s)
  else if o = 0x70 then
    if s.fieldHeld then (0, s) else
      let (w, y) := x.pop
      (w.setWidth 32, s.setField y)
  else if o = 0x80 then s.readQuad code 0x400080 x.edgeTs
  else if 0x80 < o ∧ o < 0x90 then (quadWord (s.quadLatch 0x400080 code) (o % 16 / 4), s)
  else (s.reg (0x400000 + o), s)

/-! ### The brick window (R392) -/

/-- The registers of the window. -/
def fieldAccess (o : Nat) : IoAccess :=
  if 0x0A ≤ o ∧ o < 0x10 then .none
  else if o = 0x10 ∨ (0x12 ≤ o ∧ o < 0x17) ∨ (0x18 ≤ o ∧ o < 0x1B) ∨ o = 0x1E then .rw else if o < 0x20 then .ro else .none

/-- A read of the window. -/
def State.fieldIoRead (s : State) (o : Nat) (bk : Fin 52) (t : Nat) : Word × State :=
  let x := s.field
  let r := s.reg
  if o = 0x00 then (x.diSeen.extractLsb' 0 16, s) else if o = 0x01 then (x.diSeen.extractLsb' 16 16, s)
  else if o = 0x02 then (let (w, y) := x.pop; (w, s.setField y))
  else if 0x03 ≤ o ∧ o < 0x09 then (x.edgeTs.extractLsb' (16 * (o - 3)) 16, s)
  else if o = 0x09 then (BitVec.ofNat 16 x.fifo.length, s)
  else if o = 0x10 then (x.cmd, s) else if o = 0x11 then (x.doSeen, s)
  else if o = 0x12 then ((r 0x400030).extractLsb' 16 16, s) else if o = 0x13 then ((r 0x400030).extractLsb' 0 16, s)
  else if o = 0x14 then (x.tt0, s) else if o = 0x15 then (x.tt1, s) else if o = 0x16 then (x.tt2, s)
  else if o = 0x17 then (BitVec.ofNat 16 x.tstat, s)
  else if o = 0x18 then (x.ovl, s) else if o = 0x19 then (x.open_, s) else if o = 0x1A then (x.ot, s)
  else if o = 0x1B then (x.wbSeen.extractLsb' 0 16, s) else if o = 0x1C then (x.wbSeen.extractLsb' 16 16, s)
  else if o = 0x1D then (BitVec.ofNat 16 x.status, s)
  else if o = 0x1E then (BitVec.ofNat 16 (bits (r 0x400060) 15 8 * 16 + bits (r 0x400060) 3 0), s)
  else if o = 0x1F then (x.result.setWidth 16, s)
  else (0, s)

/-- A write of the window by its brick at root time t. -/
def State.fieldIoWrite (s : State) (o : Nat) (v : Word) (bk : Fin 52) (t : Nat) : State :=
  let s0 := s.modField (fun x => { x with brickWrite := some (t / periphCycle, o) })
  let p : Party := .brick bk
  let w := s.reg 0x400030
  if o = 0x10 then s0.doCmdWrite p 0x610 v
  else if o = 0x12 then s0.setReg 0x400030 (v ++ w.extractLsb' 0 16)
  else if o = 0x13 then s0.setReg 0x400030 (w.extractLsb' 16 16 ++ v)
  else if o = 0x14 then s0.modField (fun x => { x with tt0 := v })
  else if o = 0x15 then s0.modField (fun x => { x with tt1 := v })
  else if o = 0x16 then s0.doTt2Write p v
  else if o = 0x18 then s0.modField (fun x => { x with ovl := x.ovl &&& ~~~ v })
  else if o = 0x19 then s0.modField (fun x => { x with open_ := x.open_ &&& ~~~ v })
  else if o = 0x1A then s0.modField (fun x => { x with ot := x.ot &&& ~~~ v })
  else if o = 0x1E then s0.ptCtrlWrite p 0x61E (bit v 15) (bits v 11 4) ⟨bits v 3 0 % 16, by omega⟩
  else s0

end Sys2Proof.Machine
end

