-- ==== Sys2Proof/Machine/BrickIo.lean ====
section
/-! DEFINITION. The brick I/O space: trap checks, reads and writes in IO2 (R117, R154 to R161, R173, R174), and what
replay puts in their place (R494, R495). -/

namespace Sys2Proof.Machine

/-- The access code of an I/O address on this build (R173). -/
def State.ioAccess (s : State) (a : Nat) : IoAccess :=
  if 0x400 ≤ a ∧ a < 0x600 then canAccess (a % 64)
  else if 0x600 ≤ a ∧ a < 0x620 then (if s.fieldFitted then fieldAccess (a - 0x600) else .none)
  else plainAccess a

/-- The course replays (R212, R494). -/
def State.replays (s : State) (bk : Fin 52) : Bool := decide ((s.course (courseOf bk)).mode = 2)

/-- The window that holds an I/O address is assigned to the brick, or the address lies in no window (R173). In replay
the journal decides what the brick reads there. -/
def State.ioAssigned (s : State) (bk : Fin 52) (a : Nat) : Bool :=
  s.replays bk ||
  (if 0x100 ≤ a ∧ a < 0x200 then s.mbWindow bk ((a - 0x100) / 16)
   else if 0x200 ≤ a ∧ a < 0x240 then s.mbWindow bk ((a - 0x200) / 4)
   else if 0x400 ≤ a ∧ a < 0x600 then s.canWindow bk ((a - 0x400) / 64)
   else if 0x600 ≤ a ∧ a < 0x620 then s.fieldWindow bk else true)

/-- A commit with SEND on a receive object (R358). -/
def State.sendsReceive (s : State) (a : Nat) (w : Option Word) : Bool :=
  match w with
  | some v =>
    let c := s.can ⟨(a - 0x400) / 64 % 8, by omega⟩
    decide (0x400 ≤ a ∧ a < 0x600 ∧ a % 64 = 1) && (bit v 0 && !(c.obj c.sel).isTx)
  | none => false

/-- The subcode of the I/O bus error that a read, or a write of a word, raises: 0 UNMAPPED, 1 DENIED, 2 DIRECTION
(R117). -/
def State.ioTrap (s : State) (bk : Fin 52) (a : Nat) (w : Option Word) : Option Nat :=
  match s.ioAccess a with
  | .none => some 0
  | acc =>
    if s.ioAssigned bk a = false then some 1
    else if (w.isSome && decide (acc = .ro)) || ((w.isNone && decide (acc = .wo)) || s.sendsReceive a w) then some 2 else none

/-- A read of this address is a journaled course input (R19, R487). -/
def ioJournaled (a : Nat) : Bool :=
  decide (0x40 ≤ a ∧ a < 0x80) || (decide (0x100 ≤ a ∧ a < 0x240) || decide (0x400 ≤ a ∧ a < 0x620))

/-- A read in IO2 at root time t (R154 to R156): the value and the state after its side effect. -/
def State.ioReadLive (s : State) (bk : Fin 52) (a t : Nat) : Word × State :=
  let b := s.brick bk
  let c := courseOf bk
  if a = 0x000 then (s.eventLines bk t, s)
  else if a = 0x010 then (BitVec.ofNat 16 (b2n b.wd.lock * 32768 + b.wd.period.toNat), s)
  else if a = 0x012 then (BitVec.ofNat 16 (b.wdLeft t / 64), s)
  else if 0x40 ≤ a ∧ a < 0x80 then
    let tl := tileOf bk ⟨(a - 0x40) / 16 % 4, by omega⟩
    let x := s.tile tl
    if a % 16 = 0 then (x.txLast, s)
    else if a % 16 = 1 then (let (v, y) := x.rxRead t; (v, s.setTile tl y))
    else (x.regRead (a % 16) t, s)
  else if a = 0x80 then (b.fm.rxa, s)
  else if a = 0x84 then (let (v, f) := b.fm.popRx; (v, s.setBrick bk { b with fm := f }))
  else if a = 0x85 then (b.fm.rxc1, s)
  else if a = 0x88 then (b.fm.txa, s)
  else if a = 0x89 then (b.fm.txb, s)
  else if a = 0x8C then (let (v, f) := b.fm.popTx; (v, s.setBrick bk { b with fm := f }))
  else if a = 0x90 then (b.fm.lvl0, s)
  else if a = 0x91 then (s.fmLvl1 bk, s)
  else if a = 0x92 then (b.fm.stat.setWidth 16, s)
  else if a = 0x93 then (b.fm.nobuf, s.setBrick bk { b with fm := { b.fm with nobuf := 0, nobufShadow := b.fm.nobuf } })
  else if a = 0xC0 then
    let w := timeWords (s.brickTime b.io.timeSel t)
    (w.extractLsb' 0 16, s.setBrick bk { b with io := { b.io with timeLatch := w } })
  else if 0xC1 ≤ a ∧ a ≤ 0xC5 then (b.io.timeLatch.extractLsb' (16 * (a - 0xC0)) 16, s)
  else if a = 0xC6 then (b.io.timeSel.setWidth 16, s)
  else if a = 0xC8 then (b.io.cmp0, s)
  else if a = 0xC9 then (b.io.cmp1, s)
  else if a = 0xCA then (b.io.cmp2, s)
  else if 0x100 ≤ a ∧ a < 0x200 then
    let v := s.mbRead (0x80 + bk.val) ⟨(a - 0x100) / 16 % 32, by omega⟩ ⟨a / 2 % 8, by omega⟩
    (if a % 2 = 0 then v.extractLsb' 0 16 else v.extractLsb' 16 16, s)
  else if 0x200 ≤ a ∧ a < 0x240 then
    let j : Fin 32 := ⟨(a - 0x200) / 4 % 32, by omega⟩
    if a % 4 = 1 then (let (v, s1) := s.lockRead (0x80 + bk.val) j []; (BitVec.ofNat 16 v, s1))
    else if a % 4 = 0 then ((s.mailbox j).status.extractLsb' 0 16, s) else ((s.mailbox j).status.extractLsb' 16 16, s)
  else if 0x400 ≤ a ∧ a < 0x600 then s.canIoRead ⟨(a - 0x400) / 64 % 8, by omega⟩ (a % 64) t
  else if 0x600 ≤ a ∧ a < 0x620 then s.fieldIoRead (a - 0x600) bk t
  else if 0x810 ≤ a ∧ a < 0x820 then
    let m : Fin 8 := ⟨(a - 0x810) / 2 % 8, by omega⟩
    if a % 2 = 0 then
      let v := (s.course c).conf[m]
      (v.extractLsb' 0 16, s.setBrick bk { b with io := { b.io with confHi := b.io.confHi.set m (v.extractLsb' 16 16) } })
    else (b.io.confHi[m], s)
  else if a = 0x831 then ((s.course c).mode.setWidth 16, s)
  else (0, s)

/-! ### Replay (R494, R495) -/

/-- The replay diverges: the feeder halts the four bricks at their next boundary (R495). `cause` 0 read, 1 output,
2 keyframe. -/
def State.diverge (s : State) (bk : Fin 52) (cause : BitVec 2) (cyc : Nat) : State :=
  let s1 := (List.finRange 4).foldl (fun s b => s.modBrick (brickOf (courseOf bk) b) (fun x => { x with haltReq := true })) s
  { s1 with replay := { s1.replay with st := .diverged, brick := BitVec.ofNat 2 (localOf bk).val, cause := cause, cycle := cyc } }.replayEnded 4

/-- The record is one that a read of brick b consumes: IORD or TIME. -/
def JRec.readOf (b : Fin 4) : JRec → Bool
  | .iord x _ _ _ => decide (x = b)
  | .time x _ _ => decide (x = b)
  | _ => false

/-- The record is an OUT record of brick b. -/
def JRec.outOf (b : Fin 4) : JRec → Bool
  | .out x _ _ _ => decide (x = b)
  | _ => false

/-- A read of a journaled address in replay takes its value from the brick's next record (R494). -/
def State.ioReadReplay (s : State) (bk : Fin 52) (a cyc : Nat) : Word × State :=
  let b := localOf bk
  match takeFirst (JRec.readOf b) s.replay.feed with
  | some (.iord _ addr v n, rest) =>
    if addr.toNat = a ∧ n = cyc then (v, { s with replay := { s.replay with feed := rest, index := s.replay.index + 1 } })
    else (0, s.diverge bk 0 cyc)
  | some (.time _ w n, rest) =>
    if a = 0xC0 ∧ n = cyc then
      let s1 := { s with replay := { s.replay with feed := rest, index := s.replay.index + 1 } }
      (w.extractLsb' 0 16, s1.modBrick bk (fun x => { x with io := { x.io with timeLatch := w } }))
    else (0, s.diverge bk 0 cyc)
  | _ => (0, s.diverge bk 0 cyc)

/-- A read in IO2, journaled where R19 lists it. -/
def State.ioRead (s : State) (bk : Fin 52) (a t : Nat) : Word × State :=
  let c := courseOf bk
  let cyc := (s.course c).cycleAt t
  if s.replays bk ∧ (ioJournaled a ∨ a = 0xC0) then s.ioReadReplay bk a cyc
  else
    let (v, s1) := s.ioReadLive bk a t
    if a = 0xC0 then (v, s1.jrec c (.time (localOf bk) (s1.brick bk).io.timeLatch cyc))
    else if ioJournaled a then (v, s1.jrec c (.iord (localOf bk) (BitVec.ofNat 12 a) v cyc))
    else (v, s1)

/-- A compare armed by a write of TIME_CMP2 (R518), or left unarmed where the nanoseconds are no time. -/
def State.armCompare (s : State) (bk : Fin 52) (v : Word) (t : Nat) : State :=
  let b := s.brick bk
  let ns := b.io.cmp1.toNat * 65536 + b.io.cmp0.toNat
  let now := secOf (s.brickTime b.io.timeSel t)
  let low := (v.toNat + 65536 - now % 65536) % 65536
  let sec := if low < 32768 then now + low else now + low - 65536
  let arm := if ns < 1000000000 then some (ArmedCompare.mk b.io.timeSel ns sec) else none
  s.setBrick bk { b with io := { b.io with cmp2 := v, armed := arm, events := setBit b.io.events 12 false } }

/-- A marker of a brick, and the trigger it may be (R173, R487, R489). -/
def State.markJournal (s : State) (bk : Fin 52) (v : Word) (t : Nat) : State :=
  let c := courseOf bk
  let s1 := s.jrec c (.mark (localOf bk) v ((s.course c).cycleAt t))
  if s.journaled c ∧ v = s.journal.mark then s1.journalTrig else s1

/-- CONF_CLR (R153): each 1 clears that master's counter. -/
def Course.confClear (x : Course) (v : BitVec 8) : Course :=
  { x with conf := Vector.ofFn (fun m => if v.getLsbD m then 0 else x.conf[m]) }

/-- DBELL (R157, R173). -/
def State.dbell (s : State) (bk : Fin 52) (v : Word) : State :=
  (List.finRange 4).foldl (fun s b => if bit v b.val then s.latchLine (brickOf (courseOf bk) b) 13 else s) s

/-- A write in IO2 at root time t (R154). -/
def State.ioWriteLive (s : State) (bk : Fin 52) (a : Nat) (v : Word) (t : Nat) : State :=
  let b := s.brick bk
  let fm := fun (f : FmQueue → FmQueue) => s.setBrick bk { b with fm := f b.fm }
  let io := fun (f : BrickIo → BrickIo) => s.setBrick bk { b with io := f b.io }
  if a = 0x001 then io (fun x => { x with events := x.events &&& ~~~ v })
  else if a = 0x010 then s.setBrick bk (b.wdConfig v t)
  else if a = 0x011 then s.setBrick bk (b.wdKick v t)
  else if 0x40 ≤ a ∧ a < 0x80 then
    let tl := tileOf bk ⟨(a - 0x40) / 16 % 4, by omega⟩
    if a % 16 = 0 then s.modTile tl (fun x => x.txWrite t v)
    else s.modTile tl (fun x => { x with brickWrite := some (t / periphCycle, a % 16) }.regWrite (a % 16) v t)
  else if a = 0x80 then fm (fun f => { f with rxa := v })
  else if a = 0x81 then fm (fun f => f.pushRx v)
  else if a = 0x88 then fm (fun f => { f with txa := v })
  else if a = 0x89 then fm (fun f => { f with txb := v &&& 0x9FFF })
  else if a = 0x8A then s.pushTx bk v
  else if a = 0x92 then fm (fun f => { f with stat := f.stat &&& ~~~ (v.extractLsb' 0 4) })
  else if a = 0xC6 then io (fun x => if bits v 1 0 = 3 then x else { x with timeSel := v.extractLsb' 0 2 })
  else if a = 0xC8 then io (fun x => { x with cmp0 := v })
  else if a = 0xC9 then io (fun x => { x with cmp1 := v })
  else if a = 0xCA then s.armCompare bk v t
  else if 0x100 ≤ a ∧ a < 0x200 then
    let hi := decide (a % 2 = 1)
    s.mbWrite (.brick bk) ⟨(a - 0x100) / 16 % 32, by omega⟩ ⟨a / 2 % 8, by omega⟩
      (if hi then 0xFFFF0000 else 0x0000FFFF) (if hi then v ++ (0 : Word) else v.setWidth 32) a
  else if 0x200 ≤ a ∧ a < 0x240 then
    let j : Fin 32 := ⟨(a - 0x200) / 4 % 32, by omega⟩
    if a % 4 = 0 then s.mbStatusWrite (.brick bk) j v.toNat a
    else if a % 4 = 2 then s.post (.brick bk) j (bits v 3 0) a
    else s.mbCommand (0x80 + bk.val) j v.toNat
  else if 0x400 ≤ a ∧ a < 0x600 then s.canIoWrite ⟨(a - 0x400) / 64 % 8, by omega⟩ (a % 64) v t
  else if 0x600 ≤ a ∧ a < 0x620 then s.fieldIoWrite (a - 0x600) v bk t
  else if a = 0x800 then s.dbell bk v
  else if a = 0x820 then s.modCourse (courseOf bk) (fun x => x.confClear (v.extractLsb' 0 8))
  else if a = 0x830 then s.markJournal bk v t
  else s

/-- The writes that replay discards: the windows, TtTX and the frame-mover transmit registers (R494). -/
def replayDiscards (a : Nat) : Bool :=
  decide (0x100 ≤ a ∧ a < 0x240) || (decide (0x400 ≤ a ∧ a < 0x620) || ((decide (0x40 ≤ a ∧ a < 0x80) && decide (a % 16 = 0)) ||
    decide (0x88 ≤ a ∧ a ≤ 0x8A)))

/-- A write in IO2: an OUT record when the journal keeps outputs, compared with its record in replay (R487, R494). -/
def State.ioWrite (s : State) (bk : Fin 52) (a : Nat) (v : Word) (t : Nat) : State :=
  let c := courseOf bk
  let cyc := (s.course c).cycleAt t
  if s.replays bk ∧ replayDiscards a then
    match takeFirst (JRec.outOf (localOf bk)) s.replay.feed with
    | some (.out _ addr w n, rest) =>
      if addr.toNat = a ∧ w = v ∧ n = cyc then { s with replay := { s.replay with feed := rest, index := s.replay.index + 1 } }
      else s.diverge bk 1 cyc
    | _ => s
  else
    let s1 := s.ioWriteLive bk a v t
    if bit s.journal.cfg 29 then s1.jrec c (.out (localOf bk) (BitVec.ofNat 12 a) v cyc) else s1

end Sys2Proof.Machine
end

