-- ==== Sys2Proof/Machine/BrickIsa.lean ====
section
/-! DEFINITION. The brick instruction set apart from the machine: instructions as fetched, the decoder of
R100 to R103, and what each computing instruction computes (R107 to R114). -/

namespace Sys2Proof.Machine

/-- Single-operand operations (R107). -/
inductive UnOp where
  | mov | not | neg | swapb
deriving DecidableEq, Repr

/-- Two-operand operations (R108). -/
inductive AluOp where
  | add | sub | and | or | xor | andn | minu | maxu | mul | mulhu | mulhs
deriving DecidableEq, Repr

/-- Immediate operations (R109). -/
inductive ImmOp where
  | addi | subi | andi | ori | xori | muli
deriving DecidableEq, Repr

/-- Shifts and the rotate (R110). -/
inductive ShiftOp where
  | shl | shr | sar | rol
deriving DecidableEq, Repr

/-- Single-bit operations (R110). -/
inductive BitOp where
  | bset | bclr | binv
deriving DecidableEq, Repr

/-- CRC forms (R112): bit order and number of data bits. -/
inductive CrcOp where
  | l8 | l16 | m8 | m16
deriving DecidableEq, Repr

/-- Compares (R113). -/
inductive CmpOp where
  | ceq | cne | cltu | clts | cleu | cles | cgtu | cgts
deriving DecidableEq, Repr

/-- Carry and overflow tests (R114). -/
inductive CarryOp where
  | carry | borrow | ovfa | ovfs
deriving DecidableEq, Repr

/-- Conditional branches (R118). -/
inductive BrOp where
  | bz | bnz | dbnz
deriving DecidableEq, Repr

/-- A brick instruction as the decoder delivers it (R100 to R124). -/
inductive BInstr where
  | un (op : UnOp) (d s : BitVec 4)
  | movi (d : BitVec 4) (w : Word)
  | movq (d : BitVec 4) (i : BitVec 6)
  | addq (d : BitVec 4) (i : BitVec 6)
  | alu (op : AluOp) (d s : BitVec 4)
  | alui (op : ImmOp) (d s : BitVec 4) (w : Word)
  | shift (op : ShiftOp) (d : BitVec 4) (n : ShiftCount)
  | bitop (op : BitOp) (d n : BitVec 4)
  | ext (signed : Bool) (d s p wm1 : BitVec 4)
  | ins (d s p wm1 : BitVec 4)
  | crc (op : CrcOp) (d s : BitVec 4) (poly : Word)
  | cmp (op : CmpOp) (d a : BitVec 4) (b : CmpSrc)
  | carry (op : CarryOp) (d a b : BitVec 4)
  | ld (d : BitVec 4) (m : BankAddr)
  | st (m : BankAddr) (v : BitVec 4)
  | inp (d : BitVec 4) (m : IoAddr)
  | outp (m : IoAddr) (v : BitVec 4)
  | xin (a : BitVec 4) (io : BitVec 12)
  | xout (io : BitVec 12) (a : BitVec 4)
  | br (op : BrOp) (c : BitVec 4) (target : Word)
  | jmp (target : Word)
  | call (target : Word)
  | jr (s : BitVec 4)
  | callr (s : BitVec 4)
  | ret
  | rett
  | mfs (d : BitVec 4) (sel : BitVec 6)
  | mts (sel : BitVec 6) (s : BitVec 4)
  | wait (d s : BitVec 4)
  | nop
  | bkpt
  | rep (n : RepCount)
deriving DecidableEq, Repr

/-- The opcode of a first word: bits [15:10] (R100). -/
def opOf (w : Word) : Nat := bits w 15 10
/-- Field FX: bits [9:6] (R100). -/
def fxOf (w : Word) : BitVec 4 := w.extractLsb' 6 4
/-- Field FY: bits [5:2] (R100). -/
def fyOf (w : Word) : BitVec 4 := w.extractLsb' 2 4
/-- Field FN: bits [1:0] (R100). -/
def fnOf (w : Word) : Nat := bits w 1 0
/-- Field IMM6: bits [5:0] (R100). -/
def imm6Of (w : Word) : BitVec 6 := w.extractLsb' 0 6

/-- The length in words: the opcode alone sets it (R101, R103). -/
def opLength (op : Nat) : Nat :=
  if op = 0x02 ∨ op = 0x08 ∨ op = 0x09 ∨ op = 0x0D ∨ op = 0x0E ∨ op = 0x10 ∨ op = 0x11 ∨ op = 0x12 ∨
     op = 0x13 ∨ op = 0x14 ∨ op = 0x1A ∨ op = 0x1B ∨ op = 0x1D ∨ op = 0x20 ∨ op = 0x21
  then 2 else 1

/-- The special register numbers that exist (R120). -/
def sregExists (sel : BitVec 6) : Bool :=
  decide (sel.toNat ≤ 0x06) || decide (0x08 ≤ sel.toNat ∧ sel.toNat ≤ 0x0A) || decide (sel.toNat = 0x0C) ||
    decide (sel.toNat = 0x0D)

/-- The special registers that MTS may name: TPC, TREPC, TSTAT, and REPC, which R102 treats by itself. -/
def mtsNames (sel : BitVec 6) : Bool :=
  decide (sel.toNat = 0x00) || decide (sel.toNat = 0x03) || decide (sel.toNat = 0x04) || decide (sel.toNat = 0x05)

/-- Keep an instruction only when a field shown as zero is zero (R102). -/
def onlyIf (c : Bool) (i : BInstr) : Option BInstr := if c then some i else none

/-- Group MISC and the single-operand group (R107, R118, R123). -/
def decodeMisc (w : Word) : Option BInstr :=
  let fn := fnOf w
  onlyIf (decide (fxOf w = 0) && decide (fyOf w = 0))
    (if fn = 0 then .nop else if fn = 1 then .bkpt else if fn = 2 then .ret else .rett)

/-- The single-operand operation of an FN (R107). -/
def unOf (fn : Nat) : UnOp := if fn = 0 then .mov else if fn = 1 then .not else if fn = 2 then .neg else .swapb

/-- The operations of opcodes 0x05 and 0x06 (R108). -/
def aluAOf (fn : Nat) : AluOp := if fn = 0 then .add else if fn = 1 then .sub else if fn = 2 then .and else .or
/-- The operations of opcode 0x06 (R108). -/
def aluBOf (fn : Nat) : AluOp := if fn = 0 then .xor else if fn = 1 then .andn else if fn = 2 then .minu else .maxu

/-- The shift of an FN (R110). -/
def shiftOf (fn : Nat) : ShiftOp := if fn = 0 then .shl else if fn = 1 then .shr else if fn = 2 then .sar else .rol

/-- Shifts, single bits and bit fields (R110, R111). -/
def decodeShift (w w2 : Word) : Option BInstr :=
  let op := opOf w; let fn := fnOf w; let d := fxOf w; let s := fyOf w
  if op = 0x0A then some (.shift (shiftOf fn) d (.imm s))
  else if op = 0x0B then some (.shift (shiftOf fn) d (.reg s))
  else if op = 0x0C then
    if fn = 0 then some (.bitop .bset d s) else if fn = 1 then some (.bitop .bclr d s)
    else if fn = 2 then some (.bitop .binv d s) else none
  else
    let p : BitVec 4 := w2.extractLsb' 4 4; let wm1 : BitVec 4 := w2.extractLsb' 0 4
    let ok := decide (bits w2 15 8 = 0) && decide (p.toNat + (wm1.toNat + 1) ≤ 16)
    if fn = 0 then onlyIf ok (.ext false d s p wm1) else if fn = 1 then onlyIf ok (.ext true d s p wm1)
    else if fn = 2 then onlyIf ok (.ins d s p wm1) else none

/-- The compare of opcode row and FN (R113): `le` for the opcodes 0x11 and 0x13. -/
def cmpOf (le : Bool) (fn : Nat) : CmpOp :=
  if le then (if fn = 0 then .cleu else if fn = 1 then .cles else if fn = 2 then .cgtu else .cgts)
  else (if fn = 0 then .ceq else if fn = 1 then .cne else if fn = 2 then .cltu else .clts)

/-- Compares, carries and overflow (R113, R114). -/
def decodeCmp (w w2 : Word) : Option BInstr :=
  let op := opOf w; let fn := fnOf w; let d := fxOf w; let a := fyOf w
  let b : BitVec 4 := w2.extractLsb' 12 4; let z := decide (bits w2 11 0 = 0)
  if op = 0x10 then onlyIf z (.cmp (cmpOf false fn) d a (.reg b))
  else if op = 0x11 then onlyIf z (.cmp (cmpOf true fn) d a (.reg b))
  else if op = 0x12 then some (.cmp (cmpOf false fn) d a (.imm w2))
  else if op = 0x13 then some (.cmp (cmpOf true fn) d a (.imm w2))
  else onlyIf z (.carry (if fn = 0 then .carry else if fn = 1 then .borrow else if fn = 2 then .ovfa else .ovfs) d a b)

/-- Bank and I/O access (R115, R117). -/
def decodeAccess (w w2 : Word) : Option BInstr :=
  let op := opOf w; let fn := fnOf w; let x := fxOf w; let y := fyOf w
  let io : BitVec 12 := w2.extractLsb' 0 12; let ioz := decide (bits w2 15 12 = 0)
  if op = 0x18 then
    if fn = 0 then some (.ld x (.ind y)) else if fn = 1 then some (.ld x (.postInc y))
    else if fn = 2 then some (.ld x (.postDec y)) else none
  else if op = 0x19 then
    if fn = 0 then some (.st (.ind x) y) else if fn = 1 then some (.st (.postInc x) y)
    else if fn = 2 then some (.st (.postDec x) y) else none
  else if op = 0x1A then
    if fn = 0 then some (.ld x (.offset y w2)) else if fn = 1 then onlyIf (decide (y = 0)) (.ld x (.absolute w2)) else none
  else if op = 0x1B then
    if fn = 0 then some (.st (.offset x w2) y) else if fn = 1 then onlyIf (decide (x = 0)) (.st (.absolute w2) y) else none
  else if op = 0x1C then
    if fn = 0 then some (.inp x (.reg y)) else if fn = 1 then some (.outp (.reg x) y) else none
  else
    if fn = 0 then onlyIf (ioz && decide (y = 0)) (.inp x (.imm io))
    else if fn = 1 then onlyIf (ioz && decide (x = 0)) (.outp (.imm io) y)
    else if fn = 2 then onlyIf (ioz && decide (y = 0)) (.xin x io)
    else onlyIf (ioz && decide (y = 0)) (.xout io x)

/-- Control transfers, special registers, WAIT and REP (R118, R121, R122, R124). -/
def decodeControl (w w2 : Word) : Option BInstr :=
  let op := opOf w; let fn := fnOf w; let x := fxOf w; let y := fyOf w
  if op = 0x20 then
    if fn = 3 then onlyIf (decide (x = 0) && decide (y = 0)) (.jmp w2)
    else onlyIf (decide (y = 0)) (.br (if fn = 0 then .bz else if fn = 1 then .bnz else .dbnz) x w2)
  else if op = 0x21 then onlyIf (decide (fn = 0) && (decide (x = 0) && decide (y = 0))) (.call w2)
  else if op = 0x22 then
    if fn = 0 then onlyIf (decide (x = 0)) (.jr y) else if fn = 1 then onlyIf (decide (x = 0)) (.callr y) else none
  else if op = 0x24 then
    if bit w 9 then some (.rep (.imm (w.extractLsb' 0 9)))
    else onlyIf (decide (bits w 8 6 = 0) && decide (fn = 0)) (.rep (.reg y))
  else if op = 0x25 then onlyIf (sregExists (imm6Of w)) (.mfs x (imm6Of w))
  else if op = 0x26 then onlyIf (mtsNames (imm6Of w)) (.mts (imm6Of w) x)
  else onlyIf (decide (fn = 0)) (.wait x y)

/-- The decoder (R100 to R103): none where the word is illegal whatever the state. The second word is looked
at only by the two-word opcodes. -/
def decodeBrick (w w2 : Word) : Option BInstr :=
  let op := opOf w; let fn := fnOf w; let d := fxOf w; let s := fyOf w
  if op = 0x00 then decodeMisc w
  else if op = 0x01 then some (.un (unOf fn) d s)
  else if op = 0x02 then onlyIf (decide (s = 0) && decide (fn = 0)) (.movi d w2)
  else if op = 0x03 then some (.movq d (imm6Of w))
  else if op = 0x04 then some (.addq d (imm6Of w))
  else if op = 0x05 then some (.alu (aluAOf fn) d s)
  else if op = 0x06 then some (.alu (aluBOf fn) d s)
  else if op = 0x07 then
    if fn = 0 then some (.alu .mul d s) else if fn = 1 then some (.alu .mulhu d s)
    else if fn = 2 then some (.alu .mulhs d s) else none
  else if op = 0x08 then
    some (.alui (if fn = 0 then .addi else if fn = 1 then .subi else if fn = 2 then .andi else .ori) d s w2)
  else if op = 0x09 then
    if fn = 0 then some (.alui .xori d s w2) else if fn = 1 then some (.alui .muli d s w2) else none
  else if 0x0A ≤ op ∧ op ≤ 0x0D then decodeShift w w2
  else if op = 0x0E then
    some (.crc (if fn = 0 then .l8 else if fn = 1 then .l16 else if fn = 2 then .m8 else .m16) d s w2)
  else if 0x10 ≤ op ∧ op ≤ 0x14 then decodeCmp w w2
  else if 0x18 ≤ op ∧ op ≤ 0x1D then decodeAccess w w2
  else if op = 0x20 ∨ op = 0x21 ∨ op = 0x22 ∨ op = 0x24 ∨ op = 0x25 ∨ op = 0x26 ∨ op = 0x27 then decodeControl w w2
  else none

/-- The length in words of a decoded instruction (R103). -/
def BInstr.length : BInstr → Nat
  | .movi .. | .alui .. | .ext .. | .ins .. | .crc .. | .cmp .. | .carry .. => 2
  | .ld _ (.offset ..) | .ld _ (.absolute ..) | .st (.offset ..) _ | .st (.absolute ..) _ => 2
  | .inp _ (.imm _) | .outp (.imm _) _ | .xin .. | .xout .. => 2
  | .br .. | .jmp _ | .call _ => 2
  | _ => 1

/-- Single-operand results (R107). -/
def UnOp.eval (op : UnOp) (x : Word) : Word :=
  match op with
  | .mov => x
  | .not => ~~~ x
  | .neg => 0 - x
  | .swapb => x.extractLsb' 0 8 ++ x.extractLsb' 8 8

/-- Two-operand results: a is g[d] and b is g[s] (R108). -/
def AluOp.eval (op : AluOp) (a b : Word) : Word :=
  match op with
  | .add => a + b
  | .sub => a - b
  | .and => a &&& b
  | .or => a ||| b
  | .xor => a ^^^ b
  | .andn => a &&& ~~~ b
  | .minu => if b.toNat < a.toNat then b else a
  | .maxu => if b.toNat > a.toNat then b else a
  | .mul => a * b
  | .mulhu => BitVec.ofNat 16 (a.toNat * b.toNat / 65536)
  | .mulhs => BitVec.ofInt 16 ((a.toInt * b.toInt) / 65536)

/-- Cycles of the two-operand operations: the multiplies take 2 (R108). -/
def AluOp.cycles : AluOp → Nat
  | .mul | .mulhu | .mulhs => 2
  | _ => 1

/-- Immediate results: a is g[s] and w is w2 (R109). -/
def ImmOp.eval (op : ImmOp) (a w : Word) : Word :=
  match op with
  | .addi => a + w
  | .subi => a - w
  | .andi => a &&& w
  | .ori => a ||| w
  | .xori => a ^^^ w
  | .muli => a * w

/-- Cycles of the immediate operations (R109). -/
def ImmOp.cycles : ImmOp → Nat
  | .muli => 2
  | _ => 1

/-- Shift results (R110). -/
def ShiftOp.eval (op : ShiftOp) (a : Word) (n : Nat) : Word :=
  match op with
  | .shl => a <<< n
  | .shr => a >>> n
  | .sar => a.sshiftRight n
  | .rol => a.rotateLeft n

/-- Single-bit results (R110). -/
def BitOp.eval (op : BitOp) (a : Word) (n : Nat) : Word :=
  match op with
  | .bset => a ||| BitVec.twoPow 16 n
  | .bclr => a &&& ~~~ BitVec.twoPow 16 n
  | .binv => a ^^^ BitVec.twoPow 16 n

/-- The mask of w ones (R111). -/
def onesMask (w : Nat) : Word := BitVec.allOnes 16 >>> (16 - w)

/-- EXTU and EXTS: the field at p of width w (R111). -/
def extEval (signed : Bool) (a : Word) (p w : Nat) : Word :=
  let f := (a >>> p) &&& onesMask w
  if signed && f.getLsbD (w - 1) then f ||| ~~~ onesMask w else f

/-- INS: the low w bits of b placed at p in a (R111). -/
def insEval (a b : Word) (p w : Nat) : Word :=
  let m := onesMask w <<< p
  (a &&& ~~~ m) ||| ((b <<< p) &&& m)

/-- One step of the least-significant-first CRC with data bit i (R112). -/
def crcStepL (poly data : Word) (crc : Word) (i : Nat) : Word :=
  let fb := crc.getLsbD 0 != data.getLsbD i
  let c := crc >>> 1
  if fb then c ^^^ poly else c

/-- One step of the most-significant-first CRC with data bit i (R112). -/
def crcStepM (poly data : Word) (crc : Word) (i : Nat) : Word :=
  let fb := crc.getLsbD 15 != data.getLsbD i
  let c := crc <<< 1
  if fb then c ^^^ poly else c

/-- CRC results (R112). -/
def CrcOp.eval (op : CrcOp) (crc data poly : Word) : Word :=
  match op with
  | .l8 => (List.range 8).foldl (crcStepL poly data) crc
  | .l16 => (List.range 16).foldl (crcStepL poly data) crc
  | .m8 => (List.range 8).reverse.foldl (crcStepM poly data) crc
  | .m16 => (List.range 16).reverse.foldl (crcStepM poly data) crc

/-- Whether a compare holds (R113). -/
def CmpOp.holds (op : CmpOp) (a b : Word) : Bool :=
  match op with
  | .ceq => decide (a = b)
  | .cne => decide (a ≠ b)
  | .cltu => decide (a.toNat < b.toNat)
  | .clts => decide (a.toInt < b.toInt)
  | .cleu => decide (a.toNat ≤ b.toNat)
  | .cles => decide (a.toInt ≤ b.toInt)
  | .cgtu => decide (a.toNat > b.toNat)
  | .cgts => decide (a.toInt > b.toInt)

/-- Whether a carry or overflow test writes 1 (R114). -/
def CarryOp.holds (op : CarryOp) (a b : Word) : Bool :=
  match op with
  | .carry => decide (a.toNat + b.toNat ≥ 65536)
  | .borrow => decide (a.toNat < b.toNat)
  | .ovfa => decide (a.toInt + b.toInt < -32768 ∨ a.toInt + b.toInt > 32767)
  | .ovfs => decide (a.toInt - b.toInt < -32768 ∨ a.toInt - b.toInt > 32767)

/-- The word 1 or 0. -/
def flagWord (b : Bool) : Word := if b then 1 else 0

/-- The instructions that may not be repeated, apart from MTS #REPC (R126, subcode 0). -/
def BInstr.notRepeatable : BInstr → Bool
  | .br .. | .jmp _ | .call _ | .jr _ | .callr _ | .ret | .rett | .rep _ | .wait .. | .bkpt => true
  | _ => false

/-- MTS #REPC (R102, R126). -/
def BInstr.isMtsRepc : BInstr → Bool
  | .mts sel _ => decide (sel.toNat = 0x05)
  | _ => false

/-- The instructions that may not be injected (R139). -/
def BInstr.notInjectable : BInstr → Bool
  | .rep _ | .rett | .wait .. | .bkpt => true
  | _ => false

end Sys2Proof.Machine
end

