-- ==== Sys2Proof/Machine/BrickExec.lean ====
section
/-! DEFINITION. The brick engine: registers, fetch, one instruction's effect and cycles, trap entry, REP, issue at an
instruction boundary, and injection (R93 to R172). -/

namespace Sys2Proof.Machine

/-! ### Registers -/

/-- General register x (R93). -/
def Brick.r (b : Brick) (x : BitVec 4) : Word := b.g[x.toNat]'x.isLt
/-- Write general register x. -/
def Brick.setR (b : Brick) (x : BitVec 4) (v : Word) : Brick := { b with g := b.g.set x.toNat v x.isLt }

/-- TSTAT (R121). -/
def Brick.tstat (b : Brick) : Word := BitVec.ofNat 16 (b2n b.trep * 2 + b2n b.inTrap)

/-- Special register `sel` of R120 as MFS reads it at root time t, but for the latch of CYCLO. -/
def State.sreg (s : State) (bk : Fin 52) (sel t : Nat) : Word :=
  let b := s.brick bk
  if sel = 0x00 then b.tpc else if sel = 0x01 then b.tcause else if sel = 0x02 then b.tinfo
  else if sel = 0x03 then b.trepc else if sel = 0x04 then b.tstat else if sel = 0x05 then b.repc
  else if sel = 0x06 then BitVec.ofNat 16 b.rstk.length
  else if sel = 0x08 then BitVec.ofNat 16 ((s.course (courseOf bk)).cycleAt t)
  else if sel = 0x09 then b.cycLatch.extractLsb' 0 16 else if sel = 0x0A then b.cycLatch.extractLsb' 16 16
  else if sel = 0x0C then BitVec.ofNat 16 ((courseOf bk).val * 256 + (localOf bk).val * 64 + bk.val)
  else if sel = 0x0D then 1 else 0

/-- MTS (R120, R121): TPC, TREPC, and TREP of TSTAT. -/
def Brick.mts (b : Brick) (sel : Nat) (v : Word) : Brick :=
  if sel = 0x00 then { b with tpc := v } else if sel = 0x03 then { b with trepc := v }
  else if sel = 0x04 then { b with trep := bit v 1 } else b

/-! ### Fetch (R99, R144, R145) -/

/-- Words of instruction memory (R96). -/
def imemWords : Nat := 0x2000

/-- The words from the PC on that FE could still read: up to the buffer's 4 words beyond the instruction in DE. -/
def Brick.feRoom (b : Brick) : Nat :=
  let first := match b.pre with
    | w :: _ => w
    | [] => b.imem.word b.pc.toNat
  min (4 + opLength (opOf first)) (imemWords - b.pc.toNat) - b.pre.length

/-- FE reads n more words. -/
def Brick.feRead (b : Brick) : (n : Nat) → Brick
  | 0 => b
  | n + 1 => ({ b with pre := b.pre ++ [b.imem.word (b.pc.toNat + b.pre.length)] }).feRead n

/-- FE up to root time t: two words a cycle while it has room (R144). -/
def Brick.feTo (b : Brick) (t : Nat) : Brick :=
  { b.feRead (min (2 * ((t - b.feAt) / brickCycle)) b.feRoom) with feAt := max b.feAt t }

/-- FE has delivered k words at the PC, as DE needs them. -/
def Brick.feed (b : Brick) (k : Nat) : Brick := b.feRead (k - b.pre.length)

/-- The words that issue at time t: FE has them, or reads them in time (R143). -/
def Brick.fetched (b : Brick) (t : Nat) (k : Nat) : Brick := (b.feTo t).feed k

/-- Go on to the word n words further (sequential execution). -/
def Brick.advance (b : Brick) (n : Nat) : Brick := { b with pc := b.pc + BitVec.ofNat 16 n, pre := b.pre.drop n }

/-- A taken transfer: the target is read in the cycle before the next issue (R143). -/
def Brick.goPc (b : Brick) (pc : Word) (ready : Nat) : Brick :=
  { b with pc := pc, pre := [], ready := ready, feAt := ready - brickCycle }

/-- The word at the PC as first word, with the word after it. -/
def Brick.words (b : Brick) : Word × Word := (nth b.pre 0 0, nth b.pre 1 0)

/-- Sequential execution has reached 0x2000 (R99). -/
def Brick.pastEnd (b : Brick) : Bool :=
  decide (imemWords ≤ b.pc.toNat) ||
    decide (imemWords < b.pc.toNat + opLength (opOf (nth b.pre 0 (b.imem.word b.pc.toNat))))

/-! ### Traps (R130 to R137) -/

/-- Trap entry (R132): the first instruction at the vector issues at `ready`. -/
def Brick.enterTrap (b : Brick) (cause sub : Nat) (tpc tinfo : Word) (ready : Nat) : Brick :=
  ({ b with tpc := tpc, tcause := BitVec.ofNat 16 (cause * 4096 + sub * 256), tinfo := tinfo, trep := b.inRep,
            trepc := if b.inRep then b.repc else b.trepc, repc := 0, inRep := false, inTrap := true }).goPc
    (BitVec.ofNat 16 (2 * cause)) ready

/-- A trap, or a double fault when one has been entered already: the brick stops before the instruction (R136). -/
def State.takeTrap (s : State) (bk : Fin 52) (cause sub : Nat) (tpc tinfo : Word) (ready : Nat) : State :=
  let b := s.brick bk
  if b.inTrap then
    (s.setBrick bk { (b.goTo .stopped s.now) with stopCause := 1, inRep := false }).event .doubleFault false
      (BitVec.ofNat 8 (Party.num (.brick bk))) [bk.val, cause, sub, tpc.toNat]
  else s.setBrick bk (b.enterTrap cause sub tpc tinfo ready)

/-! ### One instruction -/

/-- Where the brick goes after an instruction. -/
inductive Flow where
  /-- The next word. -/
  | next
  | goto (pc : Word)
  | trap (cause sub : Nat) (info : Word)
  /-- WAIT holds for the lines of its mask. -/
  | wait (d : BitVec 4) (mask : Word)
  | rett
  | rep (n : Nat)
  | bkpt
deriving DecidableEq, Repr

/-- An instruction's effect but for the PC: the state, where the brick goes, and its cycles. A trap leaves the
state as it was (R131). -/
structure Ran where
  st   : State
  flow : Flow
  cyc  : Nat
deriving DecidableEq, Repr

/-- A transfer to `target`, or the FETCH trap without any effect (R99, R118). -/
def xfer (s s1 : State) (target : Word) : Ran :=
  if imemWords ≤ target.toNat then ⟨s, .trap 2 3 target, 0⟩ else ⟨s1, .goto target, 2⟩

/-- The bank address of an LD or ST and its address register afterwards (R115). -/
def Brick.bankAddr (b : Brick) : BankAddr → Word × Brick
  | .ind s => (b.r s, b)
  | .postInc s => (b.r s, b.setR s (b.r s + 1))
  | .postDec s => (b.r s, b.setR s (b.r s - 1))
  | .offset s w => (b.r s + w, b)
  | .absolute w => (w, b)

/-- The I/O address of an IN or OUT (R117). -/
def Brick.ioAddr (b : Brick) : IoAddr → Word
  | .reg s => b.r s
  | .imm w => w.setWidth 16

/-- The stall of a brick's bank access that first requests in cycle n (R105, R149). -/
def State.brickStall (s : State) (bk : Fin 52) (a : Word) (n : Nat) (ct : Contention) : Nat :=
  bankStall (s.course (courseOf bk)).mode (localOf bk).val a.toNat n ct

/-- Count a brick's lost cycles (R153). -/
def State.brickLose (s : State) (bk : Fin 52) (n : Nat) : State :=
  s.modCourse (courseOf bk) (fun x => x.lose ⟨(localOf bk).val, by omega⟩ n)

/-- Write a word of the bank. -/
def State.bankWrite (s : State) (c : Fin 13) (a v : Word) : State :=
  s.modCourse c (fun x => { x with bank := Memory.setWord x.bank a.toNat v })

/-- Read a word of the bank. -/
def State.bankRead (s : State) (c : Fin 13) (a : Word) : Word := Memory.word (s.course c).bank a.toNat

/-- The shift count of a shift (R110). -/
def Brick.shiftCount (b : Brick) : ShiftCount → Nat
  | .imm n => n.toNat
  | .reg s => bits (b.r s) 3 0

/-- The second source of a compare (R113). -/
def Brick.cmpSrc (b : Brick) : CmpSrc → Word
  | .reg x => b.r x
  | .imm w => w

/-- LD (R115, R116): the loaded word is written last. -/
def State.runLd (s : State) (bk : Fin 52) (d : BitVec 4) (m : BankAddr) (t : Nat) (ct : Contention) : Ran :=
  let c := courseOf bk
  let (a, b1) := (s.brick bk).bankAddr m
  let st := s.brickStall bk a ((s.course c).cycleAt t + 1) ct
  ⟨(s.setBrick bk (b1.setR d (s.bankRead c a))).brickLose bk st, .next, 2 + st⟩

/-- ST (R115, R116): the word stored is the register's value before the change. -/
def State.runSt (s : State) (bk : Fin 52) (m : BankAddr) (v : BitVec 4) (t : Nat) (ct : Contention) : Ran :=
  let c := courseOf bk
  let b := s.brick bk
  let (a, b1) := b.bankAddr m
  let st := s.brickStall bk a ((s.course c).cycleAt t + 1) ct
  ⟨((s.setBrick bk b1).bankWrite c a (b.r v)).brickLose bk st, .next, 2 + st⟩

/-- IN (R117): the register is read in IO2, two cycles after issue (R142). -/
def State.runIn (s : State) (bk : Fin 52) (d : BitVec 4) (m : IoAddr) (t : Nat) : Ran :=
  let a := (s.brick bk).ioAddr m
  match s.ioTrap bk a.toNat none with
  | some sub => ⟨s, .trap 2 sub a, 0⟩
  | none =>
    let (v, s1) := s.ioRead bk a.toNat (t + 2 * brickCycle)
    ⟨s1.modBrick bk (fun b => b.setR d v), .next, 4⟩

/-- OUT (R117). -/
def State.runOut (s : State) (bk : Fin 52) (m : IoAddr) (v : BitVec 4) (t : Nat) : Ran :=
  let b := s.brick bk
  let a := b.ioAddr m
  match s.ioTrap bk a.toNat (some (b.r v)) with
  | some sub => ⟨s, .trap 2 sub a, 0⟩
  | none => ⟨s.ioWrite bk a.toNat (b.r v) (t + 2 * brickCycle), .next, 4⟩

/-- XIN (R117, R142): the bank is written in cycle i + 4. -/
def State.runXin (s : State) (bk : Fin 52) (x : BitVec 4) (io : BitVec 12) (t : Nat) (ct : Contention) : Ran :=
  let c := courseOf bk
  match s.ioTrap bk io.toNat none with
  | some sub => ⟨s, .trap 2 sub (io.setWidth 16), 0⟩
  | none =>
    let a := (s.brick bk).r x
    let st := s.brickStall bk a ((s.course c).cycleAt t + 4) ct
    let (v, s1) := s.ioRead bk io.toNat (t + 2 * brickCycle)
    let s2 := (s1.bankWrite c a v).modBrick bk (fun b => b.setR x (a + 1))
    ⟨s2.brickLose bk st, .next, 5 + st⟩

/-- XOUT (R117, R142): the bank is read in cycle i + 1, IO2 follows two cycles after the grant. -/
def State.runXout (s : State) (bk : Fin 52) (io : BitVec 12) (x : BitVec 4) (t : Nat) (ct : Contention) : Ran :=
  let c := courseOf bk
  match s.ioTrap bk io.toNat (some (s.bankRead c ((s.brick bk).r x))) with
  | some sub => ⟨s, .trap 2 sub (io.setWidth 16), 0⟩
  | none =>
    let a := (s.brick bk).r x
    let st := s.brickStall bk a ((s.course c).cycleAt t + 1) ct
    let s1 := s.modBrick bk (fun b => b.setR x (a + 1))
    let s2 := s1.ioWrite bk io.toNat (s.bankRead c a) (t + (3 + st) * brickCycle)
    ⟨s2.brickLose bk st, .next, 5 + st⟩

/-- BZ, BNZ and DBNZ (R118). -/
def State.runBr (s : State) (bk : Fin 52) (op : BrOp) (c : BitVec 4) (target : Word) : Ran :=
  let b := s.brick bk
  match op with
  | .bz => if b.r c = 0 then xfer s s target else ⟨s, .next, 1⟩
  | .bnz => if b.r c ≠ 0 then xfer s s target else ⟨s, .next, 1⟩
  | .dbnz =>
    let s1 := s.setBrick bk (b.setR c (b.r c - 1))
    if b.r c - 1 ≠ 0 then xfer s s1 target else ⟨s1, .next, 1⟩

/-- CALL and CALLR (R118, R119): the return-stack fault is checked before the target (R133). -/
def State.runCall (s : State) (bk : Fin 52) (target ret : Word) : Ran :=
  let b := s.brick bk
  if 8 ≤ b.rstk.length then ⟨s, .trap 4 0 8, 0⟩
  else xfer s (s.setBrick bk { b with rstk := b.rstk ++ [ret] }) target

/-- RET (R118, R119). -/
def State.runRet (s : State) (bk : Fin 52) : Ran :=
  let b := s.brick bk
  match b.rstk.getLast? with
  | none => ⟨s, .trap 4 1 0, 0⟩
  | some pc => xfer s (s.setBrick bk { b with rstk := b.rstk.dropLast }) pc

/-- RETT (R135), illegal outside a trap (R102). -/
def State.runRett (s : State) (bk : Fin 52) (first : Word) : Ran :=
  let b := s.brick bk
  if b.inTrap = false then ⟨s, .trap 1 0 first, 0⟩
  else if imemWords ≤ b.tpc.toNat then ⟨s, .trap 2 3 b.tpc, 0⟩
  else ⟨s, .rett, 2⟩

/-- MFS (R121): a read of CYCLO latches the higher bits. -/
def State.runMfs (s : State) (bk : Fin 52) (d : BitVec 4) (sel : BitVec 6) (t : Nat) : Ran :=
  let v := s.sreg bk sel.toNat t
  let n := (s.course (courseOf bk)).cycleAt t
  ⟨s.modBrick bk (fun b =>
    let b1 := if sel.toNat = 0x08 then { b with cycLatch := BitVec.ofNat 32 (n / 65536) } else b
    b1.setR d v), .next, 1⟩

/-- WAIT (R122): at once for an empty mask or lines already up. -/
def State.runWait (s : State) (bk : Fin 52) (d x : BitVec 4) (t : Nat) : Ran :=
  let b := s.brick bk
  let m := b.r x
  let v := s.eventLines bk t &&& m
  if m = 0 ∨ v ≠ 0 then ⟨s.setBrick bk (b.setR d v), .next, 1⟩ else ⟨s, .wait d m, 1⟩

/-- The effect of an instruction that issues at root time t. `ret` is the address of the next instruction, `first` the
instruction's first word. -/
def State.runInstr (s : State) (bk : Fin 52) (i : BInstr) (ret first : Word) (t : Nat) (ct : Contention) : Ran :=
  let b := s.brick bk
  let put := fun (d : BitVec 4) (v : Word) (n : Nat) => (⟨s.setBrick bk (b.setR d v), .next, n⟩ : Ran)
  match i with
  | .un op d x => put d (op.eval (b.r x)) 1
  | .movi d w => put d w 1
  | .movq d n => put d (n.signExtend 16) 1
  | .addq d n => put d (b.r d + n.signExtend 16) 1
  | .alu op d x => put d (op.eval (b.r d) (b.r x)) op.cycles
  | .alui op d x w => put d (op.eval (b.r x) w) op.cycles
  | .shift op d n => put d (op.eval (b.r d) (b.shiftCount n)) 1
  | .bitop op d n => put d (op.eval (b.r d) n.toNat) 1
  | .ext sg d x p w => put d (extEval sg (b.r x) p.toNat (w.toNat + 1)) 1
  | .ins d x p w => put d (insEval (b.r d) (b.r x) p.toNat (w.toNat + 1)) 1
  | .crc op d x poly => put d (op.eval (b.r d) (b.r x) poly) 1
  | .cmp op d a y => put d (flagWord (op.holds (b.r a) (b.cmpSrc y))) 1
  | .carry op d a y => put d (flagWord (op.holds (b.r a) (b.r y))) 1
  | .ld d m => s.runLd bk d m t ct
  | .st m v => s.runSt bk m v t ct
  | .inp d m => s.runIn bk d m t
  | .outp m v => s.runOut bk m v t
  | .xin x io => s.runXin bk x io t ct
  | .xout io x => s.runXout bk io x t ct
  | .br op c target => s.runBr bk op c target
  | .jmp target => xfer s s target
  | .call target => s.runCall bk target ret
  | .jr x => xfer s s (b.r x)
  | .callr x => s.runCall bk (b.r x) ret
  | .ret => s.runRet bk
  | .rett => s.runRett bk first
  | .mfs d sel => s.runMfs bk d sel t
  | .mts sel x => if sel.toNat = 0x05 then ⟨s, .trap 1 0 first, 0⟩ else ⟨s.setBrick bk (b.mts sel.toNat (b.r x)), .next, 1⟩
  | .wait d x => s.runWait bk d x t
  | .nop => ⟨s, .next, 1⟩
  | .bkpt => ⟨s, .bkpt, 1⟩
  | .rep n => ⟨s, .rep (match n with
    | .imm k => k.toNat
    | .reg x => (b.r x).toNat), 1⟩

/-! ### REP (R124 to R128) -/

/-- An instruction is misused as a repeated instruction: subcode 0 forbidden class, 1 REPC destination (R126). -/
def BInstr.misuse (i : BInstr) : Option Nat :=
  if i.isMtsRepc then some 1 else if i.notRepeatable then some 0 else none

/-- A first word that R102 makes illegal in the brick's present state: `rep` inside a REP sequence. -/
def Brick.illegalWord (b : Brick) (rep : Bool) (w w2 : Word) : Bool :=
  match decodeBrick w w2 with
  | none => true
  | some .rett => !b.inTrap
  | some i => i.isMtsRepc && !rep

/-- REP with count n, its prefix issuing at t (R124 to R127). -/
def State.startRep (s : State) (bk : Fin 52) (n t : Nat) : State :=
  let b := s.brick bk
  let b1 := { (b.feed 3) with pc := b.pc + 1, pre := (b.feed 3).pre.drop 1 }
  let w := nth b1.pre 0 0; let w2 := nth b1.pre 1 0
  let late := t + 4 * brickCycle
  if b1.pastEnd then s.takeTrap bk 2 3 0x2000 0x2000 late
  else if b.illegalWord true w w2 then s.takeTrap bk 1 0 b1.pc w late
  else match (decodeBrick w w2).bind BInstr.misuse with
    | some sub => (s.setBrick bk { b with repc := 0 }).takeTrap bk 3 sub b.pc w (t + 3 * brickCycle)
    | none =>
      let b2 := { b1 with ready := t + brickCycle }
      if n = 0 then s.setBrick bk { b2.advance (opLength (opOf w)) with repc := 0 }
      else s.setBrick bk { b2 with repc := BitVec.ofNat 16 n, inRep := true }

/-- The repeated instruction has executed once more (R128): `ready` is set by its caller. -/
def Brick.repeated (b : Brick) (len : Nat) : Brick :=
  if b.repc = 1 then { (b.advance len) with repc := 0, inRep := false } else { b with repc := b.repc - 1 }

/-- RETT's return (R135): a TREPC of 0 skips the instruction at TPC, unless it is illegal or misused, which its issue
reports (R126, R127). -/
def Brick.returnTrap (b : Brick) (t : Nat) : Brick :=
  let b1 := { (b.goPc b.tpc (t + 2 * brickCycle)) with inTrap := false, trep := false }
  if b.trep then
    let w := b.imem.word b.tpc.toNat; let w2 := b.imem.word (b.tpc.toNat + 1)
    let bad := b1.illegalWord true w w2 || ((decodeBrick w w2).bind BInstr.misuse).isSome
    if b.trepc = 0 ∧ bad = false then { b1 with repc := 0, pc := b.tpc + BitVec.ofNat 16 (opLength (opOf w)) }
    else { b1 with repc := b.trepc, inRep := true }
  else b1

/-! ### Issue (R133) -/

/-- The brick is at an instruction boundary and would issue its next instruction (R133, R160, R167). -/
def State.canIssue (s : State) (bk : Fin 52) : Bool :=
  let b := s.brick bk
  s.blocksUp && (!s.gated (courseOf bk) && (decide (b.run = .running) &&
    (b.inRep || (!b.inj.busy && (!b.haltReq && (!b.stopReq && !(b.wd.pending && !b.inTrap)))))))

/-- What follows an instruction that issued at t with length `len`. -/
def State.settle (s : State) (bk : Fin 52) (len t : Nat) (r : Ran) : State :=
  let s1 := r.st
  let b := s1.brick bk
  let ready := t + r.cyc * brickCycle
  match r.flow with
  | .next =>
    let b1 := { b with ready := ready }
    s1.setBrick bk (if b.inRep then b1.repeated len else b1.advance len)
  | .goto pc => s1.setBrick bk (b.goPc pc ready)
  | .trap cause sub info => s.takeTrap bk cause sub (s.brick bk).pc info (t + 3 * brickCycle)
  | .wait d m => s1.setBrick bk { (b.goTo .waiting t) with waitD := d, waitMask := m }
  | .rett => s1.setBrick bk (b.returnTrap t)
  | .rep n => s1.startRep bk n t
  | .bkpt => s1.setBrick bk { (b.advance len) with ready := ready, haltReq := b.haltReq || b.bkptHalt }

/-- The instruction at the PC, whose words are in `pre`, executes with issue at t. -/
def State.issueAt (s : State) (bk : Fin 52) (i : BInstr) (t : Nat) (ct : Contention) : State :=
  let b := s.brick bk
  let first := b.words.1
  let len := i.length
  match (if b.inRep then i.misuse else none) with
  | some sub =>
    (s.setBrick bk { b with repc := 0, inRep := false }).takeTrap bk 3 sub b.pc first (t + 3 * brickCycle)
  | none => s.settle bk len t (s.runInstr bk i (b.pc + BitVec.ofNat 16 len) first t ct)

/-- Sequential execution past 0x1FFF (R99, R130). -/
def State.fetchTrap (s : State) (bk : Fin 52) (t : Nat) : State :=
  (s.modBrick bk (fun b => { b with inRep := false })).takeTrap bk 2 3 0x2000 0x2000 (t + 3 * brickCycle)

/-- The brick with FE brought to its issue time and the instruction's words at hand. -/
def State.prepared (s : State) (bk : Fin 52) : State :=
  let b := s.brick bk
  (s.at_ b.ready).setBrick bk (b.fetched b.ready 2)

/-- The command of instruction i: the brick issues, and the word at its PC is i. Past the end of instruction
memory every instruction command stands for the fetch that traps (log 23). -/
def State.issue (s : State) (bk : Fin 52) (i : BInstr) (ct : Contention) : State :=
  if s.canIssue bk then
    let s1 := s.prepared bk
    let b := s1.brick bk
    if b.pastEnd then s1.fetchTrap bk b.ready
    else if decodeBrick b.words.1 b.words.2 = some i then s1.issueAt bk i b.ready ct else s
  else s

/-- The word at the PC is illegal: the trap of cause 1 (R102, R130). -/
def State.illegalAt (s : State) (bk : Fin 52) (t : Nat) : State :=
  let b := s.brick bk
  (s.setBrick bk { b with inRep := false }).takeTrap bk 1 0 b.pc b.words.1 (t + 3 * brickCycle)

/-- Whatever instruction stands at the PC executes with issue at the brick's ready time and no contention (R169). -/
def State.issueAny (s : State) (bk : Fin 52) : State :=
  let s1 := s.prepared bk
  let b := s1.brick bk
  if b.pastEnd then s1.fetchTrap bk b.ready
  else if b.illegalWord b.inRep b.words.1 b.words.2 then s1.illegalAt bk b.ready
  else match decodeBrick b.words.1 b.words.2 with
    | some i => s1.issueAt bk i b.ready []
    | none => s1

/-- The executions of a REP sequence, one after the other. -/
def State.runRep (s : State) (bk : Fin 52) : (n : Nat) → State
  | 0 => s
  | n + 1 =>
    let b := s.brick bk
    if b.inRep ∧ b.run = .running then (s.issueAny bk).runRep bk n else s

/-- One instruction of a brick, a REP sequence counting as one (R169). -/
def State.runOne (s : State) (bk : Fin 52) : State :=
  let s1 := if (s.brick bk).inRep then s else s.issueAny bk
  s1.runRep bk (s1.brick bk).repc.toNat

/-! ### Injection (R139, R162 to R165) -/

/-- The injected words execute after the boundary at root time tb (R162, R163). -/
def State.inject (s : State) (bk : Fin 52) (tb : Nat) (ct : Contention) : State :=
  let c := courseOf bk
  let b := s.brick bk
  let w := b.inj.words.extractLsb' 0 16; let w2 := b.inj.words.extractLsb' 16 16
  let cyc := (s.course c).cycleAt tb
  let done := fun (n : BitVec 4) => { b with inj := { b.inj with busy := false, result := n, cycle := cyc } }
  let s0 := s.jrec c (.inj (localOf bk).val b.inj.words cyc)
  let fault := fun (sub : Nat) => (s0.setBrick bk (done 2)).takeTrap bk 6 sub b.pc w (tb + 3 * brickCycle)
  let t := tb + 2 * brickCycle
  match decodeBrick w w2 with
  | none => fault 1
  | some i =>
    if i.notInjectable then fault 0
    else if i.isMtsRepc then fault 1
    else
      let r := (s0.setBrick bk (done 1)).runInstr bk i b.pc w t ct
      let x := r.st.brick bk
      let ready := t + r.cyc * brickCycle
      match r.flow with
      | .goto pc => r.st.setBrick bk (x.goPc pc ready)
      | .trap cause sub info => (s0.setBrick bk (done 2)).takeTrap bk cause sub b.pc info (t + 3 * brickCycle)
      | _ => r.st.setBrick bk { x with ready := ready }

/-! ### Boundaries and debug -/

/-- The first clk_brick edge of the course at or after root time t. -/
def Course.edgeAt (x : Course) (t : Nat) : Nat := x.base + edgeFrom brickCycle (t - x.base)

/-- The boundary at which a running or waiting brick stands: its next issue, or for a WAIT the present edge. -/
def State.boundary (s : State) (bk : Fin 52) : Nat :=
  let b := s.brick bk
  if b.run = .waiting then max b.ready ((s.course (courseOf bk)).edgeAt s.now) else b.ready

/-- The brick stands at a boundary of the kind R133 and R167 mean: it runs or waits, and not inside a REP
sequence (R129). -/
def State.atBoundary (s : State) (bk : Fin 52) : Bool :=
  let b := s.brick bk
  s.blocksUp && (!s.gated (courseOf bk) && ((decide (b.run = .running) || decide (b.run = .waiting)) && !b.inRep))

/-- A WAIT in progress ends without writing its register; the PC stays at it (R122, R160, R162). -/
def Brick.endWait (b : Brick) (t : Nat) : Brick := if b.run = .waiting then { (b.goTo .running t) with ready := t } else b

/-- DBG record of a debug action (R170, R487): 0 halt, 1 resume, 2 step, 3 register write. -/
def State.debugRecord (s : State) (bk : Fin 52) (what : BitVec 4) (w : BitVec 64) : State :=
  s.jrec (courseOf bk) (.dbg (localOf bk) what w ((s.course (courseOf bk)).cycleAt s.now))

/-- The brick starts to run at a PC in the clk_brick cycle after now (R171, R169). -/
def State.startBrick (s : State) (bk : Fin 52) : State :=
  let t := (s.course (courseOf bk)).edgeAt s.now + brickCycle
  s.modBrick bk (fun b => { ((b.goTo .running t).goPc b.pc t) with stopCause := 0, haltReq := false, stopReq := false })

/-- The brick's course is loaded and released (R171). -/
def State.released (s : State) (bk : Fin 52) : Bool := (s.course (courseOf bk)).released

/-- A BRICK reset at root time t (R8, R94, R172): instruction memory, frame-mover queues and BRK_CTRL.RUN stay. The
caller empties the mailboxes. -/
def Brick.brickReset (b : Brick) (start : Bool) (t : Nat) : Brick :=
  let b1 := { Brick.reset with
    imem := b.imem, fm := b.fm, runBit := b.runBit, ready := t, feAt := t,
    inj := { Injection.reset with result := if b.inj.busy then 3 else 0 } }
  if start then ({ b1 with run := .running }).goPc 0 t else b1

/-- The BRICK reset of a brick (R81, R172). -/
def State.resetBrick (s : State) (bk : Fin 52) : State :=
  let t := (s.course (courseOf bk)).edgeAt s.now + brickCycle
  let s1 := s.modBrick bk (fun b => b.brickReset (b.runBit && s.released bk) t)
  s1.resetParty (Party.num (.brick bk))

end Sys2Proof.Machine
end

