-- ==== Sys2Proof/Machine/BrickCmds.lean ====
section
/-! DEFINITION. The brick block of the course window (R171) and the commands of bricks other than instructions: waiting,
watchdog, events, time, debug and injection (R122, R153 to R172, R518). -/

namespace Sys2Proof.Machine

/-! ### The course window (R21, R22, R171) -/

/-- BAR0 offset of a course window (R21). -/
def courseBase (c : Fin 13) : Nat := 0x1000000 + c.val * 0x100000
/-- BAR0 offset of the block of a brick (R171). -/
def brickBlock (bk : Fin 52) : Nat := courseBase (courseOf bk) + 0x40000 + (localOf bk).val * 0x100

/-- BRK_STATUS.STATE (R171). -/
def BrickRun.code : BrickRun → Nat
  | .idle => 0 | .running => 1 | .waiting => 2 | .halted => 3 | .stopped => 4

/-- BRK_STATUS (R171). -/
def Brick.status (b : Brick) : Reg32 :=
  BitVec.ofNat 32 (b.run.code * 2 ^ 29 + b.stopCause.toNat * 2 ^ 27 + b2n b.inTrap * 2 ^ 26 + b2n b.wd.pending * 2 ^ 25 +
    b.pc.toNat)

/-- BRK_CTRL as it reads (R171). -/
def Brick.ctrl (b : Brick) : Reg32 := BitVec.ofNat 32 (b2n b.bkptHalt * 16 + b2n b.runBit)

/-- The brick is halted or stopped (R168, R169). -/
def Brick.held (b : Brick) : Bool := decide (b.run = .halted) || decide (b.run = .stopped)

/-- A read in the brick's block (R166, R168, R171): a party without debug rights reads zero but for BRK_CTRL and
BRK_STATUS. -/
def State.brickReg (s : State) (p : Party) (bk : Fin 52) (off : Nat) : Reg32 :=
  let b := s.brick bk
  let w := fun (v : Word) => v.setWidth 32
  if off = 0x00 then b.ctrl else if off = 0x04 then b.status
  else if s.brickDebug p = false then 0
  else if off = 0x08 then b.inj.words
  else if off = 0x0C then BitVec.ofNat 32 (b.inj.result.toNat * 16 + b2n b.inj.busy * 2)
  else if off = 0x10 then BitVec.ofNat 32 b.inj.cycle
  else if off = 0x14 then BitVec.ofNat 32 (b.inj.cycle / 2 ^ 32 % 65536)
  else if b.held = false then 0
  else if off = 0x20 then w b.pc
  else if 0x40 ≤ off ∧ off < 0x80 then w (b.r (BitVec.ofNat 4 ((off - 0x40) / 4)))
  else if 0x80 ≤ off ∧ off < 0xA0 then w (nth b.rstk ((off - 0x80) / 4) 0)
  else if 0xC0 ≤ off ∧ off < 0xF8 then w (s.sreg bk ((off - 0xC0) / 4) s.now)
  else 0

/-- A read in the block of a brick: one of the debug registers of a gated course is refused (R468). -/
def State.brickBlockRead (s : State) (p : Party) (bk : Fin 52) (off : Nat) : Reg32 × State :=
  if 0x08 ≤ off ∧ s.brickDebug p = true ∧ s.gated (courseOf bk) = true then (0, s.refused p (brickBlock bk + off) 0)
  else (s.brickReg p bk off, s)

/-- DBG_SREG stores TPC, TCAUSE, TINFO, TREPC and both bits of TSTAT (R171). -/
def Brick.setSreg (b : Brick) (sel : Nat) (v : Word) : Brick :=
  if sel = 0 then { b with tpc := v } else if sel = 1 then { b with tcause := v } else if sel = 2 then { b with tinfo := v }
  else if sel = 3 then { b with trepc := v } else if sel = 4 then { b with trep := bit v 1, inTrap := bit v 0 } else b

/-- A write of a DBG register of a halted or stopped brick (R168, R171). -/
def Brick.dbgWrite (b : Brick) (off : Nat) (v : Reg32) : Brick :=
  let w : Word := v.extractLsb' 0 16
  if off = 0x20 then { b with pc := w, pre := [] }
  else if 0x40 ≤ off ∧ off < 0x80 then b.setR (BitVec.ofNat 4 ((off - 0x40) / 4)) w
  else if 0xC0 ≤ off ∧ off < 0xF8 then b.setSreg ((off - 0xC0) / 4) w else b

/-- INJ_CTRL.GO (R164): ignored while BUSY, refused by a brick that is idle or stopped, at once on a halted one. -/
def State.injGo (s : State) (bk : Fin 52) (ct : Contention) : State :=
  let b := s.brick bk
  if b.inj.busy then s
  else match b.run with
    | .idle | .stopped => s.setBrick bk { b with inj := { b.inj with result := 3 } }
    | .halted => s.inject bk ((s.course (courseOf bk)).edgeAt s.now) ct
    | _ => s.setBrick bk { b with inj := { b.inj with busy := true } }

/-- STEP (R169): one instruction of a halted or stopped brick, which then halts; a WAIT that must wait halts when it ends. -/
def State.stepBrick (s : State) (bk : Fin 52) : State :=
  if (s.brick bk).held then
    let s1 := ((s.startBrick bk).runOne bk).debugRecord bk 2 0
    s1.modBrick bk (fun b => match b.run with
      | .running => { (b.goTo .halted b.ready) with haltReq := false }
      | .waiting => { b with haltReq := true }
      | _ => b)
  else s

/-- RESUME (R169). -/
def State.resumeBrick (s : State) (bk : Fin 52) : State :=
  if (s.brick bk).held then (s.startBrick bk).debugRecord bk 1 0 else s

/-- HALT (R167): a running or waiting brick halts at its next boundary. -/
def State.haltBrick (s : State) (bk : Fin 52) : State :=
  s.modBrick bk (fun b => { b with haltReq := b.haltReq || b.counts })

/-- A write of BRK_CTRL (R166, R170, R171, R468): RUN and RESET are brick control, the other fields debug. -/
def State.brkCtrlWrite (s : State) (p : Party) (bk : Fin 52) (v : Reg32) : State :=
  let b := s.brick bk
  let debug := decide (bits v 3 1 ≠ 0) || (bit v 4 != b.bkptHalt)
  if !s.pf1MgrKey p || (debug && (!s.brickDebug p || s.gated (courseOf bk))) then s.refused p (brickBlock bk) v.toNat
  else
    let s1 := s.setBrick bk { b with runBit := bit v 0 }
    if bit v 5 ∧ bits v 31 24 = 0xB7 then (s1.ungateCourse (courseOf bk) 0).resetBrick bk
    else
      let s2 := s1.modBrick bk (fun x => { x with bkptHalt := bit v 4 })
      let s3 := if bit v 1 then s2.haltBrick bk else s2
      let s4 := if bit v 2 then s3.resumeBrick bk else if bit v 3 then s3.stepBrick bk else s3
      if bit v 0 ∧ b.runBit = false ∧ (s4.brick bk).run = .idle ∧ s4.released bk then s4.startBrick bk else s4

/-- A write in the brick's block (R166, R168, R170, R171, R468). -/
def State.brickBlockWrite (s : State) (p : Party) (bk : Fin 52) (off : Nat) (v : Reg32) : State :=
  if off = 0x00 then s.brkCtrlWrite p bk v
  else if s.brickDebug p = false ∨ s.gated (courseOf bk) = true then s.refused p (brickBlock bk + off) v.toNat
  else if off = 0x08 then s.modBrick bk (fun b => { b with inj := { b.inj with words := v } })
  else if off = 0x0C then (if bit v 0 then s.injGo bk [] else s)
  else if (s.brick bk).held ∧ 0x20 ≤ off then (s.modBrick bk (fun b => b.dbgWrite off v)).debugRecord bk 3 (BitVec.ofNat 32 off ++ v)
  else s

/-- CONF_CLR in the course window (R153): PF1, the chain manager or the keystone; a brick reaches its own course's. -/
def State.confClrWrite (s : State) (p : Party) (c : Fin 13) (v : BitVec 8) : State :=
  let own := match p with
    | .brick k => decide (courseOf k = c)
    | _ => s.pf1MgrKey p
  if own then s.modCourse c (fun x => x.confClear v) else s.refused p (courseBase c + 0x48020) v.toNat

/-! ### Commands -/

/-- WAIT_END (R122): the lines selected have become non-zero; WAIT writes them. -/
def execWaitEnd (bk : Fin 52) (s : State) : Host.Outcome State Fault Refusal :=
  let b := s.brick bk
  let t := s.boundary bk
  let v := s.eventLines bk t &&& b.waitMask
  s.when_ (s.atBoundary bk && (decide (b.run = .waiting) && decide (v ≠ 0))) (fun s =>
    (s.at_ t).setBrick bk { (((b.goTo .running t).setR b.waitD v).advance 1) with ready := t + brickCycle })

/-- WATCHDOG_EXPIRY (R158 to R160): the count reaches zero. -/
def execWatchdogExpiry (bk : Fin 52) (s : State) : Host.Outcome State Fault Refusal :=
  let b := s.brick bk
  let t := b.wd.since + b.wd.left * brickCycle
  s.when_ (s.blocksUp && (!s.gated (courseOf bk) && (b.counts && decide (b.wd.period ≠ 0)))) (fun s =>
    (s.at_ t).setBrick bk (b.wdExpire t))

/-- WATCHDOG_TRAP (R133, R137, R159): a pending expiry is taken at a boundary outside a trap. -/
def execWatchdogTrap (bk : Fin 52) (s : State) : Host.Outcome State Fault Refusal :=
  let b := s.brick bk
  let t := s.boundary bk
  s.when_ (s.atBoundary bk && (b.wd.pending && (!b.inTrap && (!b.inj.busy && (!b.haltReq && !b.stopReq))))) (fun s =>
    let b1 := b.endWait t
    (s.at_ t).setBrick bk ({ b1 with wd := { b1.wd with pending := false, trapped := true } }.enterTrap 5 0 b.pc 0 (t + 3 * brickCycle)))

/-- WATCHDOG_STOP (R160): the brick stops at its boundary; a recorder event names it. -/
def execWatchdogStop (bk : Fin 52) (s : State) : Host.Outcome State Fault Refusal :=
  let b := s.brick bk
  let t := s.boundary bk
  s.when_ (s.atBoundary bk && (b.stopReq && (!b.inj.busy && !b.haltReq))) (fun s =>
    ((s.at_ t).setBrick bk { (b.goTo .stopped t) with stopCause := 2, stopReq := false }).event .watchdogStop false
      (BitVec.ofNat 8 (Party.num (.brick bk))) [bk.val])

/-- An I/O write of the brick, taken by itself: its effect in IO2 (R154), where the access raises no trap. -/
def State.ioWriteNow (s : State) (bk : Fin 52) (a : Nat) (v : Word) : Host.Outcome State Fault Refusal :=
  s.when_ (s.blocksUp && (!s.gated (courseOf bk) && (s.ioTrap bk a (some v)).isNone)) (fun s => s.ioWrite bk a v s.now)

/-- An I/O read of the brick, taken by itself. -/
def State.ioReadNow (s : State) (bk : Fin 52) (a : Nat) : Host.Outcome State Fault Refusal :=
  s.when_ (s.blocksUp && (!s.gated (courseOf bk) && (s.ioTrap bk a none).isNone)) (fun s =>
    let (v, s1) := s.ioRead bk a s.now
    { s1 with readValue := v.setWidth 32 })

/-- WDOG_KICK (R158, R159). -/
def execWdogKick (bk : Fin 52) (v : Word) (s : State) : Host.Outcome State Fault Refusal := s.ioWriteNow bk 0x011 v

/-- WDOG_CFG_WRITE (R158, R161). -/
def execWdogCfgWrite (bk : Fin 52) (v : Word) (s : State) : Host.Outcome State Fault Refusal := s.ioWriteNow bk 0x010 v

/-- EV_CLR (R157). -/
def execEvClr (bk : Fin 52) (v : Word) (s : State) : Host.Outcome State Fault Refusal := s.ioWriteNow bk 0x001 v

/-- DBELL (R157, R173). -/
def execDbell (bk : Fin 52) (v : Word) (s : State) : Host.Outcome State Fault Refusal := s.ioWriteNow bk 0x800 v

/-- CONF_CLR (R153). -/
def execConfClr (p : Party) (c : Fin 13) (v : BitVec 8) (s : State) : Host.Outcome State Fault Refusal :=
  s.when_ s.blocksUp (fun s => s.confClrWrite p c v)

/-- CONF_LO_READ (R173). -/
def execConfLoRead (bk : Fin 52) (m : Fin 8) (s : State) : Host.Outcome State Fault Refusal :=
  s.ioReadNow bk (0x810 + 2 * m.val)

/-- TIME_W0_READ (R156). -/
def execTimeW0Read (bk : Fin 52) (s : State) : Host.Outcome State Fault Refusal := s.ioReadNow bk 0x0C0

/-- TIME_SEL_WRITE (R173). -/
def execTimeSelWrite (bk : Fin 52) (v : Word) (s : State) : Host.Outcome State Fault Refusal := s.ioWriteNow bk 0x0C6 v

/-- TIME_CMP2_WRITE (R518). -/
def execTimeCmp2Write (bk : Fin 52) (v : Word) (s : State) : Host.Outcome State Fault Refusal := s.ioWriteNow bk 0x0CA v

/-- TIME_COMPARE_MATCH (R518): the armed compare's time has come in its domain; it raises TCMP once. -/
def execTimeCompareMatch (bk : Fin 52) (s : State) : Host.Outcome State Fault Refusal :=
  let b := s.brick bk
  match b.io.armed with
  | some a =>
    let t := s.brickTimeReach a.sel (a.sec * unitsPerSec + a.ns * 2 ^ 48) s.now
    s.when_ s.blocksUp (fun s =>
      ((s.at_ t).setBrick bk { b with io := { b.io with armed := none } }).latchLine bk 12)
  | none => .next s

/-- JMARK (R173, R487). -/
def execJmark (bk : Fin 52) (v : Word) (s : State) : Host.Outcome State Fault Refusal := s.ioWriteNow bk 0x830 v

/-- The value that a write of BRK_CTRL carries to set one WO bit and keep RUN and BKPT_HALT. -/
def Brick.ctrlWith (b : Brick) (n : Nat) : Reg32 := b.ctrl ||| BitVec.twoPow 32 n

/-- HALT (R167, R170). -/
def execHalt (p : Party) (bk : Fin 52) (s : State) : Host.Outcome State Fault Refusal :=
  s.when_ s.blocksUp (fun s => s.brkCtrlWrite p bk ((s.brick bk).ctrlWith 1))

/-- DEBUG_HALT (R167): a halt request is taken at a boundary, after an accepted injection; a WAIT ends. -/
def execDebugHalt (bk : Fin 52) (s : State) : Host.Outcome State Fault Refusal :=
  let b := s.brick bk
  let t := s.boundary bk
  s.when_ (s.atBoundary bk && (b.haltReq && !b.inj.busy)) (fun s =>
    ((s.at_ t).setBrick bk { (b.goTo .halted t) with haltReq := false }).debugRecord bk 0 0)

/-- STEP (R169). -/
def execStep (p : Party) (bk : Fin 52) (s : State) : Host.Outcome State Fault Refusal :=
  s.when_ s.blocksUp (fun s => s.brkCtrlWrite p bk ((s.brick bk).ctrlWith 3))

/-- RESUME (R169). -/
def execResume (p : Party) (bk : Fin 52) (s : State) : Host.Outcome State Fault Refusal :=
  s.when_ s.blocksUp (fun s => s.brkCtrlWrite p bk ((s.brick bk).ctrlWith 2))

/-- BRICK_RESET (R171, R172): BRK_CTRL with RESET and a key. -/
def execBrickReset (p : Party) (bk : Fin 52) (key : BitVec 8) (s : State) : Host.Outcome State Fault Refusal :=
  s.when_ s.blocksUp (fun s => s.brkCtrlWrite p bk (setBits ((s.brick bk).ctrlWith 5) 31 24 key.toNat))

/-- RUN (R171). -/
def execRun (p : Party) (bk : Fin 52) (s : State) : Host.Outcome State Fault Refusal :=
  s.when_ s.blocksUp (fun s => s.brkCtrlWrite p bk ((s.brick bk).ctrlWith 0))

/-- DBG_REG_WRITE (R168, R171). -/
def execDbgRegWrite (p : Party) (bk : Fin 52) (off : BitVec 8) (v : Reg32) (s : State) : Host.Outcome State Fault Refusal :=
  s.when_ s.blocksUp (fun s => s.brickBlockWrite p bk off.toNat v)

/-- INJ_GO (R164, R166). -/
def execInjGo (p : Party) (bk : Fin 52) (s : State) : Host.Outcome State Fault Refusal :=
  s.when_ s.blocksUp (fun s => s.brickBlockWrite p bk 0x0C 1)

/-- INJECTION_ACCEPT (R139, R162, R163): the waiting injection is taken at the next boundary. -/
def execInjectionAccept (bk : Fin 52) (ct : Contention) (s : State) : Host.Outcome State Fault Refusal :=
  let b := s.brick bk
  let t := s.boundary bk
  s.when_ (s.atBoundary bk && b.inj.busy) (fun s => ((s.at_ t).setBrick bk (b.endWait t)).inject bk t ct)

end Sys2Proof.Machine
end

