-- ==== Sys2Proof/Machine/CanCmds.lean ====
section
/-! DEFINITION. The commands of the CAN family (R350 to R374). -/

namespace Sys2Proof.Machine

/-- CAN_CONFIG_WRITE (R352). -/
def execCanConfigWrite (p : Party) (n : Fin 8) (off : BitVec 16) (v : Reg32) (s : State) : Host.Outcome State Fault Refusal :=
  s.when_ (s.canUp n) (fun s => s.canWrite p n off.toNat v)

/-- A write of CAN_CTRL that changes one bit of what it holds. -/
def State.canCtrlBit (s : State) (p : Party) (n : Fin 8) (b : Nat) (v : Bool) : Host.Outcome State Fault Refusal :=
  s.when_ (s.canUp n) (fun s => s.canWrite p n 0x04 (setBit (s.can n).ctrl b v))

/-- CAN_ON (R354). -/
def execCanOn (p : Party) (n : Fin 8) (s : State) : Host.Outcome State Fault Refusal := s.canCtrlBit p n 0 true

/-- CAN_OFF (R352). -/
def execCanOff (p : Party) (n : Fin 8) (s : State) : Host.Outcome State Fault Refusal := s.canCtrlBit p n 0 false

/-- CAN_SLEEP (R371). -/
def execCanSleep (p : Party) (n : Fin 8) (s : State) : Host.Outcome State Fault Refusal := s.canCtrlBit p n 2 true

/-- CAN_SLEEP_CLEAR (R372). -/
def execCanSleepClear (p : Party) (n : Fin 8) (s : State) : Host.Outcome State Fault Refusal := s.canCtrlBit p n 2 false

/-- CAN_BOR (R362). -/
def execCanBor (p : Party) (n : Fin 8) (s : State) : Host.Outcome State Fault Refusal := s.canCtrlBit p n 1 true

/-- CAN_SLEEP_WAKE (R372). -/
def execCanSleepWake (n : Fin 8) (w : CanWake) (s : State) : Host.Outcome State Fault Refusal :=
  let cfg := s.canCfg n
  s.when_ (s.canUp n && (decide ((s.can n).st = .sleep) && bit cfg 27)) (fun s =>
    if bit cfg 26 then
      match w with
      | .frame f => if s.wakeMatch n f then (s.canWake n false).canReceive n f else s
      | .dominant => s
    else s.canWake n true)

/-- BUS_OFF_RECOVERY_COMPLETE (R362). -/
def execBusOffRecoveryComplete (n : Fin 8) (s : State) : Host.Outcome State Fault Refusal :=
  s.when_ (s.canUp n && (decide ((s.can n).st = .busOff) && (s.can n).recovering)) (fun s =>
    ((s.modCan n (fun c => { c with st := .on, recovering := false })).canErrors n 0 0).canEvent n 4)

/-- The controller takes part in the bus: it is on and has integrated. -/
def State.canBus (s : State) (n : Fin 8) : Bool := s.canUp n && (decide ((s.can n).st = .on) && !(s.can n).integ)

/-- CAN_FRAME_RECEIVE (R354, R355): the frame's start of frame falls in the clk_periph cycle of the command. -/
def execCanFrameReceive (n : Fin 8) (f : CanFrame) (s : State) : Host.Outcome State Fault Refusal :=
  s.when_ (s.canBus n) (fun s => s.canReceive n f)

/-- CAN_TRANSMIT_START (R356). -/
def execCanTransmitStart (n : Fin 8) (s : State) : Host.Outcome State Fault Refusal :=
  s.when_ (s.canBus n && ((s.can n).quiet && (!bit (s.canCfg n) 18 && decide ((s.can n).tt.level < 2))))
    (fun s => s.transmitStart n)

/-- CAN_TRANSMIT_END (R356, R363). -/
def execCanTransmitEnd (n : Fin 8) (acked : Bool) (s : State) : Host.Outcome State Fault Refusal :=
  s.when_ (s.canUp n) (fun s => s.transmitEnd n acked)

/-- CAN_ERROR (R350, R362). -/
def execCanError (n : Fin 8) (e : CanErr) (s : State) : Host.Outcome State Fault Refusal :=
  s.when_ (s.canBus n) (fun s => s.canError n e)

/-- An OBJ_CMD or CAN_OCMD write with one command bit: a brick's acts on the object its window selects (R356, R358). -/
def State.objCmdBy (s : State) (p : Party) (n : Fin 8) (m : Fin 64) (v : Nat) : Host.Outcome State Fault Refusal :=
  match p with
  | .brick bk => if (s.can n).sel = m then s.ioWriteNow bk (0x401 + 64 * n.val) (BitVec.ofNat 16 v) else .next s
  | _ => s.when_ (s.canUp n) (fun s => s.canWrite p n (0x8014 + 128 * m.val) (BitVec.ofNat 32 v))

/-- OBJ_SEND (R356). -/
def execObjSend (p : Party) (n : Fin 8) (m : Fin 64) (s : State) : Host.Outcome State Fault Refusal := s.objCmdBy p n m 1

/-- OBJ_ABORT (R356). -/
def execObjAbort (p : Party) (n : Fin 8) (m : Fin 64) (s : State) : Host.Outcome State Fault Refusal := s.objCmdBy p n m 2

/-- OBJ_RESUME (R363). -/
def execObjResume (p : Party) (n : Fin 8) (m : Fin 64) (s : State) : Host.Outcome State Fault Refusal := s.objCmdBy p n m 4

/-- OBJ_BAR0_WRITE (R357). -/
def execObjBar0Write (p : Party) (n : Fin 8) (m : Fin 64) (off : BitVec 7) (v : Reg32) (s : State) : Host.Outcome State Fault Refusal :=
  s.when_ (s.canUp n) (fun s => s.canWrite p n (0x8000 + 128 * m.val + off.toNat) v)

/-- CAN_SNAPSHOT (R358): a write of CAN_OSEL. -/
def execCanSnapshot (bk : Fin 52) (n : Fin 8) (v : Word) (s : State) : Host.Outcome State Fault Refusal :=
  s.ioWriteNow bk (0x400 + 64 * n.val) (setBit v 15 true)

/-- CAN_EVT_READ (R361). -/
def execCanEvtRead (bk : Fin 52) (n : Fin 8) (s : State) : Host.Outcome State Fault Refusal := s.ioReadNow bk (0x402 + 64 * n.val)

/-- CAN_TSCL_READ (R358). -/
def execCanTsclRead (bk : Fin 52) (n : Fin 8) (s : State) : Host.Outcome State Fault Refusal := s.ioReadNow bk (0x408 + 64 * n.val)

/-- ANCHOR_LATCH (R360). -/
def execAnchorLatch (s : State) : Host.Outcome State Fault Refusal :=
  s.when_ s.blocksUp (fun s =>
    let t := s.anchor.next
    let s1 := s.at_ t
    { s1 with anchor := { cnt := canTsc t, td0 := quadOf (s1.tdValue 0 t), td1 := quadOf (s1.tdValue 1 t), next := t + 4096000 } })

/-- TRIGGER_TIME_MARK (R369). -/
def execTriggerTimeMark (n : Fin 8) (e : Fin 128) (busIdle : Bool) (s : State) : Host.Outcome State Fault Refusal :=
  s.when_ (s.ttActive n && ((s.can n).tt.synced && (decide (e.val < bits (s.ttCfg n) 7 0) && (trigApplies (s.trig n e.val) (s.can n).tt.cyc &&
    decide ((s.can n).tt.level ≠ 3))))) (fun s => s.ttMark n e.val busIdle)

/-- TT_REFERENCE_SEND (R365, R366). -/
def execTtReferenceSend (n : Fin 8) (s : State) : Host.Outcome State Fault Refusal :=
  s.when_ (s.ttActive n && ((s.can n).tt.synced && s.ttMaySend n)) (fun s => s.ttReference n)

/-- TT_REFERENCE_RECEIVE (R366). -/
def execTtReferenceReceive (n : Fin 8) (prio : BitVec 3) (cycle : BitVec 6) (gtime : Word) (s : State) : Host.Outcome State Fault Refusal :=
  s.when_ (s.ttActive n) (fun s => s.ttTakeRef n prio cycle gtime)

/-- TT_WATCH_TIMEOUT (R366). -/
def execTtWatchTimeout (n : Fin 8) (s : State) : Host.Outcome State Fault Refusal := s.when_ (s.ttActive n) (fun s => s.ttWatch n)

/-- BUS_INTEGRATION_COMPLETE (R350, R354, R366): the watch time of a schedule counts from here. -/
def execBusIntegrationComplete (n : Fin 8) (s : State) : Host.Outcome State Fault Refusal :=
  s.when_ (s.canUp n && (decide ((s.can n).st = .on) && (s.can n).integ)) (fun s =>
    s.modCan n (fun c => { c with integ := false, tt := { c.tt with start := s.now } }))

end Sys2Proof.Machine
end

