-- ==== Sys2Proof/Machine/FieldCmds.lean ====
section
/-! DEFINITION. The commands of the field family (R375 to R392). -/

namespace Sys2Proof.Machine

/-- STREAM_FRAME (R375). -/
def execStreamFrame (valid : Bool) (s : State) : Host.Outcome State Fault Refusal :=
  s.when_ s.fieldUp (fun s => s.streamFrame valid)

/-- STREAM_TIMEOUT (R377). -/
def execStreamTimeout (logicSide : Bool) (s : State) : Host.Outcome State Fault Refusal :=
  s.when_ (s.fieldUp && (if logicSide then s.field.streamOk else s.field.up)) (fun s => s.streamTimeout logicSide)

/-- DI_CHANGE_ACCEPT (R379, R381): `since` is the field tick of 10 ns at which the level began. -/
def execDiChangeAccept (n : Fin 32) (level : Bool) (since : Nat) (s : State) : Host.Outcome State Fault Refusal :=
  s.when_ (s.fieldUp && (bit s.field.di n.val != level)) (fun s => s.diAccept n level since)

/-- WIRE_BREAK (R380). -/
def execWireBreak (n : Fin 32) (s : State) : Host.Outcome State Fault Refusal :=
  s.when_ (s.fieldUp && bit (s.field.diCfg n.val) 15) (fun s => s.modField (fun x => { x with wb := setBit x.wb n.val true }))

/-- WIRE_BREAK_CLEAR (R380). -/
def execWireBreakClear (n : Fin 32) (s : State) : Host.Outcome State Fault Refusal :=
  s.when_ s.fieldUp (fun s => s.modField (fun x => { x with wb := setBit x.wb n.val false }))

/-- EDGE_POP (R390 to R392). -/
def execEdgePop (p : Party) (tag : BitVec 10) (s : State) : Host.Outcome State Fault Refusal :=
  match p with
  | .brick bk => s.ioReadNow bk 0x602
  | _ => s.when_ s.fieldUp (fun s => let (v, s1) := s.fieldRead p.code 0x70; s1.returnRead p tag.toNat 0x400070 v)

/-- DO_CMD_WRITE (R387, R390). -/
def execDoCmdWrite (p : Party) (v : Word) (s : State) : Host.Outcome State Fault Refusal :=
  match p with
  | .brick bk => s.ioWriteNow bk 0x610 v
  | _ => s.when_ s.fieldUp (fun s => s.fieldWrite p 0x10 (v.setWidth 32))

/-- TIMED_COMMAND_ARM (R387): a write of DO_TT2 by the window brick, of DO_TTIME +0x4C by others. -/
def execTimedCommandArm (p : Party) (v : Reg32) (s : State) : Host.Outcome State Fault Refusal :=
  match p with
  | .brick bk => s.ioWriteNow bk 0x616 (v.extractLsb' 0 16)
  | _ => s.when_ s.fieldUp (fun s => s.fieldWrite p 0x4C v)

/-- TIMED_COMMAND_APPLY (R387). -/
def execTimedCommandApply (s : State) : Host.Outcome State Fault Refusal :=
  match s.field.tcmd with
  | some c => s.when_ (s.fieldUp && c.sent) (fun s => s.timedApply c)
  | none => .next s

/-- DO_OVERLOAD (R383). -/
def execDoOverload (m : Fin 16) (s : State) : Host.Outcome State Fault Refusal :=
  s.when_ (s.fieldUp && bit s.doOut m.val) (fun s => s.modField (fun x =>
    { x with fOvl := setBit x.fOvl m.val true, off := if bit (x.doCfg m.val) 1 then setBit x.off m.val true else x.off }))

/-- DO_OVER_TEMPERATURE (R383). -/
def execDoOverTemperature (m : Fin 16) (s : State) : Host.Outcome State Fault Refusal :=
  s.when_ s.fieldUp (fun s => s.modField (fun x =>
    { x with fOt := setBit x.fOt m.val true, off := setBit x.off m.val true, hot := setBit x.hot m.val true }))

/-- The highest-numbered channel in a mask. -/
def highest (w : Word) : Option (Fin 16) := (List.finRange 16).reverse.find? (fun m => bit w m.val)

/-- GROUP_LIMIT (R383). -/
def execGroupLimit (s : State) : Host.Outcome State Fault Refusal :=
  match highest s.doOut with
  | some m => s.when_ s.fieldUp (fun s => s.modField (fun x =>
      { x with fOvl := setBit x.fOvl m.val true, off := setBit x.off m.val true }))
  | none => .next s

/-- OPEN_LOAD (R383). -/
def execOpenLoad (m : Fin 16) (s : State) : Host.Outcome State Fault Refusal :=
  s.when_ (s.fieldUp && bit (s.field.doCfg m.val) 2) (fun s => s.modField (fun x => { x with fOpen := setBit x.fOpen m.val true }))

/-- FV24_OK_CHANGE (R384): the supply is the field side's own. -/
def execFv24OkChange (ok : Bool) (s : State) : Host.Outcome State Fault Refusal :=
  s.when_ s.fieldFitted (fun s => s.modField (fun x => { x with fv24 := ok }))

/-- FIO_CFG_WRITE (R386). -/
def execFioCfgWrite (p : Party) (v : Reg32) (s : State) : Host.Outcome State Fault Refusal :=
  s.when_ s.fieldUp (fun s => s.fieldWrite p 0x00 v)

/-- PULSE_TEST (R388): `v` is the brick's PT_CTRL word; others write the same fields at their BAR0 places. -/
def execPulseTest (p : Party) (v : Word) (s : State) : Host.Outcome State Fault Refusal :=
  match p with
  | .brick bk => s.ioWriteNow bk 0x61E v
  | _ => s.when_ s.fieldUp (fun s => s.fieldWrite p 0x60 (BitVec.ofNat 32 (b2n (bit v 15) * 2 ^ 31 + bits v 11 4 * 256 + bits v 3 0)))

/-- PULSE_TEST_END (R388). -/
def execPulseTestEnd (below4V : Bool) (s : State) : Host.Outcome State Fault Refusal :=
  match s.field.test with
  | some p => match p.start with
    | some t => s.when_ s.fieldUp (fun s => s.testEnd p t below4V)
    | none => .next s
  | none => .next s

end Sys2Proof.Machine
end

