-- ==== Sys2Proof/Machine/Rings.lean ====
section
/-! DEFINITION. Descriptor rings, orphan reads of the functions, and the host registers (R422 to R436). -/

namespace Sys2Proof.Machine

def State.modRing (s : State) (n : Fin 64) (f : Ring → Ring) : State := s.setRing n (f (s.ring n))

/-- BAR0 offset of ring n (R425). -/
def ringBase (n : Nat) : Nat := 0x700000 + n * 0x1000

/-- The number of descriptors (R425). -/
def Ring.count (r : Ring) : Nat := 2 ^ r.size.toNat
/-- Host address of descriptor k (R425). -/
def Ring.desc (r : Ring) (k : Nat) : Nat := r.baseHi.toNat * 2 ^ 32 + r.baseLo.toNat + 32 * k
/-- The pointers at zero (R426). -/
def Ring.zeroed (r : Ring) : Ring := { r with head := 0, tail := 0 }
/-- The descriptors that the host has filled and the device has not used, oldest first. -/
def Ring.waiting (r : Ring) : List Nat :=
  let n := r.count
  (List.range ((r.tail.toNat + n - r.head.toNat) % n)).map (fun i => (r.head.toNat + i) % n)
/-- The ring stops with an error (R425, R426). -/
def Ring.fail (r : Ring) (e : BitVec 8) : Ring := { r with st := .error, err := e }

/-! ### Registers (R425 to R427) -/

/-- RING_CTRL is written: FUNC from PF1 and the keystone only (R425, R426). -/
def Ring.ctrlWrite (r : Ring) (func : Bool) (v : Reg32) : Ring :=
  let z := bits v 3 0
  let r1 := if r.en then r
    else
      let y := { r with func := if func then bit v 30 else r.func }
      if 4 ≤ z ∧ z ≤ 12 then { y.zeroed with size := BitVec.ofNat 4 z } else y
  if bit v 31 then (if r.en then r1 else { r1 with en := true, st := .running, err := 0 })
  else { r1 with en := false, st := .stopped }

/-- RING_TAIL is written (R426). -/
def Ring.tailWrite (r : Ring) (v : Reg32) : Ring :=
  if r.count ≤ bits v 11 0 then r.fail 3 else { r with tail := v.extractLsb' 0 12 }

/-- A write of a ring register by a party that may write the ring. -/
def Ring.write (r : Ring) (func : Bool) (o : Nat) (v : Reg32) : Ring :=
  if o = 0x00 then (if r.en then r else { r.zeroed with baseLo := v &&& 0xFFFFF000 })
  else if o = 0x04 then (if r.en then r else { r.zeroed with baseHi := v })
  else if o = 0x08 then r.ctrlWrite func v
  else if o = 0x10 then r.tailWrite v
  else if o = 0x18 then { r with wbLo := v &&& 0xFFFFFFF8 }
  else if o = 0x1C then { r with wbHi := v }
  else if o = 0x20 then { r with irqMod := v }
  else r

/-- A write of a ring register (R422, R427): PF0 writes its own rings; PF1 writes its own, and RING_CTRL.FUNC of any; the Urral
link writes none. -/
def State.ringWrite (s : State) (p : Party) (n : Fin 64) (o : Nat) (v : Reg32) : State :=
  let r := s.ring n
  match p with
  | .pf0 => if r.func then s else s.setRing n (r.write false o v)
  | .pf1 | .tap =>
    if r.func then s.setRing n (r.write true o v)
    else if o = 0x08 ∧ r.en = false then s.setRing n { r with func := bit v 30 }
    else s
  | .keystone => s.setRing n (r.write true o v)
  | _ => s

/-- RING_STATUS (R425). -/
def Ring.status (r : Ring) : Reg32 :=
  let st := match r.st with
    | .stopped => 0 | .running => 1 | .error => 2
  BitVec.ofNat 32 (st * 2 ^ 30 + r.err.toNat)

/-- A read of a ring register: the RC counters clear (R7, R425). -/
def Ring.read (r : Ring) (o : Nat) : Reg32 × Ring :=
  if o = 0x00 then (r.baseLo, r) else if o = 0x04 then (r.baseHi, r)
  else if o = 0x08 then (BitVec.ofNat 32 (b2n r.en * 2 ^ 31 + b2n r.func * 2 ^ 30 + r.size.toNat), r)
  else if o = 0x0C then (r.status, r) else if o = 0x10 then (r.tail.setWidth 32, r) else if o = 0x14 then (r.head.setWidth 32, r)
  else if o = 0x18 then (r.wbLo, r) else if o = 0x1C then (r.wbHi, r) else if o = 0x20 then (r.irqMod, r)
  else if o = 0x24 then (r.drop, { r with drop := 0, dropShadow := r.drop })
  else if o = 0x28 then (r.frames, { r with frames := 0, framesShadow := r.frames })
  else (0, r)

/-- A read of a ring register by a party (R427). -/
def State.ringRead (s : State) (p : Party) (n : Fin 64) (o : Nat) : Reg32 × State :=
  let r := s.ring n
  if p = .pf0 ∧ r.func = true then (0, s)
  else
    let (v, y) := r.read o
    (v, s.setRing n y)

/-! ### Completions (R428, R431, R433) -/

/-- Write bytes into host memory. -/
def State.dmaWrite (s : State) (a : Nat) (l : List Byte) : State := { s with hostMem := Memory.writeBytes hostBlank s.hostMem a l }
/-- Read bytes of host memory. -/
def State.dmaRead (s : State) (a n : Nat) : List Byte := Memory.readBytes hostBlank s.hostMem a n

/-- The ring's vector fires, and what has accumulated is signalled (R428). -/
def State.ringFire (s : State) (n : Fin 64) : State :=
  (s.modRing n (fun r => { r with conds := 0 })).fireVector (s.ring n).func n.val

/-- A frame completes: the ring counts it, HEAD moves to `head` and is written back, and the condition arises (R428, R431). -/
def State.ringDone (s : State) (n : Fin 64) (head : Nat) (dropped : Bool) : State :=
  let r := s.ring n
  let r1 := { r with head := BitVec.ofNat 12 (head % r.count), frames := satInc r.frames,
                     drop := if dropped then satInc r.drop else r.drop, conds := r.conds + 1,
                     condsAt := if r.conds = 0 then s.now else r.condsAt }
  let wb := r.wbHi.toNat * 2 ^ 32 + r.wbLo.toNat
  let s1 := s.setRing n r1
  let s2 := if wb = 0 then s1 else s1.dmaWrite wb (toLe 4 r1.head.toNat)
  let c := bits r.irqMod 31 16
  if c = 0 ∨ c ≤ r1.conds ∨ bits r.irqMod 15 0 = 0 then s2.ringFire n else s2

/-! ### Transmit (R429 to R431) -/

/-- A transmit descriptor (R429). -/
structure TxDesc where
  idx  : Nat
  addr : Nat
  len  : Nat
  ctrl : Word
  mss  : Nat
  tlen : Nat
deriving DecidableEq, Repr

def State.txDesc (s : State) (r : Ring) (k : Nat) : TxDesc :=
  let l := s.dmaRead (r.desc k) 16
  { idx := k, addr := leNat (l.take 8), len := leNat ((l.drop 8).take 2), ctrl := BitVec.ofNat 16 (leNat ((l.drop 10).take 2)),
    mss := leNat ((l.drop 12).take 2), tlen := leNat ((l.drop 14).take 1) }

/-- The descriptors of the ring's next frame, up to the one with EOP, if it is complete (R430). -/
def takeEop : List TxDesc → Option (List TxDesc)
  | [] => none
  | d :: ds => if bit d.ctrl 15 then some [d] else (takeEop ds).map (fun l => d :: l)

def State.nextTx (s : State) (r : Ring) : Option (List TxDesc) := takeEop (r.waiting.map (s.txDesc r))

/-- Why a frame is dropped before it enters the mortar, by CAUSE (R430). -/
def State.txCause (s : State) (l : List TxDesc) (e : TxDesc) (n : Nat) (badRead : Bool) : Nat :=
  let target := bits e.ctrl 7 0
  let lso := bit e.ctrl 14
  let badTarget := if bit e.ctrl 13 then decide (bits (s.reg (0x900000 + target * 0x100)) 11 8 ≠ 13)
    else decide (target = 36) || (portOfCode target).isNone
  if badTarget then 1
  else if 16 < l.length then 2
  else if (if lso then decide (192 < e.tlen) || decide (65535 < n - e.tlen) else decide (9212 < n)) then 3
  else if badRead then 4
  else if lso && (bit e.ctrl 13 || decide (32 ≤ target)) then 5 else 0

/-- The frame enters the mortar (R430, R431). -/
def State.txEnter (s : State) (e : TxDesc) (bytes : List Byte) : State :=
  let cls : Fin 8 := ⟨bits e.ctrl 10 8 % 8, by omega⟩
  let info : FrameMeta := { ingress := portH, cls := cls, err := false, tsValid := false, td := false, ts := 0 }
  let (f, s1) := s.newFrame portH bytes info s.now 63000
  let fr := { f with lso := if bit e.ctrl 14 then some { mss := e.mss, tlen := e.tlen } else none }
  let s2 := (s1.countPort portH 0 1).countPort portH 1 (bytes.length + 4)
  if bit e.ctrl 13 then s2.toFlow ⟨bits e.ctrl 7 0 % 256, by omega⟩ fr cls false
  else match portOfCode (bits e.ctrl 7 0) with
    | some o => s2.switchTo fr portH cls o
    | none => s2

/-- One frame is taken from ring n and completed (R430, R431). -/
def State.txTake (s : State) (n : Fin 64) (l : List TxDesc) (e : TxDesc) (badRead : Bool) : State :=
  let r := s.ring n
  let total := (l.map TxDesc.len).sum
  let cause := s.txCause l e total badRead
  let s0 := { s with ringLast := n }
  let s1 := if cause = 0 then s0.txEnter e ((l.map (fun d => s.dmaRead d.addr d.len)).flatten)
    else if cause = 5 then s0.countPort portH 15 1 else s0
  let wb := if cause = 0 then 2 ^ 31 else 3 * 2 ^ 30 + cause
  let s2 := (s1.dmaWrite (r.desc e.idx + 0x18) (toLe 4 wb)).ringDone n (e.idx + 1) (decide (cause ≠ 0))
  if cause = 4 then s2.modRing n (fun r => r.fail 2) else s2

/-- The first of the transmit rings after the one served last that satisfies p (R431). -/
def State.txRing (s : State) (p : Ring → Bool) : Option (Fin 64) :=
  let order := (List.range 32).map (fun i => (⟨(s.ringLast.val + 1 + i) % 32, by omega⟩ : Fin 64))
  order.find? (fun n => decide ((s.ring n).st = .running) && p (s.ring n))

/-- HOST_TX_FRAME (R430, R431). -/
def State.hostTx (s : State) (fail : Option HostReadFail) : State :=
  match fail with
  | some .descriptor =>
    match s.txRing (fun r => decide (r.waiting ≠ [])) with
    | some n => { s.modRing n (fun r => r.fail 1) with ringLast := n }
    | none => s
  | _ =>
    match s.txRing (fun r => (s.nextTx r).isSome) with
    | some n =>
      match s.nextTx (s.ring n) with
      | some l => match l.getLast? with
        | some e => s.txTake n l e fail.isSome
        | none => s
      | none => s
    | none => s

/-! ### Receive (R432 to R434) -/

/-- The ring of a frame for H, by its steering or by HOST_RXMAP; none where it is dropped (R433, R434). -/
def State.rxRing (s : State) (e : QEntry) : Option (Fin 64) :=
  match e.frame.ring with
  | some n => some n
  | none =>
    let owner := match e.fc with
      | some f => bits (s.fcCfg f) 11 8
      | none => if e.input.isCp then e.input.val - 37 else 13
    let m := s.reg (0x890040 + 4 * min owner 13)
    if bit m 31 then some ⟨bits m 5 0 % 64, by omega⟩ else none

/-- INFO of a receive descriptor (R220, R432). -/
def rxInfo (i : FrameMeta) (trunc : Bool) : Nat :=
  i.ingress.code * 1024 + i.cls.val * 128 + b2n i.err * 64 + b2n trunc * 32 + b2n i.tsValid * 16 + b2n i.td * 8

/-- A frame is written to the descriptor at RING_HEAD (R432, R433). -/
def State.rxWrite (s : State) (n : Fin 64) (f : Frame) : State :=
  let r := s.ring n
  let d := r.desc r.head.toNat
  let l := s.dmaRead d 10
  let room := leNat (l.drop 8)
  let s1 := s.dmaWrite (leNat (l.take 8)) (f.bytes.take room)
  let info := rxInfo f.info (decide (room < f.bytes.length))
  let s2 := s1.dmaWrite (d + 0x10) (toLe 2 f.bytes.length ++ (toLe 2 info ++ toLe 12 f.info.ts.toNat))
  s2.ringDone n (r.head.toNat + 1) false

/-- HOST_RX_DELIVERY (R433): the next frame that H has delivered goes to its ring, or is dropped. -/
def State.hostRx (s : State) (descFail : Bool) : State :=
  match s.mortar.toHost with
  | [] => s
  | e :: es =>
    let s0 := { s with mortar := { s.mortar with toHost := es } }
    match s.rxRing e with
    | none => s0.countPort portH 9 1
    | some n =>
      let r := s.ring n
      if r.st = .running ∧ r.waiting ≠ [] then
        if descFail then s0.modRing n (fun r => { r.fail 1 with drop := satInc r.drop }) else s0.rxWrite n e.frame
      else s0.modRing n (fun r => { r with drop := satInc r.drop })

/-! ### Orphan reads of the functions (R435) -/

/-- The functions' orphan arrays that a party reads. -/
def orphPfReach (p : Party) (f : Nat) : Bool :=
  decide (f = 0) || (p.isPf1 || decide (p = .keystone))

/-- A read in the orphan array of function f, record t, word k (R435). -/
def State.orphPfWord (s : State) (p : Party) (i k : Nat) : Reg32 × State :=
  let x := Sparse.read (fun _ => Orphan.reset) s.orphPf i
  if orphPfReach p (i / 1024) = false then (0, s)
  else if k = 0 then (BitVec.ofNat 32 (b2n x.valid * 2 ^ 31 + x.req.toNat * 65536), s)
  else if k = 1 then (x.off.setWidth 32, s)
  else if k = 2 then (x.data, { s with orphPf := Sparse.write (fun _ => Orphan.reset) s.orphPf i { x with valid := false } })
  else (0, s)

/-- A read in the orphan array of the bridge, record t, word k (R409, R420). -/
def State.orphWord (s : State) (t k : Nat) : Reg32 × State :=
  let x := Sparse.read (fun _ => Orphan.reset) s.orph t
  if k = 0 then (BitVec.ofNat 32 (b2n x.valid * 2 ^ 31 + x.req.toNat * 65536), s)
  else if k = 1 then (x.off.setWidth 32, s)
  else if k = 2 then (x.data, { s with orph := Sparse.write (fun _ => Orphan.reset) s.orph t { x with valid := false } })
  else (0, s)

/-! ### HOST_CAUSE, MSI-X (R424) -/

/-- The copy of the host registers that a party reads: PF1's, or PF0's (R424). -/
def hostCopy (p : Party) : Bool := p.isPf1 || decide (p = .keystone)
/-- The party is a function of the host, and has a copy to write. -/
def isHostFn (p : Party) : Bool := p.isPf1 || decide (p = .pf0)

/-- HOST_CAUSE is written: W1C. HOST_CAUSE_EN: a bit set in both fires vector 96 (R424). -/
def State.causeWrite (s : State) (f : Bool) (v : Reg32) : State :=
  let h := s.hostFn f
  s.setHostFn f { h with cause := h.cause &&& ~~~ v }
def State.causeEnWrite (s : State) (f : Bool) (v : Reg32) : State :=
  let h := s.hostFn f
  let w := v &&& 0x00001EFF
  let s1 := s.setHostFn f { h with causeEn := w }
  if h.cause &&& (w &&& ~~~ h.causeEn) = 0 then s1 else s1.fireVector f 96

/-- A write of a table word: a vector unmasked while pending fires (R424; log 19). -/
def State.msixWrite (s : State) (f : Bool) (i : Nat) (v : Reg32) : State :=
  if i < 388 then
    let h := s.hostFn f
    let s1 := s.setHostFn f { h with msix := Sparse.write msixBlank h.msix i v }
    if i % 4 = 3 ∧ bit v 0 = false ∧ bit h.pba (i / 4) then
      (s1.setHostFn f { s1.hostFn f with pba := setBit h.pba (i / 4) false }).fireVector f (i / 4)
    else s1
  else s

/-- A read of the table, and of the pending bits. -/
def State.msixRead (s : State) (f : Bool) (i : Nat) : Reg32 := if i < 388 then Sparse.read msixBlank (s.hostFn f).msix i else 0
def State.pbaRead (s : State) (f : Bool) (k : Nat) : Reg32 := (s.hostFn f).pba.extractLsb' (32 * k) 32

end Sys2Proof.Machine
end

