-- ==== Sys2Proof/Machine/HostCmds.lean ====
section
/-! DEFINITION. The commands of the host rings and of the orphan arrays (R409, R425 to R435). -/

namespace Sys2Proof.Machine

/-- RING_TAIL_WRITE (R426, R427). -/
def execRingTailWrite (p : Party) (n : Fin 64) (v : Reg32) (s : State) : Host.Outcome State Fault Refusal :=
  s.when_ s.blocksUp (fun s => s.ringWrite p n 0x10 v)

/-- RING_CTRL_WRITE (R425 to R427): RING_BASE_LO, RING_BASE_HI or RING_CTRL. -/
def execRingCtrlWrite (p : Party) (n : Fin 64) (reg : Fin 3) (v : Reg32) (s : State) : Host.Outcome State Fault Refusal :=
  s.when_ s.blocksUp (fun s => s.ringWrite p n (4 * reg.val) v)

/-- HOST_TX_FRAME (R430, R431). -/
def execHostTxFrame (fail : Option HostReadFail) (s : State) : Host.Outcome State Fault Refusal :=
  s.when_ (s.blocksUp && s.pins.pcieUp) (fun s => s.hostTx fail)

/-- HOST_RX_DELIVERY (R432 to R434). -/
def execHostRxDelivery (descFail : Bool) (s : State) : Host.Outcome State Fault Refusal :=
  s.when_ (s.blocksUp && s.pins.pcieUp) (fun s => s.hostRx descFail)

/-- IRQ_MOD_TIMER (R428): TIME × 256 ns after the first condition not yet signalled. -/
def execIrqModTimer (n : Fin 64) (s : State) : Host.Outcome State Fault Refusal :=
  let r := s.ring n
  s.when_ (s.blocksUp && decide (r.conds ≠ 0)) (fun s => (s.at_ (r.condsAt + 1280 * bits r.irqMod 15 0)).ringFire n)

/-- ORPH_READ: the data word of ORPH(t) (R409). Reads of the orphan arrays are not recorded (R435). -/
def execOrphRead (p : Party) (tag : BitVec 10) (t : BitVec 8) (s : State) : Host.Outcome State Fault Refusal :=
  s.when_ s.blocksUp (fun s => let (v, s1) := s.orphWord t.toNat 2; { s1 with readValue := v })

/-- ORPH_PF_READ: the data word of ORPH_PF(f, t) (R435). -/
def execOrphPfRead (p : Party) (f : Fin 2) (t : BitVec 10) (s : State) : Host.Outcome State Fault Refusal :=
  s.when_ s.blocksUp (fun s => let (v, s1) := s.orphPfWord p (1024 * f.val + t.toNat) 2; { s1 with readValue := v })

end Sys2Proof.Machine
end

