-- ==== Sys2Proof/Machine/PlumbCmds.lean ====
section
/-! DEFINITION. The commands of the plumb family (R320 to R349). -/

namespace Sys2Proof.Machine

/-- TIME_QUAD_READ (R320): a read of word +0x0 of a quad. -/
def execTimeQuadRead (p : Party) (tag : BitVec 10) (off : Offset) (s : State) : Host.Outcome State Fault Refusal :=
  match s.quadAt off.toNat with
  | some q =>
    s.when_ s.blocksUp (fun s =>
      let (v, s1) := s.readQuad p.code off.toNat q
      s1.returnRead p tag.toNat off.toNat v)
  | none => .next s

/-- TD_SET_COMMIT (R320, R322): a write of TD_SET +0xC. -/
def execTdSetCommit (p : Party) (d : Fin 2) (v : Reg32) (s : State) : Host.Outcome State Fault Refusal :=
  s.when_ s.blocksUp (fun s => s.plumbWrite p (tdBase d + 0x2C) v)

/-- TD_ENABLE (R325): TD_CTRL.EN is written 1. -/
def execTdEnable (p : Party) (d : Fin 2) (s : State) : Host.Outcome State Fault Refusal :=
  s.when_ s.blocksUp (fun s => s.plumbWrite p (tdBase d) (setBit (s.tdCtrl d) 31 true))

/-- TD_DISABLE (R325): TD_CTRL.EN is written 0. -/
def execTdDisable (p : Party) (d : Fin 2) (s : State) : Host.Outcome State Fault Refusal :=
  s.when_ s.blocksUp (fun s => s.plumbWrite p (tdBase d) (setBit (s.tdCtrl d) 31 false))

/-- TD_ARM (R325, R327): TD_CTRL is written with ARM. -/
def execTdArm (p : Party) (d : Fin 2) (s : State) : Host.Outcome State Fault Refusal :=
  s.when_ s.blocksUp (fun s => s.plumbWrite p (tdBase d) (setBit (s.tdCtrl d) 30 true))

/-- SAMPLE_SUBMIT (R326, R327): a write of SMP_T_S. -/
def execSampleSubmit (p : Party) (d : Fin 2) (v : Reg32) (s : State) : Host.Outcome State Fault Refusal :=
  s.when_ s.blocksUp (fun s => s.plumbWrite p (tdBase d + 0x4C) v)

/-- TD_TIMEOUT (R325): no sample for TIMEOUT ticks in TRACK. -/
def execTdTimeout (d : Fin 2) (s : State) : Host.Outcome State Fault Refusal :=
  s.when_ (s.blocksUp && (decide ((s.dom d).st = .track) && decide ((s.dom d).lastTick + bits (s.tdCtrl d) 15 0 ≤ s.tick)))
    (fun s => s.enterHoldover d)

/-- ACT_GO (R330): a write of ACT_CTRL. -/
def execActGo (p : Party) (v : Reg32) (s : State) : Host.Outcome State Fault Refusal :=
  s.when_ s.blocksUp (fun s => s.plumbWrite p 0x200400 (setBit v 31 true))

/-- ACTIVE_DOMAIN_SWITCH (R330): the pending switch is made at the first clk_time cycle at or after ACT_AT. -/
def execActiveDomainSwitch (s : State) : Host.Outcome State Fault Refusal :=
  match s.plumb.act.pending with
  | some (v, d) => s.when_ s.blocksUp (fun s => s.switchActive d (timeEdge (s.selReach 0 v s.now)))
  | none => .next s

/-- SLEW_COMPLETE (R331): H has reached 0. -/
def execSlewComplete (s : State) : Host.Outcome State Fault Refusal :=
  let a := s.plumb.act
  let ppb := s.actSlew
  s.when_ (s.blocksUp && (a.slewing && decide (0 < ppb))) (fun s =>
    let t := a.hAt + (a.h.natAbs * 5000000000 + ppb * 2 ^ 48 - 1) / (ppb * 2 ^ 48)
    { s.at_ t with plumb := { s.plumb with act := { a with h := 0, hAt := max s.now t, slewing := false } } })

/-- GRID_ALIGNED (R337). -/
def execGridAligned (q : PortCode) (s : State) : Host.Outcome State Fault Refusal :=
  if h : q.val < 36 then
    s.when_ s.blocksUp (fun s =>
      { s with plumb := { s.plumb with ports := s.plumb.ports.set q.val { s.plumb.ports[q.val] with aligned := true } } })
  else .next s

/-- TIME_FRAME_SEND (R344). -/
def execTimeFrameSend (s : State) : Host.Outcome State Fault Refusal := s.when_ s.blocksUp State.sendTime

/-- TIME_FRAME_RECEIVE (R344, R345). -/
def execTimeFrameReceive (k : Fin 4) (hops : BitVec 8) (sourceLink : Bool) (x0 x1 : TimeExchange) (s : State) :
    Host.Outcome State Fault Refusal :=
  s.when_ (s.blocksUp && s.urral.ports[k].locked) (fun s => s.takeTime k hops sourceLink x0 x1)

/-- TIME_SOURCE_TIMEOUT (R345): no TIME frame on the source port for 4 exchange periods. -/
def execTimeSourceTimeout (s : State) : Host.Outcome State Fault Refusal :=
  match s.plumb.srcPort with
  | some k => s.when_ s.blocksUp (fun s =>
      (s.at_ ((s.ptime (portU k)).lastTime.getD s.now + 4 * exchangePeriod)).updateSource)
  | none => .next s

/-- TTO_ARM (R347): a write of TTO_CTRL. -/
def execTtoArm (p : Party) (n : Fin 32) (v : Reg32) (s : State) : Host.Outcome State Fault Refusal :=
  s.when_ s.blocksUp (fun s => s.plumbWrite p (ttoBase n) (setBit v 31 true))

/-- TTO_EDGE (R347, R348). -/
def execTtoEdge (n : Fin 32) (s : State) : Host.Outcome State Fault Refusal := s.when_ s.blocksUp (fun s => s.ttoEdge n)

/-- TCAP_EDGE (R349). -/
def execTcapEdge (n : Fin 16) (rising : Bool) (interp : BitVec 7) (s : State) : Host.Outcome State Fault Refusal :=
  s.when_ s.blocksUp (fun s => s.tcapEdge n rising interp.toNat)

/-- TCAP_TS_READ (R349): a read of TCAP_TS +0x10. -/
def execTcapTsRead (p : Party) (tag : BitVec 10) (n : Fin 16) (s : State) : Host.Outcome State Fault Refusal :=
  s.when_ s.blocksUp (fun s =>
    let (v, s1) := s.readCapture p.code n 0x10
    s1.returnRead p tag.toNat (tcapBase n.val + 0x10) v)

/-- PPS_IN_EDGE (R326, R349). -/
def execPpsInEdge (rising : Bool) (interp : BitVec 7) (s : State) : Host.Outcome State Fault Refusal :=
  s.when_ s.blocksUp (fun s => s.ppsEdge rising interp.toNat)

/-- PPS_OUT_EDGE (R349). -/
def execPpsOutEdge (rising : Bool) (s : State) : Host.Outcome State Fault Refusal := s.when_ s.blocksUp (fun s => s.ppsOut rising)

end Sys2Proof.Machine
end

