-- ==== Sys2Proof/Machine/PortRegs.lean ====
section
/-! DEFINITION. The register blocks of the ports, the switch queues, the flow contexts and the mortar: R256, R261, R262,
R267, R269, R277, R279 to R282, R299, R313 to R316. -/

namespace Sys2Proof.Machine

/-! ### Port blocks (R261, R262) -/

/-- PORT_CFG is written; a new lane mode loads its path delays (R262, R334). -/
def State.portCfgSet (s : State) (p : Party) (q : PortCode) (v : Reg32) : State :=
  let s1 := s.portCfgWrite p q v
  if s1.laneMode q = s.laneMode q then s1 else s1.loadDelays q

/-- A filter word other than FLT_KEY0 is staged (R267). -/
def State.filterStage (s : State) (q : PortCode) (o : Nat) (v : Reg32) : State :=
  s.modPort q (fun p => { p with fltStaged := (o, v &&& filterMask o) :: p.fltStaged.filter (fun y => decide (y.1 ≠ o)) })

/-- The bits that a plain register of a port block keeps: 0 for what is not writable. -/
def portRegMask (q : PortCode) (o : Nat) : Reg32 :=
  if o = 0x0004 then 0x7FFF else if o = 0x000C then 0xFFFF
  else if o = 0x0010 then (if q.isP ∨ q.isU then 0xFC0000FF else 0)
  else if o = 0x804 then 0x3FFFFFFF else if o = 0x80C then 0xFFFF
  else if o = 0x808 ∨ o = 0x810 ∨ o = 0x814 then 0xFFFFFFFF
  else if 0x860 ≤ o ∧ o < 0x880 then 0x3FFF
  else if 0x1000 ≤ o ∧ o < 0x1800 then (if o % 8 = 0 then 0xFF else 0xFFFFFFFF)
  else 0

/-- Q_MIN, Q_MARK and Q_DROP with one of them replaced keep their order and the pool (R299). -/
def State.thresholdOk (s : State) (q : PortCode) (c : Fin 8) (which v : Nat) : Bool :=
  let a := if which = 0 then v else s.qMin q c
  let b := if which = 1 then v else s.qMark q c
  let d := if which = 2 then v else s.qDrop q c
  decide (a ≤ b ∧ b ≤ d) && (decide (which ≠ 0) || decide (a + 16384 ≤ s.sharedSize + s.qMin q c))

/-- A write of Q_MIN, Q_MARK or Q_DROP (R299, R314). -/
def State.thresholdWrite (s : State) (p : Party) (q : PortCode) (c : Fin 8) (which : Nat) (v : Reg32) : State :=
  let off := queueBase q c + 4 * which
  if s.pf1MgrKey p = false ∨ s.thresholdOk q c which (bits v 17 0) = false then s.refused p off v.toNat
  else s.setReg off (v &&& 0x3FFFF)

/-- A write in the block of port q (R262, R314). -/
def State.portWrite (s : State) (p : Party) (q : PortCode) (o : Nat) (v : Reg32) : State :=
  if 0x3000 ≤ o ∧ o < 0x3200 ∧ o % 0x40 < 12 then s.thresholdWrite p q ⟨(o - 0x3000) / 0x40 % 8, by omega⟩ (o % 0x40 / 4) v
  else if 0x2000 ≤ o then s
  else if o = 0x0000 then s.portCfgSet p q v
  else if s.mayConfigure p (s.portBound q) = false then s.refused p (portBase q + o) v.toNat
  else if 0x400 ≤ o ∧ o < 0x800 then
    (if q.isP ∨ q.isU then (if o % 16 = 0 then s.filterCommit q ((o - 0x400) / 16) v else s.filterStage q o v) else s)
  else if o = 0x800 then s.gclWrite q v
  else if portRegMask q o = 0 then s
  else s.setReg (portBase q + o) (v &&& portRegMask q o)

/-- PORT_STATUS (R262). -/
def State.portStatus (s : State) (q : PortCode) : Reg32 :=
  let p := s.port q
  let left := match p.holdEnd with
    | some e => (e - s.now) / microsecond
    | none => 0
  BitVec.ofNat 32 (b2n p.up * 2 ^ 31 + b2n p.sync * 2 ^ 30 + p.rate.toNat * 2 ^ 27 + b2n p.anDone * 2 ^ 26 +
    b2n p.holdEnd.isSome * 2 ^ 25 + b2n p.expired * 2 ^ 24 + left)

/-- A time of three words: ns, s low, s high. -/
def timeWord3 (ns sec k : Nat) : Reg32 :=
  if k = 0 then BitVec.ofNat 32 ns else if k = 1 then BitVec.ofNat 32 sec else BitVec.ofNat 32 (sec / 2 ^ 32 % 65536)

/-- A number of ns as three words. -/
def nsWord3 (t k : Nat) : Reg32 := timeWord3 (t % 1000000000) (t / 1000000000) k

/-- The gate control registers (R277). -/
def State.gclRead (s : State) (q : PortCode) (o : Nat) : Reg32 :=
  let p := s.port q
  let g : Gcl := match p.oper with
    | some g => g
    | none => { en := false, td := 0, base := 0, cycle := 0, ext := 0, entries := [] }
  if o = 0x800 then s.reg (portBase q + o) ||| BitVec.ofNat 32 (p.gclState.toNat * 2 ^ 28)
  else if 0x818 ≤ o ∧ o < 0x824 then nsWord3 p.ct ((o - 0x818) / 4)
  else if o = 0x830 then BitVec.ofNat 32 (b2n g.en * 2 ^ 31 + g.td.val * 2 ^ 27 + g.entries.length)
  else if 0x834 ≤ o ∧ o < 0x840 then nsWord3 g.base ((o - 0x834) / 4)
  else if o = 0x840 then BitVec.ofNat 32 g.cycle
  else if o = 0x844 then BitVec.ofNat 32 g.ext
  else s.reg (portBase q + o)

/-- An entry of the operational list (R277). -/
def Port.operEntry (p : Port) (e : Nat) (hi : Bool) : Reg32 :=
  match p.oper with
  | some g =>
    let x := nth g.entries e (0, 0)
    if hi then BitVec.ofNat 32 x.2 else x.1.setWidth 32
  | none => 0

def Port.setCnt (p : Port) (k : Fin 32) (x : Cnt) : Port := { p with cnt := p.cnt.set k x }

/-- A read of word w of counter k (R279 to R282). -/
def State.cntRead (s : State) (p : Party) (tag : Nat) (q : PortCode) (k : Fin 32) (w : Nat) : Reg32 × State :=
  let x := (s.port q).cnt[k]
  if w = 0 then
    let (v, y) := x.readLo p.code (BitVec.ofNat 10 tag) s.tick (isBridge p)
    (v, s.modPort q (fun c => c.setCnt k y))
  else if w = 3 then (BitVec.ofNat 32 (x.req.toNat * 65536 + x.tag.toNat), s)
  else (x.readShadow p.code (decide (w = 1)), s)

/-- A read of a switch queue's register (R314). -/
def State.queueRead (s : State) (q : PortCode) (c : Fin 8) (o : Nat) : Reg32 × State :=
  let x := (s.port q).q[c]
  if o = 0x0C then (BitVec.ofNat 32 (s.depth q c), s)
  else if o = 0x10 then (x.peak.setWidth 32, s.modQ q c (fun y => { y with peak := 0, peakShadow := y.peak }))
  else if o = 0x14 then (x.enq, s) else if o = 0x18 then (x.marked, s) else if o = 0x1C then (x.noect, s)
  else if o = 0x20 then (x.tailDrop, s) else if o = 0x24 then (x.eccErr, s)
  else if o < 0x0C then (s.reg (queueBase q c + o), s) else (0, s)

/-- A read in the block of port q (R261). -/
def State.portRead (s : State) (p : Party) (tag : Nat) (q : PortCode) (o : Nat) : Reg32 × State :=
  if o = 0x0008 then (s.portStatus q, s)
  else if 0x400 ≤ o ∧ o < 0x800 then (if q.isP ∨ q.isU then s.reg (portBase q + o) else 0, s)
  else if o = 0x0010 then (if q.isP ∨ q.isU then s.reg (portBase q + o) else 0, s)
  else if 0x800 ≤ o ∧ o < 0x880 then (s.gclRead q o, s)
  else if 0x1800 ≤ o ∧ o < 0x2000 then ((s.port q).operEntry ((o - 0x1800) / 8) (decide (o % 8 = 4)), s)
  else if 0x2000 ≤ o ∧ o < 0x2200 then s.cntRead p tag q ⟨(o - 0x2000) / 16 % 32, by omega⟩ (o % 16 / 4)
  else if 0x3000 ≤ o ∧ o < 0x3200 then s.queueRead q ⟨(o - 0x3000) / 0x40 % 8, by omega⟩ (o % 0x40)
  else if o = 0x3200 then (BitVec.ofNat 32 (s.port q).launch.length, s)
  else if 0x3204 ≤ o ∧ o < 0x3210 then
    (match (s.port q).launch with
    | l :: _ => timeWord3 (nsOf l.l) (secOf l.l) ((o - 0x3204) / 4)
    | [] => 0, s)
  else (s.reg (portBase q + o), s)

/-! ### Flow contexts (R315) -/

/-- The registers of a context that software writes. -/
def fcWritable (o : Nat) : Bool :=
  decide (o = 0x04 ∨ o = 0x08 ∨ o = 0x0C ∨ o = 0x10 ∨ o = 0x14 ∨ o = 0x18 ∨ o = 0x1C ∨ o = 0x20 ∨ o = 0x30 ∨ o = 0x34 ∨ o = 0x40 ∨
    o = 0x44)

/-- A write in the block of context f. -/
def State.fcWrite (s : State) (p : Party) (f : Fin 256) (o : Nat) (v : Reg32) : State :=
  if o = 0 then s.fcCfgWrite p f v else if fcWritable o then s.fcRegWrite p f o v else s

/-- A read in the block of context f. -/
def State.fcRead (s : State) (f : Fin 256) (o : Nat) : Reg32 :=
  let x := s.fc f
  let b := fcBase f
  if 0x24 ≤ o ∧ o < 0x30 then timeWord3 (nsOf x.lnext) (secOf x.lnext) ((o - 0x24) / 4)
  else if o = 0x38 then BitVec.ofNat 32 (x.tokensAt (bits (s.reg (b + 0x30)) 23 0) (bits (s.reg (b + 0x34)) 23 0) s.now / 65536)
  else if o = 0x40 then x.seqGen.setWidth 32
  else if o = 0x48 then BitVec.ofNat 32 (b2n x.takeAny * 2 ^ 31 + x.rseq.toNat)
  else if h : 0x80 ≤ o ∧ o < 0xC4 then x.cnt[(o - 0x80) / 4]
  else s.reg (b + o)

/-! ### The mortar's global registers (R313, R316) -/

/-- Every frame copy that the mortar holds, with the cells of it already read. -/
def State.copies (s : State) : List (Frame × Nat) :=
  let m := s.mortar
  (m.arriving ++ m.queue).map (fun e => (e.frame, e.sent)) ++
    (s.ports.toList.flatMap (fun p => (p.cur.toList ++ p.launch.map (fun l => l.e)).map (fun e => (e.frame, e.sent)))) ++
    (s.fcs.toList.flatMap (fun x => x.waiting.map (fun w => (w.1, 0))))

/-- Cells in physical use: each stored frame once, less what every copy has read (R287, R313). -/
def State.usedCells (s : State) : Nat :=
  let l := s.copies
  let ids := (l.map (fun x => x.1.id)).eraseDups
  (ids.map (fun i =>
    let mine := l.filter (fun x => decide (x.1.id = i))
    let sent := (mine.map (fun x => x.2)).foldl min 1000000
    let begun := match mine with
      | x :: _ => (x.1.cells.filter (fun t => decide (t ≤ s.now))).length
      | [] => 0
    begun - sent)).sum

/-- Segments fenced and empty (R316). -/
def State.fencedEmpty (s : State) : BitVec 16 :=
  let used := s.copies.foldl (fun (a : BitVec 16) x => a ||| x.1.segs) 0
  (s.reg 0x980010).extractLsb' 0 16 &&& ~~~ used

/-- BUF_FENCE as a write of v leaves it: a failed segment stays fenced. -/
def State.fenced (s : State) (v : Reg32) : State := s.setReg 0x980010 (((v.extractLsb' 0 16 : BitVec 16) ||| s.mortar.failed).setWidth 32)

/-- The fence leaves what R316 asks for. -/
def State.fenceFits (s : State) (v : Reg32) : Bool :=
  let n := (v.extractLsb' 0 16 : BitVec 16) ||| s.mortar.failed
  decide (ones n 16 ≤ 2 ∧ 16384 ≤ (s.fenced v).sharedSize ∧ 12288 * ones n 16 + sumQueues s.qMin ≤ 196608)

/-- A write of BUF_FENCE (R316): the keystone's alone. -/
def State.fenceWrite (s : State) (p : Party) (v : Reg32) : State :=
  if p = .keystone ∧ s.fenceFits v = true then s.fenced v else s.refused p 0x980010 v.toNat

/-- A write of a global register of the mortar (R313). -/
def State.mortarWrite (s : State) (p : Party) (o : Nat) (v : Reg32) : State :=
  if o = 0x00 then (if s.pf1MgrKey p then s.setReg 0x980000 (v &&& 0x8000FFFF) else s.refused p 0x980000 v.toNat)
  else if o = 0x10 then s.fenceWrite p v else s

/-- A read of a global register of the mortar. -/
def State.mortarRead (s : State) (o : Nat) : Reg32 :=
  if o = 0x04 then BitVec.ofNat 32 (196608 - s.usedCells) else if o = 0x08 then BitVec.ofNat 32 s.sharedSize
  else if o = 0x0C then BitVec.ofNat 32 s.sharedUsed
  else if o = 0x14 then s.mortar.failed ++ s.fencedEmpty
  else if o = 0x18 then s.mortar.ce else if o = 0x1C then s.mortar.ue
  else if o = 0x20 then BitVec.ofNat 32 s.mortar.quar.length else if o = 0x24 then s.mortar.ueAddr.setWidth 32
  else s.reg (0x980000 + o)

/-- A write of CPMAP(n) (R269): the keystone's alone. -/
def State.cpmapWrite (s : State) (p : Party) (n : Nat) (v : Reg32) : State :=
  if p = .keystone then s.setReg (0x8F8000 + 4 * n) (v &&& 0x8F00000F) else s.refused p (0x8F8000 + 4 * n) v.toNat

end Sys2Proof.Machine
end

