-- ==== Sys2Proof/Machine/PortCmds.lean ====
section
/-! DEFINITION. The commands of the ports, the mortar and the flow contexts (R257 to R318). -/

namespace Sys2Proof.Machine

/-! ### Ports -/

/-- PORT_CFG_WRITE (R260, R262). -/
def execPortCfgWrite (p : Party) (q : PortCode) (v : Reg32) (s : State) : Host.Outcome State Fault Refusal :=
  s.when_ s.blocksUp (fun s => s.portWrite p q 0 v)

/-- LINK_UP (R257, R259): a port that is enabled declares its link up; `rate` is what the control word says. -/
def execLinkUp (q : PortCode) (rate : BitVec 3) (s : State) : Host.Outcome State Fault Refusal :=
  s.when_ (s.blocksUp && (bit (s.portCfg q) 31 && !(s.port q).up)) (fun s =>
    s.portUp q (if q.isP then rateInForce (s.portCfg q) rate else 5))

/-- LINK_DOWN (R259, R283). -/
def execLinkDown (q : PortCode) (s : State) : Host.Outcome State Fault Refusal := s.when_ s.blocksUp (fun s => s.portDown q)

/-- PORT_HOLD_EXPIRY (R284). -/
def execPortHoldExpiry (q : PortCode) (s : State) : Host.Outcome State Fault Refusal :=
  match (s.port q).holdEnd with
  | some t => s.when_ s.blocksUp (fun s => (s.at_ t).holdExpire q)
  | none => .next s

/-- FRAME_RECEIVE (R259, R263): a frame on the line of a P port. A near-end loop shuts the line out; the far-end loop
sends the frame back (R262). -/
def execFrameReceive (q : PortCode) (bytes : List Byte) (fin : LineEnd) (interp : BitVec 7) (s : State) :
    Host.Outcome State Fault Refusal :=
  let loop := bits (s.portCfg q) 23 22
  s.when_ (s.blocksUp && (q.isP && ((s.port q).up && decide (loop ≠ 1 ∧ loop ≠ 2)))) (fun s =>
    let s1 := if loop = 3 then s.putLine q bytes (decide (fin ≠ .good)) s.mortar.nextId 0 else s
    s1.receive q bytes fin interp.toNat)

/-- FLT_KEY0_WRITE (R267). -/
def execFltKey0Write (p : Party) (q : PortCode) (e : Fin 64) (v : Reg32) (s : State) : Host.Outcome State Fault Refusal :=
  s.when_ s.blocksUp (fun s => s.portWrite p q (0x400 + 16 * e.val) v)

/-- GCL_COMMIT (R277): a write of GCL_CTRL with COMMIT. -/
def execGclCommit (p : Party) (q : PortCode) (v : Reg32) (s : State) : Host.Outcome State Fault Refusal :=
  s.when_ s.blocksUp (fun s => s.portWrite p q 0x800 (setBit v 30 true))

/-- GCL_CHANGE_TIME (R278). -/
def execGclChangeTime (q : PortCode) (s : State) : Host.Outcome State Fault Refusal := s.when_ s.blocksUp (fun s => s.gclChange q)

/-- GATE_ENTRY_CHANGE (R274). -/
def execGateEntryChange (q : PortCode) (s : State) : Host.Outcome State Fault Refusal := s.when_ s.blocksUp (fun s => s.gateStep q)

/-- CNT_LO_READ (R280, R282). -/
def execCntLoRead (p : Party) (tag : BitVec 10) (q : PortCode) (k : Fin 32) (s : State) : Host.Outcome State Fault Refusal :=
  s.when_ s.blocksUp (fun s =>
    let (v, s1) := s.cntRead p tag.toNat q k 0
    s1.returnRead p tag.toNat (portBase q + 0x2000 + 16 * k.val) v)

/-- CNT_SHADOW_READ (R281): CNT_HI or CNT_SHLO. -/
def execCntShadowRead (p : Party) (tag : BitVec 10) (q : PortCode) (k : Fin 32) (hi : Bool) (s : State) :
    Host.Outcome State Fault Refusal :=
  s.when_ s.blocksUp (fun s =>
    let (v, s1) := s.cntRead p tag.toNat q k (if hi then 1 else 2)
    s1.returnRead p tag.toNat (portBase q + 0x2000 + 16 * k.val + (if hi then 4 else 8)) v)

/-! ### The mortar -/

/-- The entry is the copy that a buffer error hits. -/
def eccHits (h : EccHit) (e : QEntry) : Bool := decide (e.input = h.input) && (decide (e.out = h.output) && decide (e.cls = h.cls))

/-- The copy loses the rest of its cells and carries the error marker (R29, R317). -/
def QEntry.cutShort (e : QEntry) : QEntry := { e with frame := { e.frame with info := { e.frame.info with err := true }, total := 256 * e.sent } }

/-- A frame toward a course ends with the error marker at what is staged. -/
def RxFrame.cutShort (f : RxFrame) : RxFrame := { f with bytes := f.bytes.take f.staged, info := { f.info with err := true } }

/-- An uncorrectable error in a read for queue (o, c) (R317): the copy is dropped if it has not started on the line, else
it is ended with the error marker; the cell is quarantined. -/
def State.eccUncorrectable (s : State) (h : EccHit) : State :=
  let o := h.output
  let p := s.port o
  let m := s.mortar
  let s0 := { s with mortar := { m with ue := m.ue + 1, ueAddr := h.cell, quar := h.cell :: m.quar.filter (fun c => decide (c ≠ h.cell)) } }
  let s1 := (s0.modQ o h.cls (fun q => { q with eccErr := q.eccErr + 1 })).event .bufUe false 0 [h.cell.toNat]
  let notYet := p.starting.find? (fun x => eccHits h x.1 && decide (s.now < x.2))
  match notYet with
  | some x =>
    s1.modPort o (fun p => { p with cur := p.cur.filter (fun e => decide (e.frame.id ≠ x.1.frame.id)), starting := p.starting.erase x })
  | none =>
    match p.cur with
    | some e =>
      if eccHits h e then
        let s2 := s1.modPort o (fun p => { p with cur := none, onLine := p.onLine.map (fun x => (x.1.cutShort, x.2)) })
        if o.isCp then
          s2.modCourse o.course (fun x => { x with fmRx := match x.fmRx.getLast? with
            | some f => x.fmRx.dropLast ++ [f.cutShort]
            | none => [] })
        else if o.isH then { s2 with mortar := { s2.mortar with toHost := s2.mortar.toHost ++ [e.cutShort] } }
        else { s2 with lineOut := s2.lineOut.map (fun (l : LineFrame) =>
          if l.port = o ∧ l.id = e.frame.id then { l with bytes := l.bytes.take (256 * e.sent), err := true } else l) }
      else s1
    | none => s1

/-- What a buffer codeword error does (R317). -/
def State.eccHit (s : State) (h : EccHit) : State :=
  if h.ue then s.eccUncorrectable h else { s with mortar := { s.mortar with ce := s.mortar.ce + 1 } }

/-- The tick's event of corrected codewords (R317). -/
def State.bufferTick (s : State) : State :=
  let m := s.mortar
  if m.ce = m.ceTick then s
  else ({ s with mortar := { m with ceTick := m.ce } }).event .bufCe false 0 [(m.ce - m.ceTick).toNat]

/-- CELL_TIME (R292, R317): the next cell time. -/
def execCellTime (ecc : Option EccHit) (s : State) : Host.Outcome State Fault Refusal :=
  s.when_ s.blocksUp (fun s =>
    let s1 := s.cellTime (nextCellTime s.now)
    let s2 := match ecc with
      | some h => s1.eccHit h
      | none => s1
    { s2 with now := s2.now + 1 })

/-- EGRESS_FRAME_START (R295, R333). -/
def execEgressFrameStart (q : PortCode) (interp : BitVec 7) (s : State) : Host.Outcome State Fault Refusal :=
  s.when_ s.blocksUp (fun s => s.egressStart q interp.toNat)

/-- FRAME_ADMISSION (R300). -/
def execFrameAdmission (s : State) : Host.Outcome State Fault Refusal := s.when_ s.blocksUp State.admitNext

/-- FLOW_CONTEXT_TAKE (R305, R306). -/
def execFlowContextTake (f : Fin 256) (s : State) : Host.Outcome State Fault Refusal := s.when_ s.blocksUp (fun s => s.flowTake f)

/-- RECOVERY_RESET_TIMEOUT (R308): RESET_US has passed since the last frame that recovery passed. -/
def execRecoveryResetTimeout (f : Fin 256) (s : State) : Host.Outcome State Fault Refusal :=
  let us := bits (s.reg (fcBase f + 0x44)) 15 0
  s.when_ (s.blocksUp && (bit (s.fcCfg f) 31 && (bit (s.fcCfg f) 23 && (decide (us ≠ 0) && !(s.fc f).takeAny))))
    (fun s => (s.at_ ((s.fc f).lastAt + us * microsecond)).modFc f FlowCtx.recoveryReset)

/-- FC_CFG_WRITE (R312). -/
def execFcCfgWrite (p : Party) (f : Fin 256) (v : Reg32) (s : State) : Host.Outcome State Fault Refusal :=
  s.when_ s.blocksUp (fun s => s.fcWrite p f 0 v)

/-- FC_CIR_WRITE (R307): FC_CIR or FC_CBS. -/
def execFcCirWrite (p : Party) (f : Fin 256) (cbs : Bool) (v : Reg32) (s : State) : Host.Outcome State Fault Refusal :=
  s.when_ s.blocksUp (fun s => s.fcWrite p f (if cbs then 0x34 else 0x30) v)

/-- FC_LBASE_WRITE (R310). -/
def execFcLbaseWrite (p : Party) (f : Fin 256) (word : Fin 3) (v : Reg32) (s : State) : Host.Outcome State Fault Refusal :=
  s.when_ s.blocksUp (fun s => s.fcWrite p f (0x14 + 4 * word.val) v)

/-- Q_THRESHOLD_WRITE (R299). -/
def execQThresholdWrite (p : Party) (q : PortCode) (c : Fin 8) (which : Fin 3) (v : Reg32) (s : State) :
    Host.Outcome State Fault Refusal :=
  s.when_ s.blocksUp (fun s => s.thresholdWrite p q c which.val v)

/-- BUF_FENCE_WRITE (R316). -/
def execBufFenceWrite (p : Party) (v : Reg32) (s : State) : Host.Outcome State Fault Refusal :=
  s.when_ s.blocksUp (fun s => s.mortarWrite p 0x10 v)

/-! ### The frame mover (R213 to R225, R520) -/

/-- FM_RXL_WRITE (R215). -/
def execFmRxlWrite (bk : Fin 52) (v : Word) (s : State) : Host.Outcome State Fault Refusal := s.ioWriteNow bk 0x081 v

/-- FM_RXC0_READ (R215). -/
def execFmRxc0Read (bk : Fin 52) (s : State) : Host.Outcome State Fault Refusal := s.ioReadNow bk 0x084

/-- FM_TXC_WRITE (R215, R222). -/
def execFmTxcWrite (bk : Fin 52) (v : Word) (s : State) : Host.Outcome State Fault Refusal := s.ioWriteNow bk 0x08A v

/-- FM_TXD_READ (R215). -/
def execFmTxdRead (bk : Fin 52) (s : State) : Host.Outcome State Fault Refusal := s.ioReadNow bk 0x08C

/-- FM_RXMAP_WRITE (R214): the keystone's alone. -/
def State.rxmapWrite (s : State) (p : Party) (c : Fin 13) (v : Reg32) : State :=
  if p = .keystone then s.modCourse c (fun x => { x with rxmap := v.extractLsb' 0 16 })
  else s.refused p (courseBase c + 0x60000) v.toNat

/-- FM_RXMAP_WRITE (R214). -/
def execFmRxmapWrite (p : Party) (c : Fin 13) (v : Reg32) (s : State) : Host.Outcome State Fault Refusal :=
  s.when_ s.blocksUp (fun s => s.rxmapWrite p c v)

/-- FM_RX_BURST (R218 to R221). -/
def execFmRxBurst (c : Fin 13) (ct : List Contention) (s : State) : Host.Outcome State Fault Refusal :=
  s.when_ (s.blocksUp && (!s.gated c && !s.power.stbySeq)) (fun s => s.rxBurst c ct)

/-- A cell that a transmit burst has read enters CPn (R520): the first one makes the frame known to the mortar. -/
def State.enterMortar (s : State) (c : Fin 13) (x : TxCell) : State :=
  let q := portCp c
  let n := (x.frame.segs.map TxSeg.len).sum
  let ctl := x.frame.ctl
  let id := x.frame.id.getD 0
  let ready := mortarEdge (x.start + 4 * min 64 x.bytes.length + intoBuffer q)
  let full := if x.last then some (mortarEdge (x.leave + intoBuffer q)) else none
  let s1 :=
    if x.first then
      let (r, s0) := s.fresh
      let cls : Fin 8 := ⟨bits ctl 13 11 % 8, by omega⟩
      let info : FrameMeta := { ingress := q, cls := cls, err := false, tsValid := false, td := false, ts := 0 }
      let f : Frame := { id := id, bytes := x.bytes, total := n, info := info, lso := none, ring := none, cells := [ready], full := full,
                         overAt := none, segs := s0.segsFor r, txOf := some (brickOf c x.frame.brick, x.frame.seqno) }
      let s2 := { s0 with mortar := { s0.mortar with nextId := max s0.mortar.nextId (id + 1) } }
      if bit ctl 14 then s2.toFlow ⟨bits ctl 7 0 % 256, by omega⟩ f cls false
      else match portOfCode (bits ctl 7 0) with
        | some o => s2.switchTo f q cls o
        | none => s2
    else s.extendFrame id x.bytes ready full
  if x.last then (s1.countPort q 0 1).countPort q 1 (n + 4) else s1

/-- FM_TX_BURST (R222, R223, R520). -/
def execFmTxBurst (c : Fin 13) (ct : List Contention) (s : State) : Host.Outcome State Fault Refusal :=
  s.when_ (s.blocksUp && (!s.gated c && !s.power.stbySeq)) (fun s =>
    match s.txBurst c ct with
    | (s1, some x) => s1.enterMortar c x
    | (s1, none) => s1)

end Sys2Proof.Machine
end

