-- ==== Sys2Proof/Machine/Urral.lean ====
section
/-! DEFINITION. The Urral link: port states, ring transit, formation, the lease, checkpoints and role swaps (R393 to R403,
R410, R412 to R420). -/

namespace Sys2Proof.Machine

def State.modUrral (s : State) (f : Urral → Urral) : State := { s with urral := f s.urral }
def State.urrPort (s : State) (k : Fin 4) : UrrPort := s.urral.ports[k]
def State.modUrrPort (s : State) (k : Fin 4) (f : UrrPort → UrrPort) : State :=
  s.modUrral (fun u => { u with ports := u.ports.set k (f u.ports[k]) })
def State.chainSend (s : State) (o : UrrOut) : State := { s with chainOut := s.chainOut ++ [o] }

/-- URR_CFG, PAIR_CFG (R420). -/
def State.urrCfg (s : State) : Reg32 := s.reg 0x600000
def State.pairCfg (s : State) : Reg32 := s.reg 0x600010
/-- Uk is enabled (R420). -/
def State.urrEn (s : State) (k : Fin 4) : Bool := bit s.urrCfg k.val
/-- The ports in end role (R420). -/
def State.endPorts (s : State) : List (Fin 4) := (List.finRange 4).filter (fun k => s.urrEn k && (s.urrPort k).endRole)
/-- The other port of a ring pair. -/
def pairMate (k : Fin 4) : Fin 4 := if k = 0 then 1 else if k = 1 then 0 else if k = 2 then 3 else 2
/-- The port passes frames. -/
def UrrPort.up (p : UrrPort) : Bool := decide (p.st = .healthy) || decide (p.st = .looped)

/-! ### Role and hold (R416, R424) -/

/-- HOST_CAUSE.ROLE in both functions. -/
def State.roleCause (s : State) : State := (s.raiseCause false 0x1000).raiseCause true 0x1000

/-- The role becomes r. -/
def State.setRole (s : State) (r : UrrRole) : State :=
  let s1 := s.modUrral (fun u => { u with role := r })
  if s.urral.role = r then s1 else s1.roleCause

/-- Outputs are held, or no longer (R416). -/
def State.setHold (s : State) (h : Bool) : State :=
  let s1 := s.modUrral (fun u => { u with hold := h })
  if s.urral.hold = h then s1 else (if h then s1.fieldHold else s1).roleCause

/-- A ring pair is healthy (R395): pair A is U0 and U1, pair B U2 and U3. -/
def State.pairHealthy (s : State) (b : Bool) : Bool :=
  let x := s.urrPort (if b then 2 else 0)
  let y := s.urrPort (if b then 3 else 1)
  !x.endRole && (!y.endRole && ((x.up || y.up) && (decide (x.st ≠ .fault) && decide (y.st ≠ .fault))))

/-! ### Bypass drive (R48 to R51) -/

/-- Courses gated for DOZE: not the one whose replay waits for its feeder (R67, R495). -/
def State.gatedCourses (s : State) : BitVec 13 :=
  BitVec.ofFnLE (fun c => s.gated c && !(s.replay.starving && decide (s.replay.course = c)))

/-- Some block is gated for DOZE: the device is in DOZE (R64, R70). -/
def State.dozing (s : State) : Bool :=
  decide (s.gatedCourses ≠ 0) || (decide (s.power.doze.cans ≠ 0) || decide (s.power.doze.ports ≠ 0))

/-- The device is in ACTIVE (R64). -/
def State.active (s : State) : Bool :=
  decide (s.power.supply = .on) && (!s.dozing && (!s.power.stbySeq && !s.power.stbyReady))

/-- Why the bypass pin of a pair may not be driven high: the lowest code that holds, 0 for none (R48, R51). -/
def State.bypCause (s : State) (b : Bool) : Nat :=
  if s.active = false then 1
  else if s.power.phase ≠ .running then 2
  else if s.pairHealthy b = false then 3
  else if bit (s.reg 0x60) (b2n b) then 4
  else if s.tick < (if b then s.pins.bypBLow else s.pins.bypALow) then 5
  else if s.power.tap.extestClass then 6
  else if s.power.fault then 7
  else 0

/-- A pin whose condition fails goes low (R49). -/
def State.bypDrop (s : State) : State :=
  let a := s.pins.bypA && decide (s.bypCause false ≠ 0)
  let b := s.pins.bypB && decide (s.bypCause true ≠ 0)
  { s with pins := { s.pins with
    bypA := s.pins.bypA && !a, bypALow := if a then s.tick + 10 else s.pins.bypALow,
    bypB := s.pins.bypB && !b, bypBLow := if b then s.tick + 10 else s.pins.bypBLow } }

/-- A pin is raised at the first management tick at which every condition holds (R48). -/
def State.bypRaise (s : State) : State :=
  { s with pins := { s.pins with bypA := s.pins.bypA || decide (s.bypCause false = 0), bypB := s.pins.bypB || decide (s.bypCause true = 0) } }

/-- BYP_CTRL (R51). -/
def State.bypCtrl (s : State) : Reg32 :=
  let cause := fun (b pin : Bool) => if pin then 0 else s.bypCause b
  BitVec.ofNat 32 (cause true s.pins.bypB * 2 ^ 20 + cause false s.pins.bypA * 65536 + b2n s.pins.bypB * 512 + b2n s.pins.bypA * 256) |||
    (s.reg 0x60 &&& 3)

/-! ### Ports (R394, R395, R400) -/

/-- A port becomes `st` and stops passing frames: a worker wraps, the mortar's port goes down, the time source is chosen
again (R394, R400, R345). -/
def State.urrDown (s : State) (k : Fin 4) (st : UrrState) : State :=
  let s1 := s.modUrrPort k (fun p => { p with st := st, hello := false, times := 0, since := s.now, wrapped := !p.endRole })
  ((s1.portDown (portU k)).updateSource).bypDrop

/-- URRAL_SIGNAL_LOSS (R394). -/
def State.signalLoss (s : State) (k : Fin 4) : State := s.urrDown k .down

/-- URRAL_SIGNAL_DETECT (R394). -/
def State.signalDetect (s : State) (k : Fin 4) : State :=
  s.modUrrPort k (fun p => { p with st := .training, since := s.now, hello := false, times := 0 })

/-- A header or CRC error; more than 16 in a management tick are a fault (R394, R398). -/
def State.urrError (s : State) (k : Fin 4) : State :=
  let s1 := s.modUrrPort k (fun p => { p with errs := p.errs + 1, crc := satInc p.crc })
  if 16 < (s1.urrPort k).errs then s1.urrDown k .fault else s1

/-- URRAL_HEALTHY (R394): the wrap ends. -/
def State.urrHealthy (s : State) (k : Fin 4) (looped : Bool) : State :=
  (((s.modUrrPort k (fun p => { p with st := if looped then .looped else .healthy, wrapped := false })).loadDelays (portU k)).portUp
    (portU k) 0).updateSource

/-! ### Frames (R398, R399) -/

/-- One bit of a CRC-16 register, polynomial 0x1021. -/
def crc16Bit (c : BitVec 16) (b : Bool) : BitVec 16 :=
  if c.getLsbD 15 != b then (c <<< 1) ^^^ 0x1021 else c <<< 1
/-- HCRC (R398): preset 0xFFFF, most significant bit first. -/
def crc16 (l : List Byte) : BitVec 16 :=
  l.foldl (fun c x => (List.range 8).foldl (fun c i => crc16Bit c (x.getLsbD (7 - i))) c) 0xFFFF

/-- One bit of the reflected IEEE 802.3 CRC. -/
def crc32Bit (c : BitVec 32) (b : Bool) : BitVec 32 :=
  if c.getLsbD 0 != b then (c >>> 1) ^^^ 0xEDB88320 else c >>> 1
/-- The IEEE 802.3 FCS of a list of bytes, as a number (R398). -/
def crc32 (l : List Byte) : BitVec 32 :=
  ~~~ (l.foldl (fun c x => (List.range 8).foldl (fun c i => crc32Bit c (x.getLsbD i)) c) (0xFFFFFFFF : BitVec 32))

/-- The header and both checks of a frame hold (R398). -/
def frameOk (l : List Byte) : Bool :=
  decide (16 ≤ l.length) && (decide (crc16 (l.take 10) = BitVec.ofNat 16 (beNat ((l.drop 10).take 2))) &&
    decide (crc32 (l.take (l.length - 4)) = BitVec.ofNat 32 (beNat (l.drop (l.length - 4)))))

/-- Epoch a is newer than b, or older (R413). -/
def epochNewer (a b : BitVec 8) : Bool := decide (1 ≤ (a - b).toNat ∧ (a - b).toNat ≤ 127)
def epochOlder (a b : BitVec 8) : Bool := decide (128 ≤ (a - b).toNat)

/-- The port by which a frame that came in on k leaves: an end turns it around, a wrap turns it back (R396, R399, R400). -/
def State.transitOut (s : State) (k : Fin 4) : Fin 4 :=
  if (s.urrPort k).endRole ∨ (s.urrPort (pairMate k)).wrapped then k else pairMate k

/-- The frame with its TTL reduced, and both checks made again (R398). -/
def hopFrame (l : List Byte) : List Byte :=
  let h := l.take 6 ++ (toBe 1 (byteAt l 6 - 1) ++ (l.drop 7).take 3)
  let b := h ++ (toBe 2 (crc16 h).toNat ++ (l.drop 12).take (l.length - 16))
  b ++ toBe 4 (crc32 b).toNat

/-- A frame goes on in ring transit, unless its TTL runs out (R398, R399). -/
def State.transit (s : State) (k : Fin 4) (l : List Byte) : State :=
  if byteAt l 6 ≤ 1 then s
  else
    let o := s.transitOut k
    (s.modUrrPort o (fun p => { p with txf := satInc p.txf })).chainSend (.transit o (hopFrame l))

/-- A frame is dropped for its chain or its epoch (R398, R413): kind 3, CTRL, is left to its own commands. -/
def State.frameStale (s : State) (l : List Byte) : Bool :=
  (decide (byteAt l 0 / 16 ≠ 3) && (match s.urral.chainId with
    | some c => decide (c.toNat ≠ beAt l 8 2)
    | none => false)) ||
  (s.urral.heard && epochOlder (BitVec.ofNat 8 (byteAt l 7)) s.urral.mepoch)

/-- The payload of a DATA frame reaches the mortar (R398, R403). -/
def State.takeData (s : State) (k : Fin 4) (l : List Byte) : State :=
  let (r, s1) := s.fresh
  if byteAt l 0 / 16 = 1 then s1.receive (portU k) ((l.drop 12).take (beAt l 4 2)) .good (r % 512) else s

/-- URRAL_FRAME_RECEIVE (R398, R399): checked, and taken, forwarded or dropped. What a TIME, CTRL, ACCESS or MSG frame says
is a command of its own. -/
def State.urrReceive (s : State) (k : Fin 4) (l : List Byte) : State :=
  if frameOk l = false then s.urrError k
  else
    let s1 := s.modUrrPort k (fun p => { p with rxf := satInc p.rxf })
    let kind := byteAt l 0 / 16
    let dst := byteAt l 1
    let mine := s.urral.numbered && decide (dst = s.urral.devnum.val)
    if byteAt l 0 % 16 ≠ 1 ∨ kind = 0 ∨ 5 < kind ∨ l.length ≠ beAt l 4 2 + 16 ∨ s.frameStale l = true then s1
    else
      let s2 := if mine || decide (dst = 0xFF) then s1.takeData k l else s1
      if mine ∨ kind = 2 then s2 else s2.transit k l

/-! ### Formation (R401 to R403) -/

/-- A claim ranks above another (R401). -/
def claimAbove (a b : Claim) : Bool :=
  if a.leaseHeld != b.leaseHeld then a.leaseHeld
  else if a.mepoch ≠ b.mepoch then epochNewer a.mepoch b.mepoch
  else if a.prio ≠ b.prio then decide (a.prio < b.prio) else decide (a.uid < b.uid)

/-- A CTRL frame with a newer epoch: the device adopts it, and a manager gives its role up (R413). -/
def State.adoptEpoch (s : State) (e : BitVec 8) : State :=
  if epochNewer e s.urral.mepoch then
    let s1 := s.modUrral (fun u => { u with mepoch := e })
    if s.urral.role = .manager then
      (s1.modUrral (fun u => { u with renewing := false, swap := .none, handoff := false })).setRole .standby
    else s1
  else s

/-- A claim received (R401, R403). -/
def State.takeClaim (s : State) (k : Fin 4) (c : Claim) : State :=
  let s0 := if s.urral.role = .worker ∨ s.urral.role = .forming then
      (if (s.urrPort k).endRole then s else s.chainSend (.claim (s.transitOut k) c)) else s
  let s1 := s0.adoptEpoch c.mepoch
  let s2 := match s1.urral.claim with
    | some (own, _) =>
      if claimAbove c own then (s1.modUrral (fun u => { u with claim := none })).setRole (if s1.urral.cap = 2 then .standby else .worker) else s1
    | none => s1
  match s2.urral.best with
  | some (b, t) =>
    if c = b then (if t + 2 ≤ s.tick ∧ s2.urral.leaseOk = false then s2.modUrral (fun u => { u with mgrDev := c.src }) else s2)
    else if claimAbove c b then s2.modUrral (fun u => { u with best := some (c, s.tick) }) else s2
  | none => s2.modUrral (fun u => { u with best := some (c, s.tick) })

/-- CLAIM_WIN (R401, R402, R415): three ticks without a higher claim. At formation the device becomes device 0 and numbers
its chains. -/
def State.claimWin (s : State) (c : Claim) : State :=
  let s1 := (s.modUrral (fun u => { u with claim := none, mepoch := c.mepoch, swapFrom := s.tick })).setRole .manager
  match s.urral.chainId with
  | some _ => s1.modUrral (fun u => { u with mgrDev := u.devnum })
  | none =>
    let id := s.uid.extractLsb' 0 16
    let s2 := s1.modUrral (fun u => { u with devnum := 0, numbered := true, mgrDev := 0, chainId := some id, renewing := true })
    s2.endPorts.foldl (fun s k => s.chainSend (.enum k 1 id)) s2

/-- ENUM (R402): a worker takes the number that comes from device 0, on U0 (R396), and passes the next one on; a reflected ENUM only
passes it (log 74, DEDUCED); the far end reflects it; the manager reads its chain's
length from the reflection, and CHAIN_FULL from a count of 61 on a paired chain or 62 on another. Whether number 62 lies on a paired
chain is more than a worker is told: a free value (log 26). -/
def State.takeEnum (s : State) (k : Fin 4) (number : BitVec 8) (id : BitVec 16) : State :=
  match s.urral.role with
  | .manager =>
    let s1 := s.modUrrPort k (fun p => { p with devs := BitVec.ofNat 6 (number.toNat - 1) })
    if (if s.urral.cap = 2 then 62 else 63) ≤ number.toNat then s1.event .chainFull true 0 [k.val, number.toNat] else s1
  | .standby =>
    (s.modUrral (fun u => { u with devnum := 63, numbered := true, chainId := some id })).chainSend (.enum k number id)
  | _ =>
    let (r, s0) := s.fresh
    let n := number.toNat
    let takes := decide (n < 62) || (decide (n = 62) && decide (r % 2 = 0))
    let s1 := s0.modUrral (fun u => { u with chainId := some id })
    if k ≠ 0 then s.chainSend (.enum (s.transitOut k) number id)
    else if h : takes = true ∧ n < 64 then
      ((s1.modUrral (fun u => { u with devnum := ⟨n, h.2⟩, numbered := true })).setRole .worker).chainSend
        (.enum (s.transitOut k) (number + 1) id)
    else (s1.setRole .worker).chainSend (.enum (s.transitOut k) number id)

/-- HELLO (R394, R401, R420). -/
def State.takeHello (s : State) (k : Fin 4) (h : HelloInfo) : State :=
  s.modUrrPort k (fun p => { p with hello := true, peer := h.dev })

/-! ### The lease (R412, R413, R415) -/

/-- A renewal is seen or made: the lease is in force, and outputs are released (R412, R416). -/
def State.renewal (s : State) (pin link : Bool) : State :=
  let same := decide (s.urral.renewed = s.tick) && s.urral.leaseOk
  (s.modUrral (fun u => { u with leaseOk := true, renewed := s.tick, best := none, pinSeen := pin || (same && u.pinSeen),
                                 linkSeen := link || (same && u.linkSeen) })).setHold false

/-- LEASE (R403, R412, R413): the first one after a start is adopted without comparison. -/
def State.takeLease (s : State) (src : Fin 64) (e : BitVec 8) (id : BitVec 16) : State :=
  let u := s.urral
  let other := match u.chainId with
    | some c => decide (c ≠ id)
    | none => false
  if u.heard = false then
    let s1 := s.modUrral (fun u => { u with heard := true, mepoch := e, chainId := some id, mgrDev := src, claim := none })
    (s1.setRole (if u.cap = 2 then .standby else .worker)).renewal false true
  else if other = true ∨ epochOlder e u.mepoch = true then s
  else ((s.adoptEpoch e).modUrral (fun u => { u with mgrDev := src })).renewal false true

/-- The manager renews: a LEASE on each end-role port, and LEASE_OUT toggles (R412). -/
def State.leaseRenew (s : State) : State :=
  let s1 := s.endPorts.foldl (fun s k => s.chainSend (.lease k s.urral.mepoch (s.urral.chainId.getD 0))) s
  let s2 := { s1 with pins := { s1.pins with leaseOut := !s1.pins.leaseOut } }
  (s2.modUrral (fun u => { u with renewing := true, ready := false })).renewal false false

/-- LEASE_RENEWAL: every second tick, or the first after READY (R412, R415). -/
def State.mayRenew (s : State) : Bool :=
  let u := s.urral
  decide (u.role = .manager) && (if u.renewing then decide (u.renewed + 2 ≤ s.tick) else u.ready)

/-- LEASE_LAPSE (R412, R415, R416): outputs are held, and a standby claims with the next epoch. -/
def State.leaseLapse (s : State) : State :=
  let s1 := (s.modUrral (fun u => { u with leaseOk := false, ready := false, best := none })).setHold true
  if s.urral.role = .standby then
    let c : Claim := { src := s.urral.devnum, leaseHeld := false, mepoch := s.urral.mepoch + 1, prio := s.urral.prio, uid := s.uid }
    s1.endPorts.foldl (fun s k => s.chainSend (.claim k c)) (s1.modUrral (fun u => { u with claim := some (c, s.tick) }))
  else s1

/-- RESTORE_LATE (R415). -/
def State.restoreLate (s : State) : State :=
  ((s.modUrral (fun u => { u with restoreLate := true })).event .restoreLate true 0 []).leaseRenew

/-! ### Checkpoints and role swaps (R414, R417) -/

/-- CKPT (R414): a complete checkpoint with a correct digest goes to the host ring; its transport is not split up (log 27). -/
def State.takeCkpt (s : State) (seq : Word) (data : List Byte) (digest : BitVec 512) : State :=
  if Config.sha512 data = digest then
    let ring : Fin 64 := ⟨bits s.pairCfg 15 8 % 64, by omega⟩
    let info : FrameMeta := { ingress := 36, cls := 0, err := false, tsValid := false, td := false, ts := 0 }
    let f : Frame := { id := s.mortar.nextId, bytes := data, total := data.length, info := info, lso := none, ring := some ring,
                       cells := [], full := some s.now, overAt := none, segs := 0, txOf := none }
    let e : QEntry := { frame := f, out := portH, cls := 0, input := portH, fc := none, ct := false, charge := 0, sent := 0 }
    { s with mortar := { s.mortar with toHost := s.mortar.toHost ++ [e], nextId := s.mortar.nextId + 1 }
             urral := { s.urral with ckptSeq := seq } }
  else s

/-- The manager sends a checkpoint; the final one of a swap is followed by HANDOFF, and renewals stop (R414, R417). -/
def State.sendCkpt (s : State) (seq : Word) (data : List Byte) : State :=
  let s1 := (s.modUrral (fun u => { u with ckptSent := seq })).chainSend (.ckpt seq data (Config.sha512 data))
  if s.urral.swap = .checkpoint then
    (s1.modUrral (fun u => { u with swap := .handed s.tick, renewing := false, ready := false })).chainSend (.handoff seq)
  else s1

/-- A swap starts: the host is asked for the final checkpoint (R417; log 28). -/
def State.startSwap (s : State) : State :=
  if s.urral.role = .manager ∧ s.urral.swap = .none then
    (s.modUrral (fun u => { u with swap := .checkpoint, swapFrom := s.tick, swapFail := false })).raiseCause true 0x800
  else s

/-- SWAP_FAIL (R417). -/
def State.swapFail (s : State) (cause : Option (BitVec 8)) : State :=
  let args := match cause with
    | some c => [c.toNat]
    | none => []
  ((s.modUrral (fun u => { u with swap := .none, swapFail := true })).event .swapFail true 0 args).leaseRenew

/-- PAIR_CTRL.READY (R415, R417): in a swap the standby takes the role with the next epoch. -/
def State.pairReady (s : State) : State :=
  if s.urral.handoff ∧ s.urral.role = .standby then
    let e := s.urral.mepoch + 1
    let c : Claim := { src := s.urral.devnum, leaseHeld := true, mepoch := e, prio := s.urral.prio, uid := s.uid }
    let s1 := s.modUrral (fun u => { u with handoff := false, ready := true, renewing := false, mepoch := e, mgrDev := u.devnum, swapFrom := s.tick })
    (s1.endPorts.foldl (fun s k => s.chainSend (.claim k c)) s1).setRole .manager
  else s.modUrral (fun u => { u with ready := true })

/-! ### The tick (R401, R413) -/

/-- A candidate that holds no role may claim: it has found no LEASE for 3 ticks (R401, R413). -/
def State.mayClaim (s : State) : Bool :=
  let u := s.urral
  decide (u.cap = 1 ∨ u.cap = 2) && (decide (u.role = .forming) && (!u.heard && (u.claim.isNone && decide (u.started + 3 ≤ s.tick))))

/-- What the link does at a management tick: HELLO on each enabled port, and the claim on each end-role port. -/
def State.urralTick (s : State) : State :=
  let s0 := s.modUrral (fun u => { u with ports := u.ports.map (fun (p : UrrPort) => { p with errs := 0 }) })
  let s1 := if s0.mayClaim then
      s0.modUrral (fun u => { u with claim := some ({ src := u.devnum, leaseHeld := false, mepoch := u.mepoch, prio := u.prio, uid := s.uid }, s.tick) })
    else s0
  let s2 := (List.finRange 4).foldl (fun s k =>
    if s.urrEn k then s.chainSend (.hello k s.uid s.urral.cap s.urral.prio (s.urrPort k).endRole) else s) s1
  match s2.urral.claim with
  | some (c, _) => s2.endPorts.foldl (fun s k => s.chainSend (.claim k c)) s2
  | none => s2

/-- The link starts: CAP, PRIO and END come into force (R413, R420). -/
def State.urralStart (s : State) : State :=
  let c := s.urrCfg
  s.modUrral (fun u => { u with cap := c.extractLsb' 30 2, prio := c.extractLsb' 16 8, started := s.tick,
                                ports := Vector.ofFn (fun k => { u.ports[k] with endRole := bit c (8 + k.val) }) })

/-! ### Registers (R420) -/

/-- URR_STATUS. -/
def State.urrStatus (s : State) : Reg32 :=
  let u := s.urral
  let r := match u.role with
    | .forming => 0 | .worker => 1 | .manager => 2 | .standby => 3
  BitVec.ofNat 32 (r * 2 ^ 30 + u.devnum.val * 2 ^ 24 + u.mepoch.toNat * 65536 + u.mgrDev.val * 1024 + b2n u.hold * 512 + b2n u.leaseOk * 256)

/-- PAIR_STATUS. -/
def State.pairStatus (s : State) : Reg32 :=
  let u := s.urral
  let left := if u.leaseOk then 8 - (s.tick - u.renewed) else 0
  BitVec.ofNat 32 (left * 2 ^ 24 + b2n u.pinSeen * 2 ^ 23 + b2n u.linkSeen * 2 ^ 22 + b2n u.restoreLate * 2 ^ 21 + b2n u.swapFail * 2 ^ 20 +
    u.ckptSeq.toNat)

/-- URR_PSTAT. -/
def UrrPort.status (p : UrrPort) : Reg32 :=
  let st := match p.st with
    | .down => 0 | .training => 1 | .fault => 2 | .healthy => 3 | .looped => 4
  BitVec.ofNat 32 (st * 2 ^ 29 + b2n p.endRole * 2 ^ 28 + b2n p.wrapped * 2 ^ 27 + p.peer.val * 65536 + p.devs.toNat)

/-- URR_CFG is written: EN acts at once (R420). -/
def State.urrCfgWrite (s : State) (v : Reg32) : State :=
  let s1 := s.setReg 0x600000 (v &&& 0xC0FF0F0F)
  (List.finRange 4).foldl (fun s k => if bit v k.val = false ∧ (s.urrPort k).st ≠ .down then s.signalLoss k else s) s1

/-- PAIR_CFG is written: a field out of its range is ignored. -/
def State.pairCfgWrite (s : State) (v : Reg32) : State :=
  let old := s.pairCfg
  let m := if 60 ≤ bits v 31 16 ∧ bits v 31 16 ≤ 10080 then bits v 31 16 else bits old 31 16
  let r := if 32 ≤ bits v 15 8 ∧ bits v 15 8 ≤ 63 then bits v 15 8 else bits old 15 8
  s.setReg 0x600010 (BitVec.ofNat 32 (m * 65536 + r * 256))

/-- A write in the Urral block: PF1's and the keystone's alone. -/
def State.urralWrite (s : State) (p : Party) (o : Nat) (v : Reg32) : State :=
  if (p.isPf1 || decide (p = .keystone)) = false then s.refused p (0x600000 + o) v.toNat
  else if o = 0x00 then s.urrCfgWrite v
  else if o = 0x10 then s.pairCfgWrite v
  else if o = 0x14 then
    let s1 := if bit v 1 then s.pairReady else s
    if bit v 2 then s1.startSwap else s1
  else if o = 0x20 then s.setReg 0x600020 (v &&& 0xFFFF)
  else if o = 0x30 then (if bits v 7 0 = 0 then s else s.setReg 0x600030 (v &&& 0xFF))
  else if o = 0x34 then s.setReg 0x600034 v
  else s

/-- A read in the Urral block. -/
def State.urralRead (s : State) (o : Nat) : Reg32 × State :=
  if o = 0x04 then (s.urrStatus, s) else if o = 0x14 then (0, s) else if o = 0x18 then (s.pairStatus, s)
  else if h : 0x100 ≤ o ∧ o < 0x200 then
    let k : Fin 4 := ⟨(o - 0x100) / 0x40, by omega⟩
    let p := s.urrPort k
    let r := o % 0x40
    if r = 0 then (p.status, s)
    else if r = 0x10 then (p.txf, s.modUrrPort k (fun p => { p with txf := 0, txfShadow := p.txf }))
    else if r = 0x14 then (p.rxf, s.modUrrPort k (fun p => { p with rxf := 0, rxfShadow := p.rxf }))
    else if r = 0x18 then (p.crc, s.modUrrPort k (fun p => { p with crc := 0, crcShadow := p.crc }))
    else if r = 0x1C then (p.late, s.modUrrPort k (fun p => { p with late := 0, lateShadow := p.late }))
    else (0, s)
  else (s.reg (0x600000 + o), s)

end Sys2Proof.Machine
end

