-- ==== Sys2Proof/Machine/Images.lean ====
section
/-! DEFINITION. Atior images: the container, the sections, and the checks of a load (R233 to R239, R243 to R248, R448, R451,
R454, R455). -/

namespace Sys2Proof.Machine

/-! ### The container (R233 to R236) -/

/-- A little-endian number of n bytes at offset k. -/
def imgNat (l : List Byte) (k n : Nat) : Nat := leNat ((l.drop k).take n)
/-- n bytes from offset k on are zero. -/
def imgZero (l : List Byte) (k n : Nat) : Bool := ((l.drop k).take n).all (fun b => decide (b = 0))
/-- 64 bytes as a digest, the first byte highest. -/
def digestOf (l : List Byte) : BitVec 512 := BitVec.ofNat 512 (beNat (l.take 64))

/-- A section table entry (R235). -/
structure Sect where
  typ    : Nat
  target : Nat
  off    : Nat
  len    : Nat
  load   : Nat
  digest : BitVec 512
deriving DecidableEq, Repr

/-- SECT_COUNT. -/
def sectCount (l : List Byte) : Nat := imgNat l 8 2
/-- Section table entry k (R235). -/
def sectAt (l : List Byte) (k : Nat) : Sect :=
  let e := 0x100 + 96 * k
  { typ := imgNat l e 2, target := imgNat l (e + 2) 2, off := imgNat l (e + 4) 4, len := imgNat l (e + 8) 4,
    load := imgNat l (e + 12) 4, digest := digestOf (l.drop (e + 0x20)) }
/-- The sections in order. -/
def sectionsOf (l : List Byte) : List Sect := (List.range (sectCount l)).map (sectAt l)
/-- The LENGTH bytes of a section. -/
def Sect.bytes (x : Sect) (l : List Byte) : List Byte := (l.drop x.off).take x.len
/-- The bytes of the sections of a type, in order. -/
def typeBytes (l : List Byte) (typ : Nat) : List Byte := ((sectionsOf l).filter (fun x => decide (x.typ = typ))).flatMap (fun x => x.bytes l)
/-- Records of n bytes. -/
def recordsOf (n : Nat) (l : List Byte) : List (List Byte) := (List.range (l.length / n)).map (fun k => (l.drop (n * k)).take n)

/-- The image digest (R236). -/
def imageDigest (l : List Byte) : BitVec 512 := Config.sha512 (l.take (256 + 96 * sectCount l))

/-- What attestation reports of an image (R470). -/
def imageId (l : List Byte) : ImageId :=
  { kind := imgNat l 6 1, svn := imgNat l 0x12 2, network := imgNat l 0x10 2, version := BitVec.ofNat 32 (imgNat l 0x14 4), digest := imageDigest l }

/-- Byte offset of signature entry i (R233, R236). -/
def sigAt (l : List Byte) (i : Nat) : Nat := imgNat l 0x0C 4 - 140 * imgNat l 7 1 + 140 * i

/-- The header of an image of a kind is correct: check 2 of R246 on R234. -/
def headerOk (kind : Nat) (l : List Byte) : Bool :=
  decide (l.take 4 = [0x41, 0x54, 0x49, 0x52]) && (decide (imgNat l 4 2 = 1) && (decide (imgNat l 6 1 = kind) &&
  (decide (imgNat l 7 1 = (if kind = 1 then 2 else 1)) && (decide (1 ≤ sectCount l ∧ sectCount l ≤ 32) &&
  (decide (imgNat l 0x0C 4 = l.length ∧ 256 + 96 * sectCount l + 140 * imgNat l 7 1 ≤ l.length) &&
  (imgZero l 0x0A 2 && (imgZero l 0x1C 4 && (imgZero l 0xC0 64 && ((decide (kind = 4) || imgZero l 0x20 64) &&
  ((decide (kind = 2 ∨ kind = 3) || imgZero l 0x10 2) &&
  (List.range (imgNat l 7 1)).all (fun i => imgZero l (sigAt l i + 4) 4)))))))))))

/-- Section k lies where and as it must: check 2 of R246 on R235. -/
def sectOk (l : List Byte) (k : Nat) : Bool :=
  let x := sectAt l k
  let apart := fun (y : Sect) => decide (x.off + x.len ≤ y.off ∨ y.off + y.len ≤ x.off)
  decide (x.off % 64 = 0) && (decide (256 + 96 * sectCount l ≤ x.off ∧ x.off + x.len ≤ sigAt l 0) &&
  (imgZero l (0x100 + 96 * k + 0x10) 16 && ((decide (x.typ = 1 ∨ x.typ = 2 ∨ x.typ = 7) || decide (x.target = 0)) &&
  ((decide (x.typ = 1 ∨ x.typ = 3 ∨ x.typ = 7) || decide (x.load = 0)) && (List.range k).all (fun j => apart (sectAt l j))))))

/-- The first index below n that fails. -/
def firstBad (p : Nat → Bool) (n : Nat) : Option Nat := (List.range n).find? (fun k => !p k)

/-- Check 2 of R246: the index of the section at fault, 0 for the header. -/
def formatBad (kind : Nat) (l : List Byte) : Option Nat := if headerOk kind l then firstBad (sectOk l) (sectCount l) else some 0

/-- Check 5 of R246: the first section whose SHA-512 is not its DIGEST. -/
def digestBad (l : List Byte) : Option Nat := firstBad (fun k => decide (Config.sha512 ((sectAt l k).bytes l) = (sectAt l k).digest)) (sectCount l)

/-! ### Keys, floors, revision (R447, R448, R451, R455) -/

/-- Slot 1 of the owner key is fused (R447). -/
def State.ownerSlot (s : State) : Nat := if bit (s.otpWord 36) 0 then 1 else 0

/-- The owner key digest in force: bytes of the OTP words, low byte first (R447, R448; log 9). -/
def State.ownerDigest (s : State) : BitVec 512 :=
  digestOf ((List.range 16).flatMap (fun k => toLe 4 (s.otpWord (4 + 16 * s.ownerSlot + k)).toNat))

/-- The owner public key: the owner key record in flash (R448, R450). -/
def State.ownerKey (s : State) : List Byte := Memory.readBytes flashBlank s.flash 0x2000 132

/-- A signature entry verifies under a public key (R236). -/
def sigOk (l : List Byte) (i key : Nat) (pub : List Byte) : Bool :=
  decide (imgNat l (sigAt l i) 4 = key) && Config.ecdsaVerify pub (imageDigest l) ((l.drop (sigAt l i + 8)).take 132)

/-- An owner signature verifies: the record must hash to the digest in force (R448). -/
def State.ownerSigOk (s : State) (l : List Byte) : Bool :=
  decide (Config.sha512 s.ownerKey = s.ownerDigest) && sigOk l 0 0 s.ownerKey

/-- Bits set in a pair of OTP words (R455). -/
def State.thermometer (s : State) (w : Nat) : Nat := ones (s.otpWord w) 32 + ones (s.otpWord (w + 1)) 32

/-- The SVN floor of an image kind (R455). -/
def State.svnFloor (s : State) (kind : Nat) : Nat := if kind = 1 then s.thermometer 37 else s.thermometer 39

/-- Checks 2 to 7 of R246 on an image of a kind: the status and the section at fault. In MANUFACTURE the owner's key is not
fused, and its check and signature are left out (R451). -/
def State.imageBad (s : State) (kind : Nat) (l : List Byte) : Option (Nat × Nat) :=
  let made := decide (s.lifecycle = .manufacture)
  let signed := (made || s.ownerSigOk l) && (decide (kind ≠ 1) || sigOk l 1 1 Config.oliazKey)
  match formatBad kind l, digestBad l with
  | some k, _ => some (5, k)
  | none, d =>
    if made = false ∧ digestOf (l.drop 0x60) ≠ s.ownerDigest then some (6, 0)
    else if signed = false then some (7, 0)
    else match d with
      | some k => some (8, k)
      | none =>
        if imgNat l 0x12 2 < s.svnFloor kind then some (9, 0)
        else if 1 < imgNat l 0x18 2 ∨ bits s.devId 15 8 < imgNat l 0x1A 1 ∨ (imgNat l 0x1B 1 ≠ 0xFF ∧ imgNat l 0x1B 1 < bits s.devId 15 8)
        then some (10, 0)
        else none

/-! ### Section rules (R237 to R239) -/

/-- The kinds that allow a section type (R237). -/
def typeAllowed (kind typ : Nat) : Bool :=
  if kind = 1 then decide (typ = 7) else if kind = 2 then decide (1 ≤ typ ∧ typ ≤ 6) else if kind = 3 then decide (typ = 5)
  else if kind = 4 then decide (typ = 8) else decide (typ = 9)

/-- The words of a byte string, low byte first. -/
def wordsOfBytes (l : List Byte) : List Word := (List.range (l.length / 2)).map (fun k => BitVec.ofNat 16 (imgNat l (2 * k) 2))

/-- The instruction transfers control (R118). -/
def BInstr.transfers : BInstr → Bool
  | .br .. | .jmp .. | .call .. | .jr .. | .callr .. | .ret | .rett => true
  | _ => false

/-- The slot of two words holds a control transfer (R138). -/
def slotOk (w w2 : Word) : Bool :=
  match decodeBrick w w2 with
  | some i => i.transfers || (decide (i.length = 1) && (match decodeBrick w2 0 with
    | some j => j.transfers && decide (j.length = 1)
    | none => false))
  | none => false

/-- A BRICK_CODE section has a control transfer in every vector slot (R138, R238). -/
def slotsOk (x : Sect) (l : List Byte) : Bool :=
  let w := fun (a : Nat) => if x.load ≤ a then nth (wordsOfBytes (x.bytes l)) (a - x.load) 0xFFFF else 0xFFFF
  (List.range 7).all (fun k => slotOk (w (2 * k)) (w (2 * k + 1)))

/-- RESOURCES has its reserved fields zero and its numbers in range (R239). -/
def resourcesOk (r : List Byte) : Bool :=
  let n := fun (k : Nat) => (nth r k 0).toNat
  decide (n 2 < 16) && (decide (n 3 / 4 % 16 = 0) && (decide (n 0x18 ≤ 8 ∧ n 0x1A ≤ 8 ∧ n 0x1B ≤ 4 ∧ n 0x1F ≤ 4 ∧ n 0x20 ≤ 4 ∧ n 0x21 ≤ 32) &&
    (imgZero r 0x22 2 && imgZero r 0x28 24)))

/-- Section k of a protocol image obeys R237 and R238: TARGET, LOAD and LENGTH, and what may stand only once. -/
def protoSectOk (l : List Byte) (k : Nat) : Bool :=
  let x := sectAt l k
  let before := (List.range k).map (sectAt l)
  let r := typeBytes l 4
  typeAllowed 2 x.typ && (
    if x.typ = 1 then
      decide (x.target < 4 ∧ x.len % 2 = 0 ∧ x.load + x.len / 2 ≤ 0x2000) && (bit (nth r 2 0) x.target && (slotsOk x l &&
        before.all (fun y => decide (y.typ ≠ 1 ∨ y.target ≠ x.target))))
    else if x.typ = 2 then
      decide (x.target < 16 ∧ x.len = 72) && bit (BitVec.ofNat 16 (imgNat r 0 2)) x.target
    else if x.typ = 3 then
      decide (x.len % 2 = 0 ∧ x.len ≤ 131072 ∧ x.load + x.len / 2 ≤ 65536) &&
        before.all (fun y => decide (y.typ ≠ 3 ∨ x.load + x.len / 2 ≤ y.load ∨ y.load + y.len / 2 ≤ x.load))
    else if x.typ = 4 then decide (x.len = 64) && (resourcesOk (x.bytes l) && before.all (fun y => decide (y.typ ≠ 4)))
    else if x.typ = 5 then decide (x.len % 12 = 0)
    else decide (x.len = 32) && (imgZero (x.bytes l) 0x18 8 && before.all (fun y => decide (y.typ ≠ 6))))

/-- A section of a type with a target is there. -/
def hasSect (l : List Byte) (typ target : Nat) : Bool := (sectionsOf l).any (fun x => decide (x.typ = typ ∧ x.target = target))

/-- Check 8 of R246: the section at fault, 0 when one is missing. -/
def protoBad (l : List Byte) : Option Nat :=
  let r := typeBytes l 4
  match firstBad (protoSectOk l) (sectCount l) with
  | some k => some k
  | none =>
    if r.length = 64 ∧ (List.range 4).all (fun b => !bit (nth r 2 0) b || hasSect l 1 b) ∧
        (List.range 16).all (fun i => !bit (BitVec.ofNat 16 (imgNat r 0 2)) i || hasSect l 2 i)
    then none else some 0

/-! ### Binding (R240, R241, R246) -/

/-- The fragment records of an image, in section order (R243). -/
def fragsOf (l : List Byte) : List FragRec :=
  (recordsOf 12 (typeBytes l 5)).map (fun (x : List Byte) =>
    { cls := imgNat x 0 2, index := imgNat x 2 2, off := imgNat x 4 4, value := BitVec.ofNat 32 (imgNat x 8 4) })

/-- The image as course c would hold it, with the 32 words of its binding (R240, R241). -/
def loadedOf (c : Fin 13) (l : List Byte) (stage : List Reg32) (gen : BitVec 4) : LoadedImage :=
  let b := (List.range 32).map (fun k =>
    if k = 0 then BitVec.ofNat 16 (gen.toNat * 256 + c.val) else if k = 31 then 0 else (nth stage k 0).extractLsb' 0 16)
  { id := imageId l, resources := typeBytes l 4, handover := if (sectionsOf l).any (fun x => decide (x.typ = 6)) then some (typeBytes l 6) else none,
    patches := [], binding := b, receivers := nth stage 31 0, gen := gen, fragment := fragsOf l }

/-- Tile pins that a RESOURCES map of 4 bits per tile names, as 4 × tile + pin. -/
def LoadedImage.pinList (im : LoadedImage) (at_ : Nat) : List Nat :=
  (List.range 64).filter (fun k => bit (BitVec.ofNat 64 (im.resNat at_ 8)) k)

/-- The ball of a local tile pin k of course c (log 35). -/
def LoadedImage.ball (im : LoadedImage) (c : Fin 13) (k : Nat) : Nat := (Config.tileBall im.binding (64 * c.val + k)).toNat

/-- The binding is complete: every logical resource names an instance that exists, and a mailbox below MB16 (R240, R246). -/
def LoadedImage.bound (im : LoadedImage) : Bool :=
  (List.range im.ports).all (fun k => (portOfCode (im.bindWord (1 + k))).isSome) &&
  ((List.range im.cans).all (fun k => decide (im.bindWord (9 + k) < 8)) &&
  ((List.range im.mbxs).all (fun k => decide (im.bindWord (17 + k) < 16)) &&
  ((List.range im.ttos).all (fun k => decide (im.bindWord (22 + k) < 32)) &&
  ((List.range im.tcaps).all (fun k => decide (im.bindWord (26 + k) < 16)) &&
  (decide (im.fcs = 0 ∨ im.bindWord 21 + im.fcs ≤ 256) && decide (im.bindWord 30 < 2))))))

/-- Some number below n is taken by both. -/
def shares (n : Nat) (p q : Nat → Bool) : Bool := (List.range n).any (fun k => p k && q k)

/-- The image's flow contexts. -/
def LoadedImage.bindsFc (im : LoadedImage) (f : Nat) : Bool := decide (im.bindWord 21 ≤ f ∧ f < im.bindWord 21 + im.fcs)
/-- The image's mailboxes. -/
def LoadedImage.bindsMb (im : LoadedImage) (j : Nat) : Bool := (List.range im.mbxs).any (fun l => decide (im.bindWord (17 + l) = j))

/-- Two images claim one mailbox, CAN controller, flow context, TTO or TCAP (check 9 of R246). -/
def LoadedImage.clashes (a b : LoadedImage) : Bool :=
  shares 16 a.bindsMb b.bindsMb || (shares 8 a.bindsCan b.bindsCan || (shares 256 a.bindsFc b.bindsFc ||
    (shares 32 a.bindsTto b.bindsTto || shares 16 a.bindsTcap b.bindsTcap)))

/-- Each bound field port is in a mode that PORT_MODE allows (R246). -/
def State.modesOk (s : State) (im : LoadedImage) : Bool :=
  (List.range im.ports).all (fun k => match portOfCode (im.bindWord (1 + k)) with
    | some q => !q.isP || bit (im.resByte 0x19) (bits (s.portCfg q) 30 28)
    | none => false)

/-- A ball that the image drives has an owner in a loaded course other than c and `free` (R180, R246). -/
def State.ballTaken (s : State) (im : LoadedImage) (c free : Fin 13) : Bool :=
  (im.pinList 0x0C).any (fun k =>
    let g := s.reg (0x1000 + 4 * im.ball c k)
    bit g 31 && (match s.courses[bits g 15 8 / 16]? with
      | some x => x.image.isSome && decide (bits g 15 8 / 16 ≠ c.val ∧ bits g 15 8 / 16 ≠ free.val)
      | none => false))

/-- Check 9 of R246 for course c; in a live reload the resources of `free` count as free (R251). -/
def State.conflicts (s : State) (im : LoadedImage) (c free : Fin 13) : Bool :=
  !im.bound || (!s.modesOk im || (s.ballTaken im c free ||
    (List.finRange 13).any (fun d => decide (d ≠ c ∧ d ≠ free) && (match (s.course d).image with
      | some other => im.clashes other
      | none => false))))

/-- The BAR0 offset that a fragment record names through the binding of course c (R243, R244). -/
def LoadedImage.fragAt (im : LoadedImage) (c : Fin 13) (r : FragRec) : Option Nat :=
  if r.cls = 0 then (if r.index < im.ports ∧ r.off < 0x4000 then some (0x800000 + im.bindWord (1 + r.index) * 0x4000 + r.off) else none)
  else if r.cls = 1 then (if r.index < im.fcs ∧ r.off < 0x100 then some (0x900000 + (im.bindWord 21 + r.index) * 0x100 + r.off) else none)
  else if r.cls = 2 then (if r.index < im.ttos ∧ r.off < 0x40 then some (0x202000 + im.bindWord (22 + r.index) * 0x40 + r.off) else none)
  else if r.cls = 3 then (if r.index < im.tcaps ∧ r.off < 0x40 then some (0x203000 + im.bindWord (26 + r.index) * 0x40 + r.off) else none)
  else if r.cls = 4 then (if r.off < 0x4000 then some (portBase (portCp c) + r.off) else none)
  else none

/-- Check 11 of R246: a fragment record reaches nothing that the image has not been given (R244). -/
def LoadedImage.fragsOk (im : LoadedImage) (c : Fin 13) (l : List FragRec) : Bool := l.all (fun r => (im.fragAt c r).isSome)

/-- The index of the first section of a type, for the reply (R463). -/
def sectOfType (l : List Byte) (typ : Nat) : Nat := ((sectionsOf l).findIdx? (fun x => decide (x.typ = typ))).getD 0

/-- Checks 2 to 11 of R246 for an image in course c (`free` as in `conflicts`): the status and the section at fault. -/
def State.loadBad (s : State) (c free : Fin 13) (l : List Byte) (im : LoadedImage) : Option (Nat × Nat) :=
  match s.imageBad 2 l with
  | some e => some e
  | none =>
    match protoBad l with
    | some k => some (5, k)
    | none =>
      if s.conflicts im c free then some (11, sectOfType l 4)
      else if im.resByte 3 ≠ 0 ∧ s.fieldFitted = false then some (13, sectOfType l 4)
      else if im.fragsOk c im.fragment = false then some (5, sectOfType l 5)
      else none

/-! ### Where images come from (R450, R457, R463) -/

/-- The image at a flash offset, of at most `max` bytes: as long as its TOTAL_LEN says. -/
def State.flashImage (s : State) (at_ max : Nat) : List Byte :=
  let n := leNat (Memory.readBytes flashBlank s.flash (at_ + 0x0C) 4)
  Memory.readBytes flashBlank s.flash at_ (if n ≤ max then n else 256)

/-- Image slot k (R450). -/
def State.slotImage (s : State) (k : Nat) : List Byte := s.flashImage (0x500000 + k * 0x100000) 0x100000

/-- A host address in two request words, low word first (R463). -/
def hostAddr (lo hi : Reg32) : Nat := hi.toNat * 2 ^ 32 + lo.toNat

/-- n bytes of host memory (R457). -/
def State.hostBytes (s : State) (lo hi : Reg32) (n : Nat) : List Byte := Memory.readBytes hostBlank s.hostMem (hostAddr lo hi) n

/-- The image that a request names by SRC, slot and host buffer (R463), or the status that refuses it. -/
def State.requestImage (s : State) (r : SvcReq) : Nat × List Byte :=
  if bits r.w1 23 16 = 0 then (if bits r.w1 7 0 < 48 then (0, s.slotImage (bits r.w1 7 0)) else (2, []))
  else if bits r.w1 23 16 = 1 then (if r.caller.isPf1 then (0, s.hostBytes r.w2 r.w3 r.w4.toNat) else (1, []))
  else (2, [])

end Sys2Proof.Machine
end

