-- ==== Sys2Proof/Machine/Recorder.lean ====
section
/-! DEFINITION. The event recorder: clearing, freezing, flushing and its registers (R474 to R485). -/

namespace Sys2Proof.Machine

/-- An event of the recorder itself (R516). -/
def State.recEvent (s : State) (k : EvKind) : State := s.event k true 0 []

/-! ### Clear and freeze (R480, R481) -/

def State.modRec (s : State) (f : Recorder → Recorder) : State := { s with recorder := f s.recorder }

/-- The recorder empties without a change of numbering. -/
def State.recClearNow (s : State) : State :=
  (s.modRec (fun r => { r with oldest := r.next, clearPending := false })).recEvent .clear

/-- CLEAR is written (R480). -/
def State.recClear (s : State) : State :=
  if s.recorder.frozen.isSome then s
  else if s.recorder.flushing.isSome then s.modRec (fun r => { r with clearPending := true })
  else s.recClearNow

/-- FREEZE is set (R481). -/
def State.recFreeze (s : State) : State :=
  if s.recorder.frozen.isSome then s
  else (s.recEvent .freeze).modRec (fun r => { r with frozen := some s.tick })

/-- The side queue goes into the array. -/
def Recorder.thaw (r : Recorder) : Recorder :=
  let y := r.side.foldl (fun (r : Recorder) e => r.push e) { r with frozen := none, side := [] }
  { y with next := r.next }

/-- The freeze ends (R481). -/
def State.recUnfreeze (s : State) : State :=
  if s.recorder.frozen.isSome then (s.modRec Recorder.thaw).recEvent .unfreeze else s

/-! ### Flush (R483, R484) -/

/-- The records that a flush writes, in sequence order. -/
def Recorder.dirtyOnes (r : Recorder) : List RecEntry := (r.recs.reverse ++ r.side).filter (fun e => e.dirty)

/-- Bytes of a flush block (R483). -/
def FlushBlock.size (b : FlushBlock) : Nat := 128 + 32 * b.recs.length

/-- The blocks that the flush region still holds with 576 KiB erased ahead (R484). -/
def keepBlocks : (room : Nat) → List FlushBlock → List FlushBlock
  | _, [] => []
  | room, b :: bs => if b.size ≤ room then b :: keepBlocks (room - b.size) bs else []

/-- A flush starts while VHOLD powers the flush domain; one that runs is not started again. Causes: 0 PFAIL_N, 1 fatal fault, 2 STANDBY, 3 REC_CTRL (log 31). -/
def State.flushStart (s : State) (cause : Nat) : State :=
  if s.recorder.flushing.isSome || !s.pins.vhold then s
  else
    let s1 := s.recEvent .flushStart
    s1.modRec (fun r => { r with flushState := 1, flushing := some { cause := cause, starts := s.power.startRec.number, recs := r.dirtyOnes, ended := false, reported := false } })

/-- Records that stand as the block wrote them are flushed. -/
def markFlushed (b : FlushBlock) (e : RecEntry) : RecEntry := if b.recs.contains e then { e with dirty := false } else e

/-- FLUSH_COMPLETE: the end marker is written (R483); a clear that waited takes effect (R480). -/
def State.flushDone (s : State) (b : FlushBlock) : State :=
  let s1 := s.modRec (fun r =>
    { r with flushing := none, flushState := 2, blocks := keepBlocks 3604480 ({ b with ended := true } :: r.blocks),
             recs := r.recs.map (markFlushed b), side := r.side.map (markFlushed b) })
  let s2 := s1.recEvent .flushEnd
  if s.recorder.clearPending then s2.recClearNow else s2

/-- A flush is cut off: its block stays without an end marker (R484). -/
def State.flushCut (s : State) : State :=
  match s.recorder.flushing with
  | some b => s.modRec (fun r => { r with flushing := none, flushState := 0, blocks := keepBlocks 3604480 (b :: r.blocks) })
  | none => s

/-! ### Registers (R479, R485) -/

/-- REC_CTRL is written by a party: CLEAR by any, FREEZE by PF1 and the keystone, FLUSH by PF1. -/
def State.recCtrlWrite (s : State) (p : Party) (v : Reg32) : State :=
  let own := p.isPf1 || decide (p = .keystone)
  let bad := (bit v 0 && !own) || (bit v 2 && !p.isPf1)
  let s1 := if bit v 1 then s.recClear else s
  let s2 := if own then (if bit v 0 then s1.recFreeze else s1.recUnfreeze) else s1
  let s3 := if bit v 2 && p.isPf1 then s2.flushStart 3 else s2
  if bad then s3.refused p 0x500008 v.toNat else s3

/-- A write of a recorder register. -/
def State.recWrite (s : State) (p : Party) (o : Nat) (v : Reg32) : State :=
  if o = 0x08 then s.recCtrlWrite p v
  else if (p.isPf1 || decide (p = .keystone)) = false then s.refused p (0x500000 + o) v.toNat
  else if o = 0x0C then s.modRec (fun r => { r with cfg := v &&& 0x73 })
  else s

/-- REC_STATUS. -/
def Recorder.status (r : Recorder) : Reg32 :=
  BitVec.ofNat 32 (r.flushState.toNat * 2 ^ 30 + b2n r.frozen.isSome * 2 ^ 29 + r.side.length)

/-- A read of a recorder register. -/
def State.recRead (s : State) (o : Nat) : Reg32 × State :=
  let r := s.recorder
  if o = 0x00 then (r.next, s) else if o = 0x04 then (r.oldest, s)
  else if o = 0x08 then (BitVec.ofNat 32 (b2n r.frozen.isSome), s) else if o = 0x0C then (r.cfg, s)
  else if o = 0x10 then (r.status, s)
  else if o = 0x14 then (r.lost, s.modRec (fun r => { r with lost := 0, lostShadow := r.lost }))
  else (0, s)

/-- Word k of index i of the record array; a slot never written reads zero (R479; log 32). -/
def State.recArray (s : State) (i k : Nat) : Reg32 :=
  match s.recorder.recs.find? (fun e => decide (e.seq.toNat % recorderSize = i)) with
  | some e => nth e.words k 0
  | none => 0

/-! ### Commands -/

/-- REC_CLEAR (R480). -/
def execRecClear (p : Party) (s : State) : Host.Outcome State Fault Refusal :=
  s.when_ s.alive (fun s => s.recClear)

/-- REC_FREEZE (R481). -/
def execRecFreeze (p : Party) (s : State) : Host.Outcome State Fault Refusal :=
  s.when_ s.alive (fun s => s.recWrite p 0x08 1)

/-- REC_UNFREEZE (R481): a write of 0 by a party that may write FREEZE. -/
def execRecUnfreeze (p : Party) (s : State) : Host.Outcome State Fault Refusal :=
  s.when_ s.alive (fun s => s.recWrite p 0x08 0)

/-- FREEZE_TIMEOUT (R481): 1,000 management ticks. -/
def execFreezeTimeout (s : State) : Host.Outcome State Fault Refusal :=
  match s.recorder.frozen with
  | some t => s.when_ (s.alive && decide (t + 1000 ≤ s.tick)) (fun s => s.recUnfreeze)
  | none => .next s

/-- REC_FLUSH (R483, R485): FLUSH with FREEZE as it stands. -/
def execRecFlush (p : Party) (s : State) : Host.Outcome State Fault Refusal :=
  s.when_ s.alive (fun s => s.recWrite p 0x08 (if s.recorder.frozen.isSome then 5 else 4))

/-- FLUSH_COMPLETE (R483). -/
def execFlushComplete (s : State) : Host.Outcome State Fault Refusal :=
  match s.recorder.flushing with
  | some b => .next (s.flushDone b)
  | none => .next s

end Sys2Proof.Machine
end

