-- ==== Sys2Proof/Machine/Journal.lean ====
section
/-! DEFINITION. The journal, its window and spill, and the replay feeder (R486 to R495). -/

namespace Sys2Proof.Machine

def State.modJournal (s : State) (f : Journal → Journal) : State := { s with journal := f s.journal }
def State.modReplay (s : State) (f : Replay → Replay) : State := { s with replay := f s.replay }

/-- JRN_CFG.COURSE. -/
def State.jrnCourse (s : State) : Fin 13 := ⟨bits s.journal.cfg 27 24 % 13, by omega⟩
/-- The journal records. -/
def Journal.live (j : Journal) : Bool := decide (j.st = .recording) || decide (j.st = .post)

/-! ### Keyframes (R488) -/

/-- The state of a course now. -/
def State.snap (s : State) (c : Fin 13) : KeySnap :=
  let x := s.course c
  let d := match x.image with
    | some im => im.id.digest :: im.patches.map (fun (q : ImageId) => q.digest)
    | none => []
  { bank := x.bank, bricks := (List.finRange 4).map (fun b => s.brick (brickOf c b)),
    tiles := (List.finRange 16).map (fun i => s.tile (tileOfCourse c i)), conf := x.conf, digests := d.take 9, base := x.base }

/-- The tap takes a keyframe of the journaled course; one that falls due while another is being written is skipped. -/
def State.takeKeyframe (s : State) : State :=
  let c := s.jrnCourse
  if s.now < s.journal.kfBusyUntil then s.modJournal (fun j => { j with kfTick := s.tick })
  else
    (s.jrec c (.keyframe ((s.course c).cycleAt s.now) (s.snap c))).modJournal (fun j =>
      { j with kfTick := s.tick, kfBusyUntil := s.now + 25089 * brickCycle })

/-! ### Start, stop, triggers (R489, R491) -/

/-- Recording of course c starts: EN is set, and a keyframe is taken. -/
def State.journalBegin (s : State) (cfg : Reg32) : State :=
  let j := { Journal.reset with st := .recording, cfg := setBit cfg 31 true, mark := s.journal.mark, page := s.journal.page,
                                fill := if s.journal.wptr = 0 then s.journal.fill else none }
  let s1 := { s with journal := j }
  let c := s1.jrnCourse
  ((s1.modJournal (fun j => { j with lastCyc := (s.course c).cycleAt s.now })).takeKeyframe).event .journalStart true 0 [c.val]

/-- Recording of course c ends with an END record: cause 0 stop, 1 COURSE reset, 2 re-point, 3 DEVICE reset. -/
def State.journalEnd (s : State) (c : Fin 13) (cause : BitVec 4) : State :=
  if s.journaled c then
    let s1 := s.jrec c (.fin ((s.course c).cycleAt s.now) cause)
    (s1.modJournal (fun j => { j with st := .off, cfg := setBit j.cfg 31 false })).event .journalStop true 0 [c.val, cause.toNat]
  else s

/-- The re-point of a live reload: END with cause 2, then the new course with a SYNC record and a keyframe (R491). -/
def State.journalRepoint (s : State) (c d : Fin 13) : State :=
  if s.journaled c then
    let s1 := s.jrec c (.fin ((s.course c).cycleAt s.now) 2)
    let cyc := (s.course d).cycleAt s.now
    let v := s.tdValue 0 s.now
    let s2 := s1.modJournal (fun j =>
      { j with cfg := setBits j.cfg 27 24 d.val }.put (.sync cyc (BitVec.ofNat 32 (nsOf v)) (BitVec.ofNat 32 (secOf v)) s.tick))
    s2.takeKeyframe
  else s

/-- JOURNAL_FREEZE: POST_TICKS after the trigger (R489). -/
def State.journalFreezeNow (s : State) : State := s.modJournal (fun j => { j with st := .frozen, cfg := setBit j.cfg 31 false })

/-! ### The words of the SRAM (R487, R488, R492) -/

/-- A header word. -/
def jHeader (type src body : Nat) : BitVec 64 := BitVec.ofNat 64 (type * 2 ^ 59 + src * 2 ^ 56 + body % 2 ^ 56)

/-- Words of 64 bits from a list of 16-bit words, the first lowest. -/
def packWords : (n : Nat) → List Word → List (BitVec 64)
  | 0, _ => []
  | n + 1, l => BitVec.ofNat 64 ((nth l 0 0).toNat + (nth l 1 0).toNat * 2 ^ 16 + (nth l 2 0).toNat * 2 ^ 32 + (nth l 3 0).toNat * 2 ^ 48) ::
      packWords n (l.drop 4)

/-- Word k of a keyframe's body: bank, instruction memories, state block, digests. -/
def KeySnap.word (x : KeySnap) (at_ k : Nat) : BitVec 64 :=
  if k < 16384 then BitVec.ofNat 64 (leNat (Memory.readBytes bankBlank x.bank (8 * k) 8))
  else if k < 24576 then
    match x.bricks[(k - 16384) / 2048]? with
    | some b => BitVec.ofNat 64 (leNat (Memory.readBytes bankBlank b.imem (8 * ((k - 16384) % 2048)) 8))
    | none => 0
  else if k < 25016 then Config.keyWord at_ k
  else BitVec.ofNat 64 (beNat ((toBe 64 (nth x.digests ((k - 25016) / 8) 0).toNat).drop (8 * ((k - 25016) % 8)) |>.take 8 |>.reverse))

/-- Word k of a record (R487). -/
def JEntry.word (e : JEntry) (k : Nat) : BitVec 64 :=
  let d := e.delta
  match e.what with
  | .iord b a v _ => jHeader 0x01 b.val (a.toNat * 2 ^ 44 + v.toNat * 2 ^ 28 + d)
  | .evline b l x _ => jHeader 0x02 b.val (l * 2 ^ 52 + b2n x * 2 ^ 51 + d)
  | .time b w _ => if k = 0 then jHeader 0x03 b.val d else w.extractLsb' (64 * (k - 1)) 64
  | .fmburst tx a l n _ =>
    if k = 0 then jHeader 0x04 (b2n tx) (n * 2 ^ 48 + a.toNat * 2 ^ 32 + d) else nth (packWords ((n + 3) / 4) l) (k - 1) 0
  | .fmcomp b q w0 w1 _ => if k = 0 then jHeader 0x05 b.val (q * 2 ^ 52 + w0.toNat * 2 ^ 36 + d) else w1.setWidth 64
  | .dbgw im b a v _ => if k = 0 then jHeader 0x06 (b2n im) (b.val * 2 ^ 52 + a.toNat * 2 ^ 36 + d) else v.setWidth 64
  | .inj u w _ => jHeader 0x07 u (w.toNat * 2 ^ 24 + d)
  | .dbg b x w _ => if k = 0 then jHeader 0x08 b.val (x.toNat * 2 ^ 52 + d) else w
  | .mode m g w _ => jHeader 0x09 0 (m.toNat * 2 ^ 54 + b2n g * 2 ^ 53 + (Config.wakeCode w.toNat).toNat * 2 ^ 49 + d)
  | .out b a v _ => jHeader 0x0A b.val (a.toNat * 2 ^ 44 + v.toNat * 2 ^ 28 + d)
  | .mark b v _ => jHeader 0x0B b.val (v.toNat * 2 ^ 40 + d)
  | .sync c ns sec t => if k = 0 then jHeader 0x1C 0 c else if k = 1 then sec ++ ns else BitVec.ofNat 64 t
  | .keyframe c x => if k = 0 then jHeader 0x1D 0 c else x.word e.at_ (k - 1)
  | .gap c n => if k = 0 then jHeader 0x1E 0 c else BitVec.ofNat 64 n
  | .fin c x => jHeader 0x1F 0 (x.toNat * 2 ^ 52 + c)

/-- The word with index a, counted from the start of the run; one that no record holds is what a march test left, or open (R521;
log 30). -/
def Journal.wordAt (j : Journal) (a : Nat) : BitVec 64 :=
  match j.recs.find? (fun e => decide (e.at_ ≤ a ∧ a < e.at_ + e.what.size)) with
  | some e => e.word (a - e.at_)
  | none => match j.fill with
    | some w => w
    | none => Config.keyWord a 0

/-- Word w of the SRAM (R492): the last one written there. -/
def Journal.sram (j : Journal) (w : Nat) : BitVec 64 :=
  let a := j.wptr / journalWords * journalWords + w
  j.wordAt (if a < j.wptr then a else a - journalWords)

/-! ### Spill (R489) -/

/-- SPILL_BLOCK: 4,096 bytes go to the spill ring; bytes 0x12 to 0x1F of its descriptor are open (log 33). -/
def State.spillBlock (s : State) : State :=
  let n : Fin 64 := ⟨bits s.journal.cfg 15 8 % 64, by omega⟩
  let r := s.ring n
  if r.st = .running ∧ r.waiting ≠ [] then
    let (x, s0) := s.fresh
    let a := s.journal.wptr - s.journal.unspilled
    let bytes := ((List.range 512).map (fun i => toLe 8 (s.journal.wordAt (a + i)).toNat)).flatten
    let d := r.desc r.head.toNat
    let l := s.dmaRead d 10
    let s1 := s0.dmaWrite (leNat (l.take 8)) (bytes.take (leNat (l.drop 8)))
    let s2 := s1.dmaWrite (d + 0x10) (toLe 2 4096 ++ toLe 14 x)
    (s2.ringDone n (r.head.toNat + 1) false).modJournal (fun j => { j with unspilled := j.unspilled - 512 })
  else s

/-! ### Registers (R492, R495) -/

/-- A write of a journal register: JRN_CFG and TRIG_MARK by the keystone, TRIGGER by PF1. -/
def State.jrnWrite (s : State) (p : Party) (o : Nat) (v : Reg32) : State :=
  let no := s.refused p (0x510000 + o) v.toNat
  if o = 0x00 then
    (if p = .keystone then s.modJournal (fun j => { j with cfg := (v &&& 0x6FFFFFFF) ||| (j.cfg &&& 0x80000000) }) else no)
  else if o = 0x04 then (if p.isPf1 then (if bit v 0 then s.journalTrig else s) else no)
  else if o = 0x1C then (if s.pf1MgrKey p then s.modJournal (fun j => { j with page := v.extractLsb' 0 4 }) else no)
  else if o = 0x20 then (if p = .keystone then s.modJournal (fun j => { j with mark := v.extractLsb' 0 16 }) else no)
  else s

/-- JRN_STATUS. -/
def Journal.status (j : Journal) : Reg32 :=
  let st := match j.st with
    | .off => 0 | .recording => 1 | .post => 2 | .frozen => 3
  BitVec.ofNat 32 (st * 2 ^ 30 + b2n j.gap * 2 ^ 29 + (if bit j.cfg 30 then j.unspilled * 8 / 1024 else 0))

/-- A read of a journal register. -/
def State.jrnRead (s : State) (o : Nat) : Reg32 :=
  let j := s.journal
  if o = 0x00 then j.cfg else if o = 0x08 then j.status else if o = 0x0C then BitVec.ofNat 32 (j.wptr % journalWords)
  else if o = 0x10 then BitVec.ofNat 32 (j.kf % journalWords) else if o = 0x14 then BitVec.ofNat 32 j.trig
  else if o = 0x18 then BitVec.ofNat 32 (j.trig / 2 ^ 32 % 65536) else if o = 0x1C then j.page.setWidth 32
  else if o = 0x20 then j.mark.setWidth 32 else 0

/-- Register k of the journal window: half a word of the page selected. -/
def State.jrnWindow (s : State) (k : Nat) : Reg32 :=
  (s.journal.sram (s.journal.page.toNat * 32768 + k / 2)).extractLsb' (32 * (k % 2)) 32

/-- A read in the journal tap block of course c (R495). -/
def State.jtRead (s : State) (c : Fin 13) (o : Nat) : Reg32 :=
  let r := s.replay
  if r.st = .idle ∨ r.course ≠ c then 0
  else
    let cyc := if r.st = .running then (s.course c).cycleAt s.now else r.cycle
    if o = 0x0 then r.status else if o = 0x4 then BitVec.ofNat 32 cyc else if o = 0x8 then BitVec.ofNat 32 (cyc / 2 ^ 32 % 65536)
    else if o = 0xC then BitVec.ofNat 32 r.index else 0

/-! ### Replay (R493 to R495) -/

/-- The run that starts at the keyframe with header index a: the records from there on, if the journal holds it whole and no
GAP follows. -/
def Journal.runFrom (j : Journal) (a : Nat) : Option (List JRec) :=
  let l : List JRec := (j.recs.dropWhile (fun e => decide (e.at_ % journalWords ≠ a ∨ e.at_ + journalWords < j.wptr))).map (fun e => e.what)
  let gap := l.any (fun (r : JRec) => match r with
    | .gap .. => true
    | _ => false)
  match l with
  | .keyframe .. :: _ => if gap then none else some l
  | _ => none

/-- Brick b as the state block of a keyframe from a host buffer gives it (R488; log 30), with its instruction memory. -/
def brickOfBlock (block imem : List Byte) (b : Nat) : Brick :=
  let w := fun (k : Nat) => BitVec.ofNat 16 (Config.blockWord block (64 * b + k))
  { Brick.reset with
    g := Vector.ofFn (fun i => w i.val), pc := w 16, repc := w 17, tpc := w 18, tcause := w 19, tinfo := w 20, trepc := w 21,
    trep := bit (w 22) 0, inTrap := bit (w 22) 1, inRep := bit (w 22) 2,
    rstk := (List.range ((w 23).toNat % 9)).map (fun i => w (24 + i)), cycLatch := w 32 ++ w 33, run := .running, runBit := true,
    imem := Memory.writeBytes bankBlank [] 0 imem }

/-- A keyframe read from a host buffer: 200,704 bytes after its header. -/
def keyOfBytes (c : Nat) (l : List Byte) : KeySnap :=
  let block := (l.drop 196608).take 4096
  { bank := Memory.writeBytes bankBlank [] 0 (l.take 131072),
    bricks := (List.range 4).map (fun b => brickOfBlock block ((l.drop (131072 + 16384 * b)).take 16384) b),
    tiles := List.replicate 16 Tile.reset, conf := Vector.ofFn (fun m => BitVec.ofNat 32 (Config.blockWord block (256 + m.val))),
    digests := (List.range 9).map (fun i => BitVec.ofNat 512 (beNat ((block.drop (3520 + 64 * i)).take 64))), base := 0 - 4 * c }

/-- One record of a run in a host buffer, at `l`, after a record at cycle `prev`: the record and what follows (R487). -/
def recOfBytes (prev : Nat) (l : List Byte) : Option (JRec × List Byte) :=
  let h := BitVec.ofNat 64 (leNat (l.take 8))
  let word := fun (k : Nat) => BitVec.ofNat 64 (leNat ((l.drop (8 * k)).take 8))
  let type := bits h 63 59
  let b : Fin 4 := ⟨bits h 58 56 % 4, by omega⟩
  let cyc := prev + bits h 27 0
  let full := bits h 47 0
  if l.length < 8 then none
  else if type = 0x01 then some (.iord b (h.extractLsb' 44 12) (h.extractLsb' 28 16) cyc, l.drop 8)
  else if type = 0x02 then some (.evline b (bits h 55 52) (bit h 51) cyc, l.drop 8)
  else if type = 0x03 then some (.time b ((word 2).extractLsb' 0 32 ++ word 1) cyc, l.drop 24)
  else if type = 0x04 then
    let n := bits h 55 48
    let tx := bit h 56
    let k := if tx then 0 else (n + 3) / 4
    let ws := (List.range n).map (fun i => BitVec.ofNat 16 (leNat ((l.drop (8 + 2 * i)).take 2)))
    some (.fmburst tx (h.extractLsb' 32 16) (if tx then [] else ws) n cyc, l.drop (8 + 8 * k))
  else if type = 0x05 then some (.fmcomp b (bits h 55 52) (h.extractLsb' 36 16) ((word 1).extractLsb' 0 16) cyc, l.drop 16)
  else if type = 0x06 then
    some (.dbgw (bit h 56) ⟨bits h 53 52 % 4, by omega⟩ (h.extractLsb' 36 16) ((word 1).extractLsb' 0 16) cyc, l.drop 16)
  else if type = 0x07 then some (.inj (bits h 58 56) (h.extractLsb' 24 32) (prev + bits h 23 0), l.drop 8)
  else if type = 0x08 then some (.dbg b (h.extractLsb' 52 4) (word 1) cyc, l.drop 16)
  else if type = 0x09 then some (.mode (h.extractLsb' 54 2) (bit h 53) (h.extractLsb' 49 4) cyc, l.drop 8)
  else if type = 0x0A then some (.out b (h.extractLsb' 44 12) (h.extractLsb' 28 16) cyc, l.drop 8)
  else if type = 0x0B then some (.mark b (h.extractLsb' 40 16) cyc, l.drop 8)
  else if type = 0x1C then some (.sync full ((word 1).extractLsb' 0 32) ((word 1).extractLsb' 32 32) (word 2).toNat, l.drop 24)
  else if type = 0x1D then some (.keyframe full (keyOfBytes full (l.drop 8)), l.drop 200712)
  else if type = 0x1E then some (.gap full (word 1).toNat, l.drop 16)
  else if type = 0x1F then some (.fin full (h.extractLsb' 52 4), l.drop 8)
  else none

/-- The records of a run in a host buffer. -/
def runOfBytes : (fuel prev : Nat) → List Byte → List JRec
  | 0, _, _ => []
  | n + 1, prev, l =>
    match recOfBytes prev l with
    | some (r, rest) => r :: runOfBytes n r.cyc rest
    | none => []

/-- A replay is accepted in course c: COURSE_MODE becomes 2, and the feeder loads the keyframe (R493). -/
def State.replayBegin (s : State) (c : Fin 13) (l : List JRec) : State :=
  (s.modCourse c (fun x => { x with mode := 2 })).modReplay (fun _ => { Replay.reset with st := .loading, course := c, feed := l })

/-- A brick of a keyframe at its place in the replaying course's time. -/
def Brick.moved (b : Brick) (old new_ : Nat) : Brick :=
  { b with ready := b.ready + new_ - old, feAt := b.feAt + new_ - old, wd := { b.wd with since := b.wd.since + new_ - old } }

/-- REPLAY_RELEASE: the preload of bank and instruction memories over the feeder's port is done, and the course stands at the
keyframe's cycle n in the cycle after it (R152, R493, R494). -/
def State.replayRelease (s : State) : State :=
  let c := s.replay.course
  match s.replay.feed with
  | .keyframe n k :: rest =>
    let t := (s.course c).edgeAt s.now + brickCycle
    let s1 := s.modCourse c (fun x => { x with bank := k.bank, conf := k.conf, base := t - 4 * n, gatedAt := none, released := true })
    let s2 := (List.finRange 4).foldl (fun s b =>
      match k.bricks[b.val]? with
      | some x => s.setBrick (brickOf c b) (x.moved k.base (t - 4 * n))
      | none => s) s1
    let s3 := (List.finRange 16).foldl (fun s i =>
      match k.tiles[i.val]? with
      | some x => s.setTile (tileOfCourse c i) { x with run := .stopped, runBit := false, cur := none }
      | none => s) s2
    s3.modReplay (fun r => { r with st := .running, feed := rest, start := n, index := 1 })
  | _ => (s.modReplay (fun r => { r with st := .aborted })).replayEnded 5

/-- The record is presented by the feeder itself, and not by a read or a write of a brick (R494). -/
def JRec.fed : JRec → Bool
  | .iord .. | .time .. | .out .. => false
  | _ => true

/-- The architectural state of a brick that a keyframe is compared by (R93, R495). -/
def Brick.sameAs (a b : Brick) : Bool :=
  decide (a.g = b.g) && (decide (a.pc = b.pc) && (decide (a.rstk = b.rstk) && (decide (a.repc = b.repc) && (decide (a.tpc = b.tpc) &&
    (decide (a.tcause = b.tcause) && (decide (a.tinfo = b.tinfo) && (decide (a.trepc = b.trepc) && (decide (a.trep = b.trep) &&
    (decide (a.inTrap = b.inTrap) && decide (a.imem = b.imem))))))))))

/-- A burst's words enter the bank of the replaying course. -/
def State.feedBurst (s : State) (c : Fin 13) (a : Nat) (l : List Word) : State :=
  s.modCourse c (fun x => { x with bank := x.bank.setWords 65536 a l })

/-- The feeder presents a record to course c (R494, R495). -/
def State.feedRecord (s : State) (c : Fin 13) (r : JRec) : State :=
  match r with
  | .evline b l x _ =>
    s.modBrick (brickOf c b) (fun y =>
      if l < 11 then { y with io := { y.io with levels := setBit y.io.levels l x } } else { y with io := { y.io with events := setBit y.io.events l true } })
  | .fmburst false a l _ _ => s.feedBurst c a.toNat l
  | .fmcomp b q w0 w1 _ =>
    s.modBrick (brickOf c b) (fun y =>
      if q = 0 then { y with fm := { y.fm with bufs := y.fm.bufs.drop 1, rxc := y.fm.rxc ++ [(w0, w1)] } }
      else { y with fm := { y.fm with txc := y.fm.txc ++ [w0] } })
  | .dbgw im b a v _ =>
    if im then s.modBrick (brickOf c b) (fun y => { y with imem := y.imem.setWord a.toNat v }) else s.feedBurst c a.toNat [v]
  | .inj u w _ =>
    if h : u < 4 then
      let bk := brickOf c ⟨u, h⟩
      (s.modBrick bk (fun y => { y with inj := { y.inj with words := w } })).injGo bk []
    else s
  | .dbg b x w _ =>
    let bk := brickOf c b
    if x = 0 then s.haltBrick bk else if x = 1 then s.resumeBrick bk else if x = 2 then s.stepBrick bk
    else s.modBrick bk (fun y => y.dbgWrite (w.extractLsb' 32 32).toNat (w.extractLsb' 0 32))
  | .mode _ g w _ =>
    if g then s.modCourse c (fun x => { x with gatedAt := some s.now }) else s.ungateCourse c w
  | .keyframe n k =>
    match (List.finRange 4).find? (fun b => match k.bricks[b.val]? with
      | some x => !(s.brick (brickOf c b)).sameAs x
      | none => false) with
    | some b => s.diverge (brickOf c b) 2 n
    | none => s
  | .fin n _ => (s.modReplay (fun r => { r with st := .done, cycle := n })).replayEnded 3
  | _ => s

/-- REPLAY_FEED: the next record that the feeder presents, at its cycle; a run without an END record ends with its last one. -/
def State.replayFeed (s : State) : State :=
  let c := s.replay.course
  match takeFirst JRec.fed s.replay.feed with
  | some (r, rest) =>
    let s1 := s.at_ ((s.course c).base + brickCycle * r.cyc)
    (s1.modReplay (fun x => { x with feed := rest, index := x.index + 1 })).feedRecord c r
  | none =>
    if s.replay.feed = [] then (s.modReplay (fun r => { r with st := .done, cycle := (s.course c).cycleAt s.now })).replayEnded 3
    else s

/-- A COURSE reset, or a service, ends a replay (R83). -/
def State.replayAbort (s : State) (c : Fin 13) : State :=
  if s.replay.course = c ∧ (s.replay.st = .loading ∨ s.replay.st = .running) then
    (s.modReplay (fun r => { r with st := .aborted, cycle := (s.course c).cycleAt s.now })).replayEnded 5
  else s

/-! ### Commands -/

/-- KEYFRAME (R488): due every KF_TICKS management ticks. -/
def execKeyframe (s : State) : Host.Outcome State Fault Refusal :=
  let k := bits s.journal.cfg 23 16
  s.when_ (s.journal.live && (decide (k ≠ 0) && decide (s.journal.kfTick + k ≤ s.tick))) (fun s => s.takeKeyframe)

/-- JOURNAL_TRIGGER (R489, R492). -/
def execJournalTrigger (p : Party) (s : State) : Host.Outcome State Fault Refusal :=
  s.when_ s.blocksUp (fun s => s.jrnWrite p 0x04 1)

/-- JOURNAL_FREEZE (R489). -/
def execJournalFreeze (s : State) : Host.Outcome State Fault Refusal :=
  s.when_ (decide (s.journal.st = .post) && decide (s.journal.postEnd ≤ s.tick)) (fun s => s.journalFreezeNow)

/-- SPILL_BLOCK (R489). -/
def execSpillBlock (s : State) : Host.Outcome State Fault Refusal :=
  s.when_ (s.blocksUp && (s.pins.pcieUp && (bit s.journal.cfg 30 && decide (512 ≤ s.journal.unspilled)))) (fun s => s.spillBlock)

/-- REPLAY_RELEASE (R493). -/
def execReplayRelease (s : State) : Host.Outcome State Fault Refusal :=
  s.when_ (s.blocksUp && decide (s.replay.st = .loading)) (fun s => s.replayRelease)

/-- REPLAY_FEED (R494). -/
def execReplayFeed (s : State) : Host.Outcome State Fault Refusal :=
  s.when_ (s.blocksUp && (decide (s.replay.st = .running) && !s.replay.starving)) (fun s => s.replayFeed)

/-- REPLAY_STARVE (R495). -/
def execReplayStarve (s : State) : Host.Outcome State Fault Refusal :=
  s.when_ (s.blocksUp && (decide (s.replay.st = .running) && !s.replay.starving)) (fun s =>
    (s.modCourse s.replay.course (fun x => { x with gatedAt := some (x.edgeAt s.now) })).modReplay (fun r =>
      { r with starving := true, starved := true }))

/-- REPLAY_STAGING_FILLED (R495). -/
def execReplayStagingFilled (s : State) : Host.Outcome State Fault Refusal :=
  s.when_ (s.blocksUp && (decide (s.replay.st = .running) && s.replay.starving)) (fun s =>
    (s.ungateCourse s.replay.course 0).modReplay (fun r => { r with starving := false }))

end Sys2Proof.Machine
end

