-- ==== Sys2Proof/Machine/Courses.lean ====
section
/-! DEFINITION. What the keystone does to a course: writing an image into it, releasing it, the COURSE reset, and the ends that
a reset puts to services (R80, R83, R94, R208, R212, R230, R238, R240, R245 to R247, R252 to R255). -/

namespace Sys2Proof.Machine

/-- COURSE_MODE changes; the change is a journaled course input (R212). -/
def State.setMode (s : State) (c : Fin 13) (m : BitVec 2) : State :=
  let x := s.course c
  (s.setCourse c { x with mode := m }).jrec c (.mode m x.gatedAt.isSome 0 (x.cycleAt s.now))

/-! ### Undefined memory (R230, R521) -/

/-- n bytes whose contents are undefined, as a memory (log 1). -/
def State.freeBytes (s : State) (n : Nat) : Memory × State :=
  ((List.range n).filterMap (fun k =>
    let b : Byte := BitVec.ofNat 8 (Config.free (s.freeCtr + k))
    if b = bankBlank k then none else some (k, b)), { s with freeCtr := s.freeCtr + n })

/-- The bank of a course becomes undefined. -/
def State.loseBank (s : State) (c : Fin 13) : State :=
  let (m, s1) := s.freeBytes 131072
  s1.modCourse c (fun x => { x with bank := m })

/-- The instruction memories of a course become undefined. -/
def State.loseImem (s : State) (c : Fin 13) : State :=
  (List.finRange 4).foldl (fun s b =>
    let (m, s1) := s.freeBytes 16384
    s1.modBrick (brickOf c b) (fun x => { x with imem := m, pre := [] })) s

/-- Both (TARGET as TRW_CTRL codes it: 0 bank, 1 instruction memories, 2 both). -/
def State.loseMemory (s : State) (c : Fin 13) (target : BitVec 2) : State :=
  let s1 := if target = 1 then s else s.loseBank c
  if target = 0 then s1 else s1.loseImem c

/-- A memory of n words that all hold w. -/
def fillMemory (n : Nat) (w : Word) : Memory :=
  (List.range (2 * n)).filterMap (fun a =>
    let b : Byte := if a % 2 = 0 then w.extractLsb' 0 8 else w.extractLsb' 8 8
    if b = bankBlank a then none else some (a, b))

/-- The memories hold a background in every word (R226, R521). -/
def State.fillCourse (s : State) (c : Fin 13) (target : BitVec 2) (w : Word) : State :=
  let s1 := if target = 1 then s else s.modCourse c (fun x => { x with bank := fillMemory 65536 w })
  if target = 0 then s1
  else (List.finRange 4).foldl (fun s b => s.modBrick (brickOf c b) (fun x => { x with imem := fillMemory 8192 w, pre := [] })) s1

/-! ### Writing an image (R238, R240, R247) -/


/-- The instruction memory of local brick b that an image gives (R237, R238). -/
def imemOf (l : List Byte) (b : Nat) : Memory :=
  ((sectionsOf l).filter (fun x => decide (x.typ = 1 ∧ x.target = b))).foldl
    (fun m x => m.setWords 8192 x.load (wordsOfBytes (x.bytes l))) (fillMemory 8192 0xFFFF)

/-- The bank that an image gives, with its binding table. -/
def bankOf (l : List Byte) (im : LoadedImage) : Memory :=
  let m := ((sectionsOf l).filter (fun x => decide (x.typ = 3))).foldl (fun m x => m.setWords 65536 x.load (wordsOfBytes (x.bytes l))) (fillMemory 65536 0)
  m.setWords 65536 (im.resNat 0x16 2) im.binding

/-- Local tile i as an image configures it: a program that no section fills is NOPs (R184, R238). -/
def tileOfImage (l : List Byte) (i : Nat) (t : Tile) : Tile :=
  match (sectionsOf l).find? (fun x => decide (x.typ = 2 ∧ x.target = i)) with
  | some x =>
    let w := fun (k : Nat) => nth (wordsOfBytes (x.bytes l)) k 0
    ({ t with prog := Vector.ofFn (fun k => w k.val), cfg0 := w 32 &&& 0x3FFF, cfg1 := w 33 &&& 7, stepLo := w 34 }.stepWrite (w 35))
  | none => { t with prog := Vector.replicate 32 0 }

/-- TILE_PINMAP of local tile i: an enabled field for each pin used (R178, R239; log 35). -/
def LoadedImage.pinmap (im : LoadedImage) (c : Fin 13) (i : Nat) : Reg32 :=
  (List.range 4).foldl (fun v p => if bit (BitVec.ofNat 64 (im.resNat 4 8)) (4 * i + p) then setBits v (8 * p + 7) (8 * p) (0x80 + im.ball c (4 * i + p)) else v) 0

/-- GPIO_OWN entries for the pins driven name the tiles of course d (R180, R239). -/
def State.ownBalls (s : State) (im : LoadedImage) (c d : Fin 13) : State :=
  (im.pinList 0x0C).foldl (fun s k =>
    s.setReg (gpioOwnOff (im.ball c k)) (BitVec.ofNat 32 (0x80000000 + (16 * d.val + k / 4) * 256 + k % 4))) s

/-- The receivers of the image's mailboxes: the brick that it names, or for logical mailboxes 1 to 3 the party of binding word
31 (R240, R241, R437). -/
def State.receivers (s : State) (c : Fin 13) (im : LoadedImage) : State :=
  (List.range im.mbxs).foldl (fun s k =>
    let named := if k = 0 then 0 else bits im.receivers (8 * k - 1) (8 * k - 8)
    if h : im.bindWord (17 + k) < 32 then
      s.setRecv ⟨im.bindWord (17 + k), h⟩ (BitVec.ofNat 8 (if named = 0 then 0x80 + 4 * c.val + im.mbBrick k else named))
    else s) s

/-- The image wants the field window under FIELD_LIMIT (R239, R386). -/
def LoadedImage.fieldLimited (im : LoadedImage) : Bool := bit (im.resByte 3) 0 && bit (im.resByte 3) 1

/-- Memories, tiles and FM_RXMAP of course c take an image; the course is not released (R247 steps 1 to 3). Its tiles read the
balls of course d's image: its own, or in a live reload the live course's (R252). -/
def State.writeImage (s : State) (c : Fin 13) (l : List Byte) (im : LoadedImage) : State :=
  let s1 := s.setMode c 1
  let s2 := s1.modCourse c (fun x => { x with bank := bankOf l im, rxmap := BitVec.ofNat 16 (im.resNat 0x14 2), image := some im, released := false })
  let s3 := (List.finRange 4).foldl (fun s b => s.modBrick (brickOf c b) (fun x => { x with imem := imemOf l b.val, pre := [] })) s2
  (List.finRange 16).foldl (fun s i => s.modTile (tileOfCourse c i) (fun t => { tileOfImage l i.val t with pinmap := im.pinmap c i.val })) s3

/-- Everything that step 2 of R247 assigns besides: GPIO_OWN, mailbox receivers, the field limit. -/
def State.assign (s : State) (c : Fin 13) (im : LoadedImage) : State :=
  let s1 := (s.ownBalls im c c).receivers c im
  if im.fieldLimited then s1.fieldLimitLock true else s1

/-! ### Release (R245, R247) -/

/-- A fragment record is written at its BAR0 offset (R243). -/
def State.fragWrite (s : State) (at_ : Nat) (v : Reg32) : State :=
  if at_ < 0x300000 then s.plumbWrite .keystone (at_ - 0x200000) v
  else if at_ < 0x900000 then
    match (List.finRange 50).find? (fun q => decide (portBase q ≤ at_ ∧ at_ < portBase q + 0x4000)) with
    | some q => s.portWrite .keystone q (at_ - portBase q) v
    | none => s
  else if h : (at_ - 0x900000) / 0x100 < 256 then s.fcWrite .keystone ⟨(at_ - 0x900000) / 0x100, h⟩ (at_ % 0x100) v
  else s

/-- The fragments held back take effect, in section order (R243, R245). -/
def State.applyFrags (s : State) (c : Fin 13) (im : LoadedImage) (l : List FragRec) : State :=
  l.foldl (fun s r => match im.fragAt c r with
    | some a => s.fragWrite a r.value
    | none => s) s

/-- The bricks and tiles of the image start: RUN of each is set (R247). -/
def State.runCourse (s : State) (c : Fin 13) (im : LoadedImage) : State :=
  let s1 := (List.finRange 4).foldl (fun s b =>
    if bit im.brickMask b.val then
      let s1 := s.modBrick (brickOf c b) (fun x => { x with runBit := true })
      if (s1.brick (brickOf c b)).run = .idle then s1.startBrick (brickOf c b) else s1
    else s) s
  (List.finRange 16).foldl (fun s i =>
    if bit im.tileMask i.val then s.modTile (tileOfCourse c i) (fun t => t.setRun true s.now) else s) s1

/-- Course c is released (R247 step 4). -/
def State.releaseCourse (s : State) (c : Fin 13) : State :=
  match (s.course c).image with
  | some im =>
    let s1 := s.modCourse c (fun x => { x with released := true, release := none })
    (((s1.runCourse c im).applyFrags c im im.fragment).portUp (portCp c) 0).setMode c 0
  | none => s

/-! ### Boundaries and replies (R12, R462) -/

/-- The root time of a boundary. -/
def State.rootOf (s : State) : Boundary → Nat
  | .cycle c n => (s.course c).base + brickCycle * n
  | .time d sec ns => s.tdReach d ((sec * 1000000000 + ns) * 2 ^ 48) s.now

/-- The words B0 to B2 of a boundary (R462). -/
def Boundary.words : Boundary → List Reg32
  | .cycle _ n => [0x40000000, BitVec.ofNat 32 n, BitVec.ofNat 32 (n / 2 ^ 32 % 65536)]
  | .time d sec ns => [BitVec.ofNat 32 ((2 + d.val) * 2 ^ 30 + ns), BitVec.ofNat 32 sec, BitVec.ofNat 32 (sec / 2 ^ 32 % 65536)]

/-- The service code of what acts at a boundary (R459, R463). -/
def AtBoundary.code : AtBoundary → Nat
  | .patch _ => 0x0301 | .test _ | .testSegment _ | .testJournal => 0x0401 | .courseReset _ => 0x0402 | .doze => 0x0501 | .wake => 0x0502 | .reset _ => 0x0503
  | .journalStart => 0x0E01 | .journalStop => 0x0E02 | .replay => 0x0E03 | .portConfig => 0x0F01 | .portLoop => 0x0F03 | .portReset => 0x0F04

/-- The course that it concerns. -/
def AtBoundary.course : AtBoundary → Option (Fin 13)
  | .patch c | .test c | .courseReset c => some c
  | _ => none

def State.modKeystone (s : State) (f : Keystone → Keystone) : State := { s with keystone := f s.keystone }

/-- An event of a live reload carries the time and the cycles of its courses (R255). -/
def State.handoverEvent (s : State) (h : Handover) (what : Nat) : State :=
  s.event .handover true 0 [what, h.live.val, h.standby.val, h.sec, h.ns, (s.course h.live).cycleAt s.now, (s.course h.standby).cycleAt s.now]

/-! ### COURSE reset (R80 to R83, R94, R208, R212, R230) -/

/-- What waits for course c ends with status COURSE: its release, and the services at a boundary. -/
def State.dropServices (s : State) (c : Fin 13) : State :=
  let s1 := match (s.course c).release with
    | some (_, r) => (s.modCourse c (fun x => { x with release := none })).svcReply 0x0101 r 12 []
    | none => s
  let mine := fun (d : Deferred) => decide (d.act = .patch c) || decide (d.act = .test c)
  let out := s1.keystone.deferred.filter mine
  let s2 := s1.modKeystone (fun k => { k with deferred := k.deferred.filter (fun d => !mine d) })
  out.foldl (fun s d => s.svcReply d.act.code d.req 12 []) s2

/-- The course is emptied: its bricks, tiles, frame mover, trowel and tap are reset; the bank and the instruction memories keep
their contents. -/
def State.emptyCourse (s : State) (c : Fin 13) : State :=
  let lim := match (s.course c).image with
    | some im => im.fieldLimited
    | none => false
  let s1 := (List.finRange 4).foldl (fun s b =>
    (s.modBrick (brickOf c b) (fun x => { Brick.reset with imem := x.imem })).resetParty (0x80 + (brickOf c b).val)) s
  let s2 := (List.finRange 16).foldl (fun s i => s.modTile (tileOfCourse c i) (fun t => t.courseReset s.now)) s1
  let s3 := (List.range 128).foldl (fun s n =>
    let g := s.reg (gpioOwnOff n)
    if bit g 31 ∧ bits g 15 8 / 16 = c.val then s.setReg (gpioOwnOff n) (setBit g 31 false) else s) s2
  let s4 := s3.modCourse c (fun x =>
    { Course.reset with bank := x.bank, base := edgeFrom brickCycle s3.now, fenced := x.fenced, fencedMem := x.fencedMem,
                        trwStatus := BitVec.ofNat 32 (b2n x.fenced * 2 ^ 29 + b2n x.trowel.isSome * 2 ^ 28) })
  let s5 := s4.portDown (portCp c)
  if lim then s5.fieldLimitLock false else s5

/-- Every CPMAP entry that leads to course c takes a value (R269). -/
def State.remap (s : State) (c : Fin 13) (v : Reg32) : State :=
  (List.finRange 13).foldl (fun x n => if s.cpTarget n = c then x.setReg (0x8F8000 + 4 * n.val) v else x) s

/-- A live reload ends before its re-point: its shadow steering is undone, and its request answered (R83, R252, R255). -/
def State.endHandover (s : State) (status : Nat) : State :=
  match s.keystone.handover with
  | some h =>
    let s1 := (s.modKeystone (fun k => { k with handover := none })).remap h.live (BitVec.ofNat 32 h.live.val)
    let s2 := (s1.modCourse h.live (fun x => { x with egressOnly := none })).modCourse h.standby (fun x => { x with egressOnly := none })
    (s2.handoverEvent h 9).svcReply 0x0201 h.req status [BitVec.ofNat 32 h.standby.val]
  | none => s

/-- A COURSE reset of course c. During a preserving trowel run it waits for the end of the segment (R230); a destructive run ends
at once, and what it was writing is undefined. -/
def State.courseReset (s : State) (c : Fin 13) : State :=
  let x := s.course c
  match x.trowel with
  | some t =>
    if t.preserving then s.setCourse c { x with trowel := some { t with abort := true } }
    else
      let s1 := ((s.loseMemory c t.target).journalEnd c 1).emptyCourse c
      match t.req with
      | some r => s1.svcReply 0x0401 r 12 [(s1.course c).trwStatus]
      | none => s1
  | none =>
    let s1 := (s.ungateCourse c 0).dropServices c
    let s2 := if (s1.replay.course = c ∧ (s1.replay.st = .loading ∨ s1.replay.st = .running))
      then (s1.replayAbort c).event .courseResetEndsReload true 0 [c.val] else s1
    let s3 := (s2.journalEnd c 1).emptyCourse c
    match s3.keystone.handover with
    | some h =>
      if c = h.standby then (s3.endHandover 12).event .courseResetEndsReload true 0 [c.val]
      else if c = h.live then (s3.emptyCourse h.standby).endHandover 12
      else s3
    | none => s3

end Sys2Proof.Machine
end

