-- ==== Sys2Proof/Machine/Reset.lean ====
section
/-! DEFINITION. The DEVICE, PCIE, PORT and CANCTL resets, and phase ROM with the start record and footing mode (R47, R80 to R92,
R232, R442, R465, R467, R478, R484). -/

namespace Sys2Proof.Machine

def State.modPower (s : State) (f : Power → Power) : State := { s with power := f s.power }
def State.modRecord (s : State) (f : StartRecord → StartRecord) : State := s.modPower (fun p => { p with startRec := f p.startRec })

/-! ### The start registers (R88, R90) -/

/-- PHASE (R84). -/
def Phase.code : Phase → Nat
  | .rom => 0 | .keystoneLoad => 1 | .clocks => 2 | .trowel => 3 | .courseLoad => 4 | .ports => 5 | .running => 6 | .footing => 15

/-- START_STATUS (R88). -/
def Power.startStatus (p : Power) : Reg32 :=
  BitVec.ofNat 32 (p.phase.code * 2 ^ 28 + p.startCount.toNat * 2 ^ 24 + p.cause.toNat * 2 ^ 20 + b2n p.fwSrc * 2 ^ 19 + b2n p.fallback * 2 ^ 18 +
    b2n p.strapFault * 2 ^ 17 + b2n p.calDefault * 2 ^ 16 + b2n p.degraded * 2 ^ 15 + p.bootSel.toNat)

/-- FOOTING_CAUSE (R90). -/
def Power.footingCause (p : Power) : Reg32 :=
  let r := p.startRec
  BitVec.ofNat 32 (b2n (decide (p.phase = .footing)) * 2 ^ 31 + r.count % 16 * 65536 + r.phase.toNat * 256 + r.code.toNat)

/-! ### The DEVICE reset (R80) -/

/-- Recording of the journal ends with END, cause 3 (R491). -/
def State.journalCut (s : State) : State :=
  let c := s.jrnCourse
  s.jrec c (.fin ((s.course c).cycleAt s.now) 3)

/-- The journal after a DEVICE reset: what the SRAM holds stays while VSRAM stays in range, and a journal reads FROZEN (R80, R232). -/
def Journal.kept (j : Journal) : Journal :=
  if j.wptr = 0 then { Journal.reset with fill := j.fill }
  else { Journal.reset with recs := j.recs, st := .frozen, wptr := j.wptr, kf := j.kf, trig := j.trig, fill := j.fill }

/-- The recorder after a DEVICE reset: its registers and a freeze belong to that scope, its ring, its mark and a running flush do
not (R56, R80, R478). -/
def Recorder.kept (r : Recorder) : Recorder := { r.thaw with cfg := 0x32, clearPending := false }

/-- The memories that a trowel run of a course had under test become undefined (R230). -/
def State.loseTested (s : State) (c : Fin 13) : State :=
  match (s.course c).trowel with
  | some t => s.loseMemory c t.target
  | none => s

/-- Every block but the wake domain, the TAP and the flush domain is reset. Memories, pins of the
outside world, flash, OTP and the lockout of R465 stand. -/
def State.deviceReset (s0 : State) (cause : BitVec 4) : State :=
  let s := (List.finRange 13).foldl State.loseTested s0.journalCut
  let p := s.power
  let left := fun (t : Nat) => t - s.tick
  { State.reset with
    pending := s.pending, freeCtr := s.freeCtr, readValue := s.readValue, fieldFitted := s.fieldFitted, flash := s.flash,
    otp := s.otp, hostMem := s.hostMem,
    pins := { Pins.reset with
      pfailLow := s.pins.pfailLow, vhold := s.pins.vhold, leaseIn := s.pins.leaseIn,
      bypALow := if s.pins.bypA then 10 else left s.pins.bypALow, bypBLow := if s.pins.bypB then 10 else left s.pins.bypBLow },
    power := { Power.reset with
      supply := p.supply, sramLost := p.sramLost, rstLow := p.rstLow, tap := p.tap, cause := cause, bootSel := p.bootSel,
      failRecorded := p.failRecorded, fault := p.fault, wakeSrc := p.wakeSrc, wakeCfg := p.wakeCfg, wakePin := p.wakePin,
      startRec := p.startRec },
    bricks := s.bricks.map (fun b => { Brick.reset with imem := b.imem }),
    tiles := s.tiles.map (fun t => { Tile.reset with prog := t.prog }),
    courses := s.courses.map (fun x => { Course.reset with bank := x.bank }),
    recorder := s.recorder.kept,
    journal := if p.sramLost then Journal.reset else s.journal.kept,
    keystone := { Keystone.reset with lockoutEnd := s.keystone.lockoutEnd.map left },
    field := { FieldIo.reset with di := s.field.di, wb := s.field.wb, fv24 := s.field.fv24 } }

/-! ### Phase ROM and footing mode (R86, R89 to R91) -/

/-- The failed-start count read at ROM leads to footing mode, or the part is RETIRED (R86, R451). -/
def State.toFooting (s : State) : Bool := decide (3 ≤ s.power.startRec.count) || decide (s.lifecycle = .retired)

/-- The start record as phase ROM leaves it: the start number counted; a start that ended without a recorded cause shows as code
0x0A; and without footing mode the count plus one, in phase ROM (R86, R91). -/
def State.romRecord (s : State) : State :=
  let p := s.power
  let r := p.startRec
  let lostCause := decide (r.count ≠ 0) && !p.failRecorded
  let r1 := { r with number := r.number + 1, code := if lostCause then 0x0A else r.code, param := if lostCause then p.cause.setWidth 32 else r.param }
  if s.toFooting then s.modPower (fun p => { p with startRec := r1, startCount := BitVec.ofNat 4 r.count, failRecorded := true })
  else s.modPower (fun p => { p with startRec := { r1 with count := r.count + 1 }, startCount := BitVec.ofNat 4 r.count, failRecorded := false })

/-- A flush block without an end marker, newest first, that no start has reported (R484). -/
def State.reportFlush (s : State) : State :=
  match s.recorder.blocks with
  | b :: bs =>
    if b.ended = false ∧ b.reported = false then
      let first := match b.recs with
        | e :: _ => e.seq
        | [] => s.recorder.next
      (s.modRec (fun r => { r with flushState := 3, blocks := { b with reported := true } :: bs })).recordEvent
        { code := 0x0C02, sev := 2, inst := 0, party := 0x01, p0 := first, p1 := 0, mgmt := true }
    else s
  | [] => s

/-- The recorder at the start: emptied, with its numbering from 0, when its SRAM has lost power (R478). -/
def State.startRecorder (s : State) : State :=
  let lost := s.power.sramLost
  let s1 := if lost then
      s.modRec (fun r => { Recorder.reset with blocks := r.blocks, flushing := r.flushing, flushState := r.flushState })
    else s
  let s2 := s1.modPower (fun p => { p with sramLost := false })
  s2.recordEvent { code := 0x0101, sev := 0, inst := 0, party := 0x01, p0 := s2.power.startStatus,
                   p1 := if lost then BitVec.allOnes 32 else s2.power.footingCause, mgmt := true }

/-- LC_STATUS as the OTP gives it (R447, R448, R469). -/
def State.lcWord (s : State) : Reg32 :=
  let slot := if s.lifecycle = .manufacture then 3 else if bit (s.otpWord 36) 0 then 1 else 0
  BitVec.ofNat 32 (s.lifecycle.code * 2 ^ 29 + slot * 2 ^ 27 + b2n (bit (s.otpWord 36) 1) * 2 ^ 26 + ones (s.otpWord 39) 32 * 65536 +
    ones (s.otpWord 40) 32 * 65536 + ones (s.otpWord 37) 32 * 256 + ones (s.otpWord 38) 32 * 256)

/-- Phase ROM: the start record, footing mode after three failed starts or in RETIRED, the records of the start (R84 to R90). -/
def State.startRom (s : State) : State :=
  let strap := decide (s.power.bootSel = 3) && decide (s.lifecycle ≠ .manufacture ∧ s.lifecycle ≠ .returned)
  let foot := s.toFooting
  let s1 := s.romRecord.modPower (fun p =>
    { p with phase := if foot then .footing else .rom, strapFault := strap, fault := p.fault || foot, lcStatus := s.lcWord })
  let s2 := if foot then s1 else s1.modRecord (fun r => { r with phase := 0 })
  let s3 := s2.startRecorder.reportFlush
  if strap then s3.event .strapFault true 0 [] else s3

/-- A DEVICE reset and, once nothing holds the device in reset, the start that follows it (R80, R84). -/
def State.restart (s : State) (cause : BitVec 4) : State :=
  let s1 := s.deviceReset cause
  if s1.alive then s1.startRom else s1

/-- A failure of a start that the keystone or the boot ROM detects: the cause is recorded, FAULT_N asserted, and a DEVICE reset
applied (R87, R91); an assertion of FAULT_N flushes the recorder (R483). -/
def State.startFail (s : State) (code : BitVec 8) (param : Reg32) (cause : BitVec 4) : State :=
  let s1 := s.modRecord (fun r => { r with code := code, param := param })
  let s2 := (s1.modPower (fun p => { p with failRecorded := true, fault := true })).event .startFailed true 0 [code.toNat, param.toNat]
  (s2.flushStart 1).restart cause

/-! ### Narrower resets -/

/-- BRK_CTRL's session bits: BKPT_HALT and STEP are cleared, and an injection that waits ends refused (R467). -/
def Brick.endSession (b : Brick) : Brick :=
  { b with bkptHalt := false, inj := if b.inj.busy then { b.inj with busy := false, result := 3 } else b.inj }

/-- A tile injection that waits ends refused (R467). -/
def Tile.endSession (t : Tile) : Tile := if t.inj.isSome then { t with inj := none, injResult := 2 } else t

/-- The debug session ends (R467): halted bricks stay halted and are listed; `wipe` zeroises the session secrets too (R469). -/
def State.endSession (s : State) (wipe : Bool) : State :=
  let s1 := if wipe then s.modKeystone (fun k => { k with challenge := false, window := (List.range 32).foldl (fun m a => Sparse.write hostBlank m a 0) k.window }) else s
  match s1.keystone.session with
  | none => s1
  | some _ =>
    let s2 := { s1.modKeystone (fun k => { k with session := none }) with
      bricks := s1.bricks.map (fun (b : Brick) => b.endSession), tiles := s1.tiles.map (fun (t : Tile) => t.endSession) }
    let halted := ((List.finRange 52).filter (fun (k : Fin 52) => decide ((s2.brick k).run = BrickRun.halted))).map (fun (k : Fin 52) => k.val)
    let s3 := s2.event .session true 0 [0]
    if halted = [] then s3 else s3.event .sessionHalted true 0 halted

/-- A PCIE-scope reset: the rings stop and their pointers clear, both functions are reset as parties, a debug session ends, and a
boot wait starts again (R80, R81, R85, R423, R426, R467). -/
def State.pcieReset (s : State) : State :=
  let s1 := { s with rings := s.rings.map (fun (r : Ring) => { r.zeroed with st := .stopped, conds := 0 }), ringLast := 31,
                     pf0 := .reset, pf1 := .reset,
                     plumb := { s.plumb with latches := s.plumb.latches.filter (fun x => decide (2 ≤ x.1 % 256)) } }
  let s2 := ((s1.resetParty 2).resetParty 3).endSession true
  s2.modPower (fun p => { p with pcieWait := p.pcieWait.map (fun _ => s2.tick) })

/-- A gated field port, or a port, is reset: the link goes down, and a gated port is ungated (R80, R82, R259). -/
def State.portResetAct (s : State) (q : PortCode) : State :=
  (s.modPower (fun p => { p with doze := { p.doze with ports := setBit p.doze.ports q.val false } })).portDown q

/-- A CAN controller is reset, and ungated (R82, R374). -/
def State.canResetAct (s : State) (n : Fin 8) : State :=
  (s.modPower (fun p => { p with doze := { p.doze with cans := setBit p.doze.cans n.val false, waitCans := setBit p.doze.waitCans n.val false } })).canReset n

/-- A course is reset, gated or not: a request that waits for its gating waits no longer (R82). -/
def State.courseResetAct (s : State) (c : Fin 13) : State :=
  (s.modPower (fun p => { p with doze := { p.doze with waitCourses := setBit p.doze.waitCourses c.val false } })).courseReset c

end Sys2Proof.Machine
end

