-- ==== Sys2Proof/Machine/Start.lean ====
section
/-! DEFINITION. The phases of the start from KEYSTONE_LOAD to RUNNING, and the failures of a start (R84 to R91, R232, R246, R247, R454,
R498, R511, R521). -/

namespace Sys2Proof.Machine

/-- The start enters a phase; the keystone writes it into the start record (R86). -/
def State.enterPhase (s : State) (p : Phase) : State :=
  ((s.modPower (fun x => { x with phase := p })).modRecord (fun r => { r with phase := BitVec.ofNat 4 p.code })).event .startPhase true 0 [p.code]

/-! ### KEYSTONE_LOAD (R47, R85, R454) -/

/-- Keystone firmware is loaded from an image: its identity, or the failure code and parameter (R91). `src`: 1 over PCIe. -/
def State.firmwareBad (s : State) (src : Nat) (l : List Byte) : Option (BitVec 8 × Reg32) :=
  if src = 0 ∧ l.take 4 ≠ [0x41, 0x54, 0x49, 0x52] then some (0x02, 0)
  else match s.imageBad 1 l with
    | some (_, k) => some (0x01, BitVec.ofNat 32 (k * 65536 + src))
    | none => none

/-- The firmware runs, and the next phase begins. -/
def State.runFirmware (s : State) (src : Nat) (l : List Byte) : State :=
  ((s.modKeystone (fun k => { k with firmware := some (imageId l) })).modPower (fun p =>
    { p with fwSrc := decide (src = 1), pcieWait := none })).enterPhase .clocks

/-- Firmware that the host delivers over PCIe (R85). -/
def State.pcieLoad (s : State) (fw : Option (List Byte)) : State :=
  match fw with
  | none => s
  | some l =>
    match s.firmwareBad 1 l with
    | some (c, x) => s.startFail c x 7
    | none => s.runFirmware 1 l

/-- KEYSTONE_LOAD ends, or turns to PCIe. -/
def State.keystoneLoad (s : State) (fw : Option (List Byte)) : State :=
  let l := s.flashImage 0x100000 0x400000
  if s.power.bootSel = 1 ∨ s.power.fallback then s.pcieLoad fw
  else match s.firmwareBad 0 l with
    | none => s.runFirmware 0 l
    | some (c, x) =>
      if s.power.bootSel = 2 then (s.modPower (fun p => { p with fallback := true, pcieWait := some s.tick })).pcieLoad fw
      else s.startFail c x 7

/-! ### CLOCKS (R334, R498) -/

/-- A calibration page is valid (R497, R498; log 36). -/
def State.calValid (s : State) (l : List Byte) : Bool :=
  decide (imgNat l 0 4 = 0x43414C50) && (decide (imgNat l 4 2 = 1) && (decide (imgNat l 8 8 = s.uid.toNat) &&
    decide (Config.sha512 (l.take 0xFC0) = digestOf (l.drop 0xFC0))))

/-- The calibration page is read and the path delays are loaded. -/
def State.loadCal (s : State) : State :=
  let l := Memory.readBytes flashBlank s.flash 0 4096
  let ok := s.calValid l
  let s1 := s.modPower (fun p => { p with calPage := if ok then l else [], calDefault := !ok })
  (List.finRange 36).foldl (fun s k => s.loadDelays ⟨k.val, by omega⟩) s1

/-! ### TROWEL (R88, R232, R521) -/

/-- TRW_STATUS at the end of a run (R230). -/
def trwResult (fenced : Bool) (fails : BitVec 16) : Reg32 :=
  BitVec.ofNat 32 ((if fails = 0 then 2 else 3) * 2 ^ 30 + b2n fenced * 2 ^ 29 + fails.toNat)

/-- A course passes its start-up test: its memories hold the last background in every word. -/
def State.coursePasses (s : State) (c : Fin 13) : State :=
  let s1 := s.modCourse c (fun x => { x with bank := [], trwStatus := trwResult false 0 })
  (List.finRange 4).foldl (fun s b => s.modBrick (brickOf c b) (fun x => { x with imem := [], pre := [] })) s1

/-- A course fails it: the course is fenced, and its memories are undefined. -/
def State.courseFails (s : State) (f : CourseFail) : State :=
  let s1 := (s.loseMemory f.course 2).modCourse f.course (fun x =>
    { x with fenced := true, fencedMem := bit f.addr 31, trwStatus := trwResult true (if f.fails = 0 then 1 else f.fails), trwAddr := f.addr, trwData := f.data })
  (s1.modPower (fun p => { p with degraded := true })).event .courseFenced true 0 [f.course.val, f.fails.toNat]

/-- The background that the start-up test of the journal leaves in each word (R226, R521). -/
def journalFill : BitVec 64 := 0x00000000FFFFFFFF

/-- The start-up march tests have ended; that of the journal runs only after power on or STANDBY (R232). -/
def State.trowelEnd (s : State) (l : List CourseFail) : State :=
  let s1 := if s.power.cause = 0 ∨ s.power.cause = 2 then { s with journal := { Journal.reset with fill := some journalFill } } else s
  l.foldl State.courseFails ((List.finRange 13).foldl State.coursePasses s1)

/-! ### COURSE_LOAD (R88, R246, R247) -/

/-- The standby course (R14). -/
def State.standby (s : State) : Option (Fin 13) :=
  let r := s.reg 0x40
  if h : bits r 3 0 < 13 then (if bit r 31 then some ⟨bits r 3 0, h⟩ else none) else none

/-- Course c takes a verified image, with a recorder event (R246, R247). -/
def State.putImage (s : State) (c : Fin 13) (l : List Byte) (im : LoadedImage) : State :=
  ((s.writeImage c l im).assign c im).event .load true 0 [c.val, 0, im.id.version.toNat]

/-- One entry of the start manifest (R241, R247), 128 bytes: the state, or the failing section and course. -/
def State.manifestEntry (s : State) (e : List Byte) : Except (Nat × Nat) State :=
  let stage := (List.range 32).map (fun k => BitVec.ofNat 32 (imgNat e (4 * k) 4))
  let w0 : Reg32 := nth stage 0 0
  let n := bits w0 31 28
  let slot := bits w0 7 0
  let l := s.slotImage slot
  let place := fun (c : Fin 13) (s : State) =>
    let im := loadedOf c l stage 0
    match s.loadBad c c l im with
    | some (_, k) => Except.error (k, n)
    | none => Except.ok (s.putImage c l im)
  if h : n < 13 then
    let c : Fin 13 := ⟨n, h⟩
    if 48 ≤ slot then .error (0, n)
    else if (s.course c).fenced then
      match s.standby with
      | some d =>
        if (s.course d).fenced ∨ s.loaded d then .ok s
        else place d (s.setReg 0x40 (setBit (s.reg 0x40) 31 false))
      | none => .ok s
    else if s.loaded c ∨ s.standby = some c then .error (0, n)
    else place c s
  else .error (0, n)

/-- The entries in order, up to the first that fails. -/
def State.manifestEntries (s : State) : List (List Byte) → Except (Nat × Nat) State
  | [] => .ok s
  | e :: es =>
    match s.manifestEntry e with
    | .ok s1 => s1.manifestEntries es
    | .error x => .error x

/-- The start manifest in flash is loaded; an erased one names no image, and MANUFACTURE accepts none (R451; log 37). -/
def State.loadManifest (s : State) : Except (Nat × Nat) State :=
  let l := s.flashImage 0x10000 0x10000
  if s.lifecycle = .manufacture ∨ l.take 4 = [0xFF, 0xFF, 0xFF, 0xFF] then .ok s
  else match s.imageBad 5 l with
    | some (_, k) => .error (k, 0)
    | none =>
      match firstBad (fun k => decide ((sectAt l k).typ = 9 ∧ (sectAt l k).len % 128 = 0)) (sectCount l) with
      | some k => .error (k, 0)
      | none => (s.modKeystone (fun k => { k with manifest := some (imageId l) })).manifestEntries (recordsOf 128 (typeBytes l 9))

/-! ### The phases in order (R84) -/

/-- PHASE becomes RUNNING: the Urral link and the other units are enabled, the courses are released, the count is cleared. -/
def State.enterRunning (s : State) : State :=
  let s1 := ((s.urralStart).enterPhase .running).modRecord (fun r => { r with count := 0 })
  let s2 := s1.modPower (fun p => { p with fault := false, failRecorded := true })
  (List.finRange 13).foldl State.releaseCourse s2

/-- A PLL has not locked (R91). -/
def State.pllFails (s : State) (k : BitVec 2) : State := s.startFail 0x04 (k.setWidth 32) 7

/-- START_PHASE_COMPLETE: the phase that runs ends as the outcome says. -/
def State.phaseEnd (s : State) (o : PhaseOutcome) : State :=
  match s.power.phase with
  | .rom =>
    match o.pllFail with
    | some k => s.pllFails k
    | none =>
      (s.modPower (fun p => { p with pcieWait := if p.bootSel = 1 then some s.tick else none })).enterPhase .keystoneLoad
  | .keystoneLoad => s.keystoneLoad o.firmware
  | .clocks =>
    match o.otpFault, o.pllFail with
    | some w, _ => s.startFail 0x05 (w.setWidth 32) 7
    | none, some k => s.pllFails k
    | none, none => (s.loadCal).enterPhase .trowel
  | .trowel =>
    match o.sharedFail with
    | some (b, a) => s.startFail 0x06 (b ++ a) 7
    | none => (s.trowelEnd o.fenced).enterPhase .courseLoad
  | .courseLoad =>
    match s.loadManifest with
    | .ok s1 => s1.enterPhase .ports
    | .error (k, c) => s.startFail 0x07 (BitVec.ofNat 32 (k * 65536 + c)) 7
  | .ports => s.enterRunning
  | .running => s
  | .footing => s

/-- A start is in progress. -/
def State.starting (s : State) : Bool := s.alive && decide (s.power.phase ≠ .running ∧ s.power.phase ≠ .footing)

/-- A keystone fatal fault (R87, R483): before RUNNING the start fails with code 0x08; after it the recorder is flushed and the
device reset. -/
def State.fatalFault (s : State) (code : Reg32) : State :=
  if s.starting then s.startFail 0x08 code 5
  else
    let s1 := (s.modPower (fun p => { p with fault := true })).event .fatal true 0 [code.toNat]
    (s1.flushStart 1).restart 5

/-! ### Commands -/

/-- START_PHASE_COMPLETE (R84). -/
def execStartPhaseComplete (o : PhaseOutcome) (s : State) : Host.Outcome State Fault Refusal :=
  s.when_ s.starting (fun s => s.phaseEnd o)

/-- START_WATCHDOG_EXPIRY (R85, R91). -/
def execStartWatchdogExpiry (s : State) : Host.Outcome State Fault Refusal :=
  s.when_ (s.starting && decide (2000 ≤ s.tick)) (fun s => s.startFail 0x09 0 6)

/-- PCIE_BOOT_WAIT_EXPIRY (R84, R91): 1,000 ms of waiting. -/
def execPcieBootWaitExpiry (s : State) : Host.Outcome State Fault Refusal :=
  match s.power.pcieWait with
  | some t => s.when_ (s.starting && decide (t + 1000 ≤ s.tick)) (fun s => s.startFail 0x03 (BitVec.ofNat 32 (s.tick - t)) 7)
  | none => .next s

/-- KEYSTONE_FATAL_FAULT (R87). -/
def execKeystoneFatalFault (code : Reg32) (s : State) : Host.Outcome State Fault Refusal := s.when_ s.alive (fun s => s.fatalFault code)

/-- OVER_TEMPERATURE_FAULT (R511): readings above 125 °C for 10 ms. -/
def execOverTemperatureFault (s : State) : Host.Outcome State Fault Refusal :=
  match s.power.hotFrom with
  | some t => s.when_ (s.alive && decide (t + 10 ≤ s.tick)) (fun s => s.fatalFault 0x31)
  | none => .next s

end Sys2Proof.Machine
end

