-- ==== Sys2Proof/Machine/PowerCmds.lean ====
section
/-! DEFINITION. Power states and pins: the management tick, bypasses, PFAIL_N, VHOLD, wake, resets, boundary scan, DOZE and STANDBY
(R11, R43 to R92, R373, R466, R511). -/

namespace Sys2Proof.Machine

/-! ### The management tick (R11) -/

/-- What the die sensors ask for: a warning above 115 °C, and the count of 10 ms above 125 °C; readings in 1/16 °C (R511). -/
def State.senseTick (s : State) (x : BitVec 16) : State :=
  let hot := decide (2000 < x.toInt)
  let s1 := s.modPower (fun p => { p with hotFrom := if hot then (match p.hotFrom with
    | some t => some t
    | none => some s.tick) else none })
  if 1840 < x.toInt then s1.event .overTemperature true 0 [x.toNat] else s1

/-- MANAGEMENT_TICK (R11, R48, R317, R334, R394, R401, R511). -/
def execManagementTick (sensor : BitVec 16) (s : State) : Host.Outcome State Fault Refusal :=
  s.when_ s.alive (fun s =>
    let s1 := s.at_ ((s.tick + 1) * tickPeriod)
    let s2 := { s1 with tick := s.tick + 1 }
    let s3 := if s2.blocksUp then (((s2.plumbTick).bufferTick).urralTick).bypRaise else s2
    s3.senseTick sensor)

/-- BYP_CTRL_WRITE (R49, R51): PF1 and the chain manager. -/
def execBypCtrlWrite (p : Party) (v : Reg32) (s : State) : Host.Outcome State Fault Refusal :=
  s.when_ (s.alive && s.pf1OrMgr p) (fun s => (s.setReg 0x60 (v &&& 3)).bypDrop)

/-! ### PFAIL_N and VHOLD (R54 to R57) -/

/-- The recorder holds records not yet flushed. -/
def Recorder.dirty (r : Recorder) : Bool := decide (r.dirtyOnes ≠ [])

/-- PFAIL_N_FALL (R54, R56, R57): no effect in STANDBY and OFF. -/
def execPfailNFall (s : State) : Host.Outcome State Fault Refusal :=
  s.when_ (decide (s.power.supply = .on) && !s.pins.pfailLow) (fun s =>
    let s1 := { s with pins := { s.pins with pfailLow := true } }
    if s1.recorder.dirty then s1.flushStart 0 else s1)

/-- PFAIL_N_RISE (R56). -/
def execPfailNRise (s : State) : Host.Outcome State Fault Refusal :=
  s.when_ (decide (s.power.supply = .on) && s.pins.pfailLow) (fun s =>
    let s1 := { s with pins := { s.pins with pfailLow := false } }
    if s.recorder.flushing.isSome then s1.event .pfailRise true 0 [] else s1)

/-- VHOLD_LOSS (R56). -/
def execVholdLoss (s : State) : Host.Outcome State Fault Refusal :=
  .next { s.flushCut with pins := { s.pins with vhold := false } }

/-! ### Wake (R58, R59, R75, R373) -/

/-- The wake latch takes causes: from STBY_READY to the start that follows (R75). -/
def State.wakeOpen (s : State) : Bool := s.power.stbyReady || (decide (s.power.supply = .standby) && bit s.power.wakeSrc 15)

/-- WAKE_RISING_EDGE (R59): recorded outside STANDBY. -/
def execWakeRisingEdge (s : State) : Host.Outcome State Fault Refusal :=
  let s1 := s.modPower (fun p => { p with wakePin := decide (p.supply ≠ .off) })
  .next (if s.alive then s1.event .wakeEdge false 0 [] else s1)

/-- WAKE_QUALIFY (R58, R75). -/
def execWakeQualify (s : State) : Host.Outcome State Fault Refusal :=
  s.when_ (s.wakeOpen && s.power.wakePin) (fun s => s.modPower (fun p => { p with wakeSrc := setBit p.wakeSrc 0 true }))

/-- The wake settings hold for a frame (R372, R373). -/
def WakeCfg.hits (w : WakeCfg) (f : CanFrame) : Bool :=
  !f.fdf && (decide (f.ide = w.ide) && decide ((f.id &&& w.mask) = (w.id &&& w.mask)))

/-- CAN_RXD_WAKE (R58, R75, R373). -/
def execCanRxdWake (n : Fin 8) (w : CanWake) (s : State) : Host.Outcome State Fault Refusal :=
  match s.power.wakeCfg[n.val]? with
  | none => .next s
  | some c =>
    let edge := !c.frame
    let hit := match w with
      | .dominant => edge
      | .frame f => edge || c.hits f
    s.when_ (s.wakeOpen && (c.en && hit)) (fun s => s.modPower (fun p => { p with wakeSrc := setBit p.wakeSrc (if edge then 16 + n.val else 24 + n.val) true }))

/-! ### Rails and RST_N (R64, R65, R73 to R80) -/

/-- The wake domain is disarmed (R73, R74). -/
def Power.disarm (p : Power) : Power := { p with wakeCfg := [], wakeSrc := setBit p.wakeSrc 15 false }

/-- The tile programs lose what they held. -/
def State.losePrograms (s : State) : State :=
  { s with tiles := Vector.ofFn (fun k => { s.tiles[k] with prog := Vector.ofFn (fun i => BitVec.ofNat 16 (Config.free (s.freeCtr + 32 * k.val + i.val))) }),
           freeCtr := s.freeCtr + 6656 }

/-- All rails but VAON, or VAON too, are gone: every memory but flash and OTP has lost its contents; a flush goes on from VHOLD. -/
def State.railsOff (s : State) (left : Supply) : State :=
  let s1 := (s.modPower (fun p => { p with sramLost := true, rstLow := true, tap := .idcode })).deviceReset 0
  let s2 := ((List.finRange 13).foldl (fun s c => s.loseMemory c 2) s1).losePrograms
  s2.modPower (fun p => { p with supply := left })

/-- RST_N_FALL (R43, R49, R73, R80). -/
def execRstNFall (s : State) : Host.Outcome State Fault Refusal :=
  s.when_ (decide (s.power.supply = .on) && !s.power.rstLow) (fun s =>
    (s.modPower (fun p => { (if p.stbyReady then p.disarm else p) with rstLow := true, fault := true })).deviceReset 1)

/-- START_STATUS.CAUSE of a start that RST_N releases: STANDBY_EXIT or POWER_ON once the rails have been away, else RST_N (R76, R88). -/
def Power.releaseCause (p : Power) : BitVec 4 :=
  if p.supply ≠ .on then (if bit p.wakeSrc 15 then 2 else 0) else if p.sramLost then 0 else 1

/-- RST_N_RELEASE (R47, R84): BOOT_SEL 0b11 selects manufacturing test in MANUFACTURE and RETURNED, of which the spec says no more. -/
def execRstNRelease (bootSel : BitVec 2) (s : State) : Host.Outcome State Fault Refusal :=
  if s.power.rstLow = false ∨ s.power.supply = .off then .next s
  else
    let s1 := { s.modPower (fun p => { p with supply := .on, rstLow := false, bootSel := bootSel, fault := false, cause := p.releaseCause }) with
      pins := { s.pins with vhold := true } }
    if bootSel = 3 ∧ (s.lifecycle = .manufacture ∨ s.lifecycle = .returned) then .fault .manufacturingTest
    else .next (if s1.alive then s1.startRom else s1)

/-- RAIL_LOSS (R65, R74). -/
def execRailLoss (s : State) : Host.Outcome State Fault Refusal :=
  s.when_ (decide (s.power.supply = .on) && !s.power.stbyReady) (fun s => (s.modPower Power.disarm).railsOff .standby)

/-- STANDBY_ENTRY (R73): VIO33 falls after STBY_READY. -/
def execStandbyEntry (s : State) : Host.Outcome State Fault Refusal :=
  s.when_ (decide (s.power.supply = .on) && s.power.stbyReady) (fun s =>
    (s.modPower (fun p => { p with wakeSrc := setBit p.wakeSrc 15 true })).railsOff .standby)

/-- The wake domain and WAKE_SRC are reset (R75, R80). -/
def State.aonReset (s : State) : State := s.modPower (fun p => { p with wakeSrc := 0, wakeCfg := [], wakePin := false })

/-- VAON_LOSS (R65). -/
def execVaonLoss (s : State) : Host.Outcome State Fault Refusal :=
  s.when_ (decide (s.power.supply ≠ .off)) (fun s => (s.railsOff .off).aonReset)

/-- VAON_RISE (R80). -/
def execVaonRise (s : State) : Host.Outcome State Fault Refusal :=
  s.when_ (decide (s.power.supply = .off)) (fun s => (s.modPower (fun p => { p with supply := .standby })).aonReset)

/-- PCIE_RESET (R80, R426). -/
def execPcieReset (s : State) : Host.Outcome State Fault Refusal := s.when_ s.alive (fun s => s.pcieReset)

/-- PCIE_LINK_DOWN (R256, R283): H goes down and its hold starts. -/
def execPcieLinkDown (s : State) : Host.Outcome State Fault Refusal :=
  s.when_ s.blocksUp (fun s => { s.portDown portH with pins := { s.pins with pcieUp := false } })

/-- PCIE_LINK_UP (R256, R284, R515). -/
def execPcieLinkUp (s : State) : Host.Outcome State Fault Refusal :=
  s.when_ s.blocksUp (fun s => { s.portUp portH 5 with pins := { s.pins with pcieUp := true } })

/-! ### RST_CTRL (R82) -/

/-- A write of RST_CTRL acts: PF1, with the key. -/
def rstKey (p : Party) (key : BitVec 8) : Bool := p.isPf1 && decide (key = 0x5A)

/-- RST_CTRL_DEVICE. -/
def execRstCtrlDevice (p : Party) (key : BitVec 8) (s : State) : Host.Outcome State Fault Refusal :=
  s.when_ (s.alive && rstKey p key) (fun s => s.restart 4)

/-- RST_CTRL_COURSE. -/
def execRstCtrlCourse (p : Party) (key : BitVec 8) (index : BitVec 6) (s : State) : Host.Outcome State Fault Refusal :=
  s.when_ (s.blocksUp && rstKey p key) (fun s => if h : index.toNat < 13 then s.courseResetAct ⟨index.toNat, h⟩ else s)

/-- RST_CTRL_PORT. -/
def execRstCtrlPort (p : Party) (key : BitVec 8) (index : BitVec 6) (s : State) : Host.Outcome State Fault Refusal :=
  s.when_ (s.blocksUp && rstKey p key) (fun s => if h : index.toNat < 32 then s.portResetAct ⟨index.toNat, by omega⟩ else s)

/-- RST_CTRL_CANCTL. -/
def execRstCtrlCanctl (p : Party) (key : BitVec 8) (index : BitVec 6) (s : State) : Host.Outcome State Fault Refusal :=
  s.when_ (s.blocksUp && rstKey p key) (fun s => if h : index.toNat < 8 then s.canResetAct ⟨index.toNat, h⟩ else s)

/-! ### The TAP (R60 to R62, R466) -/

/-- The debug level allows the TAP instruction (R61, R466). -/
def State.tapAllowed (s : State) (i : TapInstr) : Bool :=
  let lv := s.debugLevel
  let sc := s.debugScope
  match i with
  | .dbgAccess => decide (lv = 2) || (decide (lv = 1) && bit sc 1)
  | .keystoneHalt | .keystoneTrace | .internalScan => decide (lv = 2) && bit sc 3
  | _ => true

/-- An EXTEST-class instruction holds the device in reset; leaving one starts a full start, as leaving internal scan does; its
entry zeroises the session secrets (R62, R466). -/
def State.tapTo (s : State) (i : TapInstr) : State :=
  let old := s.power.tap
  let s1 := if i = .internalScan ∧ old ≠ .internalScan then s.endSession true else s
  let s2 := s1.modPower (fun p => { p with tap := i })
  if i.extestClass then (if old.extestClass then s2 else s2.deviceReset 3)
  else if old.extestClass then s2.restart 3
  else if old = .internalScan ∧ i ≠ .internalScan then s2.restart 7
  else s2

/-- TAP_INSTRUCTION (R61, R62, R466): one that the level does not allow selects BYPASS, as IEEE 1149.1 gives an unused code. -/
def execTapInstruction (i : TapInstr) (s : State) : Host.Outcome State Fault Refusal :=
  s.when_ (decide (s.power.supply = .on)) (fun s => s.tapTo (if s.tapAllowed i then i else .bypass))

/-- EXTEST_EXIT (R62): Test-Logic-Reset selects IDCODE. -/
def execExtestExit (s : State) : Host.Outcome State Fault Refusal :=
  s.when_ (decide (s.power.supply = .on) && s.power.tap.extestClass) (fun s => s.tapTo .idcode)

/-! ### DOZE (R65 to R71) -/

/-- 10 µs in root periods. -/
def gateLimit : Nat := 10 * microsecond

def State.modDoze (s : State) (f : Doze → Doze) : State := s.modPower (fun p => { p with doze := f p.doze })

/-- A doze request (R65, R67): field ports gate at once, courses and CAN controllers when they reach their conditions; a request
without a selection is ignored. -/
def State.dozeRequest (s : State) : State :=
  let c := s.reg 0x88
  let p := s.reg 0x8C
  if (c &&& 0x1FFFFF) = 0 ∧ p = 0 then s
  else
    let count := (s.reg 0x90).toNat
    let s1 := s.modDoze (fun d =>
      { d with waitCourses := c.extractLsb' 0 13 &&& ~~~ s.gatedCourses, waitCans := c.extractLsb' 13 8 &&& ~~~ d.cans, since := s.now,
               timerEnd := if count = 0 then none else some (s.now + count * timeCycle) })
    let s2 := (List.finRange 32).foldl (fun s k =>
      if bit p k.val ∧ bit s.power.doze.ports k.val = false then
        let s1 := s.modDoze (fun d => { d with ports := setBit d.ports k.val true })
        if (s1.port ⟨k.val, by omega⟩).up then s1.holdStart ⟨k.val, by omega⟩ else s1
      else s) s1
    s2.bypDrop

/-- Every gated block wakes (R70); CAN controllers integrate onto their buses again. -/
def State.wakeAll (s : State) (cause : BitVec 4) : State :=
  let g := s.gatedCourses
  let d := s.power.doze
  let s1 := (List.finRange 13).foldl (fun s c => if bit g c.val then s.ungateCourse c cause else s) s
  let s2 := (List.finRange 8).foldl (fun s n =>
    if bit d.cans n.val then s.modCan n (fun c => { c with integ := c.integ || decide (c.st = .on) }) else s) s1
  let s3 := s2.modDoze (fun d => { d with cans := 0, ports := 0, timerEnd := none })
  (List.finRange 32).foldl (fun s k => if bit d.ports k.val then s.endGateHold ⟨k.val, by omega⟩ else s) s3

/-- A write of PWR_CTRL by party p may act: PF1, the chain manager, and the keystone for its services (R65, R66). -/
def State.pwrOpen (s : State) (p : Party) : Bool := s.blocksUp && (s.pf1OrMgr p && !s.power.stbySeq)

/-- DOZE_REQUEST (R65). -/
def execDozeRequest (p : Party) (s : State) : Host.Outcome State Fault Refusal := s.when_ (s.pwrOpen p) (fun s => s.dozeRequest)

/-- PWR_WAKE (R70). -/
def execPwrWake (p : Party) (s : State) : Host.Outcome State Fault Refusal := s.when_ (s.pwrOpen p) (fun s => s.wakeAll 3)

/-- DOZE_TIMER_EXPIRY (R70). -/
def execDozeTimerExpiry (s : State) : Host.Outcome State Fault Refusal :=
  match s.power.doze.timerEnd with
  | some t => s.when_ (s.blocksUp && !s.power.stbySeq) (fun s => (s.at_ t).wakeAll 2)
  | none => .next s

/-- A course has reached its gating condition (R67): no brick inside a REP sequence, no descriptor of the frame mover in flight, no
tile inside an instruction. -/
def State.gateable (s : State) (c : Fin 13) : Bool :=
  let x := s.course c
  (List.finRange 4).all (fun b => !((s.brick (brickOf c b)).counts && (s.brick (brickOf c b)).inRep)) &&
  (x.fmRx.all (fun (f : RxFrame) => decide (f.written = 0)) && (x.fmTx.all (fun (f : TxFrame) => decide (f.got = [])) &&
  (List.finRange 16).all (fun i => (s.tile (tileOfCourse c i)).cur.isNone)))

/-- The course stops (R67, R69, R71): bricks that wait for their boundary wait on, and CPn holds its frames. -/
def State.gateCourse (s : State) (c : Fin 13) : State :=
  let ends := (List.finRange 4).map (fun b => if (s.brick (brickOf c b)).counts then (s.brick (brickOf c b)).ready else 0)
  let t := (s.course c).edgeAt (ends.foldl max s.now)
  let s1 := (s.at_ t).modDoze (fun d => { d with waitCourses := setBit d.waitCourses c.val false })
  let s2 := (List.finRange 4).foldl (fun s b => s.modBrick (brickOf c b) (fun x => { x with ready := max x.ready t })) s1
  let s3 := s2.modCourse c (fun x => { x with gatedAt := some t })
  let s4 := s3.jrec c (.mode (s3.course c).mode true 0 ((s3.course c).cycleAt t))
  let s5 := if (s4.port (portCp c)).up then s4.holdStart (portCp c) else s4
  s5.bypDrop

/-- COURSE_GATE (R67), within 10 µs of the request (R68). -/
def execCourseGate (c : Fin 13) (s : State) : Host.Outcome State Fault Refusal :=
  let d := s.power.doze
  s.when_ (s.blocksUp && (bit d.waitCourses c.val && (decide (s.now ≤ d.since + gateLimit) && (!s.gated c && s.gateable c)))) (fun s => s.gateCourse c)

/-- CAN_GATE (R67): the bus is idle, or the controller is bus-off. -/
def execCanGate (n : Fin 8) (s : State) : Host.Outcome State Fault Refusal :=
  let d := s.power.doze
  let x := s.can n
  s.when_ (s.blocksUp && (bit d.waitCans n.val && (decide (s.now ≤ d.since + gateLimit) && (decide (x.st = .busOff) || x.quiet)))) (fun s =>
    (s.modDoze (fun d => { d with waitCans := setBit d.waitCans n.val false, cans := setBit d.cans n.val true })).bypDrop)

/-- DOZE_GATE_TIMEOUT (R68): an event names each block that stayed ungated. -/
def execDozeGateTimeout (s : State) : Host.Outcome State Fault Refusal :=
  let d := s.power.doze
  s.when_ (s.blocksUp && (decide (d.waitCourses ≠ 0) || decide (d.waitCans ≠ 0))) (fun s =>
    let s1 := (s.at_ (d.since + gateLimit)).modDoze (fun d => { d with waitCourses := 0, waitCans := 0 })
    let s2 := (List.finRange 13).foldl (fun s c => if bit d.waitCourses c.val then s.event .dozeUngated true 0 [0, c.val] else s) s1
    (List.finRange 8).foldl (fun s n => if bit d.waitCans n.val then s.event .dozeUngated true 0 [1, n.val] else s) s2)

/-! ### STANDBY (R72, R73) -/

/-- Steps 1 to 5 of R72: the courses stop at instruction boundaries, the frame movers stop, the gates close and the queued frames
are discarded and counted, the CAN controllers sleep, the DO channels go off, the recorder is flushed; a handover ends (R255). -/
def State.standbyBegin (s : State) : State :=
  let s1 := (s.modPower (fun p => { p with stbySeq := true })).bypDrop
  let s2 := (s1.endHandover 12)
  let s3 := (List.finRange 52).foldl (fun s k => s.haltBrick k) s2
  let s4 := { s3 with tiles := s3.tiles.map (fun (t : Tile) => t.setRun false s3.now) }
  let s5 := (List.finRange 50).foldl (fun s q => (s.dropQueued q).modPort q (fun p => { p with dropping := true, gates := 0 })) s4
  let s6 := (List.finRange 8).foldl (fun s n => s.canCtrlWrite n (setBit (s.can n).ctrl 2 true)) s5
  (s6.fieldCommand 0).flushStart 2

/-- STANDBY_PREPARE (R65, R66, R72). -/
def execStandbyPrepare (p : Party) (key : BitVec 8) (s : State) : Host.Outcome State Fault Refusal :=
  s.when_ (s.pwrOpen p) (fun s => if key = 0xC3 then s.standbyBegin else s.event .standbyKey false (BitVec.ofNat 8 p.num) [key.toNat])

/-- The wake settings of controller n (R373). -/
def State.wakeSettings (s : State) (n : Fin 8) : WakeCfg :=
  let c := s.canCfg n
  let o := (s.can n).obj ⟨bits c 25 20 % 64, by omega⟩
  { en := bit c 27, frame := bit c 26, ide := bit o.cfg 29, id := o.cfg.extractLsb' 0 29, mask := (s.reg (canBase n + 0x24)).extractLsb' 0 29 }

/-- STBY_READY (R72 steps 6 to 8), once the flush is complete. -/
def execStbyReady (s : State) : Host.Outcome State Fault Refusal :=
  s.when_ (s.blocksUp && (s.power.stbySeq && s.recorder.flushing.isNone)) (fun s =>
    let s1 := s.modPower (fun p => { p with wakeCfg := (List.finRange 8).map s.wakeSettings, wakeSrc := 0 })
    (s1.endSession true).modPower (fun p => { p with stbyReady := true }))

end Sys2Proof.Machine
end

