-- ==== Sys2Proof/Machine/Service.lean ====
section
/-! DEFINITION. How the keystone takes and answers service requests: which request stands first, who may call what, the boundary a
request names, and what is in use (R457 to R462, R89, R451). -/

namespace Sys2Proof

/-! ### What a request says (R457, R461, R463) -/

/-- The eight words of a request of service `code` (SVC in the high byte, OP in the low byte). -/
def SvcReq.words (r : SvcReq) (code : Nat) : List Reg32 :=
  [BitVec.ofNat 32 (code / 256 * 2 ^ 24 + code % 256 * 65536 + r.tag.toNat * 256 + Machine.b2n r.noreply * 128 + r.reply.val), r.w1, r.w2, r.w3,
    r.w4, r.w5, r.w6, r.w7]

/-- The course that a request names in [31:28] of word 1 (R463). -/
def SvcReq.course (r : SvcReq) : Option (Fin 13) := if h : Machine.bits r.w1 31 28 < 13 then some ⟨Machine.bits r.w1 31 28, h⟩ else none

/-- TRW_CTRL as a request for a course asks for it. -/
def SvcReq.trwCtrl (r : SvcReq) : Reg32 :=
  BitVec.ofNat 32 (Machine.bits r.w1 23 16 * 65536 + Machine.bits r.w1 27 24 % 4 * 4 + Machine.b2n (Machine.bit r.w1 0) * 2)

/-- JRN_CFG as a START asks for it. -/
def SvcReq.jrnCfg (r : SvcReq) : Reg32 :=
  BitVec.ofNat 32 (Machine.b2n (Machine.bit r.w1 27) * 2 ^ 30 + Machine.b2n (Machine.bit r.w1 26) * 2 ^ 29 + Machine.bits r.w1 31 28 * 2 ^ 24 + Machine.bits r.w1 23 0)

/-- The port that CONFIG, LOOP (below 32) or RESET (below 36) names. -/
def SvcReq.port (r : SvcReq) (n : Nat) : Option PortCode := if h : Machine.bits r.w1 7 0 < n ∧ n ≤ 50 then some ⟨Machine.bits r.w1 7 0, by omega⟩ else none

end Sys2Proof

namespace Sys2Proof.Machine

/-! ### Requests (R457) -/

/-- The party of a number (R437). -/
def partyOf (n : Nat) : Option Party :=
  if n = 0x01 then some .keystone else if n = 0x02 then some .pf1 else if n = 0x03 then some .pf0
  else if h : 0x10 ≤ n ∧ n < 0x50 then some (.chain ⟨n - 0x10, by omega⟩)
  else if h : 0x80 ≤ n ∧ n < 0xB4 then some (.brick ⟨n - 0x80, by omega⟩)
  else none

/-- The request that a FULL mailbox holds. -/
def Mailbox.request (m : Mailbox) (p : Party) : SvcReq :=
  let w0 := m.data[0]
  { caller := p, tag := w0.extractLsb' 8 8, noreply := bit w0 7, reply := ⟨bits w0 4 0 % 32, by omega⟩, w1 := m.data[1], w2 := m.data[2],
    w3 := m.data[3], w4 := m.data[4], w5 := m.data[5], w6 := m.data[6], w7 := m.data[7] }

/-- The service code of a request. -/
def Mailbox.svcCode (m : Mailbox) : Nat := bits m.data[0] 31 16

/-- The keystone has a request in the mailbox. -/
def Mailbox.asks (m : Mailbox) : Bool := decide (m.st = .full) && decide (m.recv = 0x01)

/-- The earlier of two mailboxes: by the clk_periph cycle of the post, then by number (R458). -/
def State.earlier (s : State) (a : Option (Fin 32)) (j : Fin 32) : Option (Fin 32) :=
  if (s.mailbox j).asks then
    match a with
    | none => some j
    | some i => if (s.mailbox j).postedAt / periphCycle < (s.mailbox i).postedAt / periphCycle then some j else a
  else a

/-- The mailbox whose request the keystone takes next (R458). -/
def State.frontMail (s : State) : Option (Fin 32) := (List.finRange 32).foldl s.earlier none

/-- The keystone, or in footing mode the boot ROM, serves requests (R72, R84, R89). -/
def State.serving (s : State) : Bool :=
  s.alive && ((decide (s.power.phase = .running) || decide (s.power.phase = .footing)) && (!s.power.stbySeq && !s.power.stbyReady))

/-! ### Callers (R451, R459, R460) -/

/-- The services (R459). -/
def svcKnown (code : Nat) : Bool :=
  [0x0101, 0x0201, 0x0202, 0x0301, 0x0401, 0x0402, 0x0403, 0x0501, 0x0502, 0x0503, 0x0601, 0x0701, 0x0801, 0x0802, 0x0901, 0x0902, 0x0903,
    0x0A01, 0x0B01, 0x0C01, 0x0C02, 0x0D01, 0x0D02, 0x0E01, 0x0E02, 0x0E03, 0x0F01, 0x0F02, 0x0F03, 0x0F04].contains code

/-- The table of R459 allows the caller; a service that it does not name has no row (log 41). -/
def State.svcAllows (s : State) (code : Nat) (p : Party) : Bool :=
  let svc := code / 256
  let isBrick := match p with
    | .brick _ => true
    | _ => false
  let isChain := match p with
    | .chain _ => true
    | _ => false
  if svc = 0x06 then s.pf1OrMgr p || isBrick
  else if svc = 0x08 then decide (p = .pf0) || (p.isPf1 || isChain)
  else if code = 0x0D01 then s.pf1OrMgr p
  else if svc = 0x07 ∨ (0x09 ≤ svc ∧ svc ≤ 0x0D) then p.isPf1
  else if svc = 0 ∨ 0x0F < svc then true
  else s.pf1OrMgr p

/-- Footing mode serves the service to the caller (R459). -/
def footAllows (code : Nat) (p : Party) : Bool :=
  let svc := code / 256
  if svc = 0x08 then p.isPf1 else decide (0x09 ≤ svc ∧ svc ≤ 0x0C) || decide (code = 0x0D01)

/-- The caller is refused with DENIED (R459, R460). -/
def State.denies (s : State) (code : Nat) (p : Party) : Bool :=
  (decide (s.lifecycle = .retired) && decide (code / 256 ≠ 0x0C)) || (!s.svcAllows code p ||
    (decide (s.power.phase = .footing) && !footAllows code p))

/-! ### Taking a request (R457, R458) -/

/-- A request that no service answers: an OP or a bit that R457 to R463 do not define; an authorisation of no defined action uses up
its challenge (R465). -/
def Mailbox.unknown (m : Mailbox) (action : Nat) : Bool :=
  !svcKnown m.svcCode || (decide (bits m.data[0] 6 5 ≠ 0) || (decide (m.svcCode = 0x0902) && decide (6 < action)))

/-- ACTION in the authorisation window (R464). -/
def Keystone.action (k : Keystone) : Nat := (Sparse.read hostBlank k.window 0x40).toNat

/-- The reply mailbox is not the requester's: the request is dropped, with an event (R457). -/
def State.replyBad (s : State) (r : SvcReq) : Bool := decide ((s.mailbox r.reply).recv.toNat ≠ r.caller.num)

/-- The event of a dropped request. -/
def State.dropRequest (s : State) (r : SvcReq) : State := s.event .badRequest true (BitVec.ofNat 8 r.caller.num) [r.reply.val]

/-- What AUTH replies carry (R461, R469). -/
def State.dbgStatus (s : State) : Reg32 :=
  let oliaz := match s.keystone.session with
    | some x => x.oliaz
    | none => false
  let left := match s.keystone.session with
    | some x => (match x.endTick with
      | some t => t - s.tick
      | none => 0xFFFFFF)
    | none => 0
  BitVec.ofNat 32 (s.debugLevel.toNat * 2 ^ 30 + s.debugScope.toNat * 2 ^ 26 + b2n oliaz * 2 ^ 25 + b2n s.keystone.lockoutEnd.isSome * 2 ^ 24 + left)

/-- A SUBMIT has failed: the challenge is used up, and the third failure in a row locks CHALLENGE out (R465). -/
def State.submitFails (s : State) : State :=
  s.modKeystone (fun k =>
    if 2 ≤ k.fails then { k with challenge := false, fails := 0, lockoutEnd := some (s.tick + 1000) } else { k with challenge := false, fails := k.fails + 1 })

/-- The reply to an AUTH request. -/
def State.authReply (s : State) (op : Nat) (r : SvcReq) (status : Nat) : State :=
  s.svcReply (0x0900 + op) r status [s.dbgStatus, s.power.lcStatus]

/-- A request that no service answers is taken and refused. -/
def State.answerUnknown (s : State) (j : Fin 32) : State :=
  let m := s.mailbox j
  let s1 := s.takeMail 0x01 j
  match partyOf m.sender with
  | none => s1
  | some p =>
    let r := m.request p
    let code := m.svcCode
    if s1.replyBad r then s1.dropRequest r
    else if s1.denies code p then s1.svcReply code r 1 []
    else if code = 0x0902 ∧ bits m.data[0] 6 5 = 0 then s1.submitFails.authReply 2 r 2
    else s1.svcReply code r 2 []

/-- Requests that no service answers are taken before the one that a command names. -/
def State.skipUnknown (s : State) : (fuel : Nat) → State
  | 0 => s
  | n + 1 =>
    match s.frontMail with
    | some j => if (s.mailbox j).unknown s.keystone.action then (s.answerUnknown j).skipUnknown n else s
    | none => s

/-- The request that a command names stands first. -/
def State.requestAt (s : State) (code : Nat) (r : SvcReq) : Option (Fin 32) :=
  match s.frontMail with
  | some j => if (s.mailbox j).data.toList = r.words code ∧ (s.mailbox j).sender = r.caller.num then some j else none
  | none => none

/-- The keystone takes the request of a service and carries it out by f; nothing happens where the request does not stand first in
the mailboxes (log 20). -/
def State.serve (s : State) (code : Nat) (r : SvcReq) (f : State → State) : Host.Outcome State Fault Refusal :=
  s.when_ s.serving (fun s =>
    let s0 := s.skipUnknown 32
    match s0.requestAt code r with
    | some j =>
      let s1 := s0.takeMail 0x01 j
      if s1.replyBad r then s1.dropRequest r else if s1.denies code r.caller then s1.svcReply code r 1 [] else f s1
    | none => s0)

/-! ### Boundaries (R12, R462) -/

/-- The lead of R12: 2 management ticks. -/
def boundaryLead : Nat := 2 * tickPeriod

/-- The course cycles: it is released and not gated. -/
def State.cycles (s : State) (c : Fin 13) : Bool := (s.course c).released && !s.gated c

/-- The earliest boundary that R12 allows: a cycle of the course concerned while it runs, else a TD0 time. -/
def State.earliest (s : State) (c : Option (Fin 13)) : Boundary :=
  let t := s.now + boundaryLead
  let td0 :=
    let n := (s.tdValue 0 t + (2 ^ 48 - 1)) / 2 ^ 48
    Boundary.time 0 (n / 1000000000) (n % 1000000000)
  match c with
  | some n => if s.cycles n then .cycle n ((t - (s.course n).base + (brickCycle - 1)) / brickCycle) else td0
  | none => td0

/-- The boundary that a request names, or the status that refuses it (R462). -/
def State.boundaryOf (s : State) (c : Option (Fin 13)) (r : SvcReq) : Except Nat Boundary :=
  let kind := bits r.w5 31 30
  let low := bits r.w5 29 0
  let high := r.w6.toNat + bits r.w7 15 0 * 2 ^ 32
  let b :=
    if bits r.w7 31 16 ≠ 0 then none
    else if kind = 0 then (if low = 0 then some (s.earliest c) else none)
    else if kind = 1 then
      (match c with
      | some n => if low = 0 ∧ s.cycles n = true then some (.cycle n high) else none
      | none => none)
    else if low < 1000000000 then some (.time (if kind = 2 then 0 else 1) high low) else none
  match b with
  | none => .error 2
  | some x => if kind ≠ 0 ∧ s.rootOf x < s.now + boundaryLead then .error 4 else .ok x

/-- A service waits for its boundary (R458). -/
def State.defer (s : State) (d : Deferred) : State := s.modKeystone (fun k => { k with deferred := k.deferred ++ [d] })

/-- A service that acts once at its boundary. -/
def Deferred.plain (b : Boundary) (act : AtBoundary) (r : SvcReq) : Deferred :=
  { when_ := b, act := act, req := r, recs := [], last := 255, flying := false, frags := [], id := none }

/-- The same, with the boundary that the request names, for the course concerned. -/
def State.deferAt (s : State) (c : Option (Fin 13)) (act : AtBoundary) (r : SvcReq) : State :=
  match s.boundaryOf c r with
  | .error e => s.svcReply act.code r e []
  | .ok b => s.defer (.plain b act r)

/-- The reply of a service that has acted, with its boundary in words 5 to 7 (R462). -/
def State.svcDone (s : State) (code : Nat) (r : SvcReq) (b : Boundary) (w : List Reg32) : State :=
  s.svcReply code r 0 ([nth w 0 0, nth w 1 0, nth w 2 0, nth w 3 0] ++ b.words)

/-! ### What is in use (R458) -/

/-- A replay runs in the course, or is about to. -/
def State.replaysIn (s : State) (c : Fin 13) : Bool :=
  (decide (s.replay.course = c) && (decide (s.replay.st = .loading) || decide (s.replay.st = .running))) ||
    (decide (s.standby = some c) && s.keystone.deferred.any (fun d => decide (d.act = .replay)))

/-- A service still running holds the course (R255, R458). -/
def State.courseBusy (s : State) (c : Fin 13) : Bool :=
  let x := s.course c
  let moves := match s.keystone.handover with
    | some h => decide (h.live = c) || decide (h.standby = c)
    | none => false
  x.trowel.isSome || (x.release.isSome || (moves || (s.keystone.deferred.any (fun d => decide (d.act.course = some c)) || s.replaysIn c)))

/-- A port service that waits for its boundary holds the port code. -/
def State.portBusy (s : State) (n : Nat) : Bool :=
  s.keystone.deferred.any (fun d => (match d.act with
    | .portConfig | .portLoop | .portReset => true
    | _ => false) && decide (bits d.req.w1 7 0 = n))

/-- MANUFACTURE takes no image but keystone firmware (R451). -/
def State.notAllowed (s : State) : Bool := decide (s.lifecycle = .manufacture)

/-- BIND_STAGE of course c (R241). -/
def State.bindStage (s : State) (c : Fin 13) : List Reg32 := (List.range 32).map (fun k => s.reg (0xF4000 + c.val * 0x80 + 4 * k))

end Sys2Proof.Machine
end

