-- ==== Sys2Proof/Machine/Services.lean ====
section
/-! DEFINITION. The keystone services on courses: load, patch, reload, test, reset, and what acts at their boundaries (R226 to R232,
R246 to R255, R316, R318, R463, R496). -/

namespace Sys2Proof.Machine

/-! ### LOAD (R246, R247) -/

/-- The reply of LOAD that names the section at fault. -/
def State.loadFails (s : State) (c : Nat) (r : SvcReq) (status sect : Nat) : State :=
  (s.event .load true 0 [c, status, sect]).svcReply 0x0101 r status [BitVec.ofNat 32 (sect * 65536)]

/-- LOAD (log 41 for the order of its refusals). -/
def State.loadService (s : State) (r : SvcReq) : State :=
  let fail := fun (e k : Nat) => s.loadFails (bits r.w1 31 28) r e k
  if s.notAllowed then fail 14 0
  else match r.course with
    | none => fail 12 0
    | some c =>
      if s.courseBusy c then fail 3 0
      else match s.requestImage r, s.boundaryOf (some c) r with
        | (e + 1, _), _ => fail (e + 1) 0
        | _, .error e => fail e 0
        | (0, l), .ok b =>
          let im := loadedOf c l (s.bindStage c) 0
          if s.loaded c || ((s.course c).fenced || decide (s.standby = some c)) then fail 12 0
          else match s.loadBad c c l im with
            | some (e, k) => fail e k
            | none => (s.putImage c l im).modCourse c (fun x => { x with release := some (b, r) })

/-- COURSE_RELEASE: the boundary of a LOAD has come (R247). -/
def State.releaseAt (s : State) (c : Fin 13) (b : Boundary) (r : SvcReq) : State :=
  ((s.at_ (s.rootOf b)).releaseCourse c).svcDone 0x0101 r b []

/-! ### PATCH (R248, R249) -/

/-- The fields of a patch record (R248). -/
def recOp (x : List Byte) : Nat := imgNat x 0 1
def recTarget (x : List Byte) : Nat := imgNat x 1 1
def recAddr (x : List Byte) : Nat := imgNat x 2 2
def recWord (x : List Byte) (k : Nat) : Word := BitVec.ofNat 16 (imgNat x (4 + 2 * k) 2)
def recExpect (x : List Byte) (k : Nat) : Word := BitVec.ofNat 16 (imgNat x (8 + 2 * k) 2)

/-- A record is one that R248 defines, on a brick or tile and an address that exist. -/
def patchRecOk (x : List Byte) : Bool :=
  decide (1 ≤ recOp x ∧ recOp x ≤ 4 ∧ recTarget x < (if recOp x ≤ 2 then 4 else 16)) && (decide (recOp x ≠ 2 ∨ recAddr x < imemWords) &&
    (decide (recOp x ≠ 4 ∨ recAddr x < 32) && imgZero x 12 4))

/-- The sections of a patch, or of a stand-alone fragment, are what R237 allows. -/
def patchFormOk (kind : Nat) (l : List Byte) : Bool :=
  if kind = 3 then (sectionsOf l).all (fun x => typeAllowed 3 x.typ && decide (x.len % 12 = 0))
  else decide (sectCount l = 1) && (sectionsOf l).all (fun x => typeAllowed 4 x.typ && (decide (x.len % 16 = 0 ∧ x.len ≤ 512) &&
    (recordsOf 16 (x.bytes l)).all patchRecOk))

/-- The words that a write record replaces: word k of it, where it exists (log 43). -/
def State.patchSees (s : State) (c : Fin 13) (x : List Byte) (k : Nat) : Bool :=
  let a := recAddr x + k
  if recOp x = 2 then
    decide (imemWords ≤ a) || decide ((s.brick (brickOf c ⟨recTarget x % 4, by omega⟩)).imem.word a = recExpect x k)
  else if recOp x = 4 then
    (match (s.tile (tileOfCourse c ⟨recTarget x % 16, by omega⟩)).prog[a]? with
    | some w => decide (w = recExpect x k)
    | none => true)
  else true

/-- A word of a write record is written through the debug port. -/
def State.patchWord (s : State) (c : Fin 13) (x : List Byte) (k : Nat) : State :=
  let a := recAddr x + k
  if recOp x = 2 ∧ a < imemWords then
    let b : Fin 4 := ⟨recTarget x % 4, by omega⟩
    (s.modBrick (brickOf c b) (fun y => { y with imem := y.imem.setWord a (recWord x k) })).jrec c
      (.dbgw true b (BitVec.ofNat 16 a) (recWord x k) ((s.course c).cycleAt s.now))
  else if h : recOp x = 4 ∧ a < 32 then
    s.modTile (tileOfCourse c ⟨recTarget x % 16, by omega⟩) (fun t => { t with prog := t.prog.set a (recWord x k) h.2 })
  else s

/-- A write record is carried out. -/
def State.patchWrite (s : State) (c : Fin 13) (x : List Byte) : State := (s.patchWord c x 0).patchWord c x 1

/-- What is applied to a course is listed for attestation (R249, R456). -/
def State.listPatch (s : State) (c : Fin 13) (id : ImageId) : State :=
  s.modCourse c (fun x => { x with image := x.image.map (fun (im : LoadedImage) => { im with patches := im.patches ++ [id] }) })

/-- The outcome of a patch. -/
def State.patchEnds (s : State) (r : SvcReq) (status last : Nat) (w : List Reg32) : State :=
  (s.event .patch true 0 [bits r.w1 31 28, status, last]).svcReply 0x0301 r status ([BitVec.ofNat 32 last, 0, 0, 0] ++ w)

/-- The records of an image with their indices. -/
def patchRecs (l : List Byte) : List (Nat × List Byte) := (List.range 32).zip (recordsOf 16 (typeBytes l 8))

/-- A patch is accepted: its writes are carried out, and its injects wait for the boundary (R249). -/
def State.patchAccept (s : State) (c : Fin 13) (l : List Byte) (b : Boundary) (r : SvcReq) : State :=
  let writes := (patchRecs l).filter (fun x => decide (recOp x.2 = 2 ∨ recOp x.2 = 4))
  let s1 := (writes.foldl (fun s x => s.patchWrite c x.2) s).listPatch c (imageId l)
  s1.defer { Deferred.plain b (.patch c) r with
    recs := (patchRecs l).filter (fun x => decide (recOp x.2 = 1 ∨ recOp x.2 = 3)),
    last := (writes.map (fun x => x.1)).getLastD 255 }

/-- The status that refuses a patch or a stand-alone fragment for the image im of course c (R244, R249, R456; log 42). -/
def State.patchBad (s : State) (c : Fin 13) (im : LoadedImage) (l : List Byte) : Option Nat :=
  let kind := if imgNat l 6 1 = 3 then 3 else 4
  match s.imageBad kind l with
  | some (e, _) => some e
  | none =>
    if patchFormOk kind l = false then some 5
    else if 8 ≤ im.patches.length then some 16
    else if kind = 3 then (if im.fragsOk c (fragsOf l) then none else some 5)
    else if digestOf (l.drop 0x20) ≠ im.id.digest then some 8
    else if (patchRecs l).all (fun x => s.patchSees c x.2 0 && s.patchSees c x.2 1) then none else some 11

/-- PATCH. -/
def State.patchService (s : State) (r : SvcReq) : State :=
  let fail := fun (e : Nat) => s.patchEnds r e 255 []
  if s.notAllowed then fail 14
  else match r.course with
    | none => fail 12
    | some c =>
      if s.courseBusy c then fail 3
      else match s.requestImage r, s.boundaryOf (some c) r, (s.course c).image with
        | (e + 1, _), _, _ => fail (e + 1)
        | _, .error e, _ => fail e
        | (0, l), .ok b, some im =>
          if s.gated c then fail 12
          else match s.patchBad c im l with
            | some e => fail e
            | none =>
              if imgNat l 6 1 = 3 then s.defer { Deferred.plain b (.patch c) r with frags := fragsOf l, id := some (imageId l) }
              else s.patchAccept c l b r
        | _, _, none => fail 12

/-- How the injection of a record stands: none while it waits, else whether it was executed without a trap (R164, R202). -/
def State.injOutcome (s : State) (c : Fin 13) (x : List Byte) : Option Bool :=
  if recOp x = 1 then
    let b := s.brick (brickOf c ⟨recTarget x % 4, by omega⟩)
    if b.inj.busy then none else some (decide (b.inj.result = 1))
  else
    let t := s.tile (tileOfCourse c ⟨recTarget x % 16, by omega⟩)
    if t.inj.isSome then none else some (decide (t.injResult = 1))

/-- The next inject record of a patch starts; with none left the patch is complete (R249). -/
def State.patchNext (s : State) (c : Fin 13) (d : Deferred) : State :=
  match d.recs with
  | [] => s.patchEnds d.req 0 d.last d.when_.words
  | (_, x) :: _ =>
    if (s.injOutcome c x).isNone then s.patchEnds d.req 11 d.last d.when_.words
    else
      let s1 :=
        if recOp x = 1 then
          let bk := brickOf c ⟨recTarget x % 4, by omega⟩
          (s.modBrick bk (fun b => { b with inj := { b.inj with words := recWord x 1 ++ recWord x 0 } })).injGo bk []
        else s.modTile (tileOfCourse c ⟨recTarget x % 16, by omega⟩) (fun t => t.injWrite (recWord x 0))
      s1.defer { d with flying := true }

/-- An injection of the patch has reported (R249). -/
def State.patchReport (s : State) (c : Fin 13) (d : Deferred) : State :=
  match d.recs with
  | [] => s
  | (i, x) :: rest =>
    if s.injOutcome c x = some true then s.patchNext c { d with recs := rest, last := i, flying := false }
    else s.patchEnds d.req 11 d.last d.when_.words

/-- The patch, or the stand-alone fragment, reaches its boundary (R244, R249). -/
def State.patchAt (s : State) (c : Fin 13) (d : Deferred) : State :=
  match d.id, (s.course c).image with
  | some id, some im => ((s.applyFrags c im d.frags).listPatch c id).patchEnds d.req 0 d.last d.when_.words
  | _, _ => s.patchNext c d

/-! ### COURSE: test (R226 to R231, R318) -/

/-- No segment stands in the frame-mover queues of the course. -/
def State.fmIdle (s : State) (c : Fin 13) : Bool :=
  (s.course c).fmTx.isEmpty && (List.finRange 4).all (fun b => (s.brick (brickOf c b)).fm.segs.isEmpty)

/-- R228 holds for course c. -/
def State.testable (s : State) (c : Fin 13) (preserving : Bool) : Bool :=
  !s.loaded c || (preserving && (s.fmIdle c && (List.finRange 4).all (fun b => !(s.brick (brickOf c b)).counts)))

/-- The cycles of a run (R231): operations per word, backgrounds, TARGET, form. -/
def trowelCycles (alg nbg target : Nat) (preserving : Bool) : Nat :=
  let ops := if alg = 0 then 5 else if alg = 1 then 10 else 22
  if preserving then
    let segs := if target = 0 then 32 else if target = 1 then 16 else 48
    ops * nbg * 256 + segs * (768 + ops * nbg * 256)
  else ops * nbg * (if target = 1 then 4096 else 8192)

/-- The background that a destructive run leaves (R226). -/
def lastBackground (bg : BitVec 5) : Option Word :=
  if bit bg 4 then some 0x00FF else if bit bg 3 then some 0x0F0F else if bit bg 2 then some 0x3333 else if bit bg 1 then some 0x5555
  else if bit bg 0 then some 0x0000 else none

/-- The trowel of course c starts a run under TRW_CTRL `ctl` (R226 to R228). -/
def State.trowelStart (s : State) (c : Fin 13) (ctl : Reg32) (r : Option SvcReq) : State :=
  let keep := bit ctl 1
  let t : BitVec 2 := ctl.extractLsb' 2 2
  let n := trowelCycles (bits ctl 18 16) (ones (ctl.extractLsb' 19 5 : BitVec 5) 5) t.toNat keep
  s.modCourse c (fun x =>
    { x with trwCtrl := ctl, trwStatus := BitVec.ofNat 32 (2 ^ 30 + b2n x.fenced * 2 ^ 29), trwAddr := 0, trwData := 0,
             trowel := some { target := t, preserving := keep, bg := ctl.extractLsb' 19 5, alg := ctl.extractLsb' 16 3,
                              endsAt := x.edgeAt s.now + n * brickCycle, abort := false, req := r } })

/-- A run starts in course c at its boundary. -/
def State.testStart (s : State) (c : Fin 13) (d : Deferred) : State :=
  let ctl := d.req.trwCtrl
  if s.testable c (bit ctl 1) = false then s.svcReply 0x0401 d.req 12 [(s.course c).trwStatus]
  else ((s.setMode c 1).portDown (portCp c)).trowelStart c ctl (some d.req)

/-- TEST of a course (TARGET 0 to 2). -/
def State.testCourse (s : State) (r : SvcReq) : State :=
  let fail := fun (e : Nat) => s.svcReply 0x0401 r e []
  match r.course with
  | none => fail 12
  | some c =>
    if s.courseBusy c then fail 3
    else if 3 ≤ bits r.w1 18 16 then fail 2
    else match s.boundaryOf (some c) r with
      | .error e => fail e
      | .ok b => if s.standby.isNone || !s.testable c (bit r.w1 0) then fail 12 else s.defer (.plain b (.test c) r)

/-- The journal trowel, or the journal, is about to be used. -/
def State.journalBusy (s : State) : Bool :=
  s.journal.live || (s.keystone.jrnTest.isSome || s.keystone.deferred.any (fun d => decide (d.act = .testJournal) || decide (d.act = .journalStart)))

/-- COURSE.TEST. -/
def State.testService (s : State) (r : SvcReq) : State :=
  let fail := fun (e : Nat) => s.svcReply 0x0401 r e []
  let target := bits r.w1 27 24
  if target < 3 then s.testCourse r
  else if target = 3 then
    let g : Fin 16 := ⟨bits r.w1 31 28 % 16, by omega⟩
    if s.keystone.bufTest.isSome || s.keystone.deferred.any (fun d => match d.act with
        | .testSegment _ => true
        | _ => false) then fail 3
    else if bit s.fencedEmpty g.val = false then fail 11
    else s.deferAt none (.testSegment g) r
  else if target = 4 then (if s.journalBusy then fail 3 else s.deferAt none .testJournal r)
  else fail 2

/-- The state of a course whose run has ended: course memories by TARGET and result (R226, R229). -/
def State.trowelMemory (s : State) (c : Fin 13) (t : TrowelRun) (fails : BitVec 16) : State :=
  if fails ≠ 0 then s.loseMemory c t.target
  else if t.preserving then s
  else match lastBackground t.bg with
    | some w => s.fillCourse c t.target w
    | none => s

/-- A loaded course goes back to work after a preserving run (log 48). -/
def State.resumeCourse (s : State) (c : Fin 13) : State :=
  if (s.course c).released then (s.setMode c 0).portUp (portCp c) 0 else s

/-- The run of course c ends (R229, R230). -/
def State.courseTestEnd (s : State) (c : Fin 13) (t : TrowelRun) (fails : BitVec 16) (addr data : Reg32) : State :=
  if t.abort then
    let s1 := (s.journalEnd c 1).emptyCourse c
    match t.req with
    | some r => s1.svcReply 0x0401 r 12 [(s1.course c).trwStatus]
    | none => s1
  else
    let x := s.course c
    let cleared := decide (t.target = 2) || decide (t.target.toNat = b2n x.fencedMem)
    let fence := if fails = 0 then x.fenced && !cleared else true
    let st := trwResult fence fails
    let s1 := ((s.at_ t.endsAt).trowelMemory c t fails).modCourse c (fun x =>
      { x with trowel := none, fenced := fence, fencedMem := if fails = 0 then x.fencedMem else bit addr 31, trwStatus := st,
               trwAddr := if fails = 0 then 0 else addr, trwData := if fails = 0 then 0 else data })
    let s2 := (s1.resumeCourse c).event .trowelEnd true 0 [c.val, fails.toNat]
    match t.req with
    | some r => s2.svcReply 0x0401 r 0 [st, (s2.course c).trwAddr, (s2.course c).trwData]
    | none => s2

/-- The run on a buffer segment ends (R318). -/
def State.segmentEnd (s : State) (g : Fin 16) (t : Nat) (r : SvcReq) (fails : BitVec 16) (addr data : Reg32) : State :=
  let s1 := (s.at_ t).modKeystone (fun k => { k with bufTest := none })
  let m := s1.mortar
  let s2 := { s1 with mortar :=
    if fails = 0 then { m with quar := m.quar.filter (fun a => decide (a.toNat / 12288 ≠ g.val)) } else { m with failed := setBit m.failed g.val true } }
  (s2.event .trowelEnd true 0 [16 + g.val, fails.toNat]).svcReply 0x0401 r 0 (trwResult (decide (fails ≠ 0)) fails :: (if fails = 0 then [0, 0] else [addr, data]))

/-- The run on the journal SRAM ends (R226, R496): what it held is gone. -/
def State.journalTestEnd (s : State) (t : Nat) (r : SvcReq) (fails : BitVec 16) (addr data : Reg32) : State :=
  let s1 := (s.at_ t).modKeystone (fun k => { k with jrnTest := none })
  let s2 := s1.modJournal (fun j =>
    { Journal.reset with cfg := j.cfg, mark := j.mark, page := j.page, fill := if fails = 0 then some journalFill else none })
  (s2.event .trowelEnd true 0 [32, fails.toNat]).svcReply 0x0401 r 0 (trwResult false fails :: (if fails = 0 then [0, 0] else [addr, data]))

/-- TROWEL_RUN_COMPLETE. -/
def State.trowelComplete (s : State) (u : TrowelUnit) (fails : BitVec 16) (addr data : Reg32) : State :=
  match u with
  | .course c => match (s.course c).trowel with
    | some t => s.courseTestEnd c t fails addr data
    | none => s
  | .segment g => match s.keystone.bufTest with
    | some (n, t, r) => if n = g then s.segmentEnd g t r fails addr data else s
    | none => s
  | .journal => match s.keystone.jrnTest with
    | some (t, r) => s.journalTestEnd t r fails addr data
    | none => s

/-! ### COURSE: reset and fence (R316, R463) -/

/-- COURSE.RESET. -/
def State.resetService (s : State) (r : SvcReq) : State :=
  match r.course with
  | none => s.svcReply 0x0402 r 12 []
  | some c => if s.courseBusy c then s.svcReply 0x0402 r 3 [] else s.deferAt (some c) (.courseReset c) r

/-- COURSE.FENCE. -/
def State.fenceService (s : State) (r : SvcReq) : State :=
  let v := setBit (s.reg 0x980010) (bits r.w1 31 28) (bit r.w1 0)
  if s.fenceFits v then (s.fenced v).svcReply 0x0403 r 0 [(s.fenced v).mortarRead 0x14] else s.svcReply 0x0403 r 11 [s.mortarRead 0x14]

/-! ### RELOAD (R250 to R255) -/

/-- The HANDOVER sections of the old and the new image agree (R250, R251); times in tenths of a nanosecond. -/
def handoverFits (old new_ : LoadedImage) : Bool :=
  match old.handover, new_.handover with
  | some a, some b =>
    decide (old.id.network = new_.id.network) && (decide (imgNat b 0x14 4 ≤ old.id.version.toNat) && (decide (imgNat a 8 2 ≤ imgNat b 8 2) &&
      decide (5000 + 16 * imgNat a 8 2 + 10 * imgNat b 0x10 4 ≤ 10 * imgNat a 0x0C 4)))
  | _, _ => false

/-- The new image with the binding of the live course (R240, R463). -/
def reloadImage (d : Fin 13) (l : List Byte) (old : LoadedImage) : LoadedImage :=
  let g := old.gen + 1
  { loadedOf d l [] g with binding := BitVec.ofNat 16 (g.toNat * 256 + d.val) :: old.binding.drop 1, receivers := old.receivers }

/-- The bricks and tiles of the shadow course start: bricks at their ENTRY addresses (R250, R252 step 3). -/
def State.shadowStart (s : State) (d : Fin 13) (im : LoadedImage) : State :=
  let entry := fun (b : Fin 4) => BitVec.ofNat 16 (imgNat (im.handover.getD []) (2 * b.val) 2)
  let s1 := (List.finRange 4).foldl (fun s b =>
    if bit im.brickMask b.val then s.modBrick (brickOf d b) (fun y => { y with pc := entry b, pre := [] }) else s) s
  s1.runCourse d im

/-- The handover notice to the old image's logical mailbox 0: T and the port code 48 + s (R252 step 4; log 45). -/
def State.notice (s : State) (old : LoadedImage) (d : Fin 13) (b : Boundary) : State :=
  if h : 0 < old.mbxs ∧ old.bindWord 17 < 32 then
    let j : Fin 32 := ⟨old.bindWord 17, h.2⟩
    (s.modKeystone (fun k => { k with replies := k.replies ++ [(j, BitVec.ofNat 32 (48 + d.val) :: b.words)] })).postReply j
  else s

/-- Steps 1 to 4 of R252: image im goes into the standby course d beside the live course l. -/
def State.reloadBegin (s : State) (l d : Fin 13) (bytes : List Byte) (old im : LoadedImage) (h : Handover) (b : Boundary) : State :=
  let s1 := s.writeImage d bytes im
  let seen := { im with binding := old.binding }
  let s2 := (List.finRange 16).foldl (fun s i => s.modTile (tileOfCourse d i) (fun t => { t with pinmap := seen.pinmap l i.val })) s1
  let s3 := (s2.remap l (BitVec.ofNat 32 (2 ^ 31 + d.val * 2 ^ 24 + l.val))).modCourse d (fun x => { x with egressOnly := some (portCp l, true) })
  let s4 := ((s3.portUp (portCp d) 0).shadowStart d im).notice old d b
  (s4.modKeystone (fun k => { k with handover := some h })).handoverEvent h 0

/-- RELOAD. -/
def State.reloadService (s : State) (r : SvcReq) : State :=
  let fail := fun (e : Nat) => s.svcReply 0x0201 r e []
  if s.notAllowed then fail 14
  else match r.course, s.standby with
    | some l, some d =>
      if s.courseBusy l || s.courseBusy d || s.keystone.handover.isSome then fail 3
      else if bits r.w5 31 30 < 2 then fail 2
      else match s.requestImage r, s.boundaryOf none r, (s.course l).image with
        | (e + 1, _), _, _ => fail (e + 1)
        | _, .error e, _ => fail e
        | (0, bytes), .ok (.time td sec ns), some old =>
          let im := reloadImage d bytes old
          if l = d ∨ s.loaded d = true ∨ (s.course d).fenced = true ∨ (s.course l).released = false then fail 12
          else match s.loadBad d l bytes im with
            | some (e, _) => fail e
            | none =>
              if handoverFits old im = false then fail 11
              else s.reloadBegin l d bytes old im
                { live := l, standby := d, td := td, sec := sec, ns := ns, acked := false, shadowReady := false, committed := false, req := r }
                (.time td sec ns)
        | _, _, _ => fail 12
    | _, _ => fail 12

/-- The handover ends before its re-point, and the standby course is unloaded (R252, R255). -/
def State.abandon (s : State) (h : Handover) (status : Nat) : State := (s.emptyCourse h.standby).endHandover status

/-- RELOAD.CANCEL (R252): undoes the reload until its commit. -/
def State.cancelService (s : State) (r : SvcReq) : State :=
  match s.keystone.handover with
  | some h =>
    if r.course ≠ some h.live then s.svcReply 0x0202 r 2 []
    else if h.committed then s.svcReply 0x0202 r 4 []
    else (s.abandon h 12).svcReply 0x0202 r 0 []
  | none => s.svcReply 0x0202 r 2 []

/-- HANDOVER_COMMIT (R252 step 5): both messages have arrived; T must still lie 2 management ticks ahead. -/
def State.handoverCommit (s : State) (h : Handover) : State :=
  if s.rootOf (.time h.td h.sec h.ns) < s.now + boundaryLead then s.abandon h 4
  else
    let h1 := { h with acked := true, shadowReady := true, committed := true }
    (s.modKeystone (fun k => { k with handover := some h1 })).handoverEvent h1 5

/-- FC_CFG.OWNER of every context of course l becomes d (R253, R312). -/
def State.moveFlows (s : State) (l d : Fin 13) : State :=
  (List.finRange 256).foldl (fun s f => if bits (s.fcCfg f) 11 8 = l.val then s.setReg (fcBase f) (setBits (s.fcCfg f) 11 8 d.val) else s) s

/-- GPIO_OWN entries move from the tiles of course l to those of d (R180, R253). -/
def State.moveBalls (s : State) (l d : Fin 13) : State :=
  (List.range 128).foldl (fun s n =>
    let g := s.reg (gpioOwnOff n)
    if bit g 31 ∧ bits g 15 8 / 16 = l.val then s.setReg (gpioOwnOff n) (setBits g 15 8 (16 * d.val + bits g 15 8 % 16)) else s) s

/-- Frames still queued toward CPl are discarded and counted as HANDOVER_DROP (R254). -/
def State.handoverDrop (s : State) (q : PortCode) : State :=
  let n := (s.mortar.queue.filter (fun e => decide (e.out = q))).length
  ({ s with mortar := { s.mortar with queue := s.mortar.queue.filter (fun e => decide (e.out ≠ q)) } }).countPort q 18 n

/-- RE_POINT (R253 to R255). Whether the state record had arrived in full is a free value (log 45). -/
def State.rePoint (s : State) (h : Handover) : State :=
  let t := mortarEdge (s.rootOf (.time h.td h.sec h.ns))
  let l := h.live
  let d := h.standby
  let (late, s0) := (s.at_ t).fresh
  let s1 := ((((s0.modKeystone (fun k => { k with handover := none })).remap l (BitVec.ofNat 32 d.val)).moveFlows l d).moveBalls l d).handoverDrop (portCp l)
  let s2 := (s1.modCourse d (fun x => { x with egressOnly := none, released := true })).modCourse l (fun x => { x with egressOnly := some (portCp d, false), released := false })
  let im := (s2.course d).image
  let s3 := match im with
    | some i => (s2.receivers d i).applyFrags d i i.fragment
    | none => s2
  let s4 := ((s3.journalRepoint l d).setMode d 0).setReg 0x40 (BitVec.ofNat 32 (2 ^ 31 + l.val))
  let s5 := s4.courseReset l
  let s6 := if (match im with
      | some i => i.fieldLimited
      | none => false) then s5.fieldLimitLock true else s5
  (s6.handoverEvent h 7).svcReply 0x0201 h.req (if late % 2 = 0 then 0 else 18) ([BitVec.ofNat 32 d.val, 0, 0, 0] ++ (Boundary.time h.td h.sec h.ns).words)

end Sys2Proof.Machine
end

