-- ==== Sys2Proof/Machine/KeyServices.lean ====
section
/-! DEFINITION. The keystone services on power, time, checkpoints, flash, the recorder, calibration, the journal and ports, and
SERVICE_BOUNDARY (R65, R82, R92, R260, R326, R414, R461 to R463, R484, R491, R493, R497 to R499). -/

namespace Sys2Proof.Machine

/-! ### POWER (R65, R82) -/

/-- POWER.DOZE: the registers are written, and the request acts at the boundary. -/
def State.dozeService (s : State) (r : SvcReq) : State :=
  match s.boundaryOf none r with
  | .error e => s.svcReply 0x0501 r e []
  | .ok b => (((s.setReg 0x88 (r.w1 &&& 0x1FFFFF)).setReg 0x8C r.w2).setReg 0x90 r.w3).defer (.plain b .doze r)

/-- POWER.RESET: the scope and the index of RST_CTRL are ones that R82 defines. -/
def resetOk (v : Reg32) : Bool :=
  let n := bits v 5 0
  decide (bits v 31 24 = 0 ∧ bits v 21 6 = 0) && (if bits v 23 22 = 0 then true else if bits v 23 22 = 1 then decide (n < 13)
    else if bits v 23 22 = 2 then decide (n < 32) else decide (n < 8))

/-- The course that a reset names. -/
def resetCourse (v : Reg32) : Option (Fin 13) := if h : bits v 5 0 < 13 then (if bits v 23 22 = 1 then some ⟨bits v 5 0, h⟩ else none) else none

/-- POWER.RESET. -/
def State.powerResetService (s : State) (r : SvcReq) : State :=
  let busy := match resetCourse r.w1 with
    | some c => s.courseBusy c
    | none => false
  if resetOk r.w1 = false then s.svcReply 0x0503 r 2 [] else if busy then s.svcReply 0x0503 r 3 [] else s.deferAt (resetCourse r.w1) (.reset r.w1) r

/-- The reset acts; a DEVICE reset replies before it. -/
def State.resetAt (s : State) (v : Reg32) (b : Boundary) (r : SvcReq) : State :=
  if bits v 23 22 = 0 then (s.svcDone 0x0503 r b []).restart 4
  else
    let s1 :=
      if bits v 23 22 = 1 then (match resetCourse v with
        | some c => s.courseResetAct c
        | none => s)
      else if bits v 23 22 = 2 then s.portResetAct ⟨bits v 5 0 % 32, by omega⟩ else s.canResetAct ⟨bits v 5 0 % 8, by omega⟩
    s1.svcDone 0x0503 r b []

/-! ### TIME and CKPT (R326, R414) -/

/-- A brick submits samples for the domain of its image's binding only (R240, R461). -/
def State.timeAllows (s : State) (p : Party) (d : Fin 2) : Bool :=
  match p with
  | .brick k => match (s.course (courseOf k)).image with
    | some im => decide (im.bindWord 30 = d.val)
    | none => false
  | _ => true

/-- The sample's t is not later than the last accepted one (R326). -/
def State.sampleStale (s : State) (d : Fin 2) (t : Nat) : Bool :=
  match (s.dom d).tPrev with
  | some u => decide ((s.dom d).st ≠ .free ∧ t ≤ u)
  | none => false

/-- TIME.SAMPLE (R326, R461; log 46). -/
def State.timeService (s : State) (r : SvcReq) : State :=
  let d : Fin 2 := if bit r.w1 0 then 1 else 0
  let ns := bits r.w4 29 0
  let sec := r.w5.toNat + bits r.w6 15 0 * 2 ^ 32
  if s.timeAllows r.caller d = false then s.svcReply 0x0601 r 1 []
  else if 1000000000 ≤ ns then s.svcReply 0x0601 r 2 []
  else
    let b := tdBase d
    let bad := decide (s.tdSource d ≠ 0) || s.sampleStale d ((sec * 1000000000 + ns) * 65536)
    let s1 := (((s.setReg (b + 0x40) r.w2).setReg (b + 0x44) r.w3).setReg (b + 0x48) (r.w4 &&& 0x3FFFFFFF)).submitSample d sec
    s1.svcReply 0x0601 r (if bad then 17 else 0) [(s1.dom d).status &&& 0xF8000000]

/-- CKPT.PUSH (R414). -/
def State.ckptService (s : State) (r : SvcReq) : State :=
  if s.urral.role ≠ .manager then s.svcReply 0x0701 r 14 []
  else if 4194304 < r.w3.toNat then s.svcReply 0x0701 r 2 []
  else
    let seq : Word := r.w4.extractLsb' 0 16
    (s.sendCkpt seq (s.hostBytes r.w1 r.w2 r.w3.toNat)).svcReply 0x0701 r 0 [seq.setWidth 32]

/-! ### FLASH and FOOTING (R92, R450, R461) -/

/-- n bytes of flash from a on are erased. -/
def State.flashErase (s : State) (a n : Nat) : State := { s with flash := s.flash.filter (fun x => decide (x.1 < a ∨ a + n ≤ x.1)) }

/-- Bytes are programmed into flash that has been erased. -/
def State.flashProgram (s : State) (a : Nat) (l : List Byte) : State := { s with flash := Memory.writeBytes flashBlank s.flash a l }

/-- The region of a slot of FLASH.WRITE (R450, R461). -/
def flashRegion (slot : Nat) : Option (Nat × Nat) :=
  if slot < 48 then some (0x500000 + slot * 0x100000, 0x100000) else if slot = 0x80 then some (0x100000, 0x400000)
  else if slot = 0x81 then some (0x10000, 0x10000) else none

/-- The kind that a slot requires of an image; an image slot takes kinds 2 to 4. -/
def slotKind (slot : Nat) (l : List Byte) : Nat :=
  if slot = 0x80 then 1 else if slot = 0x81 then 5 else if imgNat l 6 1 = 3 ∨ imgNat l 6 1 = 4 then imgNat l 6 1 else 2

/-- FLASH.WRITE. -/
def State.flashService (s : State) (r : SvcReq) : State :=
  let fail := fun (e : Nat) => s.svcReply 0x0A01 r e [0]
  match flashRegion r.w4.toNat with
  | none => fail 2
  | some (a, n) =>
    let l := s.hostBytes r.w1 r.w2 (min r.w3.toNat n)
    if n < r.w3.toNat then fail 2
    else if s.notAllowed ∧ r.w4.toNat ≠ 0x80 then fail 14
    else match s.imageBad (slotKind r.w4.toNat l) l with
      | some (e, _) => fail e
      | none => ((s.flashErase a n).flashProgram a l).svcReply 0x0A01 r 0 [r.w3]

/-- FOOTING.CLEAR_START (R92). -/
def State.clearStart (s : State) (r : SvcReq) : State := ((s.svcReply 0x0B01 r 0 []).modRecord (fun x => { x with count := 0 })).restart 7

/-! ### RECORDER (R461, R484) -/

/-- The bytes of a record (R475). -/
def RecEntry.bytes (e : RecEntry) : List Byte := e.words.flatMap (fun w => toLe 4 w.toNat)

/-- The records of n sequence numbers from `first` on that the array retains, in their order (R479). -/
def Recorder.range (x : Recorder) (first : Reg32) (n : Nat) : List RecEntry :=
  x.recs.reverse.filter (fun e => decide ((e.seq - first).toNat < n ∧ (e.seq - x.oldest).toNat < (x.next - x.oldest).toNat))

/-- The last sequence number of a list of records. -/
def lastSeq (l : List RecEntry) : Reg32 := (l.map (fun e => e.seq)).getLastD 0

/-- RECORDER.READ. -/
def State.recorderService (s : State) (r : SvcReq) : State :=
  if r.w4 = 0 ∨ recorderSize < r.w4.toNat then s.svcReply 0x0C01 r 2 []
  else
    let l := s.recorder.range r.w3 r.w4.toNat
    (s.dmaWrite (hostAddr r.w1 r.w2) (l.flatMap RecEntry.bytes)).svcReply 0x0C01 r 0 [BitVec.ofNat 32 l.length, lastSeq l]

/-- RECORDER.READ_FLUSH (R484). -/
def State.flushService (s : State) (r : SvcReq) : State :=
  match s.recorder.blocks[r.w3.toNat]? with
  | none => s.svcReply 0x0C02 r 2 []
  | some b =>
    let l := b.recs.take r.w4.toNat
    (s.dmaWrite (hostAddr r.w1 r.w2) (l.flatMap RecEntry.bytes)).svcReply 0x0C02 r 0 [BitVec.ofNat 32 b.cause, lastSeq b.recs]

/-! ### CAL (R497 to R499) -/

/-- The calibration page in flash. -/
def State.calFlash (s : State) : List Byte := Memory.readBytes flashBlank s.flash 0 4096

/-- The page with ORIGIN 1, and its digest made again (log 36). -/
def integratorPage (l : List Byte) : List Byte :=
  let body := l.take 6 ++ (1 :: (l.take 0xFC0).drop 7)
  body ++ toBe 64 (Config.sha512 body).toNat

/-- CAL.READ. -/
def State.calReadService (s : State) (r : SvcReq) : State := (s.dmaWrite (hostAddr r.w1 r.w2) s.calFlash).svcReply 0x0D01 r 0 []

/-- CAL.WRITE: it takes effect at the next start. -/
def State.calWriteService (s : State) (r : SvcReq) : State :=
  let l := s.hostBytes r.w1 r.w2 4096
  if s.lifecycle = .manufacture then s.svcReply 0x0D02 r 14 []
  else if r.w3 ≠ 0x0C411B05 then s.svcReply 0x0D02 r 2 []
  else if s.calValid l = false then s.svcReply 0x0D02 r 5 []
  else ((s.flashErase 0 4096).flashProgram 0 (if l = s.calFlash then l else integratorPage l)).svcReply 0x0D02 r 0 []

/-! ### JOURNAL (R489, R491, R493) -/

/-- JOURNAL.START. -/
def State.startService (s : State) (r : SvcReq) : State :=
  match r.course with
  | none => s.svcReply 0x0E01 r 12 []
  | some c =>
    if s.journalBusy then s.svcReply 0x0E01 r 3 []
    else if bit r.w1 27 ∧ ¬ (32 ≤ bits r.w1 15 8 ∧ bits r.w1 15 8 ≤ 63) then s.svcReply 0x0E01 r 2 []
    else s.deferAt (some c) .journalStart r

/-- JOURNAL.STOP. -/
def State.stopService (s : State) (r : SvcReq) : State :=
  if s.journal.live then s.deferAt (some s.jrnCourse) .journalStop r else s.svcReply 0x0E02 r 2 []

/-- The run that a REPLAY names: from the journal SRAM, or from a host buffer; it begins with a keyframe and holds no GAP. -/
def State.replayRun (s : State) (r : SvcReq) : Option (List JRec) :=
  if bits r.w1 31 24 = 0 then s.journal.runFrom r.w2.toNat
  else
    let l := runOfBytes (r.w4.toNat / 8) 0 (s.hostBytes r.w2 r.w3 r.w4.toNat)
    let gap := l.any (fun (x : JRec) => match x with
      | .gap .. => true
      | _ => false)
    match l with
    | .keyframe .. :: _ => if gap then none else some l
    | _ => none

/-- The status that refuses a REPLAY in course d (R493; log 42). -/
def State.replayBad (s : State) (d : Fin 13) (r : SvcReq) : Option Nat :=
  if s.courseBusy d then some 3
  else if s.loaded d || (s.course d).fenced then some 12
  else if s.debugLevel ≠ 2 ∧ s.brickDebug r.caller = false then some 14
  else if 1 < bits r.w1 31 24 then some 2
  else if bits r.w1 31 24 = 1 ∧ r.caller.isPf1 = false then some 1
  else if bits r.w1 31 24 = 0 ∧ s.journal.live = true then some 3
  else if (s.replayRun r).isNone then some 2
  else none

/-- JOURNAL.REPLAY. -/
def State.replayService (s : State) (r : SvcReq) : State :=
  match s.standby with
  | none => s.svcReply 0x0E03 r 12 []
  | some d => match s.replayBad d r with
    | some e => s.svcReply 0x0E03 r e []
    | none => s.deferAt none .replay r

/-- The replay begins at its boundary. -/
def State.replayAt (s : State) (r : SvcReq) : State :=
  match s.standby with
  | none => s.svcReply 0x0E03 r 12 []
  | some d => match s.replayBad d r, s.replayRun r with
    | none, some l => (s.modKeystone (fun k => { k with replayReq := some r })).replayBegin d l
    | some e, _ => s.svcReply 0x0E03 r e []
    | none, none => s.svcReply 0x0E03 r 2 []

/-! ### PORT (R260, R463, R496) -/

/-- A loaded image that binds the port accepts the lane mode (R239). -/
def State.modeAccepted (s : State) (q : PortCode) (v : Reg32) : Bool :=
  !s.anyImage (fun im => im.bindsPort q.code && !bit (im.resByte 0x19) (bits v 30 28))

/-- EN is cleared, the value written, and EN set (R260). -/
def State.portReconfigure (s : State) (q : PortCode) (v : Reg32) : State :=
  ((s.portCfgSet .keystone q (setBit (s.portCfg q) 31 false)).portCfgSet .keystone q (setBit v 31 false)).portCfgSet .keystone q (setBit v 31 true)

/-- PORT.CONFIG. -/
def State.configService (s : State) (r : SvcReq) : State :=
  let fail := fun (e : Nat) => s.svcReply 0x0F01 r e []
  match r.port 32 with
  | none => fail 2
  | some q =>
    if s.portBusy q.val then fail 3
    else if portCfgIllegal r.w2 then fail 2
    else if s.modeAccepted q r.w2 = false then fail 11
    else s.deferAt none .portConfig r

/-- PORT.HOLD. -/
def State.holdService (s : State) (r : SvcReq) : State :=
  match portOfCode (bits r.w1 7 0) with
  | none => s.svcReply 0x0F02 r 2 []
  | some q => (s.setReg (portBase q + 0x0C) (r.w2 &&& 0xFFFF)).svcReply 0x0F02 r 0 []

/-- PORT.LOOP. -/
def State.loopService (s : State) (r : SvcReq) : State :=
  match r.port 32 with
  | none => s.svcReply 0x0F03 r 2 []
  | some q => if s.portBusy q.val then s.svcReply 0x0F03 r 3 [] else s.deferAt none .portLoop r

/-- PORT.RESET. -/
def State.portResetService (s : State) (r : SvcReq) : State :=
  match r.port 36 with
  | none => s.svcReply 0x0F04 r 2 []
  | some q => if s.portBusy q.val then s.svcReply 0x0F04 r 3 [] else s.deferAt none .portReset r

/-- A port of the mortar is reset; a Urral port goes DOWN (R80, R394). -/
def State.portResetAny (s : State) (q : PortCode) : State :=
  let s1 := s.portResetAct q
  if h : 32 ≤ q.val ∧ q.val < 36 then s1.urrDown ⟨q.val - 32, by omega⟩ .down else s1

/-! ### SERVICE_BOUNDARY (R12, R458) -/

/-- What a service does at its boundary, with its reply. -/
def State.actAt (s : State) (d : Deferred) : State :=
  let r := d.req
  let b := d.when_
  match d.act with
  | .patch c => s.patchAt c d
  | .test c => s.testStart c d
  | .testSegment g => s.modKeystone (fun k => { k with bufTest := some (g, mortarEdge s.now + 184320 * mortarCycle, r) })
  | .testJournal => s.modKeystone (fun k => { k with jrnTest := some (edgeFrom brickCycle s.now + 4587520 * brickCycle, r) })
  | .courseReset c => (s.courseResetAct c).svcDone 0x0402 r b []
  | .doze => s.dozeRequest.svcDone 0x0501 r b []
  | .wake => (s.wakeAll 3).svcDone 0x0502 r b []
  | .reset v => s.resetAt v b r
  | .journalStart => ((s.modJournal (fun j => { j with mark := r.w2.extractLsb' 0 16 })).journalBegin r.jrnCfg).svcDone 0x0E01 r b []
  | .journalStop => (s.journalEnd s.jrnCourse 0).svcDone 0x0E02 r b []
  | .replay => s.replayAt r
  | .portConfig =>
    (match r.port 32 with
    | some q =>
      let s1 := s.portReconfigure q r.w2
      s1.svcDone 0x0F01 r b [s1.portStatus q]
    | none => s)
  | .portLoop =>
    (match r.port 32 with
    | some q =>
      let s1 := s.portReconfigure q (setBits (s.portCfg q) 23 22 (bits r.w2 1 0))
      s1.svcDone 0x0F03 r b [s1.portStatus q]
    | none => s)
  | .portReset =>
    (match r.port 36 with
    | some q => (s.portResetAny q).svcDone 0x0F04 r b []
    | none => s)

/-- The injection that a patch waits for has reported. -/
def State.reported (s : State) (d : Deferred) : Bool :=
  match d.act, d.recs with
  | .patch c, (_, x) :: _ => d.flying && (s.injOutcome c x).isSome
  | _, _ => false

/-- The deferred service whose boundary comes first; of equal ones the first taken. -/
def State.nextDeferred (s : State) : Option Deferred :=
  (s.keystone.deferred.filter (fun d => !d.flying)).foldl (fun a d =>
    match a with
    | none => some d
    | some e => if s.rootOf d.when_ < s.rootOf e.when_ then some d else a) none

/-- SERVICE_BOUNDARY: a patch goes on once its injection has reported; else the next boundary is reached. -/
def State.boundaryNext (s : State) : State :=
  match takeFirst s.reported s.keystone.deferred with
  | some (d, rest) =>
    let s1 := s.modKeystone (fun k => { k with deferred := rest })
    (match d.act with
    | .patch c => s1.patchReport c d
    | _ => s1)
  | none => match s.nextDeferred with
    | some d =>
      let s1 := (s.at_ (s.rootOf d.when_)).modKeystone (fun k => { k with deferred := k.deferred.erase d })
      s1.actAt d
    | none => s

end Sys2Proof.Machine
end

