-- ==== Sys2Proof/Machine/Auth.lean ====
section
/-! DEFINITION. Authorisations, lifecycle transitions, debug sessions and attestation (R447 to R453, R464 to R472). -/

namespace Sys2Proof.Machine

/-! ### The authorisation window (R464) -/

/-- Byte a of the window: NONCE and the request as stored, the other fields as the device gives them. -/
def State.authByte (s : State) (a : Nat) : Byte :=
  if 0x20 ≤ a ∧ a < 0x28 then s.uid.extractLsb' (8 * (a - 0x20)) 8
  else if a = 0x28 then BitVec.ofNat 8 s.lifecycle.code
  else if 0x2C ≤ a ∧ a < 0x30 then s.keystone.sessionNo.extractLsb' (8 * (a - 0x2C)) 8
  else if 0x20 ≤ a ∧ a < 0x40 then 0
  else Sparse.read hostBlank s.keystone.window a

/-- n bytes of the window. -/
def State.authBytes (s : State) (a n : Nat) : List Byte := (List.range n).map (fun k => s.authByte (a + k))

/-- A field of the request, little-endian. -/
def State.authNat (s : State) (a n : Nat) : Nat := leNat (s.authBytes a n)

/-- Bytes of the window are written. -/
def State.authWrite (s : State) (a : Nat) (l : List Byte) : State :=
  s.modKeystone (fun k => { k with window := Memory.writeBytes hostBlank k.window a l })

/-- CHALLENGE (R465). -/
def State.challenge (s : State) (r : SvcReq) : State :=
  if s.keystone.lockoutEnd.isSome then s.authReply 1 r 15
  else
    let nonce := (List.range 32).map (fun k => BitVec.ofNat 8 (Config.free (s.freeCtr + k)))
    let s1 := { s with freeCtr := s.freeCtr + 32 }.authWrite 0 nonce
    (s1.modKeystone (fun k => { k with challenge := true, sessionNo := k.sessionNo + 1 })).authReply 1 r 0

/-! ### SUBMIT (R465) -/

/-- n bytes of the request from a on are zero. -/
def State.authZero (s : State) (a n : Nat) : Bool := decide (s.authNat a n = 0)

/-- The arguments of an action are defined, and its zero fields are zero. -/
def State.submitForm (s : State) (act : Nat) : Bool :=
  let a0 := s.authNat 0x44 4
  decide (s.authNat 0x41 1 ≤ 1) && (s.authZero 0x42 2 && (s.authZero 0x4C 4 && (s.authZero 0x90 16 && ((decide (act = 0 ∨ act = 5) || s.authZero 0x50 64) &&
    (if act = 1 then decide (a0 % 4 ≤ 2 ∧ a0 / 4 % 64 = 0 ∧ a0 < 4096 ∧ s.authNat 0x48 4 ≤ 16777214) else if act = 6 then decide (a0 ≤ 1) else true)))))

/-- The highest debug level of a lifecycle state (R451). -/
def Lifecycle.maxLevel : Lifecycle → Nat
  | .manufacture | .returned => 2
  | .provisioned | .deployed => 1
  | .retired => 0

/-- The action, the key and the level are allowed now (R451, R452, R466, R472); key 1 is the Oliaz key. -/
def State.submitAllowed (s : State) (act : Nat) : Bool :=
  let lc := s.lifecycle
  let key := s.authNat 0x41 1
  let a0 := s.authNat 0x44 4
  let oliazHere := decide (lc = .manufacture ∨ lc = .returned)
  let inUse := decide (lc = .provisioned ∨ lc = .deployed)
  if act = 0 then decide (lc = .manufacture)
  else if act = 1 then
    decide (a0 % 4 ≤ lc.maxLevel) && ((decide (a0 / 2048 % 2 = 0) || decide (a0 % 4 = 2)) && ((decide (lc ≠ .manufacture) || decide (a0 % 4 = 2)) &&
      (decide (key = 0) || (oliazHere && decide (a0 % 4 = 2)))))
  else if act = 2 then decide (lc = .provisioned ∧ key = 0)
  else if act = 3 then inUse && decide (key = 0)
  else if act = 4 then decide (lc ≠ .retired) && (decide (key = 0) || oliazHere)
  else if act = 5 then inUse && (decide (key = 0) && decide (s.ownerSlot = 0))
  else decide (lc ≠ .retired) && (decide (key = 0) || oliazHere)

/-- SIGNER_PUB is the key that KEY names (R448, R465). -/
def State.signerOk (s : State) : Bool :=
  let pub := s.authBytes 0xA0 132
  if s.authNat 0x41 1 = 0 then decide (s.lifecycle ≠ .manufacture) && decide (Config.sha512 pub = s.ownerDigest) else decide (pub = Config.oliazKey)

/-- The checks of R465 in their order: the status of the first that fails. -/
def State.submitBad (s : State) (act : Nat) : Option Nat :=
  if s.keystone.challenge = false then some 2
  else if s.submitForm act = false then some 2
  else if s.submitAllowed act = false then some 14
  else if act ≠ 0 ∧ s.signerOk = false then some 6
  else if act ≠ 0 ∧ Config.ecdsaVerify (s.authBytes 0xA0 132) (Config.sha512 (s.authBytes 0 160)) (s.authBytes 0x124 132) = false then some 7
  else if (act = 0 ∨ act = 5) ∧ Config.sha512 (s.authBytes 0x1A8 132) ≠ digestOf (s.authBytes 0x50 64) then some 8
  else none

/-- The challenge has been used, and the failures in a row are over. -/
def State.submitPasses (s : State) : State := s.modKeystone (fun k => { k with challenge := false, fails := 0 })

/-- A SUBMIT of an action: the checks, then what the action does, with its reply. -/
def State.submit (s : State) (act : Nat) (r : SvcReq) (f : State → State) : State :=
  match s.submitBad act with
  | some e => s.submitFails.authReply 2 r e
  | none => f s.submitPasses

/-- A SUBMIT happens for the row of the ACTION that the window holds (log 20). -/
def State.submitRow (s : State) (act : Nat) (r : SvcReq) (f : State → State) : Host.Outcome State Fault Refusal :=
  if s.keystone.action = act then s.serve 0x0902 r (fun s => s.submit act r f) else .next s

/-! ### Lifecycle transitions (R452, R453) -/

/-- Bits of an OTP word are set; none is ever cleared (R447). -/
def State.otpSet (s : State) (w : Nat) (v : Reg32) : State := { s with otp := Sparse.write (fun _ => 0) s.otp w (s.otpWord w ||| v) }

/-- Words from w on take the bits of a byte string, low byte first. -/
def State.otpBytes (s : State) (w : Nat) (l : List Byte) : State :=
  (List.range ((l.length + 3) / 4)).foldl (fun s k => s.otpSet (w + k) (BitVec.ofNat 32 (imgNat l (4 * k) 4))) s

/-- The owner key record takes NEW_PUB. -/
def State.ownerRecord (s : State) : State := (s.flashErase 0x2000 0x1000).flashProgram 0x2000 (s.authBytes 0x1A8 132)

/-- The transition's OTP bits are set: its event, its reply, and a DEVICE reset (R453). -/
def State.transitionEnd (s : State) (act : Nat) (r : SvcReq) : State := ((s.event .lifecycle true 0 [act]).authReply 2 r 0).restart 7

/-- PROVISION: the identity key comes from the random source (R449; log 1). -/
def State.provision (s : State) (r : SvcReq) : State :=
  let key := (List.range 66).map (fun k => BitVec.ofNat 8 (Config.free (s.freeCtr + k)))
  let s1 := ({ s with freeCtr := s.freeCtr + 66 }.ownerRecord.otpBytes 4 (s.authBytes 0x50 64)).otpBytes 41 key
  (s1.otpSet 2 1).transitionEnd 0 r

/-- DEPLOY. -/
def State.deploy (s : State) (r : SvcReq) : State := (s.otpSet 2 2).transitionEnd 2 r

/-- The flush region holds no block. -/
def State.eraseFlush (s : State) : State := s.modRec (fun x => { x with blocks := [] })

/-- RETURN. -/
def State.returnPart (s : State) (r : SvcReq) : State :=
  ((((s.flashErase 0x10000 0x10000).flashErase 0x500000 0x3000000).eraseFlush).otpSet 2 4).transitionEnd 3 r

/-- RETIRE. -/
def State.retire (s : State) (r : SvcReq) : State :=
  let s1 := ((s.flashErase 0x1000 0x3FFF000).eraseFlush).modRecord (fun _ => StartRecord.blank)
  let s2 := (List.range 17).foldl (fun s k => s.otpSet (41 + k) (BitVec.allOnes 32)) s1
  (s2.otpSet 2 8).transitionEnd 4 r

/-- ROTATE. -/
def State.rotate (s : State) (r : SvcReq) : State := ((s.ownerRecord.otpBytes 20 (s.authBytes 0x50 64)).otpSet 36 3).transitionEnd 5 r

/-! ### SVN_COMMIT and DEBUG (R455, R467) -/

/-- The new floor is refused with ROLLBACK (R455). -/
def State.rollback (s : State) (cls floor : Nat) : Bool :=
  decide (floor < s.svnFloor (if cls = 0 then 1 else 2)) || (decide (64 < floor) ||
    (if cls = 0 then (match s.keystone.firmware with
      | some x => decide (x.svn < floor)
      | none => false) else s.anyImage (fun im => decide (im.id.svn < floor))))

/-- SVN_COMMIT: the low bits of the thermometer. -/
def State.svnCommit (s : State) (r : SvcReq) : State :=
  let cls := s.authNat 0x44 4
  let n := s.authNat 0x48 4
  let w := if cls = 0 then 37 else 39
  if s.rollback cls n then s.authReply 2 r 9
  else ((s.otpSet w (BitVec.ofNat 32 (2 ^ min n 32 - 1))).otpSet (w + 1) (BitVec.ofNat 32 (2 ^ (n - 32) - 1))).authReply 2 r 0

/-- DEBUG: the session begins, in place of one that runs. -/
def State.debugBegin (s : State) (r : SvcReq) : State :=
  let a0 := s.authNat 0x44 4
  let n := s.authNat 0x48 4
  let x : Session := { level := BitVec.ofNat 2 a0, scope := BitVec.ofNat 4 (a0 / 256), oliaz := decide (s.authNat 0x41 1 = 1),
                       endTick := if n = 0 then none else some (s.tick + n) }
  ((s.modKeystone (fun k => { k with session := some x })).event .session true 0 [1, a0, n]).authReply 2 r 0

/-! ### Attestation (R470, R471) -/

/-- An entry of the report. -/
def ImageId.entry (x : ImageId) (c index gen : Nat) : List Byte :=
  toLe 1 x.kind ++ (toLe 1 c ++ (toLe 1 index ++ (toLe 1 gen ++ (toLe 2 x.svn ++ (toLe 2 x.network ++ (toLe 4 x.version.toNat ++ toBe 64 x.digest.toNat))))))

/-- The entries of a course: its image, then its patches and fragments. -/
def LoadedImage.entries (im : LoadedImage) (c : Fin 13) : List (List Byte) :=
  im.id.entry c.val 0 im.gen.toNat :: ((List.range im.patches.length).zip im.patches).map (fun x => x.2.entry c.val (x.1 + 1) im.gen.toNat)

/-- The entries in their order; none in footing mode. -/
def State.attEntries (s : State) : List (List Byte) :=
  let one := fun (x : Option ImageId) => match x with
    | some i => [i.entry 0xFF 0 0]
    | none => []
  if s.power.phase = .footing then []
  else one s.keystone.firmware ++ (one s.keystone.manifest ++ (List.finRange 13).flatMap (fun c => match (s.course c).image with
    | some im => im.entries c
    | none => []))

/-- FLAGS of the report. -/
def State.attFlags (s : State) : Nat :=
  let oliaz := match s.keystone.session with
    | some x => x.oliaz
    | none => false
  b2n (decide (s.power.phase = .footing)) + b2n s.dozing * 2 + b2n s.power.degraded * 4 + b2n s.power.calDefault * 8 + b2n oliaz * 16

/-- The report up to its signature; `seq` is its SEQ. -/
def State.attBody (s : State) (r : SvcReq) (seq : Nat) : List Byte :=
  let es := s.attEntries
  let td := s.tdValue 0 s.now
  let nonce := [r.w1, r.w2, r.w3, r.w4, r.w5, r.w6, r.w7].flatMap (fun w => toLe 4 w.toNat)
  [0x41, 0x54, 0x54, 0x52] ++ toLe 2 1 ++ toLe 2 es.length ++ toLe 4 (324 + 76 * es.length) ++ toLe 4 seq ++ toLe 4 s.devId.toNat ++
    toLe 4 s.power.startStatus.toNat ++ toLe 8 s.uid.toNat ++ toLe 1 s.lifecycle.code ++ toLe 1 s.debugLevel.toNat ++ toLe 1 s.debugScope.toNat ++
    toLe 1 s.attFlags ++ toLe 1 s.power.startRec.count ++ toLe 1 (s.thermometer 37) ++ toLe 1 (s.thermometer 39) ++ toLe 1 (bits s.power.lcStatus 28 27) ++
    toLe 8 s.tick ++ toLe 2 (fracOf td) ++ toLe 4 (nsOf td) ++ toLe 6 (secOf td) ++ toLe 1 r.caller.num ++ toLe 1 r.tag.toNat ++ toLe 2 0 ++ nonce ++
    toLe 4 0 ++ toBe 64 s.ownerDigest.toNat ++ toLe 32 0 ++ es.flatten

/-- The identity private key: the first 66 bytes of OTP words 41 to 57 (R447, R449). -/
def State.identityKey (s : State) : List Byte := ((List.range 17).flatMap (fun k => toLe 4 (s.otpWord (41 + k)).toNat)).take 66

/-- The signature's start zeroises the session secrets (R469; log 47). -/
def State.wipeSecrets (s : State) : State :=
  s.modKeystone (fun k => { k with challenge := false, window := (List.range 32).foldl (fun m a => Sparse.write hostBlank m a 0) k.window })

/-- ATTEST.REPORT. -/
def State.report (s : State) (r : SvcReq) : State :=
  let seq := s.keystone.attSeq + 1
  let body := s.attBody r seq.toNat
  let (n, s1) := s.wipeSecrets.fresh
  let l := body ++ Config.ecdsaSign s.identityKey (Config.sha512 body) n
  (s1.modKeystone (fun k => { k with attSeq := seq, attest := Memory.writeBytes hostBlank k.attest 0 (l.take 0x4000) })).svcReply 0x0801 r 0
    [BitVec.ofNat 32 (body.length + 132), seq]

/-- ATTEST.ID_PUB. -/
def State.idPub (s : State) (r : SvcReq) : State :=
  (s.modKeystone (fun k => { k with attest := Memory.writeBytes hostBlank k.attest 0 ((Config.ecdsaPublic s.identityKey).take 132) })).svcReply 0x0802 r 0 [132]

end Sys2Proof.Machine
end

