-- ==== Sys2Proof/Machine/ServiceCmds.lean ====
section
/-! DEFINITION. The commands of the keystone services (R246 to R255, R318, R457 to R472, R484, R491, R493, R499). -/

namespace Sys2Proof.Machine

/-! ### Courses -/

/-- LOAD (R246, R247, R463). -/
def execLoad (r : SvcReq) (s : State) : Host.Outcome State Fault Refusal := s.serve 0x0101 r (fun s => s.loadService r)

/-- COURSE_RELEASE (R247): the boundary of a LOAD. -/
def execCourseRelease (c : Fin 13) (s : State) : Host.Outcome State Fault Refusal :=
  match (s.course c).release with
  | some (b, r) => s.when_ (s.blocksUp && !s.power.stbySeq) (fun s => s.releaseAt c b r)
  | none => .next s

/-- PATCH (R248, R249, R463). -/
def execPatch (r : SvcReq) (s : State) : Host.Outcome State Fault Refusal := s.serve 0x0301 r (fun s => s.patchService r)

/-- RELOAD (R251 to R253, R463). -/
def execReload (r : SvcReq) (s : State) : Host.Outcome State Fault Refusal := s.serve 0x0201 r (fun s => s.reloadService r)

/-- CANCEL (R252, R463). -/
def execCancel (r : SvcReq) (s : State) : Host.Outcome State Fault Refusal := s.serve 0x0202 r (fun s => s.cancelService r)

/-- HANDOVER_COMMIT (R252 step 5). -/
def execHandoverCommit (s : State) : Host.Outcome State Fault Refusal :=
  match s.keystone.handover with
  | some h => s.when_ (s.blocksUp && !h.committed) (fun s => s.handoverCommit h)
  | none => .next s

/-- RE_POINT (R253). -/
def execRePoint (s : State) : Host.Outcome State Fault Refusal :=
  match s.keystone.handover with
  | some h => s.when_ (s.blocksUp && h.committed) (fun s => s.rePoint h)
  | none => .next s

/-- TROWEL_RUN_COMPLETE (R229 to R231, R318, R496). -/
def execTrowelRunComplete (u : TrowelUnit) (fails : BitVec 16) (addr data : Reg32) (s : State) : Host.Outcome State Fault Refusal :=
  s.when_ s.blocksUp (fun s => s.trowelComplete u fails addr data)

/-- SERVICE_BOUNDARY (R12, R458). -/
def execServiceBoundary (s : State) : Host.Outcome State Fault Refusal := s.when_ (s.blocksUp && !s.power.stbySeq) (fun s => s.boundaryNext)

/-- COURSE.TEST (R228, R318, R463). -/
def execCourseTest (r : SvcReq) (s : State) : Host.Outcome State Fault Refusal := s.serve 0x0401 r (fun s => s.testService r)

/-- COURSE.RESET (R463). -/
def execCourseReset (r : SvcReq) (s : State) : Host.Outcome State Fault Refusal := s.serve 0x0402 r (fun s => s.resetService r)

/-- COURSE.FENCE (R316, R463). -/
def execFence (r : SvcReq) (s : State) : Host.Outcome State Fault Refusal := s.serve 0x0403 r (fun s => s.fenceService r)

/-! ### Power, time, checkpoints -/

/-- POWER.DOZE (R65, R463). -/
def execPowerDoze (r : SvcReq) (s : State) : Host.Outcome State Fault Refusal := s.serve 0x0501 r (fun s => s.dozeService r)

/-- POWER.WAKE (R65, R463). -/
def execPowerWake (r : SvcReq) (s : State) : Host.Outcome State Fault Refusal := s.serve 0x0502 r (fun s => s.deferAt none .wake r)

/-- POWER.RESET (R82, R463). -/
def execPowerReset (r : SvcReq) (s : State) : Host.Outcome State Fault Refusal := s.serve 0x0503 r (fun s => s.powerResetService r)

/-- TIME.SAMPLE (R326, R461). -/
def execTimeSample (r : SvcReq) (s : State) : Host.Outcome State Fault Refusal := s.serve 0x0601 r (fun s => s.timeService r)

/-- CKPT.PUSH (R414, R463). -/
def execCkptPush (r : SvcReq) (s : State) : Host.Outcome State Fault Refusal := s.serve 0x0701 r (fun s => s.ckptService r)

/-! ### Attestation and authorisations -/

/-- ATTEST.REPORT (R470, R471). -/
def execAttestReport (r : SvcReq) (s : State) : Host.Outcome State Fault Refusal := s.serve 0x0801 r (fun s => s.report r)

/-- ATTEST.ID_PUB (R470). -/
def execIdPub (r : SvcReq) (s : State) : Host.Outcome State Fault Refusal := s.serve 0x0802 r (fun s => s.idPub r)

/-- AUTH.CHALLENGE (R465). -/
def execAuthChallenge (r : SvcReq) (s : State) : Host.Outcome State Fault Refusal := s.serve 0x0901 r (fun s => s.challenge r)

/-- AUTH.END (R467). -/
def execAuthEnd (r : SvcReq) (s : State) : Host.Outcome State Fault Refusal := s.serve 0x0903 r (fun s => (s.endSession false).authReply 3 r 0)

/-- SUBMIT of PROVISION (R452, R465). -/
def execProvision (r : SvcReq) (s : State) : Host.Outcome State Fault Refusal := s.submitRow 0 r (fun s => s.provision r)

/-- SUBMIT of DEBUG (R465 to R467). -/
def execDebugAuth (r : SvcReq) (s : State) : Host.Outcome State Fault Refusal := s.submitRow 1 r (fun s => s.debugBegin r)

/-- SUBMIT of DEPLOY (R452, R465). -/
def execDeploy (r : SvcReq) (s : State) : Host.Outcome State Fault Refusal := s.submitRow 2 r (fun s => s.deploy r)

/-- SUBMIT of RETURN (R452, R465). -/
def execReturnAuth (r : SvcReq) (s : State) : Host.Outcome State Fault Refusal := s.submitRow 3 r (fun s => s.returnPart r)

/-- SUBMIT of RETIRE (R452, R465). -/
def execRetire (r : SvcReq) (s : State) : Host.Outcome State Fault Refusal := s.submitRow 4 r (fun s => s.retire r)

/-- SUBMIT of ROTATE (R452, R465). -/
def execRotate (r : SvcReq) (s : State) : Host.Outcome State Fault Refusal := s.submitRow 5 r (fun s => s.rotate r)

/-- SUBMIT of SVN_COMMIT (R455, R465). -/
def execSvnCommit (r : SvcReq) (s : State) : Host.Outcome State Fault Refusal := s.submitRow 6 r (fun s => s.svnCommit r)

/-- DEBUG_SESSION_EXPIRY (R467): the tick at which LEFT reaches 0. -/
def execDebugSessionExpiry (s : State) : Host.Outcome State Fault Refusal :=
  match s.keystone.session with
  | some x => s.when_ (s.alive && (match x.endTick with
    | some t => decide (t ≤ s.tick)
    | none => false)) (fun s => s.endSession false)
  | none => .next s

/-- LOCKOUT_END (R465). -/
def execLockoutEnd (s : State) : Host.Outcome State Fault Refusal :=
  match s.keystone.lockoutEnd with
  | some t => s.when_ (s.alive && decide (t ≤ s.tick)) (fun s => s.modKeystone (fun k => { k with lockoutEnd := none }))
  | none => .next s

/-! ### Flash, recorder, calibration -/

/-- FLASH.WRITE (R450, R461). -/
def execFlashWrite (r : SvcReq) (s : State) : Host.Outcome State Fault Refusal := s.serve 0x0A01 r (fun s => s.flashService r)

/-- FOOTING.CLEAR_START (R92). -/
def execClearStart (r : SvcReq) (s : State) : Host.Outcome State Fault Refusal := s.serve 0x0B01 r (fun s => s.clearStart r)

/-- RECORDER.READ (R461). -/
def execRecorderRead (r : SvcReq) (s : State) : Host.Outcome State Fault Refusal := s.serve 0x0C01 r (fun s => s.recorderService r)

/-- RECORDER.READ_FLUSH (R484). -/
def execReadFlush (r : SvcReq) (s : State) : Host.Outcome State Fault Refusal := s.serve 0x0C02 r (fun s => s.flushService r)

/-- CAL.READ (R499). -/
def execCalRead (r : SvcReq) (s : State) : Host.Outcome State Fault Refusal := s.serve 0x0D01 r (fun s => s.calReadService r)

/-- CAL.WRITE (R499). -/
def execCalWrite (r : SvcReq) (s : State) : Host.Outcome State Fault Refusal := s.serve 0x0D02 r (fun s => s.calWriteService r)

/-! ### Journal and ports -/

/-- JOURNAL.START (R491, R463). -/
def execJournalStart (r : SvcReq) (s : State) : Host.Outcome State Fault Refusal := s.serve 0x0E01 r (fun s => s.startService r)

/-- JOURNAL.STOP (R491, R463). -/
def execJournalStop (r : SvcReq) (s : State) : Host.Outcome State Fault Refusal := s.serve 0x0E02 r (fun s => s.stopService r)

/-- JOURNAL.REPLAY (R493, R463). -/
def execReplay (r : SvcReq) (s : State) : Host.Outcome State Fault Refusal := s.serve 0x0E03 r (fun s => s.replayService r)

/-- PORT.CONFIG (R260, R463). -/
def execPortConfig (r : SvcReq) (s : State) : Host.Outcome State Fault Refusal := s.serve 0x0F01 r (fun s => s.configService r)

/-- PORT.HOLD (R463). -/
def execPortHold (r : SvcReq) (s : State) : Host.Outcome State Fault Refusal := s.serve 0x0F02 r (fun s => s.holdService r)

/-- PORT.LOOP (R463, R496). -/
def execPortLoop (r : SvcReq) (s : State) : Host.Outcome State Fault Refusal := s.serve 0x0F03 r (fun s => s.loopService r)

/-- PORT.RESET (R463). -/
def execPortReset (r : SvcReq) (s : State) : Host.Outcome State Fault Refusal := s.serve 0x0F04 r (fun s => s.portResetService r)

end Sys2Proof.Machine
end

