-- ==== Sys2Proof/Machine/UrralCmds.lean ====
section
/-! DEFINITION. The commands of the Urral link, the chain and the manager pair (R393 to R420), apart from register access. -/

namespace Sys2Proof.Machine

/-- URRAL_SIGNAL_LOSS (R394). -/
def execUrralSignalLoss (k : Fin 4) (s : State) : Host.Outcome State Fault Refusal :=
  s.when_ (s.blocksUp && decide ((s.urrPort k).st ≠ .down)) (fun s => s.signalLoss k)

/-- URRAL_SIGNAL_DETECT (R394). -/
def execUrralSignalDetect (k : Fin 4) (s : State) : Host.Outcome State Fault Refusal :=
  s.when_ (s.blocksUp && (s.urrEn k && (decide ((s.urrPort k).st = .down) || decide ((s.urrPort k).st = .fault))))
    (fun s => s.signalDetect k)

/-- URRAL_TRAINING_TIMEOUT (R394): 6 ms of TRAINING. -/
def execUrralTrainingTimeout (k : Fin 4) (s : State) : Host.Outcome State Fault Refusal :=
  let p := s.urrPort k
  s.when_ (s.blocksUp && decide (p.st = .training)) (fun s => (s.at_ (p.since + 6 * tickPeriod)).urrDown k .fault)

/-- URRAL_HEALTHY (R394): after a peer HELLO and TIME frames in four exchange periods. -/
def execUrralHealthy (k : Fin 4) (looped : Bool) (s : State) : Host.Outcome State Fault Refusal :=
  let p := s.urrPort k
  s.when_ (s.blocksUp && (decide (p.st = .training) && (p.hello && decide (4 ≤ p.times)))) (fun s => s.urrHealthy k looped)

/-- URRAL_FRAME_RECEIVE (R398, R399). -/
def execUrralFrameReceive (k : Fin 4) (bytes : List Byte) (s : State) : Host.Outcome State Fault Refusal :=
  s.when_ (s.blocksUp && (s.urrPort k).locked) (fun s => s.urrReceive k bytes)

/-- A CTRL frame reaches the device on Uk. -/
def State.ctrlIn (s : State) (k : Fin 4) : Bool := s.blocksUp && (s.urrPort k).locked

/-- HELLO (R401). -/
def execHello (k : Fin 4) (h : HelloInfo) (s : State) : Host.Outcome State Fault Refusal :=
  s.when_ (s.ctrlIn k) (fun s => s.takeHello k h)

/-- CLAIM (R401, R413). -/
def execClaim (k : Fin 4) (c : Claim) (s : State) : Host.Outcome State Fault Refusal :=
  s.when_ (s.ctrlIn k) (fun s => s.takeClaim k c)

/-- CLAIM_WIN (R401). -/
def execClaimWin (s : State) : Host.Outcome State Fault Refusal :=
  match s.urral.claim with
  | some (c, t) => s.when_ (s.blocksUp && decide (t + 2 ≤ s.tick)) (fun s => s.claimWin c)
  | none => .next s

/-- ENUM (R402). -/
def execEnum (k : Fin 4) (number : BitVec 8) (chainId : BitVec 16) (s : State) : Host.Outcome State Fault Refusal :=
  s.when_ (s.ctrlIn k) (fun s => s.takeEnum k number chainId)

/-- LEASE (R403, R412, R413). -/
def execLease (k : Fin 4) (src : Fin 64) (mepoch : BitVec 8) (chainId : BitVec 16) (s : State) : Host.Outcome State Fault Refusal :=
  s.when_ (s.ctrlIn k) (fun s => s.takeLease src mepoch chainId)

/-- LEASE_RENEWAL (R412). -/
def execLeaseRenewal (s : State) : Host.Outcome State Fault Refusal := s.when_ (s.blocksUp && s.mayRenew) (fun s => s.leaseRenew)

/-- LEASE_LAPSE (R412, R415, R416). -/
def execLeaseLapse (s : State) : Host.Outcome State Fault Refusal :=
  s.when_ (s.blocksUp && (s.urral.leaseOk && decide (s.urral.renewed + 8 ≤ s.tick))) (fun s => s.leaseLapse)

/-- LEASE_IN_EDGE (R52, R412): an edge on LEASE_IN is a renewal that the standby sees. -/
def execLeaseInEdge (s : State) : Host.Outcome State Fault Refusal :=
  s.when_ s.alive (fun s =>
    let s1 := { s with pins := { s.pins with leaseIn := !s.pins.leaseIn } }
    if s.urral.role = .standby ∧ s.blocksUp = true then s1.renewal true false else s1)

/-- CKPT_DUE (R414): at every 100th tick the manager's keystone asks its host for a checkpoint. -/
def execCkptDue (s : State) : Host.Outcome State Fault Refusal :=
  s.when_ (s.blocksUp && (decide (s.urral.role = .manager) && decide (s.tick % 100 = 0))) (fun s => s.raiseCause true 0x800)

/-- CKPT (R414). -/
def execCkpt (seq : Word) (data : List Byte) (digest : BitVec 512) (s : State) : Host.Outcome State Fault Refusal :=
  s.when_ (s.blocksUp && decide (s.urral.role = .standby)) (fun s => s.takeCkpt seq data digest)

/-- READY (R415, R417, R420): a write of PAIR_CTRL. -/
def execReady (p : Party) (s : State) : Host.Outcome State Fault Refusal :=
  s.when_ s.blocksUp (fun s => s.urralWrite p 0x14 2)

/-- RESTORE_LATE (R415): the 25th tick after the last renewal seen. -/
def execRestoreLate (s : State) : Host.Outcome State Fault Refusal :=
  let u := s.urral
  s.when_ (s.blocksUp && (decide (u.role = .manager) && (!u.renewing && (!u.ready && (decide (u.swap = .none) &&
    decide (u.renewed + 25 ≤ s.tick)))))) (fun s => s.restoreLate)

/-- ROLE_SWAP (R417): every SWAP_MIN minutes of 60,000 ticks. -/
def execRoleSwap (s : State) : Host.Outcome State Fault Refusal :=
  s.when_ (s.blocksUp && decide (s.urral.swapFrom + bits s.pairCfg 31 16 * 60000 ≤ s.tick)) (fun s => s.startSwap)

/-- SWAP_NOW (R417, R420): a write of PAIR_CTRL. -/
def execSwapNow (p : Party) (s : State) : Host.Outcome State Fault Refusal :=
  s.when_ s.blocksUp (fun s => s.urralWrite p 0x14 4)

/-- HANDOFF (R417): the standby restores the checkpoint and will answer with READY. -/
def execHandoff (seq : Word) (s : State) : Host.Outcome State Fault Refusal :=
  s.when_ (s.blocksUp && decide (s.urral.role = .standby)) (fun s => s.modUrral (fun u => { u with handoff := true, ready := false }))

/-- SWAP_FAIL (R417): 6 ticks after the last renewal. -/
def execSwapFail (cause : Option (BitVec 8)) (s : State) : Host.Outcome State Fault Refusal :=
  match s.urral.swap with
  | .handed _ => s.when_ (s.blocksUp && (decide (s.urral.role = .manager) && decide (s.urral.renewed + 6 ≤ s.tick)))
      (fun s => s.swapFail cause)
  | _ => .next s

/-! ### Messages (R410, R439, R440) -/

/-- A MSG is delivered: one with FENCE only when no earlier access of its sender is still held (R410). -/
def State.msgIn (s : State) (src : Fin 64) (fence : Bool) : Bool :=
  let from_ := fun (h : HeldAcc) => match h with
    | .accRead d _ _ _ => decide (d = src)
    | .accWrite d _ _ => decide (d = src)
    | _ => false
  s.blocksUp && !(fence && s.urral.held.any from_)

/-- MSG_INTERRUPT (R410): the causes named arise at both functions of the receiver (log 29). -/
def execMsgInterrupt (src : Fin 64) (cause : Reg32) (fence : Bool) (s : State) : Host.Outcome State Fault Refusal :=
  s.when_ (s.msgIn src fence) (fun s => (s.raiseIn false (cause &&& 0x16FF)).raiseIn true (cause &&& 0x1EFF))

/-- A chain device's post: lock, words and post in one step, or a refusal with its notice (R439). -/
def State.chainPost (s : State) (src : Fin 64) (ep : BitVec 4) (j : Fin 32) (words : List Reg32) : State :=
  let p := 0x10 + src.val
  let m := s.mailbox j
  if j.val < 16 ∧ m.st = .empty ∧ m.recv ≠ 0 ∧ m.recv.toNat ≠ p ∧ words ≠ [] ∧ words.length ≤ 8 then
    (s.setMailbox j { m with data := Vector.ofFn (fun k => nth words k.val 0) }).postAs p ep j words.length
  else (s.refused (.chain src) (mbBase j + 0x28) words.length).mbNotice p 2 j

/-- MSG_MAILBOX_POST (R410, R439). -/
def execMsgMailboxPost (src : Fin 64) (sepoch : BitVec 4) (j : Fin 32) (words : List Reg32) (fence : Bool) (s : State) :
    Host.Outcome State Fault Refusal :=
  s.when_ (s.msgIn src fence) (fun s => s.chainPost src sepoch j words)

/-- MSG_DOORBELL (R410, R440): a chain device reaches MB0 to MB15. -/
def execMsgDoorbell (src : Fin 64) (j : Fin 32) (fence : Bool) (s : State) : Host.Outcome State Fault Refusal :=
  s.when_ (s.msgIn src fence) (fun s => if j.val < 16 then s.ringBell j else s.refused (.chain src) (mbBase j + 0x2C) 8)

/-- MSG_RECORDER_EVENT (R410): code 0x0902. -/
def execMsgRecorderEvent (src : Fin 64) (words : List Reg32) (fence : Bool) (s : State) : Host.Outcome State Fault Refusal :=
  s.when_ (s.msgIn src fence) (fun s =>
    let w := nth words 1 0
    s.recordEvent { code := 0x0902, sev := Config.eventSev .forwarded, inst := BitVec.ofNat 8 src.val,
                    party := BitVec.ofNat 8 (0x10 + src.val), p0 := BitVec.ofNat 32 (bits w 31 16 * 65536 + bits w 15 14),
                    p1 := nth words 0 0, mgmt := false })

/-- MSG_MAILBOX_NOTICE (R410, R439): recorded, and HOST_CAUSE.CHAIN_MB is set. -/
def execMsgMailboxNotice (src : Fin 64) (party : BitVec 8) (sub : BitVec 8) (fence : Bool) (s : State) :
    Host.Outcome State Fault Refusal :=
  s.when_ (s.msgIn src fence) (fun s =>
    ((s.event .chainNotice false (BitVec.ofNat 8 (0x10 + src.val)) [party.toNat, sub.toNat]).raiseCause false 0x400).raiseCause true 0x400)

end Sys2Proof.Machine
end

