-- ==== Sys2Proof/Machine/RegMap.lean ====
section
/-! DEFINITION. The BAR0 map (R21, R22): which register an offset names, who reaches it, and what a read and a write of it do
(R7, R9, R23 to R25, R422, R423, R466, R468, R522). -/

namespace Sys2Proof.Machine

/-! ### Reach (R24, R422, R423) -/

/-- What PF1 reaches in footing mode: the global region, the secure mailboxes and the recorder (R89, R423). -/
def footingOpen (a : Nat) : Bool :=
  decide (a < 0x100000) || (decide (0x180000 ≤ a ∧ a < 0x200000) || (decide (0x500000 ≤ a ∧ a < 0x510000) || decide (0x580000 ≤ a ∧ a < 0x600000)))

/-- A party reaches offset a (R89, R422, R423). A brick has its I/O space and no BAR0 (R5). -/
def State.reaches (s : State) (p : Party) (a : Nat) : Bool :=
  let up := s.alive && decide (s.power.phase ≠ .footing)
  match p with
  | .brick _ => false
  | .chain _ => s.blocksUp
  | .pf0 => up
  | .keystone => s.alive
  | .pf1 | .tap => up || (s.alive && footingOpen a)

/-- The secure mailbox page (R21). -/
def inSecure (a : Nat) : Bool := decide (0x180000 ≤ a ∧ a < 0x200000)

/-- The party is shut out of the secure page: PF0 (R24), and every device of the chain (R25). -/
def secureShut : Party → Bool
  | .pf0 | .chain _ => true
  | _ => false

/-! ### The global region -/

/-- PWR_STATUS (R66). -/
def State.pwrStatus (s : State) : Reg32 :=
  BitVec.ofNat 32 (b2n s.dozing * 2 ^ 30 + b2n s.power.stbyReady * 2 ^ 29 + b2n (decide (s.power.doze.ports ≠ 0)) * 2 ^ 28 +
    s.power.doze.cans.toNat * 2 ^ 13 + s.gatedCourses.toNat)

/-- A 32-bit word of a byte buffer. -/
def bufWord (m : Memory) (a : Nat) : Reg32 := BitVec.ofNat 32 (leNat (Memory.readBytes hostBlank m a 4))

/-- A read in the global region. -/
def State.globalRead (s : State) (p : Party) (a : Nat) : Reg32 :=
  let f := hostCopy p
  if a = 0x00 then s.devId
  else if a = 0x08 then s.uid.extractLsb' 0 32
  else if a = 0x0C then s.uid.extractLsb' 32 32
  else if a = 0x40 ∨ a = 0x88 ∨ a = 0x8C ∨ a = 0x90 then s.reg a
  else if a = 0x60 then s.bypCtrl
  else if a = 0x84 then s.pwrStatus
  else if a = 0xA0 then s.power.startStatus
  else if a = 0xA4 then s.power.wakeSrc
  else if a = 0xA8 then s.power.footingCause
  else if a = 0xAC then s.power.startRec.param
  else if a = 0x200 then (s.hostFn f).cause
  else if a = 0x204 then (s.hostFn f).causeEn
  else if a = 0x300 then s.dbgStatus
  else if a = 0x304 then s.power.lcStatus
  else if 0x1000 ≤ a ∧ a < 0x1200 then s.reg a
  else if 0xE0000 ≤ a ∧ a < 0xE8000 then s.msixRead f ((a - 0xE0000) / 4)
  else if 0xE8000 ≤ a ∧ a < 0xE8010 then s.pbaRead f ((a - 0xE8000) / 4)
  else if 0xF0000 ≤ a ∧ a < 0xF4000 then bufWord s.keystone.attest (a - 0xF0000)
  else if 0xF4000 ≤ a ∧ a < 0xF4680 then s.reg a
  else if 0xF8000 ≤ a ∧ a < 0xF8400 then
    (if p.isPf1 then BitVec.ofNat 32 (leNat (s.authBytes (a - 0xF8000) 4)) else 0)
  else 0

/-- A write of COURSE_ROLE (R14, R15): from PF1 only. -/
def State.courseRoleWrite (s : State) (p : Party) (v : Reg32) : State :=
  let w := v &&& 0x8000000F
  let free := fun (k : Nat) => match s.courses[k]? with
    | some x => x.image.isNone
    | none => false
  if p.isPf1 && (free (bits w 3 0) && free (bits (s.reg 0x40) 3 0)) then s.setReg 0x40 w else s

/-- A write of PWR_CTRL (R65, R66, R70, R72). -/
def State.pwrCtrlWrite (s : State) (p : Party) (v : Reg32) : State :=
  if s.pwrOpen p = false then s
  else if bits v 1 0 = 1 then s.dozeRequest
  else if bits v 1 0 = 2 then s.wakeAll 3
  else if bits v 1 0 = 3 then
    (if bits v 15 8 = 0xC3 then s.standbyBegin else s.event .standbyKey false (BitVec.ofNat 8 p.num) [bits v 15 8])
  else s

/-- A write of RST_CTRL (R82). -/
def State.rstCtrlWrite (s : State) (p : Party) (v : Reg32) : State :=
  let i := bits v 5 0
  if rstKey p (v.extractLsb' 24 8) = false then s
  else if bits v 23 22 = 0 then s.restart 4
  else if s.blocksUp = false then s
  else if bits v 23 22 = 1 then (if h : i < 13 then s.courseResetAct ⟨i, h⟩ else s)
  else if bits v 23 22 = 2 then (if h : i < 32 then s.portResetAct ⟨i, by omega⟩ else s)
  else if h : i < 8 then s.canResetAct ⟨i, h⟩
  else s

/-- The fields of the authorisation window that PF1 writes (R464). -/
def authOpen (a : Nat) : Bool := decide (0x40 ≤ a ∧ a < 0x22C)

/-- A write in the global region: a read-only register ignores it. -/
def State.globalWrite (s : State) (p : Party) (a : Nat) (v : Reg32) : State :=
  let f := hostCopy p
  if a = 0x40 then s.courseRoleWrite p v
  else if a = 0x60 then (if s.pf1OrMgr p then (s.setReg 0x60 (v &&& 3)).bypDrop else s)
  else if a = 0x80 then s.pwrCtrlWrite p v
  else if a = 0x88 then (if s.pf1OrMgr p then s.setReg 0x88 (v &&& 0x1FFFFF) else s)
  else if a = 0x8C ∨ a = 0x90 then (if s.pf1OrMgr p then s.setReg a v else s)
  else if a = 0xA4 then (if p.isPf1 then s.modPower (fun x => { x with wakeSrc := x.wakeSrc &&& ~~~ (v &&& 0xFFFF0001) }) else s)
  else if a = 0xB0 then s.rstCtrlWrite p v
  else if a = 0x200 then (if isHostFn p then s.causeWrite f v else s)
  else if a = 0x204 then (if isHostFn p then s.causeEnWrite f (if f then v else v &&& 0x16FF) else s)
  else if h : 0x1000 ≤ a ∧ a < 0x1200 then s.gpioOwnWrite p ⟨(a - 0x1000) / 4, by omega⟩ v
  else if 0xE0000 ≤ a ∧ a < 0xE8000 then (if isHostFn p then s.msixWrite f ((a - 0xE0000) / 4) v else s)
  else if 0xF4000 ≤ a ∧ a < 0xF4680 then (if s.pf1OrMgr p then s.setReg a v else s)
  else if 0xF8000 ≤ a ∧ a < 0xF8400 then
    (if p.isPf1 ∧ authOpen (a - 0xF8000) = true then s.authWrite (a - 0xF8000) (toLe 4 v.toNat) else s)
  else s

/-! ### Mailboxes (R437 to R439) -/

/-- The mailbox whose block an offset of the mailbox regions lies in. -/
def mailboxAt (a : Nat) : Option (Fin 32) :=
  if h : 0x100000 ≤ a ∧ a < 0x101000 then some ⟨(a - 0x100000) / 0x100, by omega⟩
  else if h : 0x180000 ≤ a ∧ a < 0x181000 then some ⟨16 + (a - 0x180000) / 0x100, by omega⟩
  else none

/-- A read in the mailbox regions. -/
def State.mailRead (s : State) (p : Party) (a : Nat) : Reg32 × State :=
  match mailboxAt a with
  | none => (0, s)
  | some j =>
    let o := a % 0x100
    if s.mbOpen p j (mbReaches p j) = false then (0, s)
    else if h : o < 0x20 then (s.mbRead p.num j ⟨o / 4, by omega⟩, s)
    else if o = 0x20 then ((s.mailbox j).status, s)
    else if o = 0x24 then
      let (v, s1) := s.lockRead p.num j []
      (BitVec.ofNat 32 v, s1)
    else if o = 0x30 then ((s.mailbox j).recv.setWidth 32, s)
    else (0, s)

/-- A write in the mailbox regions. -/
def State.mailWrite (s : State) (p : Party) (a : Nat) (v : Reg32) : State :=
  match mailboxAt a with
  | none => s
  | some j =>
    let o := a % 0x100
    if s.mbOpen p j (mbReaches p j) = false then s
    else if h : o < 0x20 then s.mbWrite p j ⟨o / 4, by omega⟩ (BitVec.allOnes 32) v a
    else if o = 0x20 then s.mbStatusWrite p j v.toNat a
    else if o = 0x28 then s.post p j (bits v 3 0) a
    else if o = 0x2C then s.mbCommand p.num j v.toNat
    else if o = 0x30 then s.recvWrite p j v
    else s

/-! ### Course windows (R22, R23, R199, R228, R230, R468, R522) -/

/-- A trowel run is active on the bank, or on the instruction memories, of course c (R228). -/
def Course.testing (x : Course) (imem : Bool) : Bool :=
  match x.trowel with
  | some t => decide (t.target = 2) || decide (t.target = (if imem then 1 else 0))
  | none => false

/-- Master 6 is refused (R228, R468). -/
def State.portShut (s : State) (c : Fin 13) (imem : Bool) : Bool := s.gated c || (s.course c).testing imem

/-- A write of those memories is allowed to the party (R522). -/
def State.mayPoke (s : State) (p : Party) (c : Fin 13) : Bool :=
  if s.loaded c || decide ((s.course c).mode = 2) then s.brickDebug p else s.pf1MgrKey p

/-- A read of the bank image or of an instruction memory, o < 0x30000 (R23). -/
def State.imageRead (s : State) (p : Party) (c : Fin 13) (o : Nat) : Reg32 × State :=
  if s.portShut c (decide (0x20000 ≤ o)) then (0, s.refused p (courseBase c + o) 0)
  else if h : 0x20000 ≤ o ∧ o < 0x30000 then
    let m := (s.brick (brickOf c ⟨(o - 0x20000) / 0x4000, by omega⟩)).imem
    let w := (o - 0x20000) % 0x4000 / 2
    (m.word (w + 1) ++ m.word w, s)
  else ((s.course c).bank.word (o / 2 + 1) ++ (s.course c).bank.word (o / 2), s)

/-- One word is written through the debug port, and journaled (R19, R487). -/
def State.poke (s : State) (c : Fin 13) (b : Option (Fin 4)) (w : Nat) (v : Word) : State :=
  let cyc := (s.course c).cycleAt s.now
  match b with
  | some b => (s.modBrick (brickOf c b) (fun y => { y with imem := y.imem.setWord w v })).jrec c (.dbgw true b (BitVec.ofNat 16 w) v cyc)
  | none => (s.modCourse c (fun x => { x with bank := x.bank.setWord w v })).jrec c (.dbgw false 0 (BitVec.ofNat 16 w) v cyc)

/-- A write of the bank image or of an instruction memory (R23, R145, R522). -/
def State.imageWrite (s : State) (p : Party) (c : Fin 13) (o : Nat) (v : Reg32) : State :=
  if s.portShut c (decide (0x20000 ≤ o)) || !s.mayPoke p c then s.refused p (courseBase c + o) v.toNat
  else
    let b : Option (Fin 4) := if h : 0x20000 ≤ o ∧ o < 0x30000 then some ⟨(o - 0x20000) / 0x4000, by omega⟩ else none
    let w := if o < 0x20000 then o / 2 else o % 0x4000 / 2
    (s.poke c b w (v.extractLsb' 0 16)).poke c b (w + 1) (v.extractLsb' 16 16)

/-- A read in the block of a tile (R199). -/
def State.tileWinRead (s : State) (tl : Fin 208) (o : Nat) : Reg32 :=
  let t := s.tile tl
  if 0x08 ≤ o ∧ o < 0x40 then (t.regRead (o / 4) s.brickEdge).setWidth 32
  else if h : 0x100 ≤ o ∧ o < 0x180 then (t.prog[(o - 0x100) / 4]).setWidth 32
  else if o = 0x180 then t.pinmap
  else 0

/-- A write in the block of a tile (R199). -/
def State.tileWinWrite (s : State) (p : Party) (tl : Fin 208) (o : Nat) (v : Reg32) : State :=
  let w : Word := v.extractLsb' 0 16
  if 0x0C ≤ o ∧ o < 0x40 then s.tileWrite p tl (o / 4) v.toNat (fun t => t.regWrite (o / 4) w s.now)
  else if h : 0x100 ≤ o ∧ o < 0x180 then
    s.tileWrite p tl (o / 4) v.toNat (fun t => { t with prog := t.prog.set ((o - 0x100) / 4) w })
  else if o = 0x180 then s.tileWrite p tl 0x60 v.toNat (fun t => { t with pinmap := v })
  else s

/-- A write of TRW_CTRL (R228, R230): the keystone's alone; GO is refused unless R228 holds. -/
def State.trwCtrlWrite (s : State) (p : Party) (c : Fin 13) (v : Reg32) : State :=
  let w := v &&& 0x00FF000E
  if p ≠ .keystone then s.refused p (courseBase c + 0x70000) v.toNat
  else if bit v 0 = false then s.modCourse c (fun x => { x with trwCtrl := w })
  else if s.testable c (bit v 1) && (decide (bits v 18 16 < 3) && !(s.port (portCp c)).up) then s.trowelStart c w none
  else s.refused p (courseBase c + 0x70000) v.toNat

/-- A read in the window of course c. -/
def State.courseRead (s : State) (p : Party) (c : Fin 13) (o : Nat) : Reg32 × State :=
  let x := s.course c
  if o < 0x30000 then s.imageRead p c o
  else if h : 0x40000 ≤ o ∧ o < 0x40400 then s.brickBlockRead p (brickOf c ⟨(o - 0x40000) / 0x100, by omega⟩) (o % 0x100)
  else if h : 0x48000 ≤ o ∧ o < 0x48020 then (x.conf[(o - 0x48000) / 4], s)
  else if h : 0x50000 ≤ o ∧ o < 0x54000 then (s.tileWinRead (tileOfCourse c ⟨(o - 0x50000) / 0x400, by omega⟩) (o % 0x400), s)
  else if o = 0x60000 then (x.rxmap.setWidth 32, s)
  else if o = 0x70000 then (x.trwCtrl, s)
  else if o = 0x70004 then (x.trwStatus, s)
  else if o = 0x70008 then (x.trwAddr, s)
  else if o = 0x7000C then (x.trwData, s)
  else if 0x80000 ≤ o ∧ o < 0x80010 then (s.jtRead c (o - 0x80000), s)
  else (0, s)

/-- A write in the window of course c. -/
def State.courseWrite (s : State) (p : Party) (c : Fin 13) (o : Nat) (v : Reg32) : State :=
  if o < 0x30000 then s.imageWrite p c o v
  else if h : 0x40000 ≤ o ∧ o < 0x40400 then s.brickBlockWrite p (brickOf c ⟨(o - 0x40000) / 0x100, by omega⟩) (o % 0x100) v
  else if o = 0x48020 then s.confClrWrite p c (v.extractLsb' 0 8)
  else if h : 0x50000 ≤ o ∧ o < 0x54000 then s.tileWinWrite p (tileOfCourse c ⟨(o - 0x50000) / 0x400, by omega⟩) (o % 0x400) v
  else if o = 0x60000 then s.rxmapWrite p c v
  else if o = 0x70000 then s.trwCtrlWrite p c v
  else s

/-! ### The mortar region -/

/-- HOST_RXMAP(n), in the block of H: a RING outside 32 to 63 is ignored. -/
def State.hostRxmapWrite (s : State) (p : Party) (a : Nat) (v : Reg32) : State :=
  if s.pf1MgrKey p = false then s.refused p a v.toNat
  else if bits v 5 0 < 32 then s
  else s.setReg a (v &&& 0x8000003F)

/-- A read in the mortar region, 0x0080_0000 to 0x00FF_FFFF. -/
def State.mortarRegion (s : State) (p : Party) (tag : Nat) (a : Nat) : Reg32 × State :=
  if 0x890040 ≤ a ∧ a < 0x890078 then (s.reg a, s)
  else if 0x8F8000 ≤ a ∧ a < 0x8F8034 then (s.reg a, s)
  else if a < 0x900000 then
    match portOfCode ((a - 0x800000) / 0x4000) with
    | some q => s.portRead p tag q (a % 0x4000)
    | none => (0, s)
  else if h : 0x900000 ≤ a ∧ a < 0x910000 then (s.fcRead ⟨(a - 0x900000) / 0x100, by omega⟩ (a % 0x100), s)
  else if 0x980000 ≤ a ∧ a < 0x980100 then (s.mortarRead (a - 0x980000), s)
  else (0, s)

/-- A write in the mortar region. -/
def State.mortarRegionWrite (s : State) (p : Party) (a : Nat) (v : Reg32) : State :=
  if 0x890040 ≤ a ∧ a < 0x890078 then s.hostRxmapWrite p a v
  else if 0x8F8000 ≤ a ∧ a < 0x8F8034 then s.cpmapWrite p ((a - 0x8F8000) / 4) v
  else if a < 0x900000 then
    match portOfCode ((a - 0x800000) / 0x4000) with
    | some q => s.portWrite p q (a % 0x4000) v
    | none => s
  else if h : 0x900000 ≤ a ∧ a < 0x910000 then s.fcWrite p ⟨(a - 0x900000) / 0x100, by omega⟩ (a % 0x100) v
  else if 0x980000 ≤ a ∧ a < 0x980100 then s.mortarWrite p (a - 0x980000) v
  else s

/-! ### The map (R21) -/

/-- A read in the recorder region. -/
def State.recRegion (s : State) (a : Nat) : Reg32 × State :=
  if a < 0x510000 then s.recRead (a - 0x500000)
  else if a < 0x520000 then (s.jrnRead (a - 0x510000), s)
  else if 0x540000 ≤ a ∧ a < 0x580000 then (s.jrnWindow ((a - 0x540000) / 4), s)
  else if 0x580000 ≤ a then (s.recArray ((a - 0x580000) / 32) (a % 32 / 4), s)
  else (0, s)

/-- A read in the Urral region. -/
def State.urralRegion (s : State) (p : Party) (a : Nat) : Reg32 × State :=
  if a < 0x608000 then s.urralRead (a - 0x600000)
  else if a < 0x609000 then s.orphWord ((a - 0x608000) / 16) (a % 16 / 4)
  else if 0x610000 ≤ a ∧ a < 0x618000 then s.orphPfWord p ((a - 0x610000) / 16) (a % 16 / 4)
  else (0, s)

/-- A read of the register at offset a by a party that reaches it: the value and the state after it (R7, R9, R21). -/
def State.mapRead (s : State) (p : Party) (tag : Nat) (a : Nat) : Reg32 × State :=
  if a < 0x100000 then (s.globalRead p a, s)
  else if a < 0x200000 then
    (if inSecure a && secureShut p then (0, s.refused p a 0) else s.mailRead p a)
  else if a < 0x300000 then s.plumbRead p.code a
  else if h : a < 0x380000 then s.canRead p.code ⟨(a - 0x300000) / 0x10000, by omega⟩ (a % 0x10000)
  else if a < 0x400000 then (0, s)
  else if a < 0x500000 then s.fieldRead p.code (a - 0x400000)
  else if a < 0x600000 then s.recRegion a
  else if a < 0x700000 then s.urralRegion p a
  else if h : a < 0x740000 then s.ringRead p ⟨(a - 0x700000) / 0x1000, by omega⟩ (a % 0x1000)
  else if a < 0x800000 then (0, s)
  else if a < 0x1000000 then s.mortarRegion p tag a
  else if h : a < 0x1D00000 then s.courseRead p ⟨(a - 0x1000000) / 0x100000, by omega⟩ (a % 0x100000)
  else (0, s)

/-- A write of the register at offset a by a party that reaches it. -/
def State.mapWrite (s : State) (p : Party) (a : Nat) (v : Reg32) : State :=
  if a < 0x100000 then s.globalWrite p a v
  else if a < 0x200000 then
    (if inSecure a && secureShut p then s.refused p a v.toNat else s.mailWrite p a v)
  else if a < 0x300000 then s.plumbWrite p (a - 0x200000) v
  else if h : a < 0x380000 then s.canWrite p ⟨(a - 0x300000) / 0x10000, by omega⟩ (a % 0x10000) v
  else if a < 0x400000 then s
  else if a < 0x500000 then s.fieldWrite p (a - 0x400000) v
  else if a < 0x510000 then s.recWrite p (a - 0x500000) v
  else if a < 0x520000 then s.jrnWrite p (a - 0x510000) v
  else if a < 0x600000 then s
  else if a < 0x608000 then s.urralWrite p (a - 0x600000) v
  else if a < 0x700000 then s
  else if h : a < 0x740000 then s.ringWrite p ⟨(a - 0x700000) / 0x1000, by omega⟩ (a % 0x1000) v
  else if a < 0x800000 then s
  else if a < 0x1000000 then s.mortarRegionWrite p a v
  else if h : a < 0x1D00000 then s.courseWrite p ⟨(a - 0x1000000) / 0x100000, by omega⟩ (a % 0x100000) v
  else s

/-- A read of BAR0: zero where the party does not reach (R9, R423). -/
def State.barRead (s : State) (p : Party) (tag : Nat) (off : Offset) : Reg32 × State :=
  let a := off.toNat / 4 * 4
  if s.reaches p a then s.mapRead p tag a else (0, s)

/-- A write of BAR0: ignored where the party does not reach, and after STBY_READY (R9, R73, R423). -/
def State.barWrite (s : State) (p : Party) (off : Offset) (v : Reg32) : State :=
  let a := off.toNat / 4 * 4
  if s.reaches p a && !s.power.stbyReady then s.mapWrite p a v else s

/-- The offset lies in an orphan array (R435). -/
def inOrphans (off : Offset) : Bool := decide (0x608000 ≤ off.toNat ∧ off.toNat < 0x618000)

/-- A read that a function, the keystone or the TAP makes: the value goes to the reader (log 5), and into ORPH_PF for a function
(R435), but for reads of the orphan arrays themselves. In footing mode PF0 has no BAR0 to read (R423). -/
def State.readDone (s : State) (p : Party) (tag : BitVec 10) (off : Offset) : State :=
  let (v, s1) := s.barRead p tag.toNat off
  if inOrphans off ∨ (p = .pf0 ∧ s.power.phase = .footing) then { s1 with readValue := v } else s1.returnRead p tag.toNat off.toNat v

end Sys2Proof.Machine
end

