-- ==== Sys2Proof/Machine/Access.lean ====
section
/-! DEFINITION. Register accesses of the host, the TAP and the chain, and the bridge with its bus lock (R7, R15, R24, R25, R403 to
R409, R466, R522). -/

namespace Sys2Proof.Machine

/-! ### The bus lock (R408) -/

/-- The bus lock lasts at most 1,024 clk_periph cycles. -/
def busLockLife : Nat := 1024 * periphCycle

/-- The bus lock holds an access of the party back: all but the keystone's and the brick windows'. -/
def State.holdsBack (s : State) (p : Party) : Bool :=
  s.urral.lock.isSome && (match p with
    | .keystone | .brick _ => false
    | _ => true)

/-- An access waits for the bus. -/
def State.hold (s : State) (h : HeldAcc) : State := s.modUrral (fun u => { u with held := u.held ++ [h] })

/-- A write of a function, the keystone or the TAP: made at once, or when the bus is free. -/
def State.issueWrite (s : State) (p : Party) (off : Offset) (v : Reg32) : State :=
  if s.holdsBack p then s.hold (.write p off v) else s.barWrite p off v

/-- A read of a function, the keystone or the TAP. -/
def State.issueRead (s : State) (p : Party) (tag : BitVec 10) (off : Offset) : State :=
  if s.holdsBack p then s.hold (.read p tag off) else s.readDone p tag off

/-! ### Accesses of the chain (R404 to R409) -/

/-- The offset of word k of an access. -/
def accWord (off : Offset) (k : Nat) : Offset := off + BitVec.ofNat 26 (4 * k)

/-- Some word of an access lies in the secure page (R25). -/
def accSecure (off : Offset) (n : Nat) : Bool := (List.range n).any (fun k => inSecure (accWord off k).toNat)

/-- n words from word k on are read, in ascending order (R404). -/
def State.accReads (s : State) (src : Fin 64) (tag : BitVec 8) (off : Offset) (k : Nat) : (n : Nat) → List Reg32 × State
  | 0 => ([], s)
  | n + 1 =>
    let (v, s1) := s.barRead (.chain src) tag.toNat (accWord off k)
    let (l, s2) := s1.accReads src tag off (k + 1) n
    (v :: l, s2)

/-- A READ is performed: recorded in ORPH(tag), and answered; one of the secure page is DENIED with data zero (R25, R407, R409). -/
def State.performRead (s : State) (src : Fin 64) (tag : BitVec 8) (n : Nat) (off : Offset) : State :=
  if accSecure off n then (s.refused (.chain src) off.toNat 0).chainSend (.response src tag 1 (List.replicate n 0))
  else
    let (l, s1) := s.accReads src tag off 0 n
    let o : Orphan := ⟨true, (Party.chain src).code, off, nth l 0 0⟩
    { s1 with orph := Sparse.write (fun _ => Orphan.reset) s1.orph tag.toNat o }.chainSend (.response src tag 0 l)

/-- Words are written from word k on, in ascending order (R404). -/
def State.accWrites (s : State) (src : Fin 64) (off : Offset) (k : Nat) : List Reg32 → State
  | [] => s
  | v :: l => (s.barWrite (.chain src) (accWord off k) v).accWrites src off (k + 1) l

/-- A WRITE is performed and acknowledged (R406). -/
def State.performWrite (s : State) (src : Fin 64) (off : Offset) (data : List Reg32) : State :=
  if accSecure off data.length then (s.refused (.chain src) off.toNat (nth data 0 0).toNat).chainSend (.writeAck src 1)
  else (s.accWrites src off 0 data).chainSend (.writeAck src 0)

/-- A held access is performed. -/
def State.performHeld (s : State) : HeldAcc → State
  | .write p off v => s.barWrite p off v
  | .read p tag off => s.readDone p tag off
  | .accRead src tag n off => s.performRead src tag n off
  | .accWrite src off data => s.performWrite src off data

/-- The lock ends: what was held back proceeds in arrival order (R408). -/
def State.releaseBus (s : State) : State :=
  s.urral.held.foldl (fun s h => s.performHeld h) (s.modUrral (fun u => { u with lock := none, held := [] }))

/-- The device holds the bus lock. -/
def State.busHolder (s : State) (src : Fin 64) : Bool :=
  match s.urral.lock with
  | some (d, _) => decide (d = src)
  | none => false

/-- The reads that wait in the target's queue (R405). -/
def State.heldReads (s : State) : Nat :=
  (s.urral.held.filter (fun h => match h with
    | .accRead .. => true
    | _ => false)).length

/-- What becomes of an ACCESS request (R408). -/
inductive BusTurn where
  | now | later | lost
deriving DecidableEq, Repr

/-- The turn of a request: a LOCKED one of a device that does not hold the lock has lost it; while the bus is locked any other waits. -/
def State.busTurn (s : State) (src : Fin 64) (locked : Bool) : BusTurn :=
  if locked then (if s.busHolder src then .now else .lost)
  else if s.urral.lock.isSome then .later else .now

/-! ### Commands -/

/-- REGISTER_WRITE (R7). A row of its own for a register is the access as the bus performs it (log 49). -/
def execRegisterWrite (p : Party) (off : Offset) (v : Reg32) (s : State) : Host.Outcome State Fault Refusal :=
  s.when_ s.alive (fun s => s.issueWrite p off v)

/-- RC_READ (R7): a read of any register, with the side effect that its access code gives. -/
def execRcRead (p : Party) (tag : BitVec 10) (off : Offset) (s : State) : Host.Outcome State Fault Refusal :=
  s.when_ s.alive (fun s => s.issueRead p tag off)

/-- COURSE_ROLE_WRITE (R15). -/
def execCourseRoleWrite (p : Party) (v : Reg32) (s : State) : Host.Outcome State Fault Refusal :=
  s.when_ s.alive (fun s => s.issueWrite p 0x40 v)

/-- BANK_IMAGE_WRITE (R23, R522): 32-bit word k of the bank image, or of the instruction memories from word 0x8000 on. -/
def execBankImageWrite (p : Party) (c : Fin 13) (k : BitVec 16) (v : Reg32) (s : State) : Host.Outcome State Fault Refusal :=
  s.when_ s.alive (fun s => s.issueWrite p (BitVec.ofNat 26 (courseBase c + 4 * k.toNat)) v)

/-- SECURE_PAGE_ACCESS (R24): PF0 reads zero and its write is ignored; the access is recorded. -/
def execSecurePageAccess (tag : BitVec 10) (off : BitVec 19) (write : Option Reg32) (s : State) : Host.Outcome State Fault Refusal :=
  let a : Offset := BitVec.ofNat 26 (0x180000 + off.toNat)
  s.when_ (s.alive && decide (s.power.phase ≠ .footing)) (fun s => match write with
    | some v => s.issueWrite .pf0 a v
    | none => s.issueRead .pf0 tag a)

/-- DBG_ACCESS (R466): the TAP instruction is selected, and the debug level allows it. -/
def execDbgAccess (off : Offset) (write : Option Reg32) (s : State) : Host.Outcome State Fault Refusal :=
  s.when_ (s.alive && (decide (s.power.tap = .dbgAccess) && s.tapAllowed .dbgAccess)) (fun s => match write with
    | some v => s.issueWrite .tap off v
    | none => s.issueRead .tap 0 off)

/-- ACCESS_READ (R404, R405, R407 to R409) of count + 1 words. -/
def execAccessRead (src : Fin 64) (locked : Bool) (tag : BitVec 8) (count : Fin 16) (off : Offset) (s : State) :
    Host.Outcome State Fault Refusal :=
  s.when_ s.blocksUp (fun s => match s.busTurn src locked with
    | .lost => s.chainSend (.response src tag 3 [])
    | .later => if 64 ≤ s.heldReads then s.chainSend (.response src tag 4 []) else s.hold (.accRead src tag (count.val + 1) off)
    | .now => s.performRead src tag (count.val + 1) off)

/-- ACCESS_WRITE (R404, R406 to R408). -/
def execAccessWrite (src : Fin 64) (locked : Bool) (off : Offset) (data : List Reg32) (s : State) : Host.Outcome State Fault Refusal :=
  s.when_ s.blocksUp (fun s => match s.busTurn src locked with
    | .lost => s.chainSend (.writeAck src 3)
    | .later => s.hold (.accWrite src off data)
    | .now => s.performWrite src off data)

/-- ACCESS_LOCK (R408): `rivals` are the devices whose LOCK reached the target in the same clk_periph cycle. -/
def execAccessLock (src : Fin 64) (rivals : List (Fin 64)) (s : State) : Host.Outcome State Fault Refusal :=
  s.when_ s.blocksUp (fun s =>
    if s.urral.lock.isSome || rivals.any (fun d => decide (d < src)) then s.chainSend (.response src 0 2 [])
    else (s.modUrral (fun u => { u with lock := some (src, s.now) })).chainSend (.response src 0 0 []))

/-- ACCESS_UNLOCK (R408), by the holder. -/
def execAccessUnlock (src : Fin 64) (s : State) : Host.Outcome State Fault Refusal :=
  s.when_ (s.blocksUp && s.busHolder src) (fun s => s.releaseBus)

/-- BUS_LOCK_EXPIRY (R408). -/
def execBusLockExpiry (s : State) : Host.Outcome State Fault Refusal :=
  match s.urral.lock with
  | some (_, t) => s.when_ s.blocksUp (fun s => (s.at_ (t + busLockLife)).releaseBus)
  | none => .next s

/-- ACCESS_RESPONSE (R405): it frees its tag; BUSY brings no value, and one that is late is counted. -/
def execAccessResponse (k : Fin 4) (tag : BitVec 8) (status : BitVec 3) (data : List Reg32) (s : State) :
    Host.Outcome State Fault Refusal :=
  s.when_ (s.ctrlIn k) (fun s =>
    if s.urral.tags.any (fun x => decide (x.1 = tag)) then
      let s1 := s.modUrral (fun u => { u with tags := u.tags.filter (fun x => decide (x.1 ≠ tag)) })
      if status = 4 then s1 else { s1 with readValue := nth data 0 0 }
    else s.modUrrPort k (fun p => { p with late := satInc p.late }))

/-- WRITE_ACK (R406): a slot at the target comes back. -/
def execWriteAck (dev : Fin 64) (s : State) : Host.Outcome State Fault Refusal :=
  s.when_ s.blocksUp (fun s => s.modUrral (fun u => { u with slots := u.slots.set dev (u.slots[dev] - (if u.slots[dev] = 0 then 0 else 1)) }))

/-- ACCESS_TIMEOUT (R405): ACC_CFG.TMO management ticks without a response. -/
def execAccessTimeout (tag : BitVec 8) (s : State) : Host.Outcome State Fault Refusal :=
  let late := fun (x : BitVec 8 × Nat) => decide (x.1 = tag ∧ x.2 + bits (s.reg 0x600030) 7 0 ≤ s.tick)
  s.when_ s.blocksUp (fun s => s.modUrral (fun u => { u with tags := u.tags.filter (fun x => !late x) }))

end Sys2Proof.Machine
end

