-- ==== Sys2Proof/Machine/BrickInstrs.lean ====
section
/-! DEFINITION. The brick instruction commands (R107 to R128): each is the issue of that instruction by brick BK. -/

namespace Sys2Proof.Machine

/-- MOV (R107). -/
def execMov (bk : Fin 52) (d x : BitVec 4) (s : State) : Host.Outcome State Fault Refusal :=
  .next (s.issue bk (.un .mov d x) [])

/-- NOT (R107). -/
def execNot (bk : Fin 52) (d x : BitVec 4) (s : State) : Host.Outcome State Fault Refusal :=
  .next (s.issue bk (.un .not d x) [])

/-- NEG (R107). -/
def execNeg (bk : Fin 52) (d x : BitVec 4) (s : State) : Host.Outcome State Fault Refusal :=
  .next (s.issue bk (.un .neg d x) [])

/-- SWAPB (R107). -/
def execSwapb (bk : Fin 52) (d x : BitVec 4) (s : State) : Host.Outcome State Fault Refusal :=
  .next (s.issue bk (.un .swapb d x) [])

/-- MOVI (R107). -/
def execMovi (bk : Fin 52) (d : BitVec 4) (w : Word) (s : State) : Host.Outcome State Fault Refusal :=
  .next (s.issue bk (.movi d w) [])

/-- MOVQ (R107). -/
def execMovq (bk : Fin 52) (d : BitVec 4) (i : BitVec 6) (s : State) : Host.Outcome State Fault Refusal :=
  .next (s.issue bk (.movq d i) [])

/-- ADDQ (R107). -/
def execAddq (bk : Fin 52) (d : BitVec 4) (i : BitVec 6) (s : State) : Host.Outcome State Fault Refusal :=
  .next (s.issue bk (.addq d i) [])

/-- ADD (R108). -/
def execAdd (bk : Fin 52) (d x : BitVec 4) (s : State) : Host.Outcome State Fault Refusal :=
  .next (s.issue bk (.alu .add d x) [])

/-- SUB (R108). -/
def execSub (bk : Fin 52) (d x : BitVec 4) (s : State) : Host.Outcome State Fault Refusal :=
  .next (s.issue bk (.alu .sub d x) [])

/-- AND (R108). -/
def execAnd (bk : Fin 52) (d x : BitVec 4) (s : State) : Host.Outcome State Fault Refusal :=
  .next (s.issue bk (.alu .and d x) [])

/-- OR (R108). -/
def execOr (bk : Fin 52) (d x : BitVec 4) (s : State) : Host.Outcome State Fault Refusal :=
  .next (s.issue bk (.alu .or d x) [])

/-- XOR (R108). -/
def execXor (bk : Fin 52) (d x : BitVec 4) (s : State) : Host.Outcome State Fault Refusal :=
  .next (s.issue bk (.alu .xor d x) [])

/-- ANDN (R108). -/
def execAndn (bk : Fin 52) (d x : BitVec 4) (s : State) : Host.Outcome State Fault Refusal :=
  .next (s.issue bk (.alu .andn d x) [])

/-- MINU (R108). -/
def execMinu (bk : Fin 52) (d x : BitVec 4) (s : State) : Host.Outcome State Fault Refusal :=
  .next (s.issue bk (.alu .minu d x) [])

/-- MAXU (R108). -/
def execMaxu (bk : Fin 52) (d x : BitVec 4) (s : State) : Host.Outcome State Fault Refusal :=
  .next (s.issue bk (.alu .maxu d x) [])

/-- MUL (R108). -/
def execMul (bk : Fin 52) (d x : BitVec 4) (s : State) : Host.Outcome State Fault Refusal :=
  .next (s.issue bk (.alu .mul d x) [])

/-- MULHU (R108). -/
def execMulhu (bk : Fin 52) (d x : BitVec 4) (s : State) : Host.Outcome State Fault Refusal :=
  .next (s.issue bk (.alu .mulhu d x) [])

/-- MULHS (R108). -/
def execMulhs (bk : Fin 52) (d x : BitVec 4) (s : State) : Host.Outcome State Fault Refusal :=
  .next (s.issue bk (.alu .mulhs d x) [])

/-- ADDI (R109). -/
def execAddi (bk : Fin 52) (d x : BitVec 4) (w : Word) (s : State) : Host.Outcome State Fault Refusal :=
  .next (s.issue bk (.alui .addi d x w) [])

/-- SUBI (R109). -/
def execSubi (bk : Fin 52) (d x : BitVec 4) (w : Word) (s : State) : Host.Outcome State Fault Refusal :=
  .next (s.issue bk (.alui .subi d x w) [])

/-- ANDI (R109). -/
def execAndi (bk : Fin 52) (d x : BitVec 4) (w : Word) (s : State) : Host.Outcome State Fault Refusal :=
  .next (s.issue bk (.alui .andi d x w) [])

/-- ORI (R109). -/
def execOri (bk : Fin 52) (d x : BitVec 4) (w : Word) (s : State) : Host.Outcome State Fault Refusal :=
  .next (s.issue bk (.alui .ori d x w) [])

/-- XORI (R109). -/
def execXori (bk : Fin 52) (d x : BitVec 4) (w : Word) (s : State) : Host.Outcome State Fault Refusal :=
  .next (s.issue bk (.alui .xori d x w) [])

/-- MULI (R109). -/
def execMuli (bk : Fin 52) (d x : BitVec 4) (w : Word) (s : State) : Host.Outcome State Fault Refusal :=
  .next (s.issue bk (.alui .muli d x w) [])

/-- SHL (R110). -/
def execShl (bk : Fin 52) (d : BitVec 4) (n : ShiftCount) (s : State) : Host.Outcome State Fault Refusal :=
  .next (s.issue bk (.shift .shl d n) [])

/-- SHR (R110). -/
def execShr (bk : Fin 52) (d : BitVec 4) (n : ShiftCount) (s : State) : Host.Outcome State Fault Refusal :=
  .next (s.issue bk (.shift .shr d n) [])

/-- SAR (R110). -/
def execSar (bk : Fin 52) (d : BitVec 4) (n : ShiftCount) (s : State) : Host.Outcome State Fault Refusal :=
  .next (s.issue bk (.shift .sar d n) [])

/-- ROL (R110). -/
def execRol (bk : Fin 52) (d : BitVec 4) (n : ShiftCount) (s : State) : Host.Outcome State Fault Refusal :=
  .next (s.issue bk (.shift .rol d n) [])

/-- BSET (R110). -/
def execBset (bk : Fin 52) (d n : BitVec 4) (s : State) : Host.Outcome State Fault Refusal :=
  .next (s.issue bk (.bitop .bset d n) [])

/-- BCLR (R110). -/
def execBclr (bk : Fin 52) (d n : BitVec 4) (s : State) : Host.Outcome State Fault Refusal :=
  .next (s.issue bk (.bitop .bclr d n) [])

/-- BINV (R110). -/
def execBinv (bk : Fin 52) (d n : BitVec 4) (s : State) : Host.Outcome State Fault Refusal :=
  .next (s.issue bk (.bitop .binv d n) [])

/-- EXTU (R111). -/
def execExtu (bk : Fin 52) (d x p wm1 : BitVec 4) (s : State) : Host.Outcome State Fault Refusal :=
  .next (s.issue bk (.ext false d x p wm1) [])

/-- EXTS (R111). -/
def execExts (bk : Fin 52) (d x p wm1 : BitVec 4) (s : State) : Host.Outcome State Fault Refusal :=
  .next (s.issue bk (.ext true d x p wm1) [])

/-- INS (R111). -/
def execIns (bk : Fin 52) (d x p wm1 : BitVec 4) (s : State) : Host.Outcome State Fault Refusal :=
  .next (s.issue bk (.ins d x p wm1) [])

/-- CRCL8 (R112). -/
def execCrcl8 (bk : Fin 52) (d x : BitVec 4) (poly : Word) (s : State) : Host.Outcome State Fault Refusal :=
  .next (s.issue bk (.crc .l8 d x poly) [])

/-- CRCL16 (R112). -/
def execCrcl16 (bk : Fin 52) (d x : BitVec 4) (poly : Word) (s : State) : Host.Outcome State Fault Refusal :=
  .next (s.issue bk (.crc .l16 d x poly) [])

/-- CRCM8 (R112). -/
def execCrcm8 (bk : Fin 52) (d x : BitVec 4) (poly : Word) (s : State) : Host.Outcome State Fault Refusal :=
  .next (s.issue bk (.crc .m8 d x poly) [])

/-- CRCM16 (R112). -/
def execCrcm16 (bk : Fin 52) (d x : BitVec 4) (poly : Word) (s : State) : Host.Outcome State Fault Refusal :=
  .next (s.issue bk (.crc .m16 d x poly) [])

/-- CEQ (R113). -/
def execCeq (bk : Fin 52) (d a : BitVec 4) (b : CmpSrc) (s : State) : Host.Outcome State Fault Refusal :=
  .next (s.issue bk (.cmp .ceq d a b) [])

/-- CNE (R113). -/
def execCne (bk : Fin 52) (d a : BitVec 4) (b : CmpSrc) (s : State) : Host.Outcome State Fault Refusal :=
  .next (s.issue bk (.cmp .cne d a b) [])

/-- CLTU (R113). -/
def execCltu (bk : Fin 52) (d a : BitVec 4) (b : CmpSrc) (s : State) : Host.Outcome State Fault Refusal :=
  .next (s.issue bk (.cmp .cltu d a b) [])

/-- CLTS (R113). -/
def execClts (bk : Fin 52) (d a : BitVec 4) (b : CmpSrc) (s : State) : Host.Outcome State Fault Refusal :=
  .next (s.issue bk (.cmp .clts d a b) [])

/-- CLEU (R113). -/
def execCleu (bk : Fin 52) (d a : BitVec 4) (b : CmpSrc) (s : State) : Host.Outcome State Fault Refusal :=
  .next (s.issue bk (.cmp .cleu d a b) [])

/-- CLES (R113). -/
def execCles (bk : Fin 52) (d a : BitVec 4) (b : CmpSrc) (s : State) : Host.Outcome State Fault Refusal :=
  .next (s.issue bk (.cmp .cles d a b) [])

/-- CGTU (R113). -/
def execCgtu (bk : Fin 52) (d a : BitVec 4) (b : CmpSrc) (s : State) : Host.Outcome State Fault Refusal :=
  .next (s.issue bk (.cmp .cgtu d a b) [])

/-- CGTS (R113). -/
def execCgts (bk : Fin 52) (d a : BitVec 4) (b : CmpSrc) (s : State) : Host.Outcome State Fault Refusal :=
  .next (s.issue bk (.cmp .cgts d a b) [])

/-- CARRY (R114). -/
def execCarry (bk : Fin 52) (d a b : BitVec 4) (s : State) : Host.Outcome State Fault Refusal :=
  .next (s.issue bk (.carry .carry d a b) [])

/-- BORROW (R114). -/
def execBorrow (bk : Fin 52) (d a b : BitVec 4) (s : State) : Host.Outcome State Fault Refusal :=
  .next (s.issue bk (.carry .borrow d a b) [])

/-- OVFA (R114). -/
def execOvfa (bk : Fin 52) (d a b : BitVec 4) (s : State) : Host.Outcome State Fault Refusal :=
  .next (s.issue bk (.carry .ovfa d a b) [])

/-- OVFS (R114). -/
def execOvfs (bk : Fin 52) (d a b : BitVec 4) (s : State) : Host.Outcome State Fault Refusal :=
  .next (s.issue bk (.carry .ovfs d a b) [])

/-- LD (R115, R116). -/
def execLd (bk : Fin 52) (d : BitVec 4) (m : BankAddr) (ct : Contention) (s : State) : Host.Outcome State Fault Refusal :=
  .next (s.issue bk (.ld d m) ct)

/-- ST (R115, R116). -/
def execSt (bk : Fin 52) (m : BankAddr) (v : BitVec 4) (ct : Contention) (s : State) : Host.Outcome State Fault Refusal :=
  .next (s.issue bk (.st m v) ct)

/-- IN (R117). -/
def execIn (bk : Fin 52) (d : BitVec 4) (m : IoAddr) (s : State) : Host.Outcome State Fault Refusal :=
  .next (s.issue bk (.inp d m) [])

/-- OUT (R117). -/
def execOut (bk : Fin 52) (m : IoAddr) (v : BitVec 4) (s : State) : Host.Outcome State Fault Refusal :=
  .next (s.issue bk (.outp m v) [])

/-- XIN (R117). -/
def execXin (bk : Fin 52) (a : BitVec 4) (io : BitVec 12) (ct : Contention) (s : State) : Host.Outcome State Fault Refusal :=
  .next (s.issue bk (.xin a io) ct)

/-- XOUT (R117). -/
def execXout (bk : Fin 52) (io : BitVec 12) (a : BitVec 4) (ct : Contention) (s : State) : Host.Outcome State Fault Refusal :=
  .next (s.issue bk (.xout io a) ct)

/-- BZ (R118). -/
def execBz (bk : Fin 52) (c : BitVec 4) (target : Word) (s : State) : Host.Outcome State Fault Refusal :=
  .next (s.issue bk (.br .bz c target) [])

/-- BNZ (R118). -/
def execBnz (bk : Fin 52) (c : BitVec 4) (target : Word) (s : State) : Host.Outcome State Fault Refusal :=
  .next (s.issue bk (.br .bnz c target) [])

/-- DBNZ (R118). -/
def execDbnz (bk : Fin 52) (c : BitVec 4) (target : Word) (s : State) : Host.Outcome State Fault Refusal :=
  .next (s.issue bk (.br .dbnz c target) [])

/-- JMP (R118). -/
def execJmp (bk : Fin 52) (target : Word) (s : State) : Host.Outcome State Fault Refusal :=
  .next (s.issue bk (.jmp target) [])

/-- CALL (R118, R119). -/
def execCall (bk : Fin 52) (target : Word) (s : State) : Host.Outcome State Fault Refusal :=
  .next (s.issue bk (.call target) [])

/-- JR (R118). -/
def execJr (bk : Fin 52) (x : BitVec 4) (s : State) : Host.Outcome State Fault Refusal :=
  .next (s.issue bk (.jr x) [])

/-- CALLR (R118, R119). -/
def execCallr (bk : Fin 52) (x : BitVec 4) (s : State) : Host.Outcome State Fault Refusal :=
  .next (s.issue bk (.callr x) [])

/-- RET (R118, R119). -/
def execRet (bk : Fin 52) (s : State) : Host.Outcome State Fault Refusal :=
  .next (s.issue bk (.ret) [])

/-- RETT (R135, R102). -/
def execRett (bk : Fin 52) (s : State) : Host.Outcome State Fault Refusal :=
  .next (s.issue bk (.rett) [])

/-- MFS (R120, R121). -/
def execMfs (bk : Fin 52) (d : BitVec 4) (sel : BitVec 6) (s : State) : Host.Outcome State Fault Refusal :=
  .next (s.issue bk (.mfs d sel) [])

/-- MTS (R120, R121, R102). -/
def execMts (bk : Fin 52) (sel : BitVec 6) (x : BitVec 4) (s : State) : Host.Outcome State Fault Refusal :=
  .next (s.issue bk (.mts sel x) [])

/-- WAIT (R122). -/
def execWait (bk : Fin 52) (d x : BitVec 4) (s : State) : Host.Outcome State Fault Refusal :=
  .next (s.issue bk (.wait d x) [])

/-- NOP (R123). -/
def execNop (bk : Fin 52) (s : State) : Host.Outcome State Fault Refusal :=
  .next (s.issue bk (.nop) [])

/-- BKPT (R123). -/
def execBkpt (bk : Fin 52) (s : State) : Host.Outcome State Fault Refusal :=
  .next (s.issue bk (.bkpt) [])

/-- REP (R124 to R128). -/
def execRep (bk : Fin 52) (n : RepCount) (s : State) : Host.Outcome State Fault Refusal :=
  .next (s.issue bk (.rep n) [])
/-- ILLEGAL_OPCODE (R102, R130): the word at the PC is illegal in the brick's present state. -/
def execIllegalOpcode (bk : Fin 52) (s : State) : Host.Outcome State Fault Refusal :=
  if s.canIssue bk then
    let s1 := s.prepared bk
    let b := s1.brick bk
    if b.pastEnd then .next (s1.fetchTrap bk b.ready)
    else if b.illegalWord b.inRep b.words.1 b.words.2 then .next (s1.illegalAt bk b.ready) else .next s
  else .next s

end Sys2Proof.Machine
end

