-- ==== Sys2Proof/Machine/Dispatch.lean ====
section
/-! DEFINITION. One arm per command of the opcode table, each a direct call of its meaning. -/

namespace Sys2Proof.Machine

def exec (i : Instr) (s : State) : Host.Outcome State Fault Refusal :=
  match i with
  | .managementTick sensor => Sys2Proof.Machine.execManagementTick sensor s
  | .registerWrite p off v => Sys2Proof.Machine.execRegisterWrite p off v s
  | .rcRead p tag off => Sys2Proof.Machine.execRcRead p tag off s
  | .courseRoleWrite p v => Sys2Proof.Machine.execCourseRoleWrite p v s
  | .bankImageWrite p c k v => Sys2Proof.Machine.execBankImageWrite p c k v s
  | .securePageAccess tag off write => Sys2Proof.Machine.execSecurePageAccess tag off write s
  | .bypCtrlWrite p v => Sys2Proof.Machine.execBypCtrlWrite p v s
  | .leaseInEdge => Sys2Proof.Machine.execLeaseInEdge s
  | .pfailNFall => Sys2Proof.Machine.execPfailNFall s
  | .pfailNRise => Sys2Proof.Machine.execPfailNRise s
  | .vholdLoss => Sys2Proof.Machine.execVholdLoss s
  | .flushComplete => Sys2Proof.Machine.execFlushComplete s
  | .wakeRisingEdge => Sys2Proof.Machine.execWakeRisingEdge s
  | .wakeQualify => Sys2Proof.Machine.execWakeQualify s
  | .canRxdWake n w => Sys2Proof.Machine.execCanRxdWake n w s
  | .rstNFall => Sys2Proof.Machine.execRstNFall s
  | .rstNRelease bootSel => Sys2Proof.Machine.execRstNRelease bootSel s
  | .startPhaseComplete o => Sys2Proof.Machine.execStartPhaseComplete o s
  | .startWatchdogExpiry => Sys2Proof.Machine.execStartWatchdogExpiry s
  | .pcieBootWaitExpiry => Sys2Proof.Machine.execPcieBootWaitExpiry s
  | .keystoneFatalFault code => Sys2Proof.Machine.execKeystoneFatalFault code s
  | .overTemperatureFault => Sys2Proof.Machine.execOverTemperatureFault s
  | .pcieReset => Sys2Proof.Machine.execPcieReset s
  | .vaonRise => Sys2Proof.Machine.execVaonRise s
  | .vaonLoss => Sys2Proof.Machine.execVaonLoss s
  | .railLoss => Sys2Proof.Machine.execRailLoss s
  | .tapInstruction j => Sys2Proof.Machine.execTapInstruction j s
  | .extestExit => Sys2Proof.Machine.execExtestExit s
  | .dbgAccess off write => Sys2Proof.Machine.execDbgAccess off write s
  | .dozeRequest p => Sys2Proof.Machine.execDozeRequest p s
  | .pwrWake p => Sys2Proof.Machine.execPwrWake p s
  | .standbyPrepare p key => Sys2Proof.Machine.execStandbyPrepare p key s
  | .stbyReady => Sys2Proof.Machine.execStbyReady s
  | .standbyEntry => Sys2Proof.Machine.execStandbyEntry s
  | .courseGate c => Sys2Proof.Machine.execCourseGate c s
  | .canGate n => Sys2Proof.Machine.execCanGate n s
  | .dozeGateTimeout => Sys2Proof.Machine.execDozeGateTimeout s
  | .dozeTimerExpiry => Sys2Proof.Machine.execDozeTimerExpiry s
  | .rstCtrlDevice p key => Sys2Proof.Machine.execRstCtrlDevice p key s
  | .rstCtrlCourse p key index => Sys2Proof.Machine.execRstCtrlCourse p key index s
  | .rstCtrlPort p key index => Sys2Proof.Machine.execRstCtrlPort p key index s
  | .rstCtrlCanctl p key index => Sys2Proof.Machine.execRstCtrlCanctl p key index s
  | .mov bk d rs => Sys2Proof.Machine.execMov bk d rs s
  | .not bk d rs => Sys2Proof.Machine.execNot bk d rs s
  | .neg bk d rs => Sys2Proof.Machine.execNeg bk d rs s
  | .swapb bk d rs => Sys2Proof.Machine.execSwapb bk d rs s
  | .movi bk d w => Sys2Proof.Machine.execMovi bk d w s
  | .movq bk d j => Sys2Proof.Machine.execMovq bk d j s
  | .addq bk d j => Sys2Proof.Machine.execAddq bk d j s
  | .add bk d rs => Sys2Proof.Machine.execAdd bk d rs s
  | .sub bk d rs => Sys2Proof.Machine.execSub bk d rs s
  | .and bk d rs => Sys2Proof.Machine.execAnd bk d rs s
  | .or bk d rs => Sys2Proof.Machine.execOr bk d rs s
  | .xor bk d rs => Sys2Proof.Machine.execXor bk d rs s
  | .andn bk d rs => Sys2Proof.Machine.execAndn bk d rs s
  | .minu bk d rs => Sys2Proof.Machine.execMinu bk d rs s
  | .maxu bk d rs => Sys2Proof.Machine.execMaxu bk d rs s
  | .mul bk d rs => Sys2Proof.Machine.execMul bk d rs s
  | .mulhu bk d rs => Sys2Proof.Machine.execMulhu bk d rs s
  | .mulhs bk d rs => Sys2Proof.Machine.execMulhs bk d rs s
  | .addi bk d rs w => Sys2Proof.Machine.execAddi bk d rs w s
  | .subi bk d rs w => Sys2Proof.Machine.execSubi bk d rs w s
  | .andi bk d rs w => Sys2Proof.Machine.execAndi bk d rs w s
  | .ori bk d rs w => Sys2Proof.Machine.execOri bk d rs w s
  | .xori bk d rs w => Sys2Proof.Machine.execXori bk d rs w s
  | .muli bk d rs w => Sys2Proof.Machine.execMuli bk d rs w s
  | .shl bk d n => Sys2Proof.Machine.execShl bk d n s
  | .shr bk d n => Sys2Proof.Machine.execShr bk d n s
  | .sar bk d n => Sys2Proof.Machine.execSar bk d n s
  | .rol bk d n => Sys2Proof.Machine.execRol bk d n s
  | .bset bk d n => Sys2Proof.Machine.execBset bk d n s
  | .bclr bk d n => Sys2Proof.Machine.execBclr bk d n s
  | .binv bk d n => Sys2Proof.Machine.execBinv bk d n s
  | .extu bk d rs p wm1 => Sys2Proof.Machine.execExtu bk d rs p wm1 s
  | .exts bk d rs p wm1 => Sys2Proof.Machine.execExts bk d rs p wm1 s
  | .ins bk d rs p wm1 => Sys2Proof.Machine.execIns bk d rs p wm1 s
  | .crcl8 bk d rs poly => Sys2Proof.Machine.execCrcl8 bk d rs poly s
  | .crcl16 bk d rs poly => Sys2Proof.Machine.execCrcl16 bk d rs poly s
  | .crcm8 bk d rs poly => Sys2Proof.Machine.execCrcm8 bk d rs poly s
  | .crcm16 bk d rs poly => Sys2Proof.Machine.execCrcm16 bk d rs poly s
  | .ceq bk d a b => Sys2Proof.Machine.execCeq bk d a b s
  | .cne bk d a b => Sys2Proof.Machine.execCne bk d a b s
  | .cltu bk d a b => Sys2Proof.Machine.execCltu bk d a b s
  | .clts bk d a b => Sys2Proof.Machine.execClts bk d a b s
  | .cleu bk d a b => Sys2Proof.Machine.execCleu bk d a b s
  | .cles bk d a b => Sys2Proof.Machine.execCles bk d a b s
  | .cgtu bk d a b => Sys2Proof.Machine.execCgtu bk d a b s
  | .cgts bk d a b => Sys2Proof.Machine.execCgts bk d a b s
  | .carry bk d a b => Sys2Proof.Machine.execCarry bk d a b s
  | .borrow bk d a b => Sys2Proof.Machine.execBorrow bk d a b s
  | .ovfa bk d a b => Sys2Proof.Machine.execOvfa bk d a b s
  | .ovfs bk d a b => Sys2Proof.Machine.execOvfs bk d a b s
  | .ld bk d m ct => Sys2Proof.Machine.execLd bk d m ct s
  | .st bk m v ct => Sys2Proof.Machine.execSt bk m v ct s
  | .in_ bk d m => Sys2Proof.Machine.execIn bk d m s
  | .out bk m v => Sys2Proof.Machine.execOut bk m v s
  | .xin bk a io ct => Sys2Proof.Machine.execXin bk a io ct s
  | .xout bk io a ct => Sys2Proof.Machine.execXout bk io a ct s
  | .bz bk c target => Sys2Proof.Machine.execBz bk c target s
  | .bnz bk c target => Sys2Proof.Machine.execBnz bk c target s
  | .dbnz bk c target => Sys2Proof.Machine.execDbnz bk c target s
  | .jmp bk target => Sys2Proof.Machine.execJmp bk target s
  | .call bk target => Sys2Proof.Machine.execCall bk target s
  | .jr bk rs => Sys2Proof.Machine.execJr bk rs s
  | .callr bk rs => Sys2Proof.Machine.execCallr bk rs s
  | .ret bk => Sys2Proof.Machine.execRet bk s
  | .rett bk => Sys2Proof.Machine.execRett bk s
  | .mfs bk d sel => Sys2Proof.Machine.execMfs bk d sel s
  | .mts bk sel rs => Sys2Proof.Machine.execMts bk sel rs s
  | .wait bk d rs => Sys2Proof.Machine.execWait bk d rs s
  | .waitEnd bk => Sys2Proof.Machine.execWaitEnd bk s
  | .nop bk => Sys2Proof.Machine.execNop bk s
  | .bkpt bk => Sys2Proof.Machine.execBkpt bk s
  | .rep bk n => Sys2Proof.Machine.execRep bk n s
  | .illegalOpcode bk => Sys2Proof.Machine.execIllegalOpcode bk s
  | .watchdogExpiry bk => Sys2Proof.Machine.execWatchdogExpiry bk s
  | .watchdogTrap bk => Sys2Proof.Machine.execWatchdogTrap bk s
  | .watchdogStop bk => Sys2Proof.Machine.execWatchdogStop bk s
  | .wdogKick bk v => Sys2Proof.Machine.execWdogKick bk v s
  | .wdogCfgWrite bk v => Sys2Proof.Machine.execWdogCfgWrite bk v s
  | .evClr bk v => Sys2Proof.Machine.execEvClr bk v s
  | .dbell bk v => Sys2Proof.Machine.execDbell bk v s
  | .confClr p c v => Sys2Proof.Machine.execConfClr p c v s
  | .confLoRead bk m => Sys2Proof.Machine.execConfLoRead bk m s
  | .timeW0Read bk => Sys2Proof.Machine.execTimeW0Read bk s
  | .timeSelWrite bk v => Sys2Proof.Machine.execTimeSelWrite bk v s
  | .timeCmp2Write bk v => Sys2Proof.Machine.execTimeCmp2Write bk v s
  | .timeCompareMatch bk => Sys2Proof.Machine.execTimeCompareMatch bk s
  | .jmark bk v => Sys2Proof.Machine.execJmark bk v s
  | .halt p bk => Sys2Proof.Machine.execHalt p bk s
  | .debugHalt bk => Sys2Proof.Machine.execDebugHalt bk s
  | .step p bk => Sys2Proof.Machine.execStep p bk s
  | .resume p bk => Sys2Proof.Machine.execResume p bk s
  | .brickReset p bk key => Sys2Proof.Machine.execBrickReset p bk key s
  | .run p bk => Sys2Proof.Machine.execRun p bk s
  | .dbgRegWrite p bk off v => Sys2Proof.Machine.execDbgRegWrite p bk off v s
  | .injGo p bk => Sys2Proof.Machine.execInjGo p bk s
  | .injectionAccept bk ct => Sys2Proof.Machine.execInjectionAccept bk ct s
  | .ttxWrite tl v => Sys2Proof.Machine.execTtxWrite tl v s
  | .trxRead tl => Sys2Proof.Machine.execTrxRead tl s
  | .tileNop tl mk => Sys2Proof.Machine.execTileNop tl mk s
  | .tileStop tl mk => Sys2Proof.Machine.execTileStop tl mk s
  | .tileBr tl mk cond addr ball => Sys2Proof.Machine.execTileBr tl mk cond addr ball s
  | .loop tl mk c addr => Sys2Proof.Machine.execLoop tl mk c addr s
  | .waitp tl mk kind pin ball => Sys2Proof.Machine.execWaitp tl mk kind pin ball s
  | .waitpComplete tl ball edge => Sys2Proof.Machine.execWaitpComplete tl ball edge s
  | .hold tl mk n => Sys2Proof.Machine.execHold tl mk n s
  | .holdComplete tl => Sys2Proof.Machine.execHoldComplete tl s
  | .shf tl mk mode n => Sys2Proof.Machine.execShf tl mk mode n s
  | .shfBit tl ball => Sys2Proof.Machine.execShfBit tl ball s
  | .get tl mk blk half => Sys2Proof.Machine.execGet tl mk blk half s
  | .put tl mk blk half endFlag => Sys2Proof.Machine.execPut tl mk blk half endFlag s
  | .blockedGetPutComplete tl => Sys2Proof.Machine.execBlockedGetPutComplete tl s
  | .drv tl mk dirs mask value => Sys2Proof.Machine.execDrv tl mk dirs mask value s
  | .ldi tl mk c value => Sys2Proof.Machine.execLdi tl mk c value s
  | .cpy tl mk dest src fn ball => Sys2Proof.Machine.execCpy tl mk dest src fn ball s
  | .tileIllegal tl => Sys2Proof.Machine.execTileIllegal tl s
  | .txSend p tl => Sys2Proof.Machine.execTxSend p tl s
  | .tileReset p tl key => Sys2Proof.Machine.execTileReset p tl key s
  | .tileResetHoldEnd tl => Sys2Proof.Machine.execTileResetHoldEnd tl s
  | .tileRun p tl runBit => Sys2Proof.Machine.execTileRun p tl runBit s
  | .tileStepHiWrite p tl v => Sys2Proof.Machine.execTileStepHiWrite p tl v s
  | .tilePdataWrite p tl v => Sys2Proof.Machine.execTilePdataWrite p tl v s
  | .tileProgWrite p tl a v => Sys2Proof.Machine.execTileProgWrite p tl a v s
  | .tileInjWrite p tl v => Sys2Proof.Machine.execTileInjWrite p tl v s
  | .tileInjectionTake tl ball => Sys2Proof.Machine.execTileInjectionTake tl ball s
  | .gpioOwnWrite p n v => Sys2Proof.Machine.execGpioOwnWrite p n v s
  | .fmRxlWrite bk v => Sys2Proof.Machine.execFmRxlWrite bk v s
  | .fmRxc0Read bk => Sys2Proof.Machine.execFmRxc0Read bk s
  | .fmTxcWrite bk v => Sys2Proof.Machine.execFmTxcWrite bk v s
  | .fmTxdRead bk => Sys2Proof.Machine.execFmTxdRead bk s
  | .fmRxmapWrite p c v => Sys2Proof.Machine.execFmRxmapWrite p c v s
  | .fmRxBurst c ct => Sys2Proof.Machine.execFmRxBurst c ct s
  | .fmTxBurst c ct => Sys2Proof.Machine.execFmTxBurst c ct s
  | .trowelRunComplete u fails addr data => Sys2Proof.Machine.execTrowelRunComplete u fails addr data s
  | .load r => Sys2Proof.Machine.execLoad r s
  | .courseRelease c => Sys2Proof.Machine.execCourseRelease c s
  | .patch r => Sys2Proof.Machine.execPatch r s
  | .reload r => Sys2Proof.Machine.execReload r s
  | .cancel r => Sys2Proof.Machine.execCancel r s
  | .handoverCommit => Sys2Proof.Machine.execHandoverCommit s
  | .rePoint => Sys2Proof.Machine.execRePoint s
  | .portCfgWrite p q v => Sys2Proof.Machine.execPortCfgWrite p q v s
  | .linkUp q rate => Sys2Proof.Machine.execLinkUp q rate s
  | .linkDown q => Sys2Proof.Machine.execLinkDown q s
  | .portHoldExpiry q => Sys2Proof.Machine.execPortHoldExpiry q s
  | .frameReceive q bytes fin interp => Sys2Proof.Machine.execFrameReceive q bytes fin interp s
  | .fltKey0Write p q e v => Sys2Proof.Machine.execFltKey0Write p q e v s
  | .gclCommit p q v => Sys2Proof.Machine.execGclCommit p q v s
  | .gclChangeTime q => Sys2Proof.Machine.execGclChangeTime q s
  | .gateEntryChange q => Sys2Proof.Machine.execGateEntryChange q s
  | .cntLoRead p tag q k => Sys2Proof.Machine.execCntLoRead p tag q k s
  | .cntShadowRead p tag q k hi => Sys2Proof.Machine.execCntShadowRead p tag q k hi s
  | .cellTime ecc => Sys2Proof.Machine.execCellTime ecc s
  | .egressFrameStart q interp => Sys2Proof.Machine.execEgressFrameStart q interp s
  | .frameAdmission => Sys2Proof.Machine.execFrameAdmission s
  | .flowContextTake f => Sys2Proof.Machine.execFlowContextTake f s
  | .recoveryResetTimeout f => Sys2Proof.Machine.execRecoveryResetTimeout f s
  | .fcCfgWrite p f v => Sys2Proof.Machine.execFcCfgWrite p f v s
  | .fcCirWrite p f cbs v => Sys2Proof.Machine.execFcCirWrite p f cbs v s
  | .fcLbaseWrite p f word v => Sys2Proof.Machine.execFcLbaseWrite p f word v s
  | .qThresholdWrite p q c which v => Sys2Proof.Machine.execQThresholdWrite p q c which v s
  | .bufFenceWrite p v => Sys2Proof.Machine.execBufFenceWrite p v s
  | .timeQuadRead p tag off => Sys2Proof.Machine.execTimeQuadRead p tag off s
  | .tdSetCommit p d v => Sys2Proof.Machine.execTdSetCommit p d v s
  | .tdEnable p d => Sys2Proof.Machine.execTdEnable p d s
  | .tdDisable p d => Sys2Proof.Machine.execTdDisable p d s
  | .tdArm p d => Sys2Proof.Machine.execTdArm p d s
  | .sampleSubmit p d v => Sys2Proof.Machine.execSampleSubmit p d v s
  | .tdTimeout d => Sys2Proof.Machine.execTdTimeout d s
  | .actGo p v => Sys2Proof.Machine.execActGo p v s
  | .activeDomainSwitch => Sys2Proof.Machine.execActiveDomainSwitch s
  | .slewComplete => Sys2Proof.Machine.execSlewComplete s
  | .gridAligned q => Sys2Proof.Machine.execGridAligned q s
  | .timeFrameSend => Sys2Proof.Machine.execTimeFrameSend s
  | .timeFrameReceive k hops sourceLink x0 x1 => Sys2Proof.Machine.execTimeFrameReceive k hops sourceLink x0 x1 s
  | .timeSourceTimeout => Sys2Proof.Machine.execTimeSourceTimeout s
  | .ttoArm p n v => Sys2Proof.Machine.execTtoArm p n v s
  | .ttoEdge n => Sys2Proof.Machine.execTtoEdge n s
  | .tcapEdge n rising interp => Sys2Proof.Machine.execTcapEdge n rising interp s
  | .tcapTsRead p tag n => Sys2Proof.Machine.execTcapTsRead p tag n s
  | .ppsInEdge rising interp => Sys2Proof.Machine.execPpsInEdge rising interp s
  | .ppsOutEdge rising => Sys2Proof.Machine.execPpsOutEdge rising s
  | .canConfigWrite p n off v => Sys2Proof.Machine.execCanConfigWrite p n off v s
  | .canOn p n => Sys2Proof.Machine.execCanOn p n s
  | .canOff p n => Sys2Proof.Machine.execCanOff p n s
  | .canSleep p n => Sys2Proof.Machine.execCanSleep p n s
  | .canSleepClear p n => Sys2Proof.Machine.execCanSleepClear p n s
  | .canSleepWake n w => Sys2Proof.Machine.execCanSleepWake n w s
  | .canBor p n => Sys2Proof.Machine.execCanBor p n s
  | .busOffRecoveryComplete n => Sys2Proof.Machine.execBusOffRecoveryComplete n s
  | .canFrameReceive n f => Sys2Proof.Machine.execCanFrameReceive n f s
  | .canTransmitStart n => Sys2Proof.Machine.execCanTransmitStart n s
  | .canTransmitEnd n acked => Sys2Proof.Machine.execCanTransmitEnd n acked s
  | .canError n e => Sys2Proof.Machine.execCanError n e s
  | .objSend p n m => Sys2Proof.Machine.execObjSend p n m s
  | .objAbort p n m => Sys2Proof.Machine.execObjAbort p n m s
  | .objResume p n m => Sys2Proof.Machine.execObjResume p n m s
  | .objBar0Write p n m off v => Sys2Proof.Machine.execObjBar0Write p n m off v s
  | .canSnapshot bk n v => Sys2Proof.Machine.execCanSnapshot bk n v s
  | .canEvtRead bk n => Sys2Proof.Machine.execCanEvtRead bk n s
  | .canTsclRead bk n => Sys2Proof.Machine.execCanTsclRead bk n s
  | .anchorLatch => Sys2Proof.Machine.execAnchorLatch s
  | .triggerTimeMark n e busIdle => Sys2Proof.Machine.execTriggerTimeMark n e busIdle s
  | .ttReferenceSend n => Sys2Proof.Machine.execTtReferenceSend n s
  | .ttReferenceReceive n prio cycle gtime => Sys2Proof.Machine.execTtReferenceReceive n prio cycle gtime s
  | .ttWatchTimeout n => Sys2Proof.Machine.execTtWatchTimeout n s
  | .streamFrame valid => Sys2Proof.Machine.execStreamFrame valid s
  | .streamTimeout logicSide => Sys2Proof.Machine.execStreamTimeout logicSide s
  | .diChangeAccept n level since => Sys2Proof.Machine.execDiChangeAccept n level since s
  | .wireBreak n => Sys2Proof.Machine.execWireBreak n s
  | .edgePop p tag => Sys2Proof.Machine.execEdgePop p tag s
  | .doCmdWrite p v => Sys2Proof.Machine.execDoCmdWrite p v s
  | .timedCommandArm p v => Sys2Proof.Machine.execTimedCommandArm p v s
  | .timedCommandApply => Sys2Proof.Machine.execTimedCommandApply s
  | .doOverload m => Sys2Proof.Machine.execDoOverload m s
  | .doOverTemperature m => Sys2Proof.Machine.execDoOverTemperature m s
  | .groupLimit => Sys2Proof.Machine.execGroupLimit s
  | .openLoad m => Sys2Proof.Machine.execOpenLoad m s
  | .fv24OkChange ok => Sys2Proof.Machine.execFv24OkChange ok s
  | .fioCfgWrite p v => Sys2Proof.Machine.execFioCfgWrite p v s
  | .pulseTest p v => Sys2Proof.Machine.execPulseTest p v s
  | .pulseTestEnd below4V => Sys2Proof.Machine.execPulseTestEnd below4V s
  | .urralSignalLoss k => Sys2Proof.Machine.execUrralSignalLoss k s
  | .urralSignalDetect k => Sys2Proof.Machine.execUrralSignalDetect k s
  | .urralTrainingTimeout k => Sys2Proof.Machine.execUrralTrainingTimeout k s
  | .urralHealthy k looped => Sys2Proof.Machine.execUrralHealthy k looped s
  | .urralFrameReceive k bytes => Sys2Proof.Machine.execUrralFrameReceive k bytes s
  | .hello k h => Sys2Proof.Machine.execHello k h s
  | .claim k c => Sys2Proof.Machine.execClaim k c s
  | .claimWin => Sys2Proof.Machine.execClaimWin s
  | .enum k number chainId => Sys2Proof.Machine.execEnum k number chainId s
  | .lease k src mepoch chainId => Sys2Proof.Machine.execLease k src mepoch chainId s
  | .leaseRenewal => Sys2Proof.Machine.execLeaseRenewal s
  | .leaseLapse => Sys2Proof.Machine.execLeaseLapse s
  | .ckptDue => Sys2Proof.Machine.execCkptDue s
  | .ckpt seq data digest => Sys2Proof.Machine.execCkpt seq data digest s
  | .ready p => Sys2Proof.Machine.execReady p s
  | .restoreLate => Sys2Proof.Machine.execRestoreLate s
  | .roleSwap => Sys2Proof.Machine.execRoleSwap s
  | .swapNow p => Sys2Proof.Machine.execSwapNow p s
  | .handoff seq => Sys2Proof.Machine.execHandoff seq s
  | .swapFail cause => Sys2Proof.Machine.execSwapFail cause s
  | .accessRead src locked tag count off => Sys2Proof.Machine.execAccessRead src locked tag count off s
  | .accessWrite src locked off data => Sys2Proof.Machine.execAccessWrite src locked off data s
  | .accessLock src rivals => Sys2Proof.Machine.execAccessLock src rivals s
  | .accessUnlock src => Sys2Proof.Machine.execAccessUnlock src s
  | .accessResponse k tag status data => Sys2Proof.Machine.execAccessResponse k tag status data s
  | .writeAck dev => Sys2Proof.Machine.execWriteAck dev s
  | .accessTimeout tag => Sys2Proof.Machine.execAccessTimeout tag s
  | .busLockExpiry => Sys2Proof.Machine.execBusLockExpiry s
  | .msgInterrupt src cause fence => Sys2Proof.Machine.execMsgInterrupt src cause fence s
  | .msgMailboxPost src sepoch j words fence => Sys2Proof.Machine.execMsgMailboxPost src sepoch j words fence s
  | .msgDoorbell src j fence => Sys2Proof.Machine.execMsgDoorbell src j fence s
  | .msgRecorderEvent src words fence => Sys2Proof.Machine.execMsgRecorderEvent src words fence s
  | .msgMailboxNotice src party sub fence => Sys2Proof.Machine.execMsgMailboxNotice src party sub fence s
  | .orphRead p tag t => Sys2Proof.Machine.execOrphRead p tag t s
  | .orphPfRead p f t => Sys2Proof.Machine.execOrphPfRead p f t s
  | .ringTailWrite p n v => Sys2Proof.Machine.execRingTailWrite p n v s
  | .ringCtrlWrite p n reg v => Sys2Proof.Machine.execRingCtrlWrite p n reg v s
  | .hostTxFrame fail => Sys2Proof.Machine.execHostTxFrame fail s
  | .hostRxDelivery descFail => Sys2Proof.Machine.execHostRxDelivery descFail s
  | .irqModTimer n => Sys2Proof.Machine.execIrqModTimer n s
  | .mailboxLock p tag j rivals => Sys2Proof.Machine.execMailboxLock p tag j rivals s
  | .mailboxDataWrite p j k v => Sys2Proof.Machine.execMailboxDataWrite p j k v s
  | .mailboxPost p j len => Sys2Proof.Machine.execMailboxPost p j len s
  | .take p j => Sys2Proof.Machine.execTake p j s
  | .unlock p j => Sys2Proof.Machine.execUnlock p j s
  | .ring p j => Sys2Proof.Machine.execRing p j s
  | .clrDisc p j => Sys2Proof.Machine.execClrDisc p j s
  | .bellClear p j => Sys2Proof.Machine.execBellClear p j s
  | .mailboxLockExpiry j => Sys2Proof.Machine.execMailboxLockExpiry j s
  | .mbRecvWrite p j v => Sys2Proof.Machine.execMbRecvWrite p j v s
  | .serviceBoundary => Sys2Proof.Machine.execServiceBoundary s
  | .courseTest r => Sys2Proof.Machine.execCourseTest r s
  | .courseReset r => Sys2Proof.Machine.execCourseReset r s
  | .fence r => Sys2Proof.Machine.execFence r s
  | .powerDoze r => Sys2Proof.Machine.execPowerDoze r s
  | .powerWake r => Sys2Proof.Machine.execPowerWake r s
  | .powerReset r => Sys2Proof.Machine.execPowerReset r s
  | .timeSample r => Sys2Proof.Machine.execTimeSample r s
  | .ckptPush r => Sys2Proof.Machine.execCkptPush r s
  | .attestReport r => Sys2Proof.Machine.execAttestReport r s
  | .idPub r => Sys2Proof.Machine.execIdPub r s
  | .authChallenge r => Sys2Proof.Machine.execAuthChallenge r s
  | .authEnd r => Sys2Proof.Machine.execAuthEnd r s
  | .provision r => Sys2Proof.Machine.execProvision r s
  | .debugAuth r => Sys2Proof.Machine.execDebugAuth r s
  | .deploy r => Sys2Proof.Machine.execDeploy r s
  | .returnAuth r => Sys2Proof.Machine.execReturnAuth r s
  | .retire r => Sys2Proof.Machine.execRetire r s
  | .rotate r => Sys2Proof.Machine.execRotate r s
  | .svnCommit r => Sys2Proof.Machine.execSvnCommit r s
  | .debugSessionExpiry => Sys2Proof.Machine.execDebugSessionExpiry s
  | .lockoutEnd => Sys2Proof.Machine.execLockoutEnd s
  | .flashWrite r => Sys2Proof.Machine.execFlashWrite r s
  | .clearStart r => Sys2Proof.Machine.execClearStart r s
  | .recorderRead r => Sys2Proof.Machine.execRecorderRead r s
  | .readFlush r => Sys2Proof.Machine.execReadFlush r s
  | .calRead r => Sys2Proof.Machine.execCalRead r s
  | .calWrite r => Sys2Proof.Machine.execCalWrite r s
  | .journalStart r => Sys2Proof.Machine.execJournalStart r s
  | .journalStop r => Sys2Proof.Machine.execJournalStop r s
  | .replay r => Sys2Proof.Machine.execReplay r s
  | .portConfig r => Sys2Proof.Machine.execPortConfig r s
  | .portHold r => Sys2Proof.Machine.execPortHold r s
  | .portLoop r => Sys2Proof.Machine.execPortLoop r s
  | .portReset r => Sys2Proof.Machine.execPortReset r s
  | .recClear p => Sys2Proof.Machine.execRecClear p s
  | .recFreeze p => Sys2Proof.Machine.execRecFreeze p s
  | .recUnfreeze p => Sys2Proof.Machine.execRecUnfreeze p s
  | .freezeTimeout => Sys2Proof.Machine.execFreezeTimeout s
  | .recFlush p => Sys2Proof.Machine.execRecFlush p s
  | .keyframe => Sys2Proof.Machine.execKeyframe s
  | .journalTrigger p => Sys2Proof.Machine.execJournalTrigger p s
  | .journalFreeze => Sys2Proof.Machine.execJournalFreeze s
  | .spillBlock => Sys2Proof.Machine.execSpillBlock s
  | .replayRelease => Sys2Proof.Machine.execReplayRelease s
  | .replayFeed => Sys2Proof.Machine.execReplayFeed s
  | .replayStarve => Sys2Proof.Machine.execReplayStarve s
  | .pcieLinkDown => Sys2Proof.Machine.execPcieLinkDown s
  | .pcieLinkUp => Sys2Proof.Machine.execPcieLinkUp s
  | .busIntegrationComplete n => Sys2Proof.Machine.execBusIntegrationComplete n s
  | .wireBreakClear n => Sys2Proof.Machine.execWireBreakClear n s
  | .replayStagingFilled => Sys2Proof.Machine.execReplayStagingFilled s

end Sys2Proof.Machine
end

