-- ==== Sys2Proof/Machine/BrickEncode.lean ====
section
/-! DEFINITION. The encoder of the brick instruction set, from the tables of R100 to R124: the one or two words of an
instruction, and which instructions have words. -/

namespace Sys2Proof.Machine

/-- A first word from its fields OP, FX, FY and FN (R100). -/
def firstWord (op : BitVec 6) (fx fy : BitVec 4) (fn : BitVec 2) : Word := op ++ (fx ++ (fy ++ fn))

/-- FN of the single-operand group (R107). -/
def UnOp.fn : UnOp → BitVec 2
  | .mov => 0 | .not => 1 | .neg => 2 | .swapb => 3

/-- OP and FN of the two-operand group (R108). -/
def AluOp.opFn : AluOp → BitVec 6 × BitVec 2
  | .add => (0x05, 0) | .sub => (0x05, 1) | .and => (0x05, 2) | .or => (0x05, 3)
  | .xor => (0x06, 0) | .andn => (0x06, 1) | .minu => (0x06, 2) | .maxu => (0x06, 3)
  | .mul => (0x07, 0) | .mulhu => (0x07, 1) | .mulhs => (0x07, 2)

/-- OP and FN of the immediate group (R109). -/
def ImmOp.opFn : ImmOp → BitVec 6 × BitVec 2
  | .addi => (0x08, 0) | .subi => (0x08, 1) | .andi => (0x08, 2) | .ori => (0x08, 3)
  | .xori => (0x09, 0) | .muli => (0x09, 1)

/-- FN of the shifts (R110). -/
def ShiftOp.fn : ShiftOp → BitVec 2
  | .shl => 0 | .shr => 1 | .sar => 2 | .rol => 3

/-- FN of the single-bit instructions (R110). -/
def BitOp.fn : BitOp → BitVec 2
  | .bset => 0 | .bclr => 1 | .binv => 2

/-- FN of the CRC forms (R112). -/
def CrcOp.fn : CrcOp → BitVec 2
  | .l8 => 0 | .l16 => 1 | .m8 => 2 | .m16 => 3

/-- FN of a compare, and whether it stands in the second opcode of its form (R113). -/
def CmpOp.rowFn : CmpOp → Bool × BitVec 2
  | .ceq => (false, 0) | .cne => (false, 1) | .cltu => (false, 2) | .clts => (false, 3)
  | .cleu => (true, 0) | .cles => (true, 1) | .cgtu => (true, 2) | .cgts => (true, 3)

/-- FN of the carry and overflow tests (R114). -/
def CarryOp.fn : CarryOp → BitVec 2
  | .carry => 0 | .borrow => 1 | .ovfa => 2 | .ovfs => 3

/-- FN of the conditional branches (R118). -/
def BrOp.fn : BrOp → BitVec 2
  | .bz => 0 | .bnz => 1 | .dbnz => 2

/-- The words of an instruction; a one-word instruction has 0 for its second (R100, R107 to R124). -/
def encodeBrick : BInstr → Word × Word
  | .un op d s => (firstWord 0x01 d s op.fn, 0)
  | .movi d w => (firstWord 0x02 d 0 0, w)
  | .movq d i => ((0x03 : BitVec 6) ++ (d ++ i), 0)
  | .addq d i => ((0x04 : BitVec 6) ++ (d ++ i), 0)
  | .alu op d s => (firstWord op.opFn.1 d s op.opFn.2, 0)
  | .alui op d s w => (firstWord op.opFn.1 d s op.opFn.2, w)
  | .shift op d (.imm n) => (firstWord 0x0A d n op.fn, 0)
  | .shift op d (.reg s) => (firstWord 0x0B d s op.fn, 0)
  | .bitop op d n => (firstWord 0x0C d n op.fn, 0)
  | .ext sg d s p wm1 => (firstWord 0x0D d s (if sg then 1 else 0), (0 : BitVec 8) ++ (p ++ wm1))
  | .ins d s p wm1 => (firstWord 0x0D d s 2, (0 : BitVec 8) ++ (p ++ wm1))
  | .crc op d s poly => (firstWord 0x0E d s op.fn, poly)
  | .cmp op d a (.reg b) => (firstWord (if op.rowFn.1 then 0x11 else 0x10) d a op.rowFn.2, b ++ (0 : BitVec 12))
  | .cmp op d a (.imm w) => (firstWord (if op.rowFn.1 then 0x13 else 0x12) d a op.rowFn.2, w)
  | .carry op d a b => (firstWord 0x14 d a op.fn, b ++ (0 : BitVec 12))
  | .ld d (.ind s) => (firstWord 0x18 d s 0, 0)
  | .ld d (.postInc s) => (firstWord 0x18 d s 1, 0)
  | .ld d (.postDec s) => (firstWord 0x18 d s 2, 0)
  | .ld d (.offset s w) => (firstWord 0x1A d s 0, w)
  | .ld d (.absolute w) => (firstWord 0x1A d 0 1, w)
  | .st (.ind a) v => (firstWord 0x19 a v 0, 0)
  | .st (.postInc a) v => (firstWord 0x19 a v 1, 0)
  | .st (.postDec a) v => (firstWord 0x19 a v 2, 0)
  | .st (.offset a w) v => (firstWord 0x1B a v 0, w)
  | .st (.absolute w) v => (firstWord 0x1B 0 v 1, w)
  | .inp d (.reg s) => (firstWord 0x1C d s 0, 0)
  | .inp d (.imm io) => (firstWord 0x1D d 0 0, (0 : BitVec 4) ++ io)
  | .outp (.reg a) v => (firstWord 0x1C a v 1, 0)
  | .outp (.imm io) v => (firstWord 0x1D 0 v 1, (0 : BitVec 4) ++ io)
  | .xin a io => (firstWord 0x1D a 0 2, (0 : BitVec 4) ++ io)
  | .xout io a => (firstWord 0x1D a 0 3, (0 : BitVec 4) ++ io)
  | .br op c target => (firstWord 0x20 c 0 op.fn, target)
  | .jmp target => (firstWord 0x20 0 0 3, target)
  | .call target => (firstWord 0x21 0 0 0, target)
  | .jr s => (firstWord 0x22 0 s 0, 0)
  | .callr s => (firstWord 0x22 0 s 1, 0)
  | .nop => (firstWord 0x00 0 0 0, 0)
  | .bkpt => (firstWord 0x00 0 0 1, 0)
  | .ret => (firstWord 0x00 0 0 2, 0)
  | .rett => (firstWord 0x00 0 0 3, 0)
  | .mfs d sel => ((0x25 : BitVec 6) ++ (d ++ sel), 0)
  | .mts sel s => ((0x26 : BitVec 6) ++ (s ++ sel), 0)
  | .wait d s => (firstWord 0x27 d s 0, 0)
  | .rep (.imm n) => ((0x24 : BitVec 6) ++ ((1 : BitVec 1) ++ n), 0)
  | .rep (.reg s) => (firstWord 0x24 0 s 0, 0)

/-- The instruction has words: a bit field ends inside its register (R111), a special register exists and may be named
(R102, R120). -/
def BInstr.wellFormed : BInstr → Bool
  | .ext _ _ _ p wm1 | .ins _ _ p wm1 => decide (p.toNat + (wm1.toNat + 1) ≤ 16)
  | .mfs _ sel => sregExists sel
  | .mts sel _ => mtsNames sel
  | _ => true

end Sys2Proof.Machine
end

