-- ==== Sys2Proof/Safety.lean ====
section
/-! DEFINITION. What counts as a safe run, in the terms that claims use: the device goes on, and what it holds is well formed. -/

namespace Sys2Proof.Machine

/-- The outcome is a next state. -/
def goesOn (o : Host.Outcome State Fault Refusal) : Prop := ∃ t, o = .next t

/-- The memories that the outside world or a brick addresses are in their canonical form: BAR0 registers, flash, OTP, host memory,
the banks and the instruction memories. -/
def State.memoriesWf (s : State) : Prop :=
  Sparse.wf regReset s.regs = true ∧ Memory.wf flashBlank s.flash = true ∧ Sparse.wf (fun _ => (0 : Reg32)) s.otp = true ∧
    Memory.wf hostBlank s.hostMem = true ∧ (∀ c, Memory.wf bankBlank (s.course c).bank = true) ∧
    ∀ k, Memory.wf bankBlank (s.brick k).imem = true

/-- The tables that are kept sparse are in canonical form: reset epochs, orphaned reads, MSI-X tables, staged and latched
128-bit registers of plumb. -/
def State.tablesWf (s : State) : Prop :=
  Sparse.wf (fun _ => (0 : BitVec 4)) s.epochs = true ∧ Sparse.wf (fun _ => Orphan.reset) s.orph = true ∧
    Sparse.wf (fun _ => Orphan.reset) s.orphPf = true ∧ Sparse.wf msixBlank s.pf0.msix = true ∧ Sparse.wf msixBlank s.pf1.msix = true ∧
    Sparse.wf (fun _ => (0 : BitVec 96)) s.plumb.quads = true ∧ Sparse.wf (fun _ => (0 : BitVec 96)) s.plumb.latches = true

/-- The memories of a keyframe are in canonical form. -/
def JRec.memoriesWf : JRec → Prop
  | .keyframe _ k => Memory.wf bankBlank k.bank = true ∧ ∀ b, b ∈ k.bricks → Memory.wf bankBlank b.imem = true
  | _ => True

/-- The keyframes of the journal and of a replay are. -/
def State.keyframesWf (s : State) : Prop :=
  (∀ e, e ∈ s.journal.recs → e.what.memoriesWf) ∧ ∀ r, r ∈ s.replay.feed → r.memoriesWf

/-- What has a size keeps to it: the recorder's ring and its side queue (R477, R481), the edge FIFO (R381). -/
def State.bounded (s : State) : Prop :=
  s.recorder.recs.length ≤ 16384 ∧ s.recorder.side.length ≤ 64 ∧ s.field.fifo.length ≤ 32

/-- The invariant of the model. -/
def State.Inv (s : State) : Prop := s.memoriesWf ∧ s.tablesWf ∧ s.keyframesWf ∧ s.bounded

/-- A run of the queue is safe in s: each command that waits is carried out, none ends in a fault or a refusal. -/
def safeFor (s : State) : (n : Nat) → Prop
  | 0 => True
  | n + 1 => ∃ t, step s = .next t ∧ safeFor t n

end Sys2Proof.Machine
end

