-- ==== Sys2Proof/Claims.lean ====
section
/-! DEFINITION. The words of the statements: what it means that a brick issues an instruction, that a tile takes one, and that a
command leaves all but named parts of the state as they were. -/

namespace Sys2Proof.Machine

/-! ### Bricks -/

/-- The words that FE has read are those of instruction memory at the PC: no write has overtaken them (R145). -/
def Brick.coherent (b : Brick) : Prop :=
  ∀ k, k < b.pre.length → nth b.pre k 0 = b.imem.word (b.pc.toNat + k)

/-- The words that R100 to R124 give instruction i stand at word address a, below 0x2000. -/
def Brick.holdsAt (b : Brick) (a : Nat) (i : BInstr) : Prop :=
  i.wellFormed = true ∧ a + i.length ≤ 0x2000 ∧ b.imem.word a = (encodeBrick i).1 ∧
    (i.length = 2 → b.imem.word (a + 1) = (encodeBrick i).2)

/-- Brick bk is about to issue instruction i, outside a REP sequence. -/
def State.issues (s : State) (bk : Fin 52) (i : BInstr) : Prop :=
  s.canIssue bk = true ∧ (s.brick bk).inRep = false ∧ (s.brick bk).coherent ∧ (s.brick bk).holdsAt (s.brick bk).pc.toNat i

/-- Brick bk is about to issue instruction i as the repeated instruction of a REP sequence with executions left. -/
def State.repeats (s : State) (bk : Fin 52) (i : BInstr) : Prop :=
  s.canIssue bk = true ∧ (s.brick bk).inRep = true ∧ (s.brick bk).repc ≠ 0 ∧ (s.brick bk).coherent ∧
    (s.brick bk).holdsAt (s.brick bk).pc.toNat i

/-- Command c answers a next state in which brick bk is `f` of what it was, but for the words that FE has read ahead, the device
time is the time of the issue, and nothing else has changed. -/
def Becomes (c : Instr) (s : State) (bk : Fin 52) (f : Brick → Brick) : Prop :=
  ∃ t pre fe, exec c s = .next t ∧ t = { s with now := max s.now (s.brick bk).ready, bricks := t.bricks } ∧
    (∀ k, k ≠ bk → t.brick k = s.brick k) ∧ t.brick bk = { f (s.brick bk) with pre := pre, feAt := fe }

/-- The next instruction is the one `len` words further, and it issues `cyc` clk_brick cycles later. -/
def Brick.onward (b : Brick) (len cyc : Nat) : Brick :=
  { b with pc := b.pc + BitVec.ofNat 16 len, ready := b.ready + 4 * cyc }

/-- The next instruction is the one at `target`, and it issues 2 cycles later. -/
def Brick.jumped (b : Brick) (target : Word) : Brick := { b with pc := target, ready := b.ready + 8 }

/-- Command c of an instruction of `len` words writes v to g[d] and nothing else, in `cyc` cycles. -/
def Writes (c : Instr) (s : State) (bk : Fin 52) (d : BitVec 4) (v : Word) (len cyc : Nat) : Prop :=
  Becomes c s bk (fun b => (b.setR d v).onward len cyc)

/-- The count of a shift: n, or g[s][3:0] (R110). -/
def countOf (r : BitVec 4 → Word) : ShiftCount → Nat
  | .imm n => n.toNat
  | .reg x => (r x).toNat % 16

/-- The second source of a compare: g[b] or w2 (R113). -/
def sourceOf (r : BitVec 4 → Word) : CmpSrc → Word
  | .reg x => r x
  | .imm w => w

/-- The least-significant-first CRC over the data bits of the list (R112). -/
def crcLow (w2 data : Word) : List Nat → Word → Word
  | [], crc => crc
  | i :: is, crc =>
    let fb := ((crc ^^^ (data >>> i)) &&& 1)
    crcLow w2 data is (if fb = 1 then (crc >>> 1) ^^^ w2 else crc >>> 1)

/-- The most-significant-first CRC over the data bits of the list (R112). -/
def crcHigh (w2 data : Word) : List Nat → Word → Word
  | [], crc => crc
  | i :: is, crc =>
    let fb := (((crc >>> 15) ^^^ (data >>> i)) &&& 1)
    crcHigh w2 data is (if fb = 1 then (crc <<< 1) ^^^ w2 else crc <<< 1)

/-- The mask of a bit field: (2^w - 1) << p (R111). -/
def fieldMask (p w : Nat) : Word := BitVec.ofNat 16 ((2 ^ w - 1) * 2 ^ p)

/-- The address register after an access, and the address accessed (R115). -/
def addressOf (b : Brick) : BankAddr → Word × Option (BitVec 4 × Word)
  | .ind x => (b.r x, none)
  | .postInc x => (b.r x, some (x, b.r x + 1))
  | .postDec x => (b.r x, some (x, b.r x - 1))
  | .offset x w => (b.r x + w, none)
  | .absolute w => (w, none)

/-- The address register is written, where the form writes it. -/
def Brick.pointed (b : Brick) (m : BankAddr) : Brick :=
  match (addressOf b m).2 with
  | some (x, v) => b.setR x v
  | none => b

/-- The cycles that brick bk loses before the grant of bank address a that it first requests n cycles after the issue, when the
masters of `ct` contend (R149). -/
def State.lost (s : State) (bk : Fin 52) (a : Word) (n : Nat) (ct : Contention) : Nat :=
  bankStall (s.course (courseOf bk)).mode (bk.val % 4) a.toNat ((s.course (courseOf bk)).cycleAt (s.brick bk).ready + n) ct

/-- Command c answers a next state in which, of brick bk and its course, brick bk is `f` of what it was, CONF_CNT of the brick has
counted n cycles, and the bank is `g` of what it was; nothing else has changed. -/
def BecomesBank (c : Instr) (s : State) (bk : Fin 52) (f : Brick → Brick) (n : Nat) (g : Memory → Memory) : Prop :=
  ∃ t pre fe, exec c s = .next t ∧
    t = { s with now := max s.now (s.brick bk).ready, bricks := t.bricks, courses := t.courses } ∧
    (∀ k, k ≠ bk → t.brick k = s.brick k) ∧ t.brick bk = { f (s.brick bk) with pre := pre, feAt := fe } ∧
    (∀ k, k ≠ courseOf bk → t.course k = s.course k) ∧
    t.course (courseOf bk) =
      { s.course (courseOf bk) with
        bank := g (s.course (courseOf bk)).bank,
        conf := (s.course (courseOf bk)).conf.set (bk.val % 4) (satAdd ((s.course (courseOf bk)).conf[bk.val % 4]) n) (by omega) }

/-- Trap entry (R132): cause, subcode, TPC and TINFO given; `ready` is the time at which the vector issues. -/
def Brick.trapped (b : Brick) (cause sub : Nat) (tpc tinfo : Word) (ready : Nat) : Brick :=
  { b with tpc := tpc, tcause := BitVec.ofNat 16 (cause * 0x1000 + sub * 0x100), tinfo := tinfo, trep := b.inRep,
           trepc := if b.inRep then b.repc else b.trepc, repc := 0, inRep := false, inTrap := true,
           pc := BitVec.ofNat 16 (2 * cause), ready := ready }

/-- Command c is an instruction that traps: the brick enters the trap 3 cycles after the issue would have been. -/
def Traps (c : Instr) (s : State) (bk : Fin 52) (cause sub : Nat) (tinfo : Word) : Prop :=
  Becomes c s bk (fun b => b.trapped cause sub b.pc tinfo (b.ready + 12))

/-- Special register sel of brick bk as an MFS that issues now reads it (R120, R121). -/
def State.special (s : State) (bk : Fin 52) (sel : BitVec 6) : Word :=
  let b := s.brick bk
  let n := (s.course (courseOf bk)).cycleAt b.ready
  match sel.toNat with
  | 0x00 => b.tpc
  | 0x01 => b.tcause
  | 0x02 => b.tinfo
  | 0x03 => b.trepc
  | 0x04 => (if b.trep then 2 else 0) + (if b.inTrap then 1 else 0)
  | 0x05 => b.repc
  | 0x06 => BitVec.ofNat 16 b.rstk.length
  | 0x08 => BitVec.ofNat 16 n
  | 0x09 => b.cycLatch.extractLsb' 0 16
  | 0x0A => b.cycLatch.extractLsb' 16 16
  | 0x0C => BitVec.ofNat 16 (bk.val / 4 * 256 + bk.val % 4 * 64 + bk.val)
  | 0x0D => 1
  | _ => 0

/-- The count of a REP prefix: COUNT, or g[s] (R124). -/
def repCount (r : BitVec 4 → Word) : RepCount → Nat
  | .imm n => n.toNat
  | .reg x => (r x).toNat

/-- The I/O address of an IN or OUT (R117). -/
def ioAddressOf (r : BitVec 4 → Word) : IoAddr → Nat
  | .reg x => (r x).toNat
  | .imm w => w.toNat

/-- A party that may write the run and reset bits of a brick, and at the present debug level the debug bits (R166, R170, R466). -/
def State.debugs (s : State) (p : Party) (bk : Fin 52) : Prop :=
  s.blocksUp = true ∧ s.brickDebug p = true ∧ s.pf1MgrKey p = true ∧ s.gated (courseOf bk) = false

/-! ### Tiles -/

/-- The tile stands at an instruction boundary with the legal word w at its PC. -/
def State.takes (s : State) (tl : Fin 208) (w : Word) : Prop :=
  s.tileReady tl = true ∧ (s.tile tl).word = w ∧ tileIllegal w = false

/-- A tile instruction from its fields: OP [15:12], MK [11:10] and the operand [9:0] (R183). -/
def tileFields (op : BitVec 4) (mk : BitVec 2) (operand : BitVec 10) : Word := op ++ (mk ++ operand)

/-- Command c answers a next state in which tile tl, after the mark action mk, is `f` of what it was and `k` tile cycles have passed on
its clock; the device time is that of the tile cycle, and nothing else has changed. -/
def TileBecomes (c : Instr) (s : State) (tl : Fin 208) (mk : BitVec 2) (k : Nat) (f : Tile → Tile) : Prop :=
  ∃ t, exec c s = .next t ∧ t = { s with now := max s.now (s.tile tl).edge, tiles := t.tiles } ∧
    (∀ n, n ≠ tl → t.tile n = s.tile n) ∧ t.tile tl = (f ((s.tile tl).mark mk)).advance k

/-- Command c answers a next state in which tile tl is u, and nothing else has changed but the device time and the journal. -/
def TileIs (c : Instr) (s : State) (tl : Fin 208) (u : Tile) : Prop :=
  ∃ t, exec c s = .next t ∧ t = { s with now := t.now, tiles := t.tiles, journal := t.journal } ∧
    (∀ n, n ≠ tl → t.tile n = s.tile n) ∧ t.tile tl = u

/-- COND of BR (R184), with the four input levels in `pins`. -/
def branchHolds (t : Tile) (cond : BitVec 3) (pins : BitVec 4) : Prop :=
  match cond.toNat with
  | 0 => True
  | 1 => pins.getLsbD t.brPin = true
  | 2 => pins.getLsbD t.brPin = false
  | 3 => t.c0 = 0
  | 4 => t.c1 = 0
  | 5 => t.c0 = t.c1
  | 6 => t.tx.empty t.edge = false
  | _ => False

/-- The source of CPY (R184), with the four input levels in `pins`. -/
def copySource (t : Tile) (src : BitVec 3) (pins : BitVec 4) : Word :=
  match src.toNat with
  | 0 => (0 : BitVec 12) ++ pins
  | 1 => t.c0
  | 2 => t.c1
  | 3 => t.sr.extractLsb' 16 16
  | 4 => t.sr.extractLsb' 0 16
  | 5 => t.scnt
  | _ => 0

/-- The function of CPY: copy, invert, reverse the 16 bits (R184). -/
def copyFunction (fn : BitVec 2) (w : Word) : Word := if fn = 0 then w else if fn = 1 then ~~~ w else w.reverse

/-- The half of SR that GET, PUT and CPY name, loaded: SRH (false) or SRL (true), with OB and IB of R188. -/
def Tile.withHalf (t : Tile) (low : Bool) (w : Word) : Tile :=
  { t with sr := if low then t.sr.extractLsb' 16 16 ++ w else w ++ t.sr.extractLsb' 0 16,
           ob := if low = t.lsbFirst then 16 else t.ob, ib := if low = t.lsbFirst then t.ib else 0 }

/-- The tile goes to the next address. -/
def Tile.onward (t : Tile) : Tile := { t with pc := t.pc + 1 }

/-- An instruction in progress has ended: the next address, and the tile runs on unless RUN has been cleared (R205). -/
def Tile.ended (t : Tile) : Tile := { t with pc := t.pc + 1, cur := none, run := if t.runBit then .running else .stopped }

/-- A party may write the registers of tile tl through the course window now (R199, R200, R468). -/
def State.writesTile (s : State) (p : Party) (tl : Fin 208) : Prop :=
  s.blocksUp = true ∧ s.brickDebug p = true ∧ (∀ k, p ≠ .brick k) ∧ s.gated (courseOfTile tl) = false ∧ (s.tile tl).brickWrite = none

/-! ### The frame mover -/

/-- The state t is u but for what a recorder event also writes: the recorder, the host causes with their vectors, the trigger of the
journal, and MSG frames to the manager (R477, R482, R489). -/
def Logs (u t : State) : Prop :=
  t = { u with recorder := t.recorder, journal := t.journal, pf0 := t.pf0, pf1 := t.pf1, hostMem := t.hostMem, chainOut := t.chainOut }

/-- The frame mover of course c may start a burst. -/
def State.bursts (s : State) (c : Fin 13) : Prop := s.blocksUp = true ∧ s.gated c = false ∧ s.power.stbySeq = false

/-- The buffer of frame f at course c: the one it has, or the oldest that the brick of its class holds (R214, R218): brick, address,
length in words, lane. -/
def State.bufferFor (s : State) (c : Fin 13) (f : RxFrame) : Option (Fin 4 × Word × Nat × Bool) :=
  let b : Fin 4 := ⟨(s.course c).rxmap.toNat / 2 ^ (2 * f.info.cls.val) % 4, by omega⟩
  match f.buf, (s.brick (brickOf c b)).fm.bufs with
  | some x, _ => some x
  | none, (a, l) :: _ => some (b, a, l.toNat % 4096, l.getLsbD 15)
  | none, [] => none

/-- The segments pushed make a frame that is dropped without being read (R216, R222). -/
def frameDropped (segs : List TxSeg) (ctl : Word) : Prop :=
  (segs.map TxSeg.len).sum = 0 ∨ 8 < (segs.filter (fun g => decide (g.len ≠ 0))).length ∨
    (ctl.getLsbD 14 = false ∧ (36 < ctl.toNat % 256 ∧ ctl.toNat % 256 < 48 ∨ 60 < ctl.toNat % 256))

/-! ### Services -/

/-- The keystone takes the request r of service `code` from mailbox j now: it serves, no earlier request stands before it, its reply
mailbox is the requester's, and the caller may call the service (R451, R457 to R459). -/
def State.asked (s : State) (code : Nat) (r : SvcReq) (j : Fin 32) : Prop :=
  s.serving = true ∧ s.frontMail = some j ∧ (s.mailbox j).unknown s.keystone.action = false ∧
    (s.mailbox j).data.toList = r.words code ∧ (s.mailbox j).sender = r.caller.num ∧
    (s.takeMail 0x01 j).replyBad r = false ∧ (s.takeMail 0x01 j).denies code r.caller = false

/-- Everything that a course executes from is the same in both states: banks, instruction memories, images. -/
def SameMemories (s t : State) : Prop :=
  (∀ c, (t.course c).bank = (s.course c).bank ∧ (t.course c).image = (s.course c).image) ∧ ∀ k, (t.brick k).imem = (s.brick k).imem

/-! ### Ports -/

/-- Counter k of port q (R279). -/
def State.counter (s : State) (q : PortCode) (k : Fin 32) : BitVec 64 := (s.port q).cnt[k].v

/-- No port but q differs between the states. -/
def OtherPorts (s t : State) (q : PortCode) : Prop := ∀ o, o ≠ q → t.port o = s.port o

/-- What waits at the mortar is the same but for copies toward port q. -/
def KeepsQueues (s t : State) (q : PortCode) : Prop :=
  t.mortar.queue.filter (fun e => decide (e.out ≠ q)) = s.mortar.queue.filter (fun e => decide (e.out ≠ q)) ∧
    t.mortar.arriving = s.mortar.arriving

/-- PORT_HOLD of port q in root periods (R283). -/
def State.holdTime (s : State) (q : PortCode) : Nat := (s.reg (portBase q + 0xC)).toNat % 2 ^ 16 * 5000

/-! ### The mortar and the flow contexts -/

/-- The states agree on everything but what the mortar, its ports, flow contexts and time hold, the frames on the lines, and the staging of
the courses: bricks, tiles, registers, mailboxes and the rest are the same. -/
def OnlyMortar (s t : State) : Prop :=
  t.bricks = s.bricks ∧ t.tiles = s.tiles ∧ t.regs = s.regs ∧ t.mailboxes = s.mailboxes ∧ t.flash = s.flash ∧ t.otp = s.otp ∧
    t.rings = s.rings ∧ t.keystone = s.keystone ∧ t.cans = s.cans ∧ t.field = s.field ∧ t.urral = s.urral ∧ t.power = s.power ∧
    t.pins = s.pins ∧ t.replay = s.replay ∧ SameMemories s t

/-- Copy e is the next to become eligible, at root time t (R290, R300). -/
def State.arrives (s : State) (e : QEntry) (t : Nat) : Prop := s.nextArrival = some (e, t)

/-- The registers of a switch queue's counters (R314). -/
def State.queueCounts (s : State) (o : PortCode) (c : Fin 8) : QCount := (s.port o).q[c]

/-- Flow context f counts at k once, and nothing else of the machine changes (R315). -/
def CountsFlow (s t : State) (f : Fin 256) (k : Fin 17) : Prop :=
  t = { s with fcs := t.fcs } ∧ (∀ g, g ≠ f → t.fc g = s.fc g) ∧ (t.fc f).cnt[k] = (s.fc f).cnt[k] + 1 ∧
    (∀ m, m ≠ k → m ≠ 0 → (t.fc f).cnt[m] = (s.fc f).cnt[m])

/-- What the context finds when it takes its frame w: the frame is out of its waiting list, and the time is that of its storage. -/
def State.taken (s : State) (f : Fin 256) (w : Frame × Fin 8 × Bool) : State :=
  (s.at_ (w.1.full.getD 0)).modFc f (fun x => { x with waiting := x.waiting.erase w })

/-! ### Plumb -/

/-- What a step of a domain leaves alone (R328): registers, tiles, mailboxes, stores, rings, keystone, controllers, chain, power, the
switch core, and every memory. -/
def StepLeaves (s t : State) : Prop :=
  t.regs = s.regs ∧ t.tiles = s.tiles ∧ t.mailboxes = s.mailboxes ∧ t.flash = s.flash ∧ t.otp = s.otp ∧ t.rings = s.rings ∧
    t.keystone = s.keystone ∧ t.cans = s.cans ∧ t.urral = s.urral ∧ t.power = s.power ∧ t.mortar = s.mortar ∧ t.pins = s.pins ∧
    SameMemories s t

/-- A command that writes a plumb register as party p with the right to it (R343). -/
def State.plumbBy (s : State) (p : Party) : Prop :=
  s.blocksUp = true ∧ s.pf1MgrKey p = true ∧ Sparse.wf regReset s.regs = true

/-- The sample that SMP_T_S = sec submits: x, and t in 2^-16 ns (R326, R328). -/
def State.sampleX (s : State) (d : Fin 2) : Int := (s.reg (tdBase d + 0x44) ++ s.reg (tdBase d + 0x40)).toInt
def State.sampleT (s : State) (d : Fin 2) (sec : Nat) : Nat := (sec * 1000000000 + (s.reg (tdBase d + 0x48)).toNat % 2 ^ 30) * 65536

/-- TD_LOCK_THR in 2^-16 ns and TD_STEP_THR in ns (R328). -/
def State.lockThr (s : State) (d : Fin 2) : Nat := (s.reg (tdBase d + 0x3C)).toNat % 2 ^ 24
def State.stepThr (s : State) (d : Fin 2) : Nat := (s.reg (tdBase d + 0x38)).toNat

/-- The state t differs from s in the hold offset, the selection and the request of the active time alone. -/
def ActOnly (s t : State) (a : ActiveTime) : Prop := t = { s with now := t.now, plumb := { s.plumb with act := a } }

/-- The Urral port holds block lock (R344). -/
def State.locks (s : State) (k : Fin 4) : Bool := s.urral.ports[k].locked

/-! ### CAN controllers -/

/-- What a command of controller n leaves alone: the other controllers, and all else but the event latches of the bricks, host causes
with their vectors, the journal, MSG frames, frames sent, the device time and the free values. -/
def CanLeaves (s t : State) (n : Fin 8) : Prop :=
  (∀ k, k ≠ n → t.can k = s.can k) ∧
    t = { s with now := t.now, freeCtr := t.freeCtr, cans := t.cans, bricks := t.bricks, journal := t.journal, pf0 := t.pf0,
                 pf1 := t.pf1, hostMem := t.hostMem, chainOut := t.chainOut, canOut := t.canOut } ∧
    ∀ k, t.brick k = { s.brick k with io := { (s.brick k).io with events := (t.brick k).io.events } }

/-- A party that configures controller n (R353). -/
def State.configuresCan (s : State) (p : Party) (n : Fin 8) : Bool := s.mayConfigure p (s.anyImage (fun im => im.bindsCan n.val))

/-- Object m of controller n, and bit b of CAN_EVT. -/
def State.obj (s : State) (n : Fin 8) (m : Fin 64) : CanObj := (s.can n).obj m
def State.evt (s : State) (n : Fin 8) (b : Nat) : Bool := (s.can n).evt.getLsbD b

/-- No ON = 0 and no SLEEP = 1 waits for the end of a frame. -/
def Can.steady (c : Can) : Prop := c.offReq = false ∧ c.sleepReq = false

/-- Every object of controller n but m is the same. -/
def OtherObjs (s t : State) (n : Fin 8) (m : Fin 64) : Prop := ∀ k, k ≠ m → t.obj n k = s.obj n k
/-- Every object of controller n is the same. -/
def SameObjs (s t : State) (n : Fin 8) : Prop := ∀ k, t.obj n k = s.obj n k

/-- The brick reaches the window of controller n (R173). -/
def State.holdsCan (s : State) (bk : Fin 52) (n : Fin 8) : Prop :=
  s.blocksUp = true ∧ s.gated (courseOf bk) = false ∧ s.canWindow bk n.val = true

/-! ### Field I/O -/

/-- What a command of the field block leaves alone: all but the block, event latches of bricks, the journal, time and free values. -/
def FieldLeaves (s t : State) : Prop :=
  t = { s with now := t.now, freeCtr := t.freeCtr, field := t.field, bricks := t.bricks, journal := t.journal } ∧
    ∀ k, t.brick k = { s.brick k with io := { (s.brick k).io with events := (t.brick k).io.events } }

/-- The brick reaches the field window (R173). -/
def State.holdsField (s : State) (bk : Fin 52) : Prop :=
  s.fieldUp = true ∧ s.gated (courseOf bk) = false ∧ s.fieldWindow bk = true

/-- Stamp order, and channel order for equal stamps (R381). -/
def edgeBefore (a b : EdgeRec) : Prop := a.since < b.since ∨ (a.since = b.since ∧ a.ch.val ≤ b.ch.val)

/-! ### The Urral link, the chain and mailboxes -/

/-- Of the link, port k alone differs. -/
def OnlyUrrPort (s t : State) (k : Fin 4) : Prop :=
  t.urral = { s.urral with ports := t.urral.ports } ∧ ∀ j, j ≠ k → t.urrPort j = s.urrPort j

/-- What a change of a Urral port's state leaves alone. -/
def LinkLeaves (s t : State) : Prop :=
  t.regs = s.regs ∧ t.tiles = s.tiles ∧ t.mailboxes = s.mailboxes ∧ t.flash = s.flash ∧ t.otp = s.otp ∧ t.rings = s.rings ∧
    t.keystone = s.keystone ∧ t.cans = s.cans ∧ t.field = s.field ∧ t.power = s.power ∧ SameMemories s t

/-- Uk is enabled and in end role (R420). -/
def State.endPort (s : State) (k : Fin 4) : Prop := s.urrEn k = true ∧ (s.urrPort k).endRole = true

/-- The device is a manager that may renew the lease now (R412, R415). -/
def State.renews (s : State) : Prop :=
  s.blocksUp = true ∧ s.urral.role = .manager ∧
    (s.urral.renewing = true ∧ s.urral.renewed + 2 ≤ s.tick ∨ s.urral.renewing = false ∧ s.urral.ready = true)

/-- A renewal of the manager: LEASE on each end-role port, LEASE_OUT toggled, the lease in force from now, outputs released (R412, R416). -/
def Renewed (s t : State) : Prop :=
  (∀ k, s.endPort k → UrrOut.lease k s.urral.mepoch (s.urral.chainId.getD 0) ∈ t.chainOut) ∧ t.pins = { s.pins with leaseOut := !s.pins.leaseOut } ∧
    t.urral.leaseOk = true ∧ t.urral.renewed = s.tick ∧ t.urral.renewing = true ∧ t.urral.ready = false ∧ t.urral.hold = false ∧
    t.urral.role = s.urral.role ∧ t.urral.mepoch = s.urral.mepoch ∧ t.urral.devnum = s.urral.devnum ∧ t.urral.ports = s.urral.ports ∧
    Logs { s with urral := t.urral, pins := t.pins } t

/-- A MSG from device src is delivered at once: without FENCE, or with no earlier access of that device held back (R408, R410). -/
def State.delivers (s : State) (src : Fin 64) (fence : Bool) : Prop :=
  s.blocksUp = true ∧ (fence = true → ∀ h ∈ s.urral.held, (∀ d tag n off, h = .accRead d tag n off → d ≠ src) ∧
    ∀ d off data, h = .accWrite d off data → d ≠ src)

/-- What a mailbox operation leaves alone: it changes mailboxes, replies that wait, MSI-X state, event latches, notices sent, and, by the
wake of a gated course, the times of that course (R71, R441). -/
def MailLeaves (s t : State) : Prop :=
  t = { s with mailboxes := t.mailboxes, bricks := t.bricks, tiles := t.tiles, courses := t.courses, ports := t.ports, journal := t.journal, pf0 := t.pf0, pf1 := t.pf1, hostMem := t.hostMem, chainOut := t.chainOut, keystone := { s.keystone with replies := t.keystone.replies } } ∧
    (∀ c, t.course c = { s.course c with base := (t.course c).base, gatedAt := (t.course c).gatedAt }) ∧
    (∀ k, t.brick k = { s.brick k with ready := (t.brick k).ready, feAt := (t.brick k).feAt, wd := { (s.brick k).wd with since := (t.brick k).wd.since }, io := { (s.brick k).io with events := (t.brick k).io.events } }) ∧
    (∀ x, t.tile x = { s.tile x with edge := (t.tile x).edge }) ∧
    ∀ q, t.port q = { s.port q with holdEnd := (t.port q).holdEnd, dropping := (t.port q).dropping }

/-- The other mailboxes are as they were, but for CROSSED (R445). -/
def OtherMailboxes (s t : State) (j : Fin 32) : Prop := ∀ i, i ≠ j → t.mailbox i = { s.mailbox i with crossed := (t.mailbox i).crossed }

/-- Mailbox j is FULL with a message of n words d from party p (R439). -/
def Posted (s t : State) (p : Nat) (ep : BitVec 4) (j : Fin 32) (n : Nat) (d : Fin 8 → Reg32) : Prop :=
  t.mailbox j = { s.mailbox j with st := .full, sender := p, epoch := ep, len := n, crossed := (t.mailbox j).crossed, postedAt := s.now, data := (t.mailbox j).data } ∧
    ∀ k : Fin 8, (t.mailbox j).data[k] = if k.val < n then d k else 0

/-- Party p reaches mailbox j through its own registers or windows (R173, R437). -/
def State.opens (s : State) (p : Party) (j : Fin 32) : Prop :=
  (if j.val < 16 then s.blocksUp else s.alive) = true ∧
    match p with
    | .keystone | .pf1 | .tap => True
    | .pf0 => j.val < 16
    | .brick k => j.val < 16 ∧ s.mbWindow k j.val = true
    | .chain _ => False

/-- No reply of the keystone waits for mailbox j (R457). -/
def State.noReply (s : State) (j : Fin 32) : Prop := ∀ x ∈ s.keystone.replies, x.1 ≠ j

/-- No mailbox but j differs. -/
def OnlyMailbox (s t : State) (j : Fin 32) : Prop := ∀ i, i ≠ j → t.mailbox i = s.mailbox i

/-- The course of a brick that receives mailbox j is awake (R71, R441). -/
def WakesReceiver (t : State) (j : Fin 32) : Prop := ∀ k : Fin 52, (t.mailbox j).recv.toNat = 0x80 + k.val → t.gated (courseOf k) = false

/-- Service r waits for its boundary b, and nothing else of u has changed (R458). -/
def Waits (u t : State) (b : Boundary) (act : AtBoundary) (r : SvcReq) : Prop :=
  t = { u with keystone := { u.keystone with deferred := u.keystone.deferred ++ [.plain b act r] } }

/-- The service that waits first has its boundary next, and no injection of a patch has reported (R249, R458). -/
def State.due (s : State) (d : Deferred) : Prop :=
  s.blocksUp = true ∧ s.power.stbySeq = false ∧ takeFirst s.reported s.keystone.deferred = none ∧ s.nextDeferred = some d

/-- The state in which the service acts: at its boundary, and no longer waiting. -/
def State.whenDue (s : State) (d : Deferred) : State :=
  { s with now := max s.now (s.rootOf d.when_), keystone := { s.keystone with deferred := s.keystone.deferred.erase d } }

/-- The SUBMIT of action a passes every check of R465, on a request that the keystone takes now. -/
def State.submits (s : State) (a : Nat) (r : SvcReq) (j : Fin 32) : Prop :=
  s.keystone.action = a ∧ s.asked 0x0902 r j ∧ (s.takeMail 0x01 j).submitBad a = none

/-- Command c is the SUBMIT of ACTION a with request r (R464). -/
def SubmitOf (c : Instr) (a : Nat) (r : SvcReq) : Prop :=
  a = 0 ∧ c = .provision r ∨ a = 1 ∧ c = .debugAuth r ∨ a = 2 ∧ c = .deploy r ∨ a = 3 ∧ c = .returnAuth r ∨ a = 4 ∧ c = .retire r ∨
    a = 5 ∧ c = .rotate r ∨ a = 6 ∧ c = .svnCommit r

/-- What is left of a session once it has ended (R467): none, no BKPT_HALT, no injection that waits; a halted brick stays halted. -/
def SessionEnded (s t : State) : Prop :=
  t.keystone.session = none ∧ (s.keystone.session.isSome = true → ∀ k, (t.brick k).bkptHalt = false ∧ (t.brick k).inj.busy = false ∧
    ((s.brick k).inj.busy = true → (t.brick k).inj.result = 3) ∧ (t.brick k).run = (s.brick k).run ∧ (t.brick k).pc = (s.brick k).pc)

/-- Flash differs only in the n bytes from a on. -/
def FlashOutside (s t : State) (a n : Nat) : Prop :=
  ∀ x, (x < a ∨ a + n ≤ x) → Sparse.read flashBlank t.flash x = Sparse.read flashBlank s.flash x

/-- OTP words but those from w on, n of them, are as they were. -/
def OtpOutside (s t : State) (w n : Nat) : Prop := ∀ k, (k < w ∨ w + n ≤ k) → t.otpWord k = s.otpWord k

/-- The device has been reset and is in phase ROM, or in footing mode after three failed starts or in RETIRED (R84, R89, R451). -/
def Restarted (t : State) (cause : BitVec 4) : Prop :=
  t.power.cause = cause ∧ (t.power.phase = .rom ∨ t.power.phase = .footing) ∧ t.tick = 0 ∧ t.regs = [] ∧ t.keystone.session = none ∧
    t.keystone.replies = [] ∧ (∀ j, (t.mailbox j).st = .empty) ∧ ∀ c, (t.course c).image = none
/-! ### Starts and resets -/

/-- The state right after a DEVICE reset of s with START_STATUS.CAUSE `cause` (R80): every block is as reset leaves it. What
belongs to no scope or to another stands: flash, OTP, host memory, the pins of the outside world, the wake domain, the TAP, the start
record, the recorder's ring and flush, the journal's SRAM as R232 says; the contents of the course memories and of the tile programs
are not part of it. -/
def WasReset (s t : State) (cause : BitVec 4) : Prop :=
  t = { State.reset with pending := s.pending, freeCtr := t.freeCtr, readValue := s.readValue, fieldFitted := s.fieldFitted, flash := s.flash, otp := s.otp, hostMem := s.hostMem, pins := t.pins, power := t.power, bricks := t.bricks, tiles := t.tiles, courses := t.courses, recorder := t.recorder, journal := t.journal, keystone := t.keystone, field := t.field } ∧
  t.pins = { Pins.reset with pfailLow := s.pins.pfailLow, vhold := s.pins.vhold, leaseIn := s.pins.leaseIn, bypALow := t.pins.bypALow, bypBLow := t.pins.bypBLow } ∧
  (s.pins.bypA = true → t.pins.bypALow = 10) ∧ (s.pins.bypB = true → t.pins.bypBLow = 10) ∧
  t.power = { Power.reset with supply := s.power.supply, sramLost := s.power.sramLost, rstLow := s.power.rstLow, tap := s.power.tap, cause := cause, bootSel := s.power.bootSel, failRecorded := s.power.failRecorded, fault := s.power.fault, wakeSrc := s.power.wakeSrc, wakeCfg := s.power.wakeCfg, wakePin := s.power.wakePin, startRec := s.power.startRec } ∧
  (∀ c, t.course c = { Course.reset with bank := (t.course c).bank }) ∧
  (∀ k, t.brick k = { Brick.reset with imem := (t.brick k).imem }) ∧
  (∀ k, t.tile k = { Tile.reset with prog := (t.tile k).prog }) ∧
  t.keystone = { Keystone.reset with lockoutEnd := s.keystone.lockoutEnd.map (fun n => n - s.tick) } ∧
  t.field = { FieldIo.reset with di := s.field.di, wb := s.field.wb, fv24 := s.field.fv24 } ∧
  (s.recorder.side = [] → t.recorder = { s.recorder with frozen := none, cfg := 0x32, clearPending := false }) ∧
  t.recorder.flushing = s.recorder.flushing ∧ t.recorder.blocks = s.recorder.blocks ∧
  (s.power.sramLost = true → t.journal = Journal.reset) ∧
  (s.power.sramLost = false → (s.journal.st = .off ∨ s.journal.st = .frozen) → s.journal.wptr ≠ 0 →
    t.journal.st = .frozen ∧ t.journal.recs = s.journal.recs ∧ t.journal.wptr = s.journal.wptr) ∧
  (s.power.sramLost = false → (s.journal.st = .recording ∨ s.journal.st = .post) → s.journal.cfg.getLsbD 30 = false →
    s.journal.cfg.toNat / 2 ^ 24 % 16 < 13 →
    t.journal.st = .frozen ∧ ∃ e, t.journal.recs.getLast? = some e ∧ e.what = .fin ((s.course s.jrnCourse).cycleAt s.now) 3)

/-- The course memories and the tile programs keep their contents, but for memories that a trowel run had under test (R80, R230). -/
def KeepsContents (s t : State) : Prop :=
  (∀ c, (s.course c).trowel = none → (t.course c).bank = (s.course c).bank) ∧
  (∀ k, (s.course (courseOf k)).trowel = none → (t.brick k).imem = (s.brick k).imem) ∧ ∀ k, (t.tile k).prog = (s.tile k).prog

/-- Phase ROM has run on u (R86, R88 to R91, R478): the start is counted, footing mode follows after three failed starts or in RETIRED
(R451), a start without a recorded cause shows as code 0x0A, and the start is recorded. -/
def Begins (u t : State) : Prop :=
  let r := u.power.startRec
  let foot := 3 ≤ r.count ∨ u.lifecycle = .retired
  Logs { u with power := t.power } t ∧
  t.power = { u.power with phase := t.power.phase, startCount := BitVec.ofNat 4 r.count, strapFault := t.power.strapFault, fault := t.power.fault, failRecorded := t.power.failRecorded, lcStatus := t.power.lcStatus, sramLost := false, startRec := t.power.startRec } ∧
  t.power.startRec.number = r.number + 1 ∧
  (foot → t.power.phase = .footing ∧ t.power.fault = true ∧ t.power.startRec.count = r.count ∧ t.power.startRec.phase = r.phase) ∧
  (¬ foot → t.power.phase = .rom ∧ t.power.fault = u.power.fault ∧ t.power.startRec.count = r.count + 1 ∧ t.power.startRec.phase = 0) ∧
  (r.count ≠ 0 → u.power.failRecorded = false → t.power.startRec.code = 0x0A ∧ t.power.startRec.param = u.power.cause.setWidth 32) ∧
  (r.count = 0 ∨ u.power.failRecorded = true → t.power.startRec.code = r.code ∧ t.power.startRec.param = r.param) ∧
  (t.power.strapFault = true ↔ (u.power.bootSel = 3 ∧ u.lifecycle ≠ .manufacture ∧ u.lifecycle ≠ .returned)) ∧
  (t.recorder.frozen = none → ∃ e, e ∈ t.recorder.recs ∧ e.code = 0x0101 ∧ e.p0 = t.power.startStatus)

/-- A DEVICE reset of s, and the start that follows it (R80, R84). -/
def ResetAndBegins (s t : State) (cause : BitVec 4) : Prop := ∃ u, WasReset s u cause ∧ KeepsContents s u ∧ Begins u t

/-- The start fails: code and parameter go into the start record, FAULT_N is asserted, and a DEVICE reset follows (R87, R91). -/
def StartFails (s t : State) (code : BitVec 8) (param : Reg32) (cause : BitVec 4) : Prop :=
  ∃ v, Logs { s with power := { s.power with failRecorded := true, fault := true, startRec := { s.power.startRec with code := code, param := param } } } v ∧ ResetAndBegins v t cause

/-- The start enters a phase, and its record says so (R86). -/
def Enters (u t : State) (p : Phase) : Prop :=
  Logs { u with power := { u.power with phase := p, startRec := { u.power.startRec with phase := BitVec.ofNat 4 p.code } } } t

/-- Every rail but VAON, or VAON too, is gone: the device is reset and holds RST_N's state, with the recorder and journal SRAM
lost (R74, R80). -/
def RailsGone (s t : State) (left : Supply) : Prop :=
  ∃ u, WasReset { s with power := { s.power with sramLost := true, rstLow := true, tap := .idcode } } u 0 ∧
    (∀ c, t.course c = { Course.reset with bank := (t.course c).bank }) ∧ (∀ k, t.brick k = { Brick.reset with imem := (t.brick k).imem }) ∧
    (∀ k, t.tile k = { Tile.reset with prog := (t.tile k).prog }) ∧
    t = { u with freeCtr := t.freeCtr, courses := t.courses, bricks := t.bricks, tiles := t.tiles, power := { u.power with supply := left } }

/-- Course c has been reset and is unloaded; its bank and its instruction memories keep their contents, and no other course's
memories or image change (R80). -/
def CourseEmptied (s t : State) (c : Fin 13) : Prop :=
  (t.course c).image = none ∧ (t.course c).released = false ∧ (t.course c).mode = 1 ∧ t.gated c = false ∧ (t.course c).fmRx = [] ∧
    (t.course c).fmTx = [] ∧ (t.course c).trowel = none ∧ (t.course c).bank = (s.course c).bank ∧ (t.course c).fenced = (s.course c).fenced ∧
    (∀ b, (t.brick (brickOf c b)).imem = (s.brick (brickOf c b)).imem ∧ (t.brick (brickOf c b)).run = .idle ∧ (t.brick (brickOf c b)).pc = 0 ∧
      (t.brick (brickOf c b)).g = Vector.replicate 16 0) ∧
    (t.port (portCp c)).up = false ∧
    (∀ d, d ≠ c → (t.course d).bank = (s.course d).bank ∧ (t.course d).image = (s.course d).image) ∧
    (∀ k, courseOf k ≠ c → (t.brick k).imem = (s.brick k).imem) ∧ t.flash = s.flash ∧ t.otp = s.otp
/-! ### Power states -/

/-- The state t is u once its bypass pins have followed the conditions of R48 down (R49): a pin stays high only while every
condition holds, and a pin that drops may rise again ten ticks later. -/
def BypassesDrop (u t : State) : Prop :=
  t = { u with pins := { u.pins with bypA := t.pins.bypA, bypALow := t.pins.bypALow, bypB := t.pins.bypB, bypBLow := t.pins.bypBLow } } ∧
  (t.pins.bypA = true ↔ (u.pins.bypA = true ∧ u.bypCause false = 0)) ∧ (t.pins.bypB = true ↔ (u.pins.bypB = true ∧ u.bypCause true = 0)) ∧
  t.pins.bypALow = (if u.pins.bypA = true ∧ u.bypCause false ≠ 0 then u.tick + 10 else u.pins.bypALow) ∧
  t.pins.bypBLow = (if u.pins.bypB = true ∧ u.bypCause true ≠ 0 then u.tick + 10 else u.pins.bypBLow)

/-- The recorder holds records not yet flushed (R54). -/
def State.unflushed (s : State) : Prop := (∃ e, e ∈ s.recorder.recs ∧ e.dirty = true) ∨ ∃ e, e ∈ s.recorder.side ∧ e.dirty = true

/-- Every gated course, CAN controller and field port wakes with a cause (R70): the cycle counter of a course goes on from where it
stopped, a controller integrates onto its bus, and the frames held for a port leave. -/
def Woken (s t : State) : Prop :=
  t.power = { s.power with doze := { s.power.doze with cans := 0, ports := 0, timerEnd := none } } ∧
  (∀ c g, s.gatedCourses.getLsbD c.val = true → (s.course c).gatedAt = some g →
    t.course c = { s.course c with gatedAt := none, base := (s.course c).base + (edgeFrom 4 s.now - g) / 4 * 4 }) ∧
  (∀ c, s.gatedCourses.getLsbD c.val = false → t.course c = s.course c) ∧
  (∀ n : Fin 8, s.power.doze.cans.getLsbD n.val = true → t.can n = { s.can n with integ := (s.can n).integ || decide ((s.can n).st = .on) }) ∧
  (∀ n : Fin 8, s.power.doze.cans.getLsbD n.val = false → t.can n = s.can n) ∧
  (∀ q : PortCode, q.val < 32 → s.power.doze.ports.getLsbD q.val = true → (s.port q).up = true →
    t.port q = { s.port q with holdEnd := none, dropping := false }) ∧
  (∀ q : PortCode, q.val < 32 → s.power.doze.ports.getLsbD q.val = false → t.port q = s.port q) ∧
  t = { s with bricks := t.bricks, tiles := t.tiles, courses := t.courses, ports := t.ports, journal := t.journal, cans := t.cans, power := t.power } ∧
  SameMemories s t

end Sys2Proof.Machine
end

