-- ==== Sys2Proof/Certificates/Slice0/Obligations.lean ====
section
/-! DEFINITION. The statements for the provers, in the order of OBLIGATIONS.json. -/

open Sys2Proof Sys2Proof.Machine

/-- A step runs the command at the front of the queue (00_scope, 01_architecture). -/
def Obligations.StepRunsFront : Prop :=
  (∀ (c : Instr) (cs : List Instr) (s : State), step { s with pending := c :: cs } = exec c { s with pending := cs }) ∧
    (∀ s : State, s.pending = [] → step s = .next { s with now := s.now + 20 })

/-- Every command is carried out, but for the release of RST_N into manufacturing test (R47, R84). -/
def Obligations.EveryCommandIsCarriedOut : Prop :=
  ∀ (c : Instr) (s : State),
    (∃ t, exec c s = .next t) ∨
      (c = .rstNRelease 3 ∧ s.power.rstLow = true ∧ s.power.supply ≠ .off ∧ (s.lifecycle = .manufacture ∨ s.lifecycle = .returned) ∧
        exec c s = .fault .manufacturingTest)

/-- RST_N, the phases of a start and their failures, the rails, the TAP, and the reset scopes (R62, R76, R80, R81, R82, R84, R85, R86, R87, R88, R91, R232). -/
def Obligations.ResetsAndStartsFollowTheirScopes : Prop :=
  (∀ (s : State), s.power.supply = .on → s.power.rstLow = false → ∃ t, exec .rstNFall s = .next t ∧ KeepsContents s t ∧ WasReset { s with power := { s.power with rstLow := true, fault := true, wakeCfg := if s.power.stbyReady then [] else s.power.wakeCfg, wakeSrc := if s.power.stbyReady then setBit s.power.wakeSrc 15 false else s.power.wakeSrc } } t 1) ∧
    (∀ (s : State), (s.power.supply ≠ .on ∨ s.power.rstLow = true) → exec .rstNFall s = .next s) ∧
    (∀ (s : State) (b : BitVec 2), s.power.rstLow = true → s.power.supply ≠ .off → ¬ (b = 3 ∧ (s.lifecycle = .manufacture ∨ s.lifecycle = .returned)) → s.power.tap.extestClass = false → ∃ t, exec (.rstNRelease b) s = .next t ∧ Begins { s with power := { s.power with supply := .on, rstLow := false, bootSel := b, fault := false, cause := (if s.power.supply ≠ .on then (if s.power.wakeSrc.getLsbD 15 then 2 else 0) else if s.power.sramLost then 0 else 1) }, pins := { s.pins with vhold := true } } t) ∧
    (∀ (s : State) (b : BitVec 2), s.power.rstLow = true → s.power.supply ≠ .off → ¬ (b = 3 ∧ (s.lifecycle = .manufacture ∨ s.lifecycle = .returned)) → s.power.tap.extestClass = true → exec (.rstNRelease b) s = .next { s with power := { s.power with supply := .on, rstLow := false, bootSel := b, fault := false, cause := (if s.power.supply ≠ .on then (if s.power.wakeSrc.getLsbD 15 then 2 else 0) else if s.power.sramLost then 0 else 1) }, pins := { s.pins with vhold := true } }) ∧
    (∀ (s : State) (b : BitVec 2), (s.power.rstLow = false ∨ s.power.supply = .off) → exec (.rstNRelease b) s = .next s) ∧
    (∀ (s : State) (o : PhaseOutcome), s.alive = true → s.power.phase = .rom → o.pllFail = none → ∃ t, exec (.startPhaseComplete o) s = .next t ∧ Enters { s with power := { s.power with pcieWait := if s.power.bootSel = 1 then some s.tick else none } } t .keystoneLoad) ∧
    (∀ (s : State) (o : PhaseOutcome) (k : BitVec 2), (s.power.phase = .rom ∨ (s.power.phase = .clocks ∧ o.otpFault = none)) → s.alive = true → o.pllFail = some k → ∃ t, exec (.startPhaseComplete o) s = .next t ∧ StartFails s t 0x04 (k.setWidth 32) 7) ∧
    (∀ (s : State) (o : PhaseOutcome), s.alive = true → s.power.phase = .keystoneLoad → s.power.bootSel ≠ 1 → s.power.fallback = false → (s.flashImage 0x100000 0x400000).take 4 = [0x41, 0x54, 0x49, 0x52] → s.imageBad 1 (s.flashImage 0x100000 0x400000) = none → ∃ t, exec (.startPhaseComplete o) s = .next t ∧ Enters { s with keystone := { s.keystone with firmware := some (imageId (s.flashImage 0x100000 0x400000)) }, power := { s.power with fwSrc := false, pcieWait := none } } t .clocks) ∧
    (∀ (s : State) (o : PhaseOutcome), s.alive = true → s.power.phase = .keystoneLoad → s.power.bootSel ≠ 1 → s.power.fallback = false → s.power.bootSel ≠ 2 → (s.flashImage 0x100000 0x400000).take 4 ≠ [0x41, 0x54, 0x49, 0x52] → ∃ t, exec (.startPhaseComplete o) s = .next t ∧ StartFails s t 0x02 0 7) ∧
    (∀ (s : State) (o : PhaseOutcome) (e k : Nat), s.alive = true → s.power.phase = .keystoneLoad → s.power.bootSel ≠ 1 → s.power.fallback = false → s.power.bootSel ≠ 2 → (s.flashImage 0x100000 0x400000).take 4 = [0x41, 0x54, 0x49, 0x52] → s.imageBad 1 (s.flashImage 0x100000 0x400000) = some (e, k) → ∃ t, exec (.startPhaseComplete o) s = .next t ∧ StartFails s t 0x01 (BitVec.ofNat 32 (k * 65536)) 7) ∧
    (∀ (s : State) (o : PhaseOutcome), s.alive = true → s.power.phase = .keystoneLoad → s.power.fallback = false → s.power.bootSel = 2 → ((s.flashImage 0x100000 0x400000).take 4 ≠ [0x41, 0x54, 0x49, 0x52] ∨ (s.imageBad 1 (s.flashImage 0x100000 0x400000)).isSome = true) →
      exec (.startPhaseComplete o) s = exec (.startPhaseComplete o) { s with power := { s.power with fallback := true, pcieWait := some s.tick } }) ∧
    (∀ (s : State) (o : PhaseOutcome), s.alive = true → s.power.phase = .keystoneLoad → (s.power.bootSel = 1 ∨ s.power.fallback = true) → o.firmware = none → exec (.startPhaseComplete o) s = .next s) ∧
    (∀ (s : State) (o : PhaseOutcome) (f : List Byte), s.alive = true → s.power.phase = .keystoneLoad → (s.power.bootSel = 1 ∨ s.power.fallback = true) → o.firmware = some f → s.imageBad 1 f = none → ∃ t, exec (.startPhaseComplete o) s = .next t ∧ Enters { s with keystone := { s.keystone with firmware := some (imageId f) }, power := { s.power with fwSrc := true, pcieWait := none } } t .clocks) ∧
    (∀ (s : State) (o : PhaseOutcome) (f : List Byte) (e k : Nat), s.alive = true → s.power.phase = .keystoneLoad → (s.power.bootSel = 1 ∨ s.power.fallback = true) → o.firmware = some f → s.imageBad 1 f = some (e, k) → ∃ t, exec (.startPhaseComplete o) s = .next t ∧ StartFails s t 0x01 (BitVec.ofNat 32 (k * 65536 + 1)) 7) ∧
    (∀ (s : State) (o : PhaseOutcome) (w : BitVec 10), s.alive = true → s.power.phase = .clocks → o.otpFault = some w → ∃ t, exec (.startPhaseComplete o) s = .next t ∧ StartFails s t 0x05 (w.setWidth 32) 7) ∧
    (∀ (s : State) (o : PhaseOutcome), s.alive = true → s.power.phase = .clocks → o.otpFault = none → o.pllFail = none → ∃ t, exec (.startPhaseComplete o) s = .next t ∧ Enters { s with plumb := t.plumb, power := { s.power with calPage := if s.calValid (Memory.readBytes flashBlank s.flash 0 4096) then (Memory.readBytes flashBlank s.flash 0 4096) else [], calDefault := !(s.calValid (Memory.readBytes flashBlank s.flash 0 4096)) } } t .trowel) ∧
    (∀ (s : State) (o : PhaseOutcome) (b : BitVec 4) (a : BitVec 28), s.alive = true → s.power.phase = .trowel → o.sharedFail = some (b, a) → ∃ t, exec (.startPhaseComplete o) s = .next t ∧ StartFails s t 0x06 (b ++ a) 7) ∧
    (∀ (s : State) (o : PhaseOutcome), s.alive = true → s.power.phase = .trowel → o.sharedFail = none → ∃ t, exec (.startPhaseComplete o) s = .next t ∧ t.power = { s.power with phase := .courseLoad, degraded := t.power.degraded, startRec := { s.power.startRec with phase := 4 } } ∧
      (o.fenced ≠ [] → t.power.degraded = true) ∧ (o.fenced = [] → t.power.degraded = s.power.degraded) ∧
      (∀ f, f ∈ o.fenced → (t.course f.course).fenced = true) ∧
      (∀ c, (∀ f, f ∈ o.fenced → f.course ≠ c) → t.course c = { s.course c with bank := [], trwStatus := 0x80000000 } ∧ ∀ k, courseOf k = c → t.brick k = { s.brick k with imem := [], pre := [] }) ∧
      ((s.power.cause = 0 ∨ s.power.cause = 2) → t.journal = { Journal.reset with fill := some 0x00000000FFFFFFFF }) ∧
      t = { s with freeCtr := t.freeCtr, courses := t.courses, bricks := t.bricks, journal := t.journal, power := t.power, recorder := t.recorder, pf0 := t.pf0, pf1 := t.pf1, hostMem := t.hostMem, chainOut := t.chainOut }) ∧
    (∀ (s : State) (o : PhaseOutcome), s.alive = true → s.power.phase = .courseLoad → (s.lifecycle = .manufacture ∨ (s.flashImage 0x10000 0x10000).take 4 = [0xFF, 0xFF, 0xFF, 0xFF]) → ∃ t, exec (.startPhaseComplete o) s = .next t ∧ Enters s t .ports) ∧
    (∀ (s : State) (o : PhaseOutcome) (e k : Nat), s.alive = true → s.power.phase = .courseLoad → s.lifecycle ≠ .manufacture → (s.flashImage 0x10000 0x10000).take 4 ≠ [0xFF, 0xFF, 0xFF, 0xFF] → s.imageBad 5 (s.flashImage 0x10000 0x10000) = some (e, k) → ∃ t, exec (.startPhaseComplete o) s = .next t ∧ StartFails s t 0x07 (BitVec.ofNat 32 (k * 65536)) 7) ∧
    (∀ (s : State) (o : PhaseOutcome) (u : State), s.alive = true → s.power.phase = .courseLoad → s.loadManifest = .ok u → ∃ t, exec (.startPhaseComplete o) s = .next t ∧ Enters u t .ports) ∧
    (∀ (s : State) (o : PhaseOutcome) (k c : Nat), s.alive = true → s.power.phase = .courseLoad → s.loadManifest = .error (k, c) → ∃ t, exec (.startPhaseComplete o) s = .next t ∧ StartFails s t 0x07 (BitVec.ofNat 32 (k * 65536 + c)) 7) ∧
    (∀ (s : State) (e : List Byte) (c : Fin 13) (n : Nat) (l : List Byte) (g : List Reg32), (∀ k, k < 32 → nth g k 0 = BitVec.ofNat 32 (imgNat e (4 * k) 4)) → g.length = 32 → imgNat e 0 4 / 2 ^ 28 % 16 = c.val → n = imgNat e 0 4 % 256 → n < 48 → l = s.slotImage n → (s.course c).fenced = false → (s.course c).image = none → s.standby ≠ some c → s.loadBad c c l (loadedOf c l g 0) = none → ∃ t, s.manifestEntry e = .ok t ∧ (t.course c).image = some (loadedOf c l g 0) ∧ (t.course c).mode = 1 ∧ (t.course c).released = false ∧ (∀ x, x ≠ c → (t.course x).bank = (s.course x).bank ∧ (t.course x).image = (s.course x).image) ∧ t.flash = s.flash ∧ t.otp = s.otp) ∧
    (∀ (s : State) (e : List Byte) (c : Fin 13) (n : Nat) (l : List Byte) (g : List Reg32), (∀ k, k < 32 → nth g k 0 = BitVec.ofNat 32 (imgNat e (4 * k) 4)) → g.length = 32 → imgNat e 0 4 / 2 ^ 28 % 16 = c.val → n = imgNat e 0 4 % 256 → n < 48 → l = s.slotImage n → (s.course c).fenced = false → (s.course c).image = none → s.standby ≠ some c → ∀ x k, s.loadBad c c l (loadedOf c l g 0) = some (x, k) → s.manifestEntry e = .error (k, c.val)) ∧
    (∀ (s : State) (e : List Byte) (c : Fin 13) (n : Nat) (l : List Byte) (g : List Reg32), (∀ k, k < 32 → nth g k 0 = BitVec.ofNat 32 (imgNat e (4 * k) 4)) → g.length = 32 → imgNat e 0 4 / 2 ^ 28 % 16 = c.val → n = imgNat e 0 4 % 256 → n < 48 → l = s.slotImage n → ∀ d, (s.course c).fenced = true → s.standby = some d → (s.course d).fenced = false → (s.course d).image = none → Sparse.wf regReset s.regs = true → ({ s with regs := Sparse.write regReset s.regs 0x40 (setBit (s.reg 0x40) 31 false) } : State).loadBad d d l (loadedOf d l g 0) = none → ∃ t, s.manifestEntry e = .ok t ∧ (t.course d).image = some (loadedOf d l g 0) ∧ (t.course d).mode = 1 ∧ (t.course d).released = false ∧ (∀ x, x ≠ d → (t.course x).bank = (s.course x).bank ∧ (t.course x).image = (s.course x).image) ∧ t.flash = s.flash ∧ t.otp = s.otp ∧ (t.reg 0x40).getLsbD 31 = false) ∧
    (∀ (s : State) (e : List Byte) (c : Fin 13) (n : Nat) (l : List Byte) (g : List Reg32), (∀ k, k < 32 → nth g k 0 = BitVec.ofNat 32 (imgNat e (4 * k) 4)) → g.length = 32 → imgNat e 0 4 / 2 ^ 28 % 16 = c.val → n = imgNat e 0 4 % 256 → n < 48 → l = s.slotImage n → (s.course c).fenced = true → (s.standby = none ∨ ∃ d, s.standby = some d ∧ ((s.course d).fenced = true ∨ (s.course d).image.isSome = true)) → s.manifestEntry e = .ok s) ∧
    (∀ (s : State) (o : PhaseOutcome), s.alive = true → s.power.phase = .ports → ∃ t, exec (.startPhaseComplete o) s = .next t ∧ t.power.phase = .running ∧ t.power.startRec = { s.power.startRec with count := 0, phase := 6 } ∧ t.power.fault = false ∧ (∀ c, (s.course c).image.isSome = true → (t.course c).released = true ∧ (t.course c).mode = 0) ∧ (∀ c, (s.course c).image = none → (t.course c).released = (s.course c).released) ∧ SameMemories s t ∧ t.flash = s.flash ∧ t.otp = s.otp) ∧
    (∀ (s : State) (o : PhaseOutcome), s.starting = false → exec (.startPhaseComplete o) s = .next s) ∧
    (∀ (s : State), s.starting = true → 2000 ≤ s.tick → ∃ t, exec .startWatchdogExpiry s = .next t ∧ StartFails s t 0x09 0 6) ∧
    (∀ (s : State), (s.starting = false ∨ s.tick < 2000) → exec .startWatchdogExpiry s = .next s) ∧
    (∀ (s : State) (n : Nat), s.starting = true → s.power.pcieWait = some n → n + 1000 ≤ s.tick → ∃ t, exec .pcieBootWaitExpiry s = .next t ∧ StartFails s t 0x03 (BitVec.ofNat 32 (s.tick - n)) 7) ∧
    (∀ (s : State), (s.starting = false ∨ ∀ n, s.power.pcieWait = some n → s.tick < n + 1000) → exec .pcieBootWaitExpiry s = .next s) ∧
    (∀ (s : State) (code : Reg32), s.starting = true → ∃ t, exec (.keystoneFatalFault code) s = .next t ∧ StartFails s t 0x08 code 5) ∧
    (∀ (s : State) (code : Reg32), s.alive = true → s.starting = false → ∃ v t, exec (.keystoneFatalFault code) s = .next t ∧ Logs { s with power := { s.power with fault := true } } v ∧ ResetAndBegins v t 5) ∧
    (∀ (s : State) (code : Reg32), s.alive = false → exec (.keystoneFatalFault code) s = .next s) ∧
    (∀ (s : State) (n : Nat), s.starting = true → s.power.hotFrom = some n → n + 10 ≤ s.tick → ∃ t, exec .overTemperatureFault s = .next t ∧ StartFails s t 0x08 0x31 5) ∧
    (∀ (s : State) (n : Nat), s.alive = true → s.starting = false → s.power.hotFrom = some n → n + 10 ≤ s.tick → ∃ v t, exec .overTemperatureFault s = .next t ∧ Logs { s with power := { s.power with fault := true } } v ∧ ResetAndBegins v t 5) ∧
    (∀ (s : State), (s.alive = false ∨ ∀ n, s.power.hotFrom = some n → s.tick < n + 10) → exec .overTemperatureFault s = .next s) ∧
    (∀ (s : State), s.power.supply = .on → s.power.stbyReady = false → ∃ t, exec .railLoss s = .next t ∧ RailsGone { s with power := { s.power with wakeCfg := [], wakeSrc := setBit s.power.wakeSrc 15 false } } t .standby) ∧
    (∀ (s : State), (s.power.supply ≠ .on ∨ s.power.stbyReady = true) → exec .railLoss s = .next s) ∧
    (∀ (s : State), s.power.supply = .on → s.power.stbyReady = true → ∃ t, exec .standbyEntry s = .next t ∧ RailsGone { s with power := { s.power with wakeSrc := setBit s.power.wakeSrc 15 true } } t .standby) ∧
    (∀ (s : State), (s.power.supply ≠ .on ∨ s.power.stbyReady = false) → exec .standbyEntry s = .next s) ∧
    (∀ (s : State), s.power.supply ≠ .off → ∃ u t, exec .vaonLoss s = .next t ∧ RailsGone s u .off ∧ t = { u with power := { u.power with wakeSrc := 0, wakeCfg := [], wakePin := false } }) ∧
    (∀ (s : State), s.power.supply = .off → exec .vaonLoss s = .next s ∧ exec .vaonRise s = .next { s with power := { s.power with supply := .standby, wakeSrc := 0, wakeCfg := [], wakePin := false } }) ∧
    (∀ (s : State), s.power.supply ≠ .off → exec .vaonRise s = .next s) ∧
    (∀ (s : State), s.alive = true → ∃ t, exec .pcieReset s = .next t ∧ t.ringLast = 31 ∧ (∀ n, t.ring n = { s.ring n with head := 0, tail := 0, st := .stopped, conds := 0 }) ∧
      (t.pf0.msix = [] ∧ t.pf0.causeEn = 0 ∧ t.pf1.msix = [] ∧ t.pf1.causeEn = 0) ∧ SessionEnded s t ∧ t.keystone.challenge = false ∧
      (s.keystone.replies = [] → ∀ j, ((s.mailbox j).recv = 2 ∨ (s.mailbox j).recv = 3) → (t.mailbox j).st ≠ .full ∧ (t.mailbox j).bell = false) ∧
      (Sparse.wf (fun _ => (0 : BitVec 4)) s.epochs = true → t.epoch 2 = s.epoch 2 + 1 ∧ t.epoch 3 = s.epoch 3 + 1) ∧
      t.power = { s.power with pcieWait := s.power.pcieWait.map (fun _ => s.tick) } ∧ SameMemories s t ∧ t.regs = s.regs ∧ t.mortar = s.mortar ∧ t.cans = s.cans ∧ t.field = s.field ∧ t.flash = s.flash ∧ t.otp = s.otp) ∧
    (∀ (s : State), s.alive = false → exec .pcieReset s = .next s) ∧
    (∀ (s : State) (p : Party) (key : BitVec 8), s.alive = true → p.isPf1 = true → key = 0x5A → ∃ t, exec (.rstCtrlDevice p key) s = .next t ∧ ResetAndBegins s t 4) ∧
    (∀ (s : State) (p : Party) (key : BitVec 8) (i : BitVec 6), (p.isPf1 = false ∨ key ≠ 0x5A) → exec (.rstCtrlDevice p key) s = .next s ∧ exec (.rstCtrlCourse p key i) s = .next s ∧ exec (.rstCtrlPort p key i) s = .next s ∧ exec (.rstCtrlCanctl p key i) s = .next s) ∧
    (∀ (s : State) (p : Party) (key : BitVec 8) (i : BitVec 6), (13 ≤ i.toNat → exec (.rstCtrlCourse p key i) s = .next s) ∧ (32 ≤ i.toNat → exec (.rstCtrlPort p key i) s = .next s) ∧ (8 ≤ i.toNat → exec (.rstCtrlCanctl p key i) s = .next s)) ∧
    (∀ (s : State) (p : Party) (key : BitVec 8) (i : BitVec 6) (c : Fin 13), s.blocksUp = true → p.isPf1 = true → key = 0x5A → i.toNat = c.val → (s.course c).trowel = none → (∀ h, s.keystone.handover = some h → h.live ≠ c) →
      ∃ t, exec (.rstCtrlCourse p key i) s = .next t ∧ CourseEmptied s t c ∧ (∀ h, s.keystone.handover = some h → h.standby = c → t.keystone.handover = none) ∧ (s.replay.course = c → s.replay.st = .running → t.replay.st = .aborted) ∧ t.power = { s.power with doze := { s.power.doze with waitCourses := setBit s.power.doze.waitCourses c.val false } }) ∧
    (∀ (s : State) (p : Party) (key : BitVec 8) (i : BitVec 6) (c : Fin 13) (r : TrowelRun), s.blocksUp = true → p.isPf1 = true → key = 0x5A → i.toNat = c.val → (s.course c).trowel = some r → r.preserving = true →
      ∃ t, exec (.rstCtrlCourse p key i) s = .next t ∧ t = { s with courses := t.courses, power := t.power } ∧ t.course c = { s.course c with trowel := some { r with abort := true } } ∧ ∀ d, d ≠ c → t.course d = s.course d) ∧
    (∀ (s : State) (p : Party) (key : BitVec 8) (i : BitVec 6) (q : PortCode), s.blocksUp = true → p.isPf1 = true → key = 0x5A → i.toNat = q.val → q.val < 32 → ∃ t, exec (.rstCtrlPort p key i) s = .next t ∧ (t.port q).up = false ∧ OtherPorts s t q ∧ KeepsQueues s t q ∧ (s.holdTime q ≠ 0 → t.mortar = s.mortar) ∧ t.regs = s.regs ∧ SameMemories s t ∧
      t.power = { s.power with doze := { s.power.doze with ports := setBit s.power.doze.ports q.val false } }) ∧
    (∀ (s : State) (p : Party) (key : BitVec 8) (i : BitVec 6) (n : Fin 8), s.blocksUp = true → p.isPf1 = true → key = 0x5A → i.toNat = n.val → ∃ t, exec (.rstCtrlCanctl p key i) s = .next t ∧ t.can n = Can.reset ∧ (∀ m, m ≠ n → t.can m = s.can m) ∧
      (∀ a, canBase n ≤ a → a < canBase n + 0x10000 → t.reg a = regReset a) ∧ (Sparse.wf regReset s.regs = true → ∀ a, (a < canBase n ∨ canBase n + 0x10000 ≤ a) → t.reg a = s.reg a) ∧
      t = { s with cans := t.cans, regs := t.regs, plumb := { s.plumb with quads := t.plumb.quads }, power := { s.power with doze := { s.power.doze with cans := setBit s.power.doze.cans n.val false, waitCans := setBit s.power.doze.waitCans n.val false } } }) ∧
    (∀ (s : State) (i : TapInstr), s.power.supply = .on → s.tapAllowed i = true → s.power.tap.extestClass = false → s.power.tap ≠ .internalScan → i.extestClass = false → i ≠ .internalScan → exec (.tapInstruction i) s = .next { s with power := { s.power with tap := i } }) ∧
    (∀ (s : State) (i : TapInstr), s.power.supply = .on → s.tapAllowed i = false → s.power.tap.extestClass = false → s.power.tap ≠ .internalScan → exec (.tapInstruction i) s = .next { s with power := { s.power with tap := .bypass } }) ∧
    (∀ (s : State), s.power.supply = .on → s.tapAllowed .internalScan = true → s.power.tap.extestClass = false → s.power.tap ≠ .internalScan → ∃ t, exec (.tapInstruction .internalScan) s = .next t ∧ SessionEnded s t ∧ t.keystone.challenge = false ∧ t.power = { s.power with tap := .internalScan } ∧ SameMemories s t ∧ t.regs = s.regs) ∧
    (∀ (s : State) (i : TapInstr), s.power.supply = .on → i.extestClass = true → s.power.tap.extestClass = false → ∃ t, exec (.tapInstruction i) s = .next t ∧ KeepsContents s t ∧ WasReset { s with power := { s.power with tap := i } } t 3) ∧
    (∀ (s : State) (i : TapInstr), s.power.supply = .on → i.extestClass = true → s.power.tap.extestClass = true → exec (.tapInstruction i) s = .next { s with power := { s.power with tap := i } }) ∧
    (∀ (s : State) (i : TapInstr), s.power.supply = .on → s.tapAllowed i = true → i.extestClass = false → i ≠ .internalScan → s.power.tap.extestClass = true → s.power.rstLow = false → ∃ t, exec (.tapInstruction i) s = .next t ∧ ResetAndBegins { s with power := { s.power with tap := i } } t 3) ∧
    (∀ (s : State) (i : TapInstr), s.power.supply = .on → s.tapAllowed i = true → i.extestClass = false → i ≠ .internalScan → s.power.tap = .internalScan → s.power.rstLow = false → ∃ t, exec (.tapInstruction i) s = .next t ∧ ResetAndBegins { s with power := { s.power with tap := i } } t 7) ∧
    (∀ (s : State) (i : TapInstr), s.power.supply ≠ .on → exec (.tapInstruction i) s = .next s) ∧
    (∀ (s : State), s.power.supply = .on → s.power.tap.extestClass = true → s.power.rstLow = false → ∃ t, exec .extestExit s = .next t ∧ ResetAndBegins { s with power := { s.power with tap := .idcode } } t 3) ∧
    (∀ (s : State), s.power.supply = .on → s.power.tap.extestClass = true → s.power.rstLow = true → ∃ t, exec .extestExit s = .next t ∧ KeepsContents s t ∧ WasReset { s with power := { s.power with tap := .idcode } } t 3) ∧
    (∀ (s : State), (s.power.supply ≠ .on ∨ s.power.tap.extestClass = false) → exec .extestExit s = .next s)

/-- MOV, NOT, NEG, SWAPB, MOVI, MOVQ and ADDQ (R107). -/
def Obligations.MovesComplete : Prop :=
  (∀ (s : State) (bk : Fin 52) (d x : BitVec 4), s.issues bk (.un .mov d x) →
      Writes (.mov bk d x) s bk d (((s.brick bk).r x)) 1 1) ∧
    (∀ (s : State) (bk : Fin 52) (d x : BitVec 4), s.issues bk (.un .not d x) →
      Writes (.not bk d x) s bk d (~~~ ((s.brick bk).r x)) 1 1) ∧
    (∀ (s : State) (bk : Fin 52) (d x : BitVec 4), s.issues bk (.un .neg d x) →
      Writes (.neg bk d x) s bk d (0 - ((s.brick bk).r x)) 1 1) ∧
    (∀ (s : State) (bk : Fin 52) (d x : BitVec 4), s.issues bk (.un .swapb d x) →
      Writes (.swapb bk d x) s bk d (BitVec.ofNat 16 (((s.brick bk).r x).toNat % 256 * 256 + ((s.brick bk).r x).toNat / 256)) 1 1) ∧
    (∀ (s : State) (bk : Fin 52) (d : BitVec 4) (w : Word), s.issues bk (.movi d w) →
      Writes (.movi bk d w) s bk d (w) 2 1) ∧
    (∀ (s : State) (bk : Fin 52) (d : BitVec 4) (i : BitVec 6), s.issues bk (.movq d i) →
      Writes (.movq bk d i) s bk d (i.signExtend 16) 1 1) ∧
    (∀ (s : State) (bk : Fin 52) (d : BitVec 4) (i : BitVec 6), s.issues bk (.addq d i) →
      Writes (.addq bk d i) s bk d (((s.brick bk).r d) + i.signExtend 16) 1 1)

/-- The two-operand and the immediate instructions (R108, R109). -/
def Obligations.ArithmeticCompletes : Prop :=
  (∀ (s : State) (bk : Fin 52) (d x : BitVec 4), s.issues bk (.alu .add d x) →
      Writes (.add bk d x) s bk d (((s.brick bk).r d) + ((s.brick bk).r x)) 1 1) ∧
    (∀ (s : State) (bk : Fin 52) (d x : BitVec 4), s.issues bk (.alu .sub d x) →
      Writes (.sub bk d x) s bk d (((s.brick bk).r d) - ((s.brick bk).r x)) 1 1) ∧
    (∀ (s : State) (bk : Fin 52) (d x : BitVec 4), s.issues bk (.alu .and d x) →
      Writes (.and bk d x) s bk d (((s.brick bk).r d) &&& ((s.brick bk).r x)) 1 1) ∧
    (∀ (s : State) (bk : Fin 52) (d x : BitVec 4), s.issues bk (.alu .or d x) →
      Writes (.or bk d x) s bk d (((s.brick bk).r d) ||| ((s.brick bk).r x)) 1 1) ∧
    (∀ (s : State) (bk : Fin 52) (d x : BitVec 4), s.issues bk (.alu .xor d x) →
      Writes (.xor bk d x) s bk d (((s.brick bk).r d) ^^^ ((s.brick bk).r x)) 1 1) ∧
    (∀ (s : State) (bk : Fin 52) (d x : BitVec 4), s.issues bk (.alu .andn d x) →
      Writes (.andn bk d x) s bk d (((s.brick bk).r d) &&& ~~~ ((s.brick bk).r x)) 1 1) ∧
    (∀ (s : State) (bk : Fin 52) (d x : BitVec 4), s.issues bk (.alu .minu d x) →
      Writes (.minu bk d x) s bk d (if ((s.brick bk).r x).toNat < ((s.brick bk).r d).toNat then ((s.brick bk).r x) else ((s.brick bk).r d)) 1 1) ∧
    (∀ (s : State) (bk : Fin 52) (d x : BitVec 4), s.issues bk (.alu .maxu d x) →
      Writes (.maxu bk d x) s bk d (if ((s.brick bk).r x).toNat > ((s.brick bk).r d).toNat then ((s.brick bk).r x) else ((s.brick bk).r d)) 1 1) ∧
    (∀ (s : State) (bk : Fin 52) (d x : BitVec 4), s.issues bk (.alu .mul d x) →
      Writes (.mul bk d x) s bk d (BitVec.ofNat 16 (((s.brick bk).r d).toNat * ((s.brick bk).r x).toNat)) 1 2) ∧
    (∀ (s : State) (bk : Fin 52) (d x : BitVec 4), s.issues bk (.alu .mulhu d x) →
      Writes (.mulhu bk d x) s bk d (BitVec.ofNat 16 (((s.brick bk).r d).toNat * ((s.brick bk).r x).toNat / 2 ^ 16)) 1 2) ∧
    (∀ (s : State) (bk : Fin 52) (d x : BitVec 4), s.issues bk (.alu .mulhs d x) →
      Writes (.mulhs bk d x) s bk d (BitVec.ofInt 16 (((s.brick bk).r d).toInt * ((s.brick bk).r x).toInt / 2 ^ 16)) 1 2) ∧
    (∀ (s : State) (bk : Fin 52) (d x : BitVec 4) (w : Word), s.issues bk (.alui .addi d x w) →
      Writes (.addi bk d x w) s bk d (((s.brick bk).r x) + w) 2 1) ∧
    (∀ (s : State) (bk : Fin 52) (d x : BitVec 4) (w : Word), s.issues bk (.alui .subi d x w) →
      Writes (.subi bk d x w) s bk d (((s.brick bk).r x) - w) 2 1) ∧
    (∀ (s : State) (bk : Fin 52) (d x : BitVec 4) (w : Word), s.issues bk (.alui .andi d x w) →
      Writes (.andi bk d x w) s bk d (((s.brick bk).r x) &&& w) 2 1) ∧
    (∀ (s : State) (bk : Fin 52) (d x : BitVec 4) (w : Word), s.issues bk (.alui .ori d x w) →
      Writes (.ori bk d x w) s bk d (((s.brick bk).r x) ||| w) 2 1) ∧
    (∀ (s : State) (bk : Fin 52) (d x : BitVec 4) (w : Word), s.issues bk (.alui .xori d x w) →
      Writes (.xori bk d x w) s bk d (((s.brick bk).r x) ^^^ w) 2 1) ∧
    (∀ (s : State) (bk : Fin 52) (d x : BitVec 4) (w : Word), s.issues bk (.alui .muli d x w) →
      Writes (.muli bk d x w) s bk d (BitVec.ofNat 16 (((s.brick bk).r x).toNat * w.toNat)) 2 2)

/-- Shifts, single bits, bit fields and CRC steps (R110, R111, R112). -/
def Obligations.ShiftsFieldsAndCrcComplete : Prop :=
  (∀ (s : State) (bk : Fin 52) (d : BitVec 4) (n : ShiftCount), s.issues bk (.shift .shl d n) →
      Writes (.shl bk d n) s bk d (BitVec.ofNat 16 (((s.brick bk).r d).toNat * 2 ^ (countOf (s.brick bk).r n))) 1 1) ∧
    (∀ (s : State) (bk : Fin 52) (d : BitVec 4) (n : ShiftCount), s.issues bk (.shift .shr d n) →
      Writes (.shr bk d n) s bk d (BitVec.ofNat 16 (((s.brick bk).r d).toNat / 2 ^ (countOf (s.brick bk).r n))) 1 1) ∧
    (∀ (s : State) (bk : Fin 52) (d : BitVec 4) (n : ShiftCount), s.issues bk (.shift .sar d n) →
      Writes (.sar bk d n) s bk d (BitVec.ofInt 16 (((s.brick bk).r d).toInt / 2 ^ (countOf (s.brick bk).r n))) 1 1) ∧
    (∀ (s : State) (bk : Fin 52) (d : BitVec 4) (n : ShiftCount), s.issues bk (.shift .rol d n) →
      Writes (.rol bk d n) s bk d (BitVec.ofNat 16 (((s.brick bk).r d).toNat * 2 ^ (countOf (s.brick bk).r n) + ((s.brick bk).r d).toNat / 2 ^ (16 - (countOf (s.brick bk).r n)))) 1 1) ∧
    (∀ (s : State) (bk : Fin 52) (d n : BitVec 4), s.issues bk (.bitop .bset d n) →
      Writes (.bset bk d n) s bk d (((s.brick bk).r d) ||| BitVec.ofNat 16 (2 ^ n.toNat)) 1 1) ∧
    (∀ (s : State) (bk : Fin 52) (d n : BitVec 4), s.issues bk (.bitop .bclr d n) →
      Writes (.bclr bk d n) s bk d (((s.brick bk).r d) &&& ~~~ BitVec.ofNat 16 (2 ^ n.toNat)) 1 1) ∧
    (∀ (s : State) (bk : Fin 52) (d n : BitVec 4), s.issues bk (.bitop .binv d n) →
      Writes (.binv bk d n) s bk d (((s.brick bk).r d) ^^^ BitVec.ofNat 16 (2 ^ n.toNat)) 1 1) ∧
    (∀ (s : State) (bk : Fin 52) (d x p wm1 : BitVec 4), s.issues bk (.ext false d x p wm1) →
      Writes (.extu bk d x p wm1) s bk d (BitVec.ofNat 16 (((s.brick bk).r x).toNat / 2 ^ p.toNat % 2 ^ (wm1.toNat + 1))) 2 1) ∧
    (∀ (s : State) (bk : Fin 52) (d x p wm1 : BitVec 4), s.issues bk (.ext true d x p wm1) →
      Writes (.exts bk d x p wm1) s bk d (if ((s.brick bk).r x).toNat / 2 ^ p.toNat % 2 ^ (wm1.toNat + 1) < 2 ^ wm1.toNat then BitVec.ofNat 16 (((s.brick bk).r x).toNat / 2 ^ p.toNat % 2 ^ (wm1.toNat + 1)) else BitVec.ofInt 16 ((((s.brick bk).r x).toNat / 2 ^ p.toNat % 2 ^ (wm1.toNat + 1) : Nat) - 2 ^ (wm1.toNat + 1) : Int)) 2 1) ∧
    (∀ (s : State) (bk : Fin 52) (d x p wm1 : BitVec 4), s.issues bk (.ins d x p wm1) →
      Writes (.ins bk d x p wm1) s bk d ((((s.brick bk).r d) &&& ~~~ fieldMask p.toNat (wm1.toNat + 1)) ||| ((((s.brick bk).r x) <<< p.toNat) &&& fieldMask p.toNat (wm1.toNat + 1))) 2 1) ∧
    (∀ (s : State) (bk : Fin 52) (d x : BitVec 4) (poly : Word), s.issues bk (.crc .l8 d x poly) →
      Writes (.crcl8 bk d x poly) s bk d (crcLow poly ((s.brick bk).r x) (List.range 8) ((s.brick bk).r d)) 2 1) ∧
    (∀ (s : State) (bk : Fin 52) (d x : BitVec 4) (poly : Word), s.issues bk (.crc .l16 d x poly) →
      Writes (.crcl16 bk d x poly) s bk d (crcLow poly ((s.brick bk).r x) (List.range 16) ((s.brick bk).r d)) 2 1) ∧
    (∀ (s : State) (bk : Fin 52) (d x : BitVec 4) (poly : Word), s.issues bk (.crc .m8 d x poly) →
      Writes (.crcm8 bk d x poly) s bk d (crcHigh poly ((s.brick bk).r x) ((List.range 8).reverse) ((s.brick bk).r d)) 2 1) ∧
    (∀ (s : State) (bk : Fin 52) (d x : BitVec 4) (poly : Word), s.issues bk (.crc .m16 d x poly) →
      Writes (.crcm16 bk d x poly) s bk d (crcHigh poly ((s.brick bk).r x) ((List.range 16).reverse) ((s.brick bk).r d)) 2 1)

/-- Compares, carries and overflow tests (R113, R114). -/
def Obligations.ComparesComplete : Prop :=
  (∀ (s : State) (bk : Fin 52) (d a : BitVec 4) (b : CmpSrc), s.issues bk (.cmp .ceq d a b) →
      Writes (.ceq bk d a b) s bk d (if ((s.brick bk).r a) = (sourceOf (s.brick bk).r b) then 1 else 0) 2 1) ∧
    (∀ (s : State) (bk : Fin 52) (d a : BitVec 4) (b : CmpSrc), s.issues bk (.cmp .cne d a b) →
      Writes (.cne bk d a b) s bk d (if ((s.brick bk).r a) ≠ (sourceOf (s.brick bk).r b) then 1 else 0) 2 1) ∧
    (∀ (s : State) (bk : Fin 52) (d a : BitVec 4) (b : CmpSrc), s.issues bk (.cmp .cltu d a b) →
      Writes (.cltu bk d a b) s bk d (if ((s.brick bk).r a).toNat < (sourceOf (s.brick bk).r b).toNat then 1 else 0) 2 1) ∧
    (∀ (s : State) (bk : Fin 52) (d a : BitVec 4) (b : CmpSrc), s.issues bk (.cmp .clts d a b) →
      Writes (.clts bk d a b) s bk d (if ((s.brick bk).r a).toInt < (sourceOf (s.brick bk).r b).toInt then 1 else 0) 2 1) ∧
    (∀ (s : State) (bk : Fin 52) (d a : BitVec 4) (b : CmpSrc), s.issues bk (.cmp .cleu d a b) →
      Writes (.cleu bk d a b) s bk d (if ((s.brick bk).r a).toNat ≤ (sourceOf (s.brick bk).r b).toNat then 1 else 0) 2 1) ∧
    (∀ (s : State) (bk : Fin 52) (d a : BitVec 4) (b : CmpSrc), s.issues bk (.cmp .cles d a b) →
      Writes (.cles bk d a b) s bk d (if ((s.brick bk).r a).toInt ≤ (sourceOf (s.brick bk).r b).toInt then 1 else 0) 2 1) ∧
    (∀ (s : State) (bk : Fin 52) (d a : BitVec 4) (b : CmpSrc), s.issues bk (.cmp .cgtu d a b) →
      Writes (.cgtu bk d a b) s bk d (if ((s.brick bk).r a).toNat > (sourceOf (s.brick bk).r b).toNat then 1 else 0) 2 1) ∧
    (∀ (s : State) (bk : Fin 52) (d a : BitVec 4) (b : CmpSrc), s.issues bk (.cmp .cgts d a b) →
      Writes (.cgts bk d a b) s bk d (if ((s.brick bk).r a).toInt > (sourceOf (s.brick bk).r b).toInt then 1 else 0) 2 1) ∧
    (∀ (s : State) (bk : Fin 52) (d a b : BitVec 4), s.issues bk (.carry .carry d a b) →
      Writes (.carry bk d a b) s bk d (if ((s.brick bk).r a).toNat + ((s.brick bk).r b).toNat ≥ 65536 then 1 else 0) 2 1) ∧
    (∀ (s : State) (bk : Fin 52) (d a b : BitVec 4), s.issues bk (.carry .borrow d a b) →
      Writes (.borrow bk d a b) s bk d (if ((s.brick bk).r a).toNat < ((s.brick bk).r b).toNat then 1 else 0) 2 1) ∧
    (∀ (s : State) (bk : Fin 52) (d a b : BitVec 4), s.issues bk (.carry .ovfa d a b) →
      Writes (.ovfa bk d a b) s bk d (if ((s.brick bk).r a).toInt + ((s.brick bk).r b).toInt < -32768 ∨ ((s.brick bk).r a).toInt + ((s.brick bk).r b).toInt > 32767 then 1 else 0) 2 1) ∧
    (∀ (s : State) (bk : Fin 52) (d a b : BitVec 4), s.issues bk (.carry .ovfs d a b) →
      Writes (.ovfs bk d a b) s bk d (if ((s.brick bk).r a).toInt - ((s.brick bk).r b).toInt < -32768 ∨ ((s.brick bk).r a).toInt - ((s.brick bk).r b).toInt > 32767 then 1 else 0) 2 1)

/-- Branches, jumps, calls and returns (R118, R119). -/
def Obligations.TransfersComplete : Prop :=
  (∀ (s : State) (bk : Fin 52) (c : BitVec 4) (w : Word), s.issues bk (.br .bz c w) →
      ((s.brick bk).r c = 0 → w.toNat < 0x2000 → Becomes (.bz bk c w) s bk (fun b => b.jumped w)) ∧
      ((s.brick bk).r c = 0 → 0x2000 ≤ w.toNat → (s.brick bk).inTrap = false → Traps (.bz bk c w) s bk 2 3 w) ∧
      ((s.brick bk).r c ≠ 0 → Becomes (.bz bk c w) s bk (fun b => b.onward 2 1))) ∧
    (∀ (s : State) (bk : Fin 52) (c : BitVec 4) (w : Word), s.issues bk (.br .bnz c w) →
      ((s.brick bk).r c ≠ 0 → w.toNat < 0x2000 → Becomes (.bnz bk c w) s bk (fun b => b.jumped w)) ∧
      ((s.brick bk).r c ≠ 0 → 0x2000 ≤ w.toNat → (s.brick bk).inTrap = false → Traps (.bnz bk c w) s bk 2 3 w) ∧
      ((s.brick bk).r c = 0 → Becomes (.bnz bk c w) s bk (fun b => b.onward 2 1))) ∧
    (∀ (s : State) (bk : Fin 52) (c : BitVec 4) (w : Word), s.issues bk (.br .dbnz c w) →
      ((s.brick bk).r c ≠ 1 → w.toNat < 0x2000 →
        Becomes (.dbnz bk c w) s bk (fun b => (b.setR c (b.r c - 1)).jumped w)) ∧
      ((s.brick bk).r c ≠ 1 → 0x2000 ≤ w.toNat → (s.brick bk).inTrap = false → Traps (.dbnz bk c w) s bk 2 3 w) ∧
      ((s.brick bk).r c = 1 → Becomes (.dbnz bk c w) s bk (fun b => (b.setR c 0).onward 2 1))) ∧
    (∀ (s : State) (bk : Fin 52) (w : Word), s.issues bk (.jmp w) →
      (w.toNat < 0x2000 → Becomes (.jmp bk w) s bk (fun b => b.jumped w)) ∧
      (0x2000 ≤ w.toNat → (s.brick bk).inTrap = false → Traps (.jmp bk w) s bk 2 3 w)) ∧
    (∀ (s : State) (bk : Fin 52) (x : BitVec 4), s.issues bk (.jr x) →
      (((s.brick bk).r x).toNat < 0x2000 → Becomes (.jr bk x) s bk (fun b => b.jumped (b.r x))) ∧
      (0x2000 ≤ ((s.brick bk).r x).toNat → (s.brick bk).inTrap = false → Traps (.jr bk x) s bk 2 3 ((s.brick bk).r x))) ∧
    (∀ (s : State) (bk : Fin 52) (w : Word), s.issues bk (.call w) →
      ((s.brick bk).rstk.length < 8 → w.toNat < 0x2000 →
        Becomes (.call bk w) s bk (fun b => { b.jumped w with rstk := b.rstk ++ [b.pc + 2] })) ∧
      ((s.brick bk).rstk.length < 8 → 0x2000 ≤ w.toNat → (s.brick bk).inTrap = false → Traps (.call bk w) s bk 2 3 w) ∧
      (8 ≤ (s.brick bk).rstk.length → (s.brick bk).inTrap = false → Traps (.call bk w) s bk 4 0 8)) ∧
    (∀ (s : State) (bk : Fin 52) (x : BitVec 4), s.issues bk (.callr x) →
      ((s.brick bk).rstk.length < 8 → ((s.brick bk).r x).toNat < 0x2000 →
        Becomes (.callr bk x) s bk (fun b => { b.jumped (b.r x) with rstk := b.rstk ++ [b.pc + 1] })) ∧
      ((s.brick bk).rstk.length < 8 → 0x2000 ≤ ((s.brick bk).r x).toNat → (s.brick bk).inTrap = false → Traps (.callr bk x) s bk 2 3 ((s.brick bk).r x)) ∧
      (8 ≤ (s.brick bk).rstk.length → (s.brick bk).inTrap = false → Traps (.callr bk x) s bk 4 0 8)) ∧
    (∀ (s : State) (bk : Fin 52), s.issues bk .ret →
      (∀ (l : List Word) (w : Word), (s.brick bk).rstk = l ++ [w] → w.toNat < 0x2000 →
        Becomes (.ret bk) s bk (fun b => { b.jumped w with rstk := l })) ∧
      (∀ (l : List Word) (w : Word), (s.brick bk).rstk = l ++ [w] → 0x2000 ≤ w.toNat → (s.brick bk).inTrap = false → Traps (.ret bk) s bk 2 3 w) ∧
      ((s.brick bk).rstk = [] → (s.brick bk).inTrap = false → Traps (.ret bk) s bk 4 1 0))

/-- LD and ST, and the arbitration of a bank (R115, R116). -/
def Obligations.BankAccessesComplete : Prop :=
  (∀ (s : State) (bk : Fin 52) (d : BitVec 4) (m : BankAddr) (ct : Contention), s.issues bk (.ld d m) →
      BecomesBank (.ld bk d m ct) s bk
        (fun b => ((b.pointed m).setR d ((s.course (courseOf bk)).bank.word (addressOf b m).1.toNat)).onward (BInstr.ld d m).length (2 + s.lost bk (addressOf (s.brick bk) m).1 1 ct))
        (s.lost bk (addressOf (s.brick bk) m).1 1 ct) (fun bank => bank)) ∧
    (∀ (s : State) (bk : Fin 52) (m : BankAddr) (v : BitVec 4) (ct : Contention), s.issues bk (.st m v) →
      BecomesBank (.st bk m v ct) s bk
        (fun b => (b.pointed m).onward (BInstr.st m v).length (2 + s.lost bk (addressOf (s.brick bk) m).1 1 ct))
        (s.lost bk (addressOf (s.brick bk) m).1 1 ct) (fun bank => bank.setWord (addressOf (s.brick bk) m).1.toNat ((s.brick bk).r v))) ∧
    (∀ (mode : BitVec 2) (m a n : Nat), bankStall mode m a n [] = 0) ∧
    (∀ (m a n : Nat) (r : BitVec 8) (ct : Contention), m < 4 →
      bankStall 1 m a n (r :: ct) = if (∀ j, j < (m + 4 - (n + a) % 4) % 4 → r.getLsbD (((n + a) + j) % 4) = false) then 0
        else 1 + bankStall 1 m a (n + 1) ct) ∧
    (∀ (mode : BitVec 2) (m a n : Nat) (r : BitVec 8) (ct : Contention), mode ≠ 1 → m < 8 →
      bankStall mode m a n (r :: ct) = if (∀ j, j < (m + 8 - (n + a) % 8) % 8 → r.getLsbD (((n + a) + j) % 8) = false) then 0
        else 1 + bankStall mode m a (n + 1) ct)

/-- IN, OUT, XIN and XOUT, and the I/O bus error (R117, R142, R154, R130). -/
def Obligations.IoAccessesComplete : Prop :=
  (∀ (s : State) (bk : Fin 52) (d : BitVec 4) (m : IoAddr), s.issues bk (.inp d m) → s.ioTrap bk (ioAddressOf (s.brick bk).r m) none = none →
      ∃ t, exec (.in_ bk d m) s = .next t ∧ (t.brick bk).r d = ((s.prepared bk).ioRead bk (ioAddressOf (s.brick bk).r m) ((s.brick bk).ready + 8)).1 ∧
        (∀ x, x ≠ d → (t.brick bk).r x = (s.brick bk).r x) ∧ (t.brick bk).pc = (s.brick bk).pc + BitVec.ofNat 16 (BInstr.inp d m).length ∧
        (t.brick bk).ready = (s.brick bk).ready + 16 ∧ (t.brick bk).rstk = (s.brick bk).rstk) ∧
    (∀ (s : State) (bk : Fin 52) (m : IoAddr) (v : BitVec 4), s.issues bk (.outp m v) → s.ioTrap bk (ioAddressOf (s.brick bk).r m) (some ((s.brick bk).r v)) = none →
      ∃ t, exec (.out bk m v) s = .next t ∧ (∀ x, (t.brick bk).r x = (s.brick bk).r x) ∧
        (t.brick bk).pc = (s.brick bk).pc + BitVec.ofNat 16 (BInstr.outp m v).length ∧
        (t.brick bk).ready = (s.brick bk).ready + 16 ∧
        (∀ k, k ≠ bk → t.brick k = ((s.prepared bk).ioWrite bk (ioAddressOf (s.brick bk).r m) ((s.brick bk).r v) ((s.brick bk).ready + 8)).brick k)) ∧
    (∀ (s : State) (bk : Fin 52) (a : BitVec 4) (io : BitVec 12) (ct : Contention), s.issues bk (.xin a io) → s.ioTrap bk io.toNat none = none → Memory.wf bankBlank (s.course (courseOf bk)).bank = true →
      ∃ t, exec (.xin bk a io ct) s = .next t ∧ (t.brick bk).r a = (s.brick bk).r a + 1 ∧
        (t.course (courseOf bk)).bank.word ((s.brick bk).r a).toNat = ((s.prepared bk).ioRead bk io.toNat ((s.brick bk).ready + 8)).1 ∧
        (∀ x, x ≠ a → (t.brick bk).r x = (s.brick bk).r x) ∧ (t.brick bk).pc = (s.brick bk).pc + 2 ∧
        (t.brick bk).ready = (s.brick bk).ready + 4 * (5 + s.lost bk ((s.brick bk).r a) 4 ct)) ∧
    (∀ (s : State) (bk : Fin 52) (a : BitVec 4) (io : BitVec 12) (ct : Contention), s.issues bk (.xout io a) →
      s.ioTrap bk io.toNat (some ((s.course (courseOf bk)).bank.word ((s.brick bk).r a).toNat)) = none →
      ∃ t, exec (.xout bk io a ct) s = .next t ∧ (t.brick bk).r a = (s.brick bk).r a + 1 ∧
        (∀ x, x ≠ a → (t.brick bk).r x = (s.brick bk).r x) ∧ (t.brick bk).pc = (s.brick bk).pc + 2 ∧
        (t.brick bk).ready = (s.brick bk).ready + 4 * (5 + s.lost bk ((s.brick bk).r a) 1 ct)) ∧
    (∀ (s : State) (bk : Fin 52) (d : BitVec 4) (m : IoAddr) (sub : Nat), s.issues bk (.inp d m) → (s.brick bk).inTrap = false →
      s.ioTrap bk (ioAddressOf (s.brick bk).r m) none = some sub → Traps (.in_ bk d m) s bk 2 sub (BitVec.ofNat 16 (ioAddressOf (s.brick bk).r m))) ∧
    (∀ (s : State) (bk : Fin 52) (m : IoAddr) (v : BitVec 4) (sub : Nat), s.issues bk (.outp m v) → (s.brick bk).inTrap = false →
      s.ioTrap bk (ioAddressOf (s.brick bk).r m) (some ((s.brick bk).r v)) = some sub → Traps (.out bk m v) s bk 2 sub (BitVec.ofNat 16 (ioAddressOf (s.brick bk).r m))) ∧
    (∀ (s : State) (bk : Fin 52) (a : Nat) (w : Option Word), 0x1000 ≤ a → s.ioTrap bk a w = some 0)

/-- MFS, MTS, NOP and BKPT (R102, R120, R121, R123). -/
def Obligations.SpecialRegistersComplete : Prop :=
  (∀ (s : State) (bk : Fin 52) (d : BitVec 4) (sel : BitVec 6), s.issues bk (.mfs d sel) →
      Becomes (.mfs bk d sel) s bk (fun b =>
        { (b.setR d (s.special bk sel)).onward 1 1 with
          cycLatch := if sel = 8 then BitVec.ofNat 32 ((s.course (courseOf bk)).cycleAt b.ready / 2 ^ 16) else b.cycLatch })) ∧
    (∀ (s : State) (bk : Fin 52) (x : BitVec 4), s.issues bk (.mts 0 x) → Becomes (.mts bk 0 x) s bk (fun b => { b.onward 1 1 with tpc := b.r x })) ∧
    (∀ (s : State) (bk : Fin 52) (x : BitVec 4), s.issues bk (.mts 3 x) → Becomes (.mts bk 3 x) s bk (fun b => { b.onward 1 1 with trepc := b.r x })) ∧
    (∀ (s : State) (bk : Fin 52) (x : BitVec 4), s.issues bk (.mts 4 x) →
      Becomes (.mts bk 4 x) s bk (fun b => { b.onward 1 1 with trep := (b.r x).getLsbD 1 })) ∧
    (∀ (s : State) (bk : Fin 52) (x : BitVec 4), s.issues bk (.mts 5 x) → (s.brick bk).inTrap = false →
      Traps (.mts bk 5 x) s bk 1 0 ((s.brick bk).imem.word (s.brick bk).pc.toNat)) ∧
    (∀ (s : State) (bk : Fin 52), s.issues bk .nop → Becomes (.nop bk) s bk (fun b => b.onward 1 1)) ∧
    (∀ (s : State) (bk : Fin 52), s.issues bk .bkpt → Becomes (.bkpt bk) s bk (fun b => { b.onward 1 1 with haltReq := b.bkptHalt }))

/-- WAIT and the event that ends it (R122). -/
def Obligations.WaitCompletes : Prop :=
  (∀ (s : State) (bk : Fin 52) (d x : BitVec 4), s.issues bk (.wait d x) → (s.brick bk).r x = 0 → Writes (.wait bk d x) s bk d 0 1 1) ∧
    (∀ (s : State) (bk : Fin 52) (d x : BitVec 4), s.issues bk (.wait d x) → s.eventLines bk (s.brick bk).ready &&& (s.brick bk).r x ≠ 0 →
      Writes (.wait bk d x) s bk d (s.eventLines bk (s.brick bk).ready &&& (s.brick bk).r x) 1 1) ∧
    (∀ (s : State) (bk : Fin 52) (d x : BitVec 4), s.issues bk (.wait d x) → (s.brick bk).r x ≠ 0 → s.eventLines bk (s.brick bk).ready &&& (s.brick bk).r x = 0 →
      Becomes (.wait bk d x) s bk (fun b => { b.goTo .waiting b.ready with waitD := d, waitMask := b.r x })) ∧
    (∀ (s : State) (bk : Fin 52), s.atBoundary bk = true → (s.brick bk).run = .waiting →
      s.eventLines bk (s.boundary bk) &&& (s.brick bk).waitMask ≠ 0 →
      ∃ t, exec (.waitEnd bk) s = .next t ∧
        (t.brick bk).r (s.brick bk).waitD = s.eventLines bk (s.boundary bk) &&& (s.brick bk).waitMask ∧
        (∀ x, x ≠ (s.brick bk).waitD → (t.brick bk).r x = (s.brick bk).r x) ∧ (t.brick bk).run = .running ∧
        (t.brick bk).pc = (s.brick bk).pc + 1 ∧ (t.brick bk).ready = s.boundary bk + 4 ∧ (t.brick bk).io = (s.brick bk).io ∧
        t = { s with now := t.now, bricks := t.bricks } ∧ ∀ k, k ≠ bk → t.brick k = s.brick k)

/-- The REP prefix, its misuse, and the executions it counts (R124, R126, R127, R128). -/
def Obligations.RepCompletes : Prop :=
  (∀ (s : State) (bk : Fin 52) (n : RepCount) (i : BInstr), s.issues bk (.rep n) → (s.brick bk).holdsAt ((s.brick bk).pc.toNat + 1) i → i.misuse = none → repCount (s.brick bk).r n ≠ 0 →
      Becomes (.rep bk n) s bk (fun b => { b.onward 1 1 with repc := BitVec.ofNat 16 (repCount b.r n), inRep := true })) ∧
    (∀ (s : State) (bk : Fin 52) (n : RepCount) (i : BInstr), s.issues bk (.rep n) → (s.brick bk).holdsAt ((s.brick bk).pc.toNat + 1) i → i.misuse = none → repCount (s.brick bk).r n = 0 →
      Becomes (.rep bk n) s bk (fun b => { b.onward (1 + i.length) 1 with repc := 0 })) ∧
    (∀ (s : State) (bk : Fin 52) (n : RepCount) (i : BInstr) (sub : Nat), s.issues bk (.rep n) → (s.brick bk).holdsAt ((s.brick bk).pc.toNat + 1) i → i.misuse = some sub → i ≠ .rett → (s.brick bk).inTrap = false →
      Traps (.rep bk n) s bk 3 sub (encodeBrick i).1) ∧
    (∀ (s : State) (bk : Fin 52) (n : RepCount), s.issues bk (.rep n) → (s.brick bk).pc.toNat + 3 ≤ 0x2000 → (s.brick bk).inTrap = false →
      decodeBrick ((s.brick bk).imem.word ((s.brick bk).pc.toNat + 1)) ((s.brick bk).imem.word ((s.brick bk).pc.toNat + 2)) = none →
      Becomes (.rep bk n) s bk (fun b => b.trapped 1 0 (b.pc + 1) (b.imem.word (b.pc.toNat + 1)) (b.ready + 16))) ∧
    (∀ (s : State) (bk : Fin 52) (d x : BitVec 4) (op : AluOp), s.repeats bk (.alu op d x) → ∀ c : Instr,
      (op = .add ∧ c = .add bk d x) ∨ (op = .mul ∧ c = .mul bk d x) →
      ∃ t, exec c s = .next t ∧ (t.brick bk).r d = op.eval ((s.brick bk).r d) ((s.brick bk).r x) ∧
        (t.brick bk).repc = (s.brick bk).repc - 1 ∧ (t.brick bk).ready = (s.brick bk).ready + 4 * op.cycles ∧
        ((s.brick bk).repc ≠ 1 → (t.brick bk).pc = (s.brick bk).pc ∧ (t.brick bk).inRep = true) ∧
        ((s.brick bk).repc = 1 → (t.brick bk).pc = (s.brick bk).pc + 1 ∧ (t.brick bk).inRep = false)) ∧
    (∀ i : BInstr, i.misuse ≠ none ↔ (∃ op c w, i = .br op c w) ∨ (∃ w, i = .jmp w) ∨ (∃ w, i = .call w) ∨ (∃ x, i = .jr x) ∨
      (∃ x, i = .callr x) ∨ i = .ret ∨ i = .rett ∨ (∃ n, i = .rep n) ∨ (∃ d x, i = .wait d x) ∨ i = .bkpt ∨ (∃ x, i = .mts 5 x))

/-- The illegal opcode trap, RETT, and the double fault (R102, R130, R132, R135, R136). -/
def Obligations.TrapsAreTakenAndReturned : Prop :=
  (∀ (s : State) (bk : Fin 52), s.canIssue bk = true → (s.brick bk).coherent → (s.brick bk).inTrap = false → (s.brick bk).pc.toNat + 2 ≤ 0x2000 →
      decodeBrick ((s.brick bk).imem.word (s.brick bk).pc.toNat) ((s.brick bk).imem.word ((s.brick bk).pc.toNat + 1)) = none →
      Becomes (.illegalOpcode bk) s bk (fun b => Brick.trapped { b with inRep := false } 1 0 b.pc (b.imem.word b.pc.toNat) (b.ready + 12))) ∧
    (∀ (s : State) (bk : Fin 52), s.issues bk .rett → (s.brick bk).inTrap = false → Traps (.rett bk) s bk 1 0 3) ∧
    (∀ (s : State) (bk : Fin 52), s.issues bk .rett → (s.brick bk).inTrap = true → (s.brick bk).tpc.toNat < 0x2000 → (s.brick bk).trep = false →
      Becomes (.rett bk) s bk (fun b => { b.jumped b.tpc with inTrap := false })) ∧
    (∀ (s : State) (bk : Fin 52), s.issues bk .rett → (s.brick bk).inTrap = true → (s.brick bk).tpc.toNat < 0x2000 → (s.brick bk).trep = true → (s.brick bk).trepc ≠ 0 →
      Becomes (.rett bk) s bk (fun b => { b.jumped b.tpc with inTrap := false, trep := false, repc := b.trepc, inRep := true })) ∧
    (∀ (s : State) (bk : Fin 52) (i : BInstr), s.issues bk .rett → (s.brick bk).inTrap = true → (s.brick bk).trep = true → (s.brick bk).trepc = 0 →
      (s.brick bk).holdsAt (s.brick bk).tpc.toNat i → i.misuse = none →
      Becomes (.rett bk) s bk (fun b => { b.jumped (b.tpc + BitVec.ofNat 16 i.length) with inTrap := false, trep := false, repc := 0 })) ∧
    (∀ (s : State) (bk : Fin 52), s.canIssue bk = true → (s.brick bk).coherent → (s.brick bk).inTrap = true → (s.brick bk).pc.toNat + 2 ≤ 0x2000 →
      decodeBrick ((s.brick bk).imem.word (s.brick bk).pc.toNat) ((s.brick bk).imem.word ((s.brick bk).pc.toNat + 1)) = none →
      ∃ t, exec (.illegalOpcode bk) s = .next t ∧ (t.brick bk).run = .stopped ∧ (t.brick bk).stopCause = 1 ∧
        (t.brick bk).pc = (s.brick bk).pc ∧ (t.brick bk).g = (s.brick bk).g ∧ (t.brick bk).rstk = (s.brick bk).rstk ∧
        (t.brick bk).tpc = (s.brick bk).tpc ∧ (t.brick bk).tcause = (s.brick bk).tcause ∧ (t.brick bk).tinfo = (s.brick bk).tinfo ∧
        (t.brick bk).trepc = (s.brick bk).trepc ∧ (t.brick bk).inTrap = true ∧ ∀ k, k ≠ bk → t.brick k = s.brick k)

/-- The watchdog: expiry, trap, stop, kick and configuration (R158, R159, R160, R161). -/
def Obligations.WatchdogsCount : Prop :=
  (∀ (s : State) (bk : Fin 52), s.blocksUp = true → s.gated (courseOf bk) = false → (s.brick bk).counts = true → (s.brick bk).wd.period ≠ 0 →
      ∃ t, exec (.watchdogExpiry bk) s = .next t ∧ t.now = max s.now ((s.brick bk).wd.since + 4 * (s.brick bk).wd.left) ∧ t = { s with now := t.now, bricks := t.bricks } ∧ (∀ k, k ≠ bk → t.brick k = s.brick k) ∧
        (t.brick bk).wd.left = 64 * (s.brick bk).wd.period.toNat ∧ (t.brick bk).g = (s.brick bk).g ∧ (t.brick bk).pc = (s.brick bk).pc ∧
        ((s.brick bk).wd.pending = false → (s.brick bk).wd.trapped = false → (t.brick bk).wd.pending = true ∧ (t.brick bk).stopReq = (s.brick bk).stopReq) ∧
        ((s.brick bk).wd.pending = true ∨ (s.brick bk).wd.trapped = true → (t.brick bk).stopReq = true)) ∧
    (∀ (s : State) (bk : Fin 52), s.atBoundary bk = true → (s.brick bk).wd.pending = true → (s.brick bk).inTrap = false → (s.brick bk).inj.busy = false → (s.brick bk).haltReq = false → (s.brick bk).stopReq = false →
      ∃ t, exec (.watchdogTrap bk) s = .next t ∧ t = { s with now := t.now, bricks := t.bricks } ∧ (∀ k, k ≠ bk → t.brick k = s.brick k) ∧ (t.brick bk).tpc = (s.brick bk).pc ∧ (t.brick bk).tcause = 0x5000 ∧ (t.brick bk).tinfo = 0 ∧
        (t.brick bk).trep = false ∧ (t.brick bk).inTrap = true ∧ (t.brick bk).pc = 0x000A ∧ (t.brick bk).ready = s.boundary bk + 12 ∧ (t.brick bk).run = .running ∧
        (t.brick bk).g = (s.brick bk).g ∧ (t.brick bk).rstk = (s.brick bk).rstk ∧ (t.brick bk).wd.pending = false ∧ (t.brick bk).wd.trapped = true) ∧
    (∀ (s : State) (bk : Fin 52), s.atBoundary bk = true → (s.brick bk).stopReq = true → (s.brick bk).inj.busy = false → (s.brick bk).haltReq = false →
      ∃ t, exec (.watchdogStop bk) s = .next t ∧ (∀ k, k ≠ bk → t.brick k = s.brick k) ∧ (t.brick bk).run = .stopped ∧ (t.brick bk).stopCause = 2 ∧ (t.brick bk).pc = (s.brick bk).pc ∧
        (t.brick bk).g = (s.brick bk).g ∧ (t.brick bk).rstk = (s.brick bk).rstk ∧ (t.brick bk).inTrap = (s.brick bk).inTrap ∧ (t.brick bk).tpc = (s.brick bk).tpc) ∧
    (∀ (s : State) (bk : Fin 52), s.blocksUp = true → s.gated (courseOf bk) = false →
      ∃ t, exec (.wdogKick bk 0x5AA5) s = .next t ∧ t = { s with bricks := t.bricks, journal := t.journal } ∧ (∀ k, k ≠ bk → t.brick k = s.brick k) ∧
        t.brick bk = { (s.brick bk) with wd := { (s.brick bk).wd with left := 64 * (s.brick bk).wd.period.toNat, since := s.now, pending := false, trapped := false } }) ∧
    (∀ (s : State) (bk : Fin 52) (v : Word), s.blocksUp = true → s.gated (courseOf bk) = false → v ≠ 0x5AA5 →
      ∃ t, exec (.wdogKick bk v) s = .next t ∧ t = { s with bricks := t.bricks, journal := t.journal } ∧ (∀ k, k ≠ bk → t.brick k = s.brick k) ∧ (t.brick bk).wd.left = 64 * (s.brick bk).wd.period.toNat ∧
        ((s.brick bk).wd.pending = false → (s.brick bk).wd.trapped = false → (t.brick bk).wd.pending = true ∧ (t.brick bk).stopReq = (s.brick bk).stopReq) ∧
        ((s.brick bk).wd.pending = true ∨ (s.brick bk).wd.trapped = true → (t.brick bk).stopReq = true)) ∧
    (∀ (s : State) (bk : Fin 52) (v : Word), s.blocksUp = true → s.gated (courseOf bk) = false →
      ∃ t, exec (.wdogCfgWrite bk v) s = .next t ∧ t = { s with bricks := t.bricks, journal := t.journal } ∧ (∀ k, k ≠ bk → t.brick k = s.brick k) ∧
        ((s.brick bk).wd.lock = true → t.brick bk = s.brick bk) ∧
        ((s.brick bk).wd.lock = false → t.brick bk = { (s.brick bk) with wd := { (s.brick bk).wd with period := v.extractLsb' 0 15, lock := v.getLsbD 15, left := 64 * (v.toNat % 2 ^ 15), since := s.now } }))

/-- Event lines, doorbells, conflict counters, time reads, compares and markers of a brick (R153, R156, R157, R173, R487, R518). -/
def Obligations.BrickRegistersAct : Prop :=
  (∀ (s : State) (bk : Fin 52) (v : Word), s.blocksUp = true → s.gated (courseOf bk) = false →
      ∃ t, exec (.evClr bk v) s = .next t ∧ t = { s with bricks := t.bricks, journal := t.journal } ∧ (∀ k, k ≠ bk → t.brick k = s.brick k) ∧ t.brick bk = { (s.brick bk) with io := { (s.brick bk).io with events := (s.brick bk).io.events &&& ~~~ v } }) ∧
    (∀ (s : State) (bk : Fin 52) (v : Word), s.blocksUp = true → s.gated (courseOf bk) = false →
      ∃ t, exec (.dbell bk v) s = .next t ∧ t = { s with bricks := t.bricks, journal := t.journal } ∧ (∀ k, courseOf k ≠ courseOf bk → t.brick k = s.brick k) ∧
        ∀ k, courseOf k = courseOf bk → t.brick k = { s.brick k with io := { (s.brick k).io with
          events := if v.getLsbD (k.val % 4) then (s.brick k).io.events ||| 0x2000 else (s.brick k).io.events } }) ∧
    (∀ (s : State) (p : Party) (c : Fin 13) (v : BitVec 8), s.blocksUp = true → s.pf1MgrKey p = true →
      ∃ t, exec (.confClr p c v) s = .next t ∧ t = { s with courses := t.courses } ∧ (∀ k, k ≠ c → t.course k = s.course k) ∧
        t.course c = { s.course c with conf := (t.course c).conf } ∧
        ∀ m : Fin 8, (t.course c).conf[m] = if v.getLsbD m.val then 0 else (s.course c).conf[m]) ∧
    (∀ (s : State) (bk : Fin 52) (m : Fin 8), s.blocksUp = true → s.gated (courseOf bk) = false →
      ∃ t, exec (.confLoRead bk m) s = .next t ∧ t = { s with bricks := t.bricks, readValue := t.readValue } ∧ (∀ k, k ≠ bk → t.brick k = s.brick k) ∧
        t.readValue.toNat = (s.course (courseOf bk)).conf[m].toNat % 2 ^ 16 ∧
        t.brick bk = { (s.brick bk) with io := { (s.brick bk).io with confHi := (s.brick bk).io.confHi.set m ((s.course (courseOf bk)).conf[m].extractLsb' 16 16) } }) ∧
    (∀ (s : State) (bk : Fin 52), s.blocksUp = true → s.gated (courseOf bk) = false → (s.course (courseOf bk)).mode ≠ 2 →
      ∃ t, exec (.timeW0Read bk) s = .next t ∧ t = { s with bricks := t.bricks, readValue := t.readValue, journal := t.journal } ∧ (∀ k, k ≠ bk → t.brick k = s.brick k) ∧
        t.brick bk = { (s.brick bk) with io := { (s.brick bk).io with timeLatch := timeWords (s.brickTime (s.brick bk).io.timeSel s.now) } } ∧
        t.readValue.toNat = fracOf (s.brickTime (s.brick bk).io.timeSel s.now)) ∧
    (∀ (s : State) (bk : Fin 52) (v : Word), s.blocksUp = true → s.gated (courseOf bk) = false →
      ∃ t, exec (.timeSelWrite bk v) s = .next t ∧ t = { s with bricks := t.bricks, journal := t.journal } ∧ (∀ k, k ≠ bk → t.brick k = s.brick k) ∧
        t.brick bk = { (s.brick bk) with io := { (s.brick bk).io with timeSel := if v.toNat % 4 = 3 then (s.brick bk).io.timeSel else v.extractLsb' 0 2 } }) ∧
    (∀ (s : State) (bk : Fin 52) (v : Word), s.blocksUp = true → s.gated (courseOf bk) = false →
      ∃ t, exec (.timeCmp2Write bk v) s = .next t ∧ t = { s with bricks := t.bricks, journal := t.journal } ∧ (∀ k, k ≠ bk → t.brick k = s.brick k) ∧ (t.brick bk).io.cmp2 = v ∧ (t.brick bk).io.events = (s.brick bk).io.events &&& 0xEFFF ∧
        (t.brick bk).g = (s.brick bk).g ∧ (t.brick bk).pc = (s.brick bk).pc ∧ (1000000000 ≤ ((s.brick bk).io.cmp1.toNat * 65536 + (s.brick bk).io.cmp0.toNat) → (t.brick bk).io.armed = none) ∧
        (((s.brick bk).io.cmp1.toNat * 65536 + (s.brick bk).io.cmp0.toNat) < 1000000000 → ∃ sec, (t.brick bk).io.armed = some ⟨(s.brick bk).io.timeSel, ((s.brick bk).io.cmp1.toNat * 65536 + (s.brick bk).io.cmp0.toNat), sec⟩ ∧
          (secOf (s.brickTime (s.brick bk).io.timeSel s.now) ≥ 32768 → sec % 65536 = v.toNat ∧
            secOf (s.brickTime (s.brick bk).io.timeSel s.now) ≤ sec + 32768 ∧ sec ≤ secOf (s.brickTime (s.brick bk).io.timeSel s.now) + 32767))) ∧
    (∀ (s : State) (bk : Fin 52) (a : ArmedCompare), s.blocksUp = true → (s.brick bk).io.armed = some a →
      ∃ t, exec (.timeCompareMatch bk) s = .next t ∧ (∀ k, k ≠ bk → t.brick k = s.brick k) ∧
        t.brick bk = { (s.brick bk) with io := { (s.brick bk).io with armed := none, events := (s.brick bk).io.events ||| 0x1000 } } ∧
        t = { s with now := t.now, bricks := t.bricks, journal := t.journal }) ∧
    (∀ (s : State) (bk : Fin 52) (v : Word), s.blocksUp = true → s.gated (courseOf bk) = false →
      ∃ t, exec (.jmark bk v) s = .next t ∧ t = { s with journal := t.journal } ∧ (s.journaled (courseOf bk) = false → t.journal = s.journal) ∧
        (s.journaled (courseOf bk) = true → bit s.journal.cfg 30 = false → bit s.journal.cfg 29 = false →
          ∃ e, t.journal.recs.getLast? = some e ∧ e.what = .mark (localOf bk) v ((s.course (courseOf bk)).cycleAt s.now)))

/-- Halt, step, resume, reset, run and the debug registers of a brick (R164, R167, R168, R169, R171, R172). -/
def Obligations.BricksAreDebugged : Prop :=
  (∀ (s : State) (p : Party) (bk : Fin 52), s.debugs p bk → ∃ t, exec (.halt p bk) s = .next t ∧ t = { s with bricks := t.bricks } ∧ (∀ k, k ≠ bk → t.brick k = s.brick k) ∧
      t.brick bk = { (s.brick bk) with haltReq := (s.brick bk).haltReq || (s.brick bk).counts }) ∧
    (∀ (s : State) (bk : Fin 52), s.atBoundary bk = true → (s.brick bk).haltReq = true → (s.brick bk).inj.busy = false →
      ∃ t, exec (.debugHalt bk) s = .next t ∧ t = { s with now := max s.now (s.boundary bk), bricks := t.bricks, journal := t.journal } ∧ (∀ k, k ≠ bk → t.brick k = s.brick k) ∧
        (t.brick bk).run = .halted ∧ (t.brick bk).haltReq = false ∧ (t.brick bk).pc = (s.brick bk).pc ∧ (t.brick bk).g = (s.brick bk).g ∧ (t.brick bk).wd.pending = (s.brick bk).wd.pending ∧ (t.brick bk).io = (s.brick bk).io) ∧
    (∀ (s : State) (p : Party) (bk : Fin 52), s.debugs p bk → (s.brick bk).held = true → (s.brick bk).inRep = false → (s.brick bk).holdsAt (s.brick bk).pc.toNat .nop →
      ∃ t, exec (.step p bk) s = .next t ∧ (∀ k, k ≠ bk → t.brick k = s.brick k) ∧ (t.brick bk).run = .halted ∧ (t.brick bk).pc = (s.brick bk).pc + 1 ∧ (t.brick bk).g = (s.brick bk).g ∧ (t.brick bk).rstk = (s.brick bk).rstk ∧
        (t.brick bk).inTrap = (s.brick bk).inTrap ∧ (t.brick bk).tpc = (s.brick bk).tpc) ∧
    (∀ (s : State) (p : Party) (bk : Fin 52), s.debugs p bk → (s.brick bk).held = false → ∃ t, exec (.step p bk) s = .next t ∧ t = { s with bricks := t.bricks } ∧ ∀ k, t.brick k = s.brick k) ∧
    (∀ (s : State) (p : Party) (bk : Fin 52), s.debugs p bk → (s.brick bk).held = true →
      ∃ t, exec (.resume p bk) s = .next t ∧ t = { s with bricks := t.bricks, journal := t.journal } ∧ (∀ k, k ≠ bk → t.brick k = s.brick k) ∧ (t.brick bk).run = .running ∧
        (t.brick bk).pc = (s.brick bk).pc ∧ (t.brick bk).g = (s.brick bk).g ∧ (t.brick bk).inTrap = (s.brick bk).inTrap ∧ (t.brick bk).tpc = (s.brick bk).tpc ∧ (t.brick bk).stopCause = 0 ∧
        (t.brick bk).ready = (s.course (courseOf bk)).edgeAt s.now + 4) ∧
    (∀ (s : State) (p : Party) (bk : Fin 52), s.blocksUp = true → s.pf1MgrKey p = true →
      ∃ t, exec (.brickReset p bk 0xB7) s = .next t ∧ (∀ k, k ≠ bk → (t.brick k).g = (s.brick k).g ∧ (t.brick k).pc = (s.brick k).pc) ∧ (∀ x, (t.brick bk).r x = 0) ∧ (t.brick bk).pc = 0 ∧ (t.brick bk).rstk = [] ∧ (t.brick bk).inTrap = false ∧
        (t.brick bk).repc = 0 ∧ (t.brick bk).io.events &&& 0xF7FF = 0 ∧ (t.brick bk).io.armed = none ∧ (t.brick bk).io.timeLatch = 0 ∧ (t.brick bk).wd = .reset ∧ (t.brick bk).imem = (s.brick bk).imem ∧ (t.brick bk).fm = (s.brick bk).fm ∧ (t.brick bk).runBit = (s.brick bk).runBit ∧
        (t.brick bk).run = (if (s.brick bk).runBit = true ∧ (s.course (courseOf bk)).released = true then .running else .idle) ∧
        ((s.brick bk).inj.busy = true → (t.brick bk).inj.result = 3)) ∧
    (∀ (s : State) (p : Party) (bk : Fin 52) (key : BitVec 8), s.blocksUp = true → s.pf1MgrKey p = true → key ≠ 0xB7 →
      ∃ t, exec (.brickReset p bk key) s = .next t ∧ t = { s with bricks := t.bricks } ∧ ∀ k, t.brick k = s.brick k) ∧
    (∀ (s : State) (p : Party) (bk : Fin 52), s.blocksUp = true → s.pf1MgrKey p = true → (s.brick bk).run = .idle → (s.brick bk).runBit = false → (s.course (courseOf bk)).released = true →
      ∃ t, exec (.run p bk) s = .next t ∧ t = { s with bricks := t.bricks } ∧ (∀ k, k ≠ bk → t.brick k = s.brick k) ∧ (t.brick bk).run = .running ∧ (t.brick bk).runBit = true ∧ (t.brick bk).pc = (s.brick bk).pc ∧
        (t.brick bk).ready = (s.course (courseOf bk)).edgeAt s.now + 4) ∧
    (∀ (s : State) (p : Party) (bk : Fin 52) (v : Reg32), s.debugs p bk → (s.brick bk).held = true →
      ∃ t, exec (.dbgRegWrite p bk 0x20 v) s = .next t ∧ t = { s with bricks := t.bricks, journal := t.journal } ∧ (∀ k, k ≠ bk → t.brick k = s.brick k) ∧
        t.brick bk = { (s.brick bk) with pc := v.extractLsb' 0 16, pre := [] }) ∧
    (∀ (s : State) (p : Party) (bk : Fin 52) (x : Fin 16) (v : Reg32), s.debugs p bk → (s.brick bk).held = true →
      ∃ t, exec (.dbgRegWrite p bk (BitVec.ofNat 8 (0x40 + 4 * x.val)) v) s = .next t ∧ t = { s with bricks := t.bricks, journal := t.journal } ∧
        (∀ k, k ≠ bk → t.brick k = s.brick k) ∧ t.brick bk = (s.brick bk).setR (BitVec.ofNat 4 x.val) (v.extractLsb' 0 16)) ∧
    (∀ (s : State) (p : Party) (bk : Fin 52) (v : Reg32), s.debugs p bk → (s.brick bk).held = true →
      ∃ t, exec (.dbgRegWrite p bk 0xD0 v) s = .next t ∧ (∀ k, k ≠ bk → t.brick k = s.brick k) ∧ t.brick bk = { (s.brick bk) with trep := v.getLsbD 1, inTrap := v.getLsbD 0 }) ∧
    (∀ (s : State) (p : Party) (bk : Fin 52), s.debugs p bk → (s.brick bk).counts = true → ∃ t, exec (.injGo p bk) s = .next t ∧ t = { s with bricks := t.bricks } ∧ (∀ k, k ≠ bk → t.brick k = s.brick k) ∧
      t.brick bk = { (s.brick bk) with inj := { (s.brick bk).inj with busy := true } }) ∧
    (∀ (s : State) (p : Party) (bk : Fin 52), s.debugs p bk → ((s.brick bk).run = .idle ∨ (s.brick bk).run = .stopped) → (s.brick bk).inj.busy = false → ∃ t, exec (.injGo p bk) s = .next t ∧ t = { s with bricks := t.bricks } ∧ (∀ k, k ≠ bk → t.brick k = s.brick k) ∧
      t.brick bk = { (s.brick bk) with inj := { (s.brick bk).inj with result := 3 } })

/-- An injected instruction executes at the boundary, or faults (R139, R162, R163, R164, R165). -/
def Obligations.InjectionsAreTaken : Prop :=
  (∀ (s : State) (bk : Fin 52) (d : BitVec 4) (w : Word) (ct : Contention), s.atBoundary bk = true → (s.brick bk).inj.busy = true → (s.brick bk).inj.words = w ++ (encodeBrick (.movi d w)).1 →
      ∃ t, exec (.injectionAccept bk ct) s = .next t ∧ (∀ k, k ≠ bk → t.brick k = s.brick k) ∧ (t.brick bk).r d = w ∧ (∀ x, x ≠ d → (t.brick bk).r x = (s.brick bk).r x) ∧ (t.brick bk).pc = (s.brick bk).pc ∧
        (t.brick bk).inj.busy = false ∧ (t.brick bk).inj.result = 1 ∧ (t.brick bk).inj.cycle = (s.course (courseOf bk)).cycleAt (s.boundary bk) ∧
        (t.brick bk).ready = s.boundary bk + 12 ∧ (t.brick bk).run = .running ∧ (t.brick bk).inTrap = (s.brick bk).inTrap) ∧
    (∀ (s : State) (bk : Fin 52) (n : BitVec 9) (w : Word) (ct : Contention), s.atBoundary bk = true → (s.brick bk).inj.busy = true → (s.brick bk).inTrap = false →
      (s.brick bk).inj.words = w ++ (encodeBrick (.rep (.imm n))).1 →
      ∃ t, exec (.injectionAccept bk ct) s = .next t ∧ (∀ k, k ≠ bk → t.brick k = s.brick k) ∧ (t.brick bk).g = (s.brick bk).g ∧ (t.brick bk).inj.result = 2 ∧ (t.brick bk).inj.busy = false ∧
        (t.brick bk).tpc = (s.brick bk).pc ∧ (t.brick bk).tcause = 0x6000 ∧ (t.brick bk).tinfo = (encodeBrick (.rep (.imm n))).1 ∧ (t.brick bk).inTrap = true ∧ (t.brick bk).pc = 0x000C ∧
        (t.brick bk).ready = s.boundary bk + 12) ∧
    (∀ (s : State) (bk : Fin 52) (w : Word) (ct : Contention), s.atBoundary bk = true → (s.brick bk).inj.busy = true → (s.brick bk).inTrap = false →
      (s.brick bk).inj.words = w ++ (0xFFFF : Word) →
      ∃ t, exec (.injectionAccept bk ct) s = .next t ∧ (∀ k, k ≠ bk → t.brick k = s.brick k) ∧ (t.brick bk).g = (s.brick bk).g ∧ (t.brick bk).inj.result = 2 ∧ (t.brick bk).tcause = 0x6100 ∧ (t.brick bk).tinfo = 0xFFFF ∧
        (t.brick bk).tpc = (s.brick bk).pc ∧ (t.brick bk).inTrap = true ∧ (t.brick bk).pc = 0x000C)

/-- CTL, BR, LOOP, DRV, LDI and CPY of a tile, and the mark action (R183, R184, R186, R188). -/
def Obligations.TileInstructionsComplete : Prop :=
  (∀ (s : State) (tl : Fin 208) (mk : BitVec 2), s.takes tl (tileFields 0 mk (0)) → TileBecomes (.tileNop tl mk) s tl mk 1 (fun t => t.onward)) ∧
    (∀ (s : State) (tl : Fin 208) (mk : BitVec 2), s.takes tl (tileFields 0 mk (0x100)) →
      TileBecomes (.tileStop tl mk) s tl mk 1 (fun t => { t.onward with run := .stopped, runBit := false })) ∧
    (∀ (s : State) (tl : Fin 208) (mk : BitVec 2) (cond : BitVec 3) (addr : BitVec 5) (ball : BitVec 4), s.takes tl (tileFields 1 mk (cond ++ ((0 : BitVec 2) ++ addr))) →
      (branchHolds (s.tile tl) cond (s.pinsIn (s.tile tl) ball) → TileBecomes (.tileBr tl mk cond addr ball) s tl mk 1 (fun t => { t with pc := addr })) ∧
      (¬ branchHolds (s.tile tl) cond (s.pinsIn (s.tile tl) ball) → TileBecomes (.tileBr tl mk cond addr ball) s tl mk 1 (fun t => t.onward))) ∧
    (∀ (s : State) (tl : Fin 208) (mk : BitVec 2) (addr : BitVec 5), s.takes tl (tileFields 2 mk ((0 : BitVec 5) ++ addr)) →
      TileBecomes (.loop tl mk false addr) s tl mk 1 (fun t => { t with c0 := t.c0 - 1, pc := if t.c0 - 1 = 0 then t.pc + 1 else addr })) ∧
    (∀ (s : State) (tl : Fin 208) (mk : BitVec 2) (addr : BitVec 5), s.takes tl (tileFields 2 mk ((1 : BitVec 1) ++ ((0 : BitVec 4) ++ addr))) →
      TileBecomes (.loop tl mk true addr) s tl mk 1 (fun t => { t with c1 := t.c1 - 1, pc := if t.c1 - 1 = 0 then t.pc + 1 else addr })) ∧
    (∀ (s : State) (tl : Fin 208) (mk : BitVec 2) (dirs : Bool) (mask value : BitVec 4), s.takes tl (tileFields 8 mk ((if dirs then (1 : BitVec 2) else 0) ++ (mask ++ value))) →
      TileBecomes (.drv tl mk dirs mask value) s tl mk 1 (fun t =>
        if dirs then { t.onward with dir := (t.dir &&& ~~~ mask) ||| (value &&& mask) }
        else { t.onward with lvl := (t.lvl &&& ~~~ mask) ||| (value &&& mask) })) ∧
    (∀ (s : State) (tl : Fin 208) (mk : BitVec 2) (c : Bool) (value : BitVec 9), s.takes tl (tileFields 9 mk ((if c then (1 : BitVec 1) else 0) ++ value)) →
      TileBecomes (.ldi tl mk c value) s tl mk 1 (fun t =>
        if c then { t.onward with c1 := (0 : BitVec 7) ++ value } else { t.onward with c0 := (0 : BitVec 7) ++ value })) ∧
    (∀ (s : State) (tl : Fin 208) (mk : BitVec 2) (dest src : BitVec 3) (fn : BitVec 2) (ball : BitVec 4), s.takes tl (tileFields 10 mk (dest ++ (src ++ (fn ++ (0 : BitVec 2))))) →
      (dest = 0 → TileBecomes (.cpy tl mk dest src fn ball) s tl mk 1 (fun t => { t.onward with lvl := (copyFunction fn (copySource t src (s.pinsIn (s.tile tl) ball))).extractLsb' 0 4 })) ∧
      (dest = 1 → TileBecomes (.cpy tl mk dest src fn ball) s tl mk 1 (fun t => { t.onward with c0 := copyFunction fn (copySource t src (s.pinsIn (s.tile tl) ball)) })) ∧
      (dest = 2 → TileBecomes (.cpy tl mk dest src fn ball) s tl mk 1 (fun t => { t.onward with c1 := copyFunction fn (copySource t src (s.pinsIn (s.tile tl) ball)) })) ∧
      (dest = 3 → TileBecomes (.cpy tl mk dest src fn ball) s tl mk 1 (fun t => (t.onward).withHalf false (copyFunction fn (copySource t src (s.pinsIn (s.tile tl) ball))))) ∧
      (dest = 4 → TileBecomes (.cpy tl mk dest src fn ball) s tl mk 1 (fun t => (t.onward).withHalf true (copyFunction fn (copySource t src (s.pinsIn (s.tile tl) ball))))) ∧
      (dest = 5 → TileBecomes (.cpy tl mk dest src fn ball) s tl mk 1 (fun t => t.onward)) ∧
      (dest = 7 → TileBecomes (.cpy tl mk dest src fn ball) s tl mk 1 (fun t => t.onward))) ∧
    (∀ (t : Tile) (mk : BitVec 2), t.mkEn = false → t.mark mk = t) ∧
    (∀ (t : Tile) (mk : BitVec 2), t.mkEn = true → t.mark mk = { t with lvl := (t.mark mk).lvl } ∧
      ∀ i, i < 4 → (t.mark mk).lvl.getLsbD i =
        if i = t.mkPin ∧ mk ≠ 0 then (if mk = 1 then false else if mk = 2 then true else !t.lvl.getLsbD i) else t.lvl.getLsbD i)

/-- WAITP, HOLD and SHF of a tile (R184, R186, R187, R189, R191). -/
def Obligations.TileWaitsAndShifts : Prop :=
  (∀ (s : State) (tl : Fin 208) (mk : BitVec 2) (kind : BitVec 3) (pin : BitVec 2) (ball : BitVec 4), s.takes tl (tileFields 3 mk (kind ++ ((0 : BitVec 5) ++ pin))) →
      ((kind = 0 ∧ (s.pinsIn (s.tile tl) ball).getLsbD pin.toNat = false ∨ kind = 1 ∧ (s.pinsIn (s.tile tl) ball).getLsbD pin.toNat = true) →
        TileBecomes (.waitp tl mk kind pin ball) s tl mk 1 (fun t => t.onward)) ∧
      (¬ (kind = 0 ∧ (s.pinsIn (s.tile tl) ball).getLsbD pin.toNat = false ∨ kind = 1 ∧ (s.pinsIn (s.tile tl) ball).getLsbD pin.toNat = true) →
        TileBecomes (.waitp tl mk kind pin ball) s tl mk 1 (fun t => { t with cur := some (.waitp kind pin), run := .waiting }))) ∧
    (∀ (s : State) (tl : Fin 208) (kind : BitVec 3) (pin : BitVec 2) (ball : BitVec 4) (edge : Option Bool), s.tileLive tl = true → (s.tile tl).cur = some (.waitp kind pin) →
      (kind = 0 ∧ (s.pinsIn (s.tile tl) ball).getLsbD pin.toNat = false ∨ kind = 1 ∧ (s.pinsIn (s.tile tl) ball).getLsbD pin.toNat = true ∨
        kind = 2 ∧ edge = some true ∨ kind = 3 ∧ edge = some false ∨ kind = 4 ∧ edge ≠ none) →
      TileIs (.waitpComplete tl ball edge) s tl ((((s.tile tl).sync s.now).ended).advance 1)) ∧
    (∀ (s : State) (tl : Fin 208) (mk : BitVec 2) (n : BitVec 9), s.takes tl (tileFields 4 mk ((0 : BitVec 1) ++ n)) →
      TileBecomes (.hold tl mk (.imm n)) s tl mk 0 (fun t => { t with cur := some (.hold (n.toNat + 1)) })) ∧
    (∀ (s : State) (tl : Fin 208) (mk : BitVec 2) (c : Bool), s.takes tl (tileFields 4 mk ((if c then (3 : BitVec 2) else 2) ++ (0 : BitVec 8))) →
      TileBecomes (.hold tl mk (.counter c)) s tl mk 0 (fun t => { t with cur := some (.hold ((if c then t.c1 else t.c0).toNat + 1)) })) ∧
    (∀ (s : State) (tl : Fin 208) (n : Nat), s.tileLive tl = true → (s.tile tl).cur = some (.hold n) → TileIs (.holdComplete tl) s tl (((s.tile tl).ended).advance n)) ∧
    (∀ (s : State) (tl : Fin 208) (mk : BitVec 2) (mode : BitVec 2) (nm1 : BitVec 5) (c : BitVec 1), s.takes tl (tileFields 5 mk (mode ++ ((0 : BitVec 1) ++ (c ++ ((0 : BitVec 1) ++ nm1))))) →
      TileBecomes (.shf tl mk mode (.imm nm1)) s tl mk 0 (fun t => { t with scnt := BitVec.ofNat 16 (nm1.toNat + 1), cur := some (.shf mode false) })) ∧
    (∀ (s : State) (tl : Fin 208) (mk : BitVec 2) (mode : BitVec 2) (c : Bool), s.takes tl (tileFields 5 mk (mode ++ ((if c then (3 : BitVec 2) else 2) ++ (0 : BitVec 6)))) →
      ((if c then (s.tile tl).c1 else (s.tile tl).c0) ≠ 0 → TileBecomes (.shf tl mk mode (.counter c)) s tl mk 0 (fun t =>
        { t with scnt := if c then t.c1 else t.c0, cur := some (.shf mode false) })) ∧
      ((if c then (s.tile tl).c1 else (s.tile tl).c0) = 0 → TileBecomes (.shf tl mk mode (.counter c)) s tl mk 1 (fun t => { t.onward with scnt := 0 }))) ∧
    (∀ (s : State) (tl : Fin 208) (mode : BitVec 2) (ball : BitVec 4), s.tileLive tl = true → (s.tile tl).inj = none → (s.tile tl).run = .running → (s.tile tl).cur = some (.shf mode false) → (s.tile tl).scnt ≠ 0 →
      (s.tile tl).autoGet = false → (s.tile tl).autoPut = false →
      ∃ t, exec (.shfBit tl ball) s = .next t ∧ (∀ n, n ≠ tl → t.tile n = s.tile n) ∧ t = { s with now := t.now, tiles := t.tiles } ∧
        (t.tile tl).scnt = (s.tile tl).scnt - 1 ∧
        (t.tile tl).sr = (if (s.tile tl).lsbFirst then setBit ((s.tile tl).sr >>> 1) 31 (decide (mode ≠ 0) && s.pinIn (s.tile tl) ball (s.tile tl).inPin) else setBit ((s.tile tl).sr <<< 1) 0 (decide (mode ≠ 0) && s.pinIn (s.tile tl) ball (s.tile tl).inPin)) ∧
        (t.tile tl).lvl = (if mode = 1 then (s.tile tl).lvl else setBit (s.tile tl).lvl (s.tile tl).outPin (if (s.tile tl).lsbFirst then (s.tile tl).sr.getLsbD 0 else (s.tile tl).sr.getLsbD 31)) ∧
        (t.tile tl).ob = (if mode = 1 then (s.tile tl).ob else (s.tile tl).ob - 1) ∧ (t.tile tl).ib = (if mode = 0 then (s.tile tl).ib else min ((s.tile tl).ib + 1) 32) ∧
        (t.tile tl).edge = ((s.tile tl).advance (if (s.tile tl).sclkEn then 2 else 1)).edge ∧ (t.tile tl).tx = (s.tile tl).tx ∧ (t.tile tl).rx = (s.tile tl).rx ∧
        ((s.tile tl).scnt = 1 → (t.tile tl).cur = none ∧ (t.tile tl).pc = (s.tile tl).pc + 1) ∧ ((s.tile tl).scnt ≠ 1 → (t.tile tl).cur = some (.shf mode false) ∧ (t.tile tl).pc = (s.tile tl).pc)) ∧
    (∀ (s : State) (tl : Fin 208) (mode : BitVec 2) (ball : BitVec 4), s.tileLive tl = true → (s.tile tl).inj = none → (s.tile tl).run = .running → (s.tile tl).cur = some (.shf mode false) → (s.tile tl).scnt ≠ 0 →
      mode ≠ 1 → (s.tile tl).autoGet = true → (s.tile tl).ob = 0 → (s.tile tl).tx.empty (s.tile tl).edge = true →
      TileIs (.shfBit tl ball) s tl (Tile.advance { (s.tile tl) with run := .stalledTx } 1))

/-- The tile FIFOs from both sides: GET, PUT, TtTX and TtRX (R190, R192, R193, R194). -/
def Obligations.TileFifosCarryWords : Prop :=
  (∀ (s : State) (tl : Fin 208) (mk : BitVec 2) (blk half : Bool) (w : Word) (f : TileFifo), s.takes tl (tileFields 6 mk ((if blk then (1 : BitVec 1) else 0) ++ ((if half then (1 : BitVec 1) else 0) ++ (0 : BitVec 8)))) → (s.tile tl).tx.pop (s.tile tl).edge ((s.tile tl).edge + 32) = some (w, f) →
      TileBecomes (.get tl mk blk half) s tl mk 1 (fun t => ({ t.onward with tx := f } : Tile).withHalf half w)) ∧
    (∀ (s : State) (tl : Fin 208) (mk : BitVec 2) (half : Bool), s.takes tl (tileFields 6 mk ((if true then (1 : BitVec 1) else 0) ++ ((if half then (1 : BitVec 1) else 0) ++ (0 : BitVec 8)))) → (s.tile tl).tx.banks = [] →
      TileBecomes (.get tl mk true half) s tl mk 0 (fun t => { t with cur := some (.get half), run := .stalledTx })) ∧
    (∀ (s : State) (tl : Fin 208) (mk : BitVec 2) (half : Bool), s.takes tl (tileFields 6 mk ((if false then (1 : BitVec 1) else 0) ++ ((if half then (1 : BitVec 1) else 0) ++ (0 : BitVec 8)))) → (s.tile tl).tx.banks = [] →
      TileBecomes (.get tl mk false half) s tl mk 1 (fun t => { t.onward with txUnder := true })) ∧
    (∀ (s : State) (tl : Fin 208) (mk : BitVec 2) (blk half fin : Bool), s.takes tl (tileFields 7 mk ((if blk then (1 : BitVec 1) else 0) ++ ((if half then (1 : BitVec 1) else 0) ++ ((if fin then (1 : BitVec 1) else 0) ++ (0 : BitVec 7))))) → (s.tile tl).compat = false → (s.tile tl).rx.full false (s.tile tl).edge = false →
      TileBecomes (.put tl mk blk half fin) s tl mk 1 (fun t => { t.onward with
        rx := { t.rx with banks := t.rx.banks ++ [([if half then t.sr.extractLsb' 0 16 else t.sr.extractLsb' 16 16], t.edge + 32)] },
        ib := if half = t.lsbFirst then t.ib else 0 })) ∧
    (∀ (s : State) (tl : Fin 208) (mk : BitVec 2) (half fin : Bool), s.takes tl (tileFields 7 mk ((if true then (1 : BitVec 1) else 0) ++ ((if half then (1 : BitVec 1) else 0) ++ ((if fin then (1 : BitVec 1) else 0) ++ (0 : BitVec 7))))) → (s.tile tl).rx.full (s.tile tl).compat (s.tile tl).edge = true →
      TileBecomes (.put tl mk true half fin) s tl mk 0 (fun t => { t with cur := some (.put half fin), run := .stalledRx })) ∧
    (∀ (s : State) (tl : Fin 208) (mk : BitVec 2) (half fin : Bool), s.takes tl (tileFields 7 mk ((if false then (1 : BitVec 1) else 0) ++ ((if half then (1 : BitVec 1) else 0) ++ ((if fin then (1 : BitVec 1) else 0) ++ (0 : BitVec 7))))) → (s.tile tl).rx.full (s.tile tl).compat (s.tile tl).edge = true →
      TileBecomes (.put tl mk false half fin) s tl mk 1 (fun t => { t.onward with rxOver := true })) ∧
    (∀ (s : State) (tl : Fin 208) (half : Bool) (w : Word) (f : TileFifo), s.tileLive tl = true → (s.tile tl).cur = some (.get half) → (s.tile tl).tx.pop ((s.tile tl).sync s.now).edge (((s.tile tl).sync s.now).edge + 32) = some (w, f) →
      TileIs (.blockedGetPutComplete tl) s tl (((({ ((s.tile tl).sync s.now) with tx := f } : Tile).withHalf half w).ended).advance 1)) ∧
    (∀ (s : State) (tl : Fin 208) (v : Word), s.tileLive tl = true → (s.tile tl).txFull s.brickEdge = false → (s.tile tl).compat = false →
      TileIs (.ttxWrite tl v) s tl { (s.tile tl) with txLast := v, tx := { (s.tile tl).tx with banks := (s.tile tl).tx.banks ++ [([v], brickOpVisible s.brickEdge)] } }) ∧
    (∀ (s : State) (tl : Fin 208) (v : Word), s.tileLive tl = true → (s.tile tl).txFull s.brickEdge = true → TileIs (.ttxWrite tl v) s tl { (s.tile tl) with txLast := v, txOver := true }) ∧
    (∀ (s : State) (tl : Fin 208) (w : Word) (f : TileFifo), s.tileLive tl = true → (s.tile tl).rxEmpty s.brickEdge = false → (s.tile tl).rx.pop s.brickEdge (brickOpVisible s.brickEdge) = some (w, f) →
      ∃ t, exec (.trxRead tl) s = .next t ∧ t.readValue = (0 : Word) ++ w ∧ t.tile tl = { (s.tile tl) with rx := f } ∧ (∀ n, n ≠ tl → t.tile n = s.tile n) ∧
        t = { s with tiles := t.tiles, readValue := t.readValue, journal := t.journal }) ∧
    (∀ (s : State) (tl : Fin 208), s.tileLive tl = true → (s.tile tl).rxEmpty s.brickEdge = true →
      ∃ t, exec (.trxRead tl) s = .next t ∧ t.readValue = (0 : Word) ++ (s.tile tl).rx.last ∧ t.tile tl = { (s.tile tl) with rxUnder := true } ∧
        ∀ n, n ≠ tl → t.tile n = s.tile n) ∧
    (∀ (f : TileFifo) (w : Word) (vis t back : Nat), f.banks = [] → vis ≤ t →
      (f.push false vis w).pop t back = some (w, { f with freed := f.freed.filter (fun x => decide (t < x)) ++ [back], last := w })) ∧
    (∀ (e : Nat), e + 4 + 20 < brickOpVisible e ∧ brickOpVisible e ≤ e + 4 + 40 ∧ brickOpVisible e % 20 = 0)

/-- Tile control: illegal words, reset, RUN, step, program, injection and GPIO ownership (R177, R180, R185, R196, R202, R204, R205, R207). -/
def Obligations.TilesAreControlled : Prop :=
  (∀ (s : State) (tl : Fin 208), s.tileReady tl = true → tileIllegal (s.tile tl).word = true →
      TileIs (.tileIllegal tl) s tl { (s.tile tl) with run := .stopped, illegal := true, runBit := false }) ∧
    (∀ (s : State) (p : Party) (tl : Fin 208), s.writesTile p tl → (s.tile tl).compat = true → (s.tile tl).run ≠ .reset → (s.tile tl).tx.part ≠ [] →
      TileIs (.txSend p tl) s tl { (s.tile tl) with tx := { (s.tile tl).tx with banks := (s.tile tl).tx.banks ++ [((s.tile tl).tx.part, brickOpVisible s.brickEdge)], part := [] } }) ∧
    (∀ (s : State) (p : Party) (tl : Fin 208), s.writesTile p tl →
      ∃ t, exec (.tileReset p tl 0x7E) s = .next t ∧ t = { s with tiles := t.tiles } ∧ (∀ n, n ≠ tl → t.tile n = s.tile n) ∧ (t.tile tl).run = .reset ∧
        (t.tile tl).pc = 0 ∧ (t.tile tl).sr = 0 ∧ (t.tile tl).c0 = 0 ∧ (t.tile tl).c1 = 0 ∧ (t.tile tl).lvl = 0 ∧ (t.tile tl).dir = 0 ∧ (t.tile tl).tx = .reset ∧ (t.tile tl).rx = .reset ∧ (t.tile tl).runBit = false ∧
        (t.tile tl).cur = none ∧ (t.tile tl).compat = (s.tile tl).compatNext ∧ (t.tile tl).prog = (s.tile tl).prog ∧ (t.tile tl).cfg0 = (s.tile tl).cfg0 ∧ (t.tile tl).cfg1 = (s.tile tl).cfg1 ∧
        (t.tile tl).holdEnd = some (edgeFrom 20 s.now + 40)) ∧
    (∀ (s : State) (p : Party) (tl : Fin 208) (key : BitVec 8), key ≠ 0x7E → exec (.tileReset p tl key) s = .next s) ∧
    (∀ (s : State) (tl : Fin 208) (e : Nat), s.blocksUp = true → (s.tile tl).holdEnd = some e → (s.tile tl).runBit = false →
      TileIs (.tileResetHoldEnd tl) s tl { (s.tile tl) with holdEnd := none, run := .stopped }) ∧
    (∀ (s : State) (tl : Fin 208) (e : Nat), s.blocksUp = true → (s.tile tl).holdEnd = some e → (s.tile tl).runBit = true →
      TileIs (.tileResetHoldEnd tl) s tl (Tile.sync { (s.tile tl) with holdEnd := none, run := .running } (e + 1))) ∧
    (∀ (s : State) (p : Party) (tl : Fin 208), s.writesTile p tl → (s.tile tl).run = .stopped → (s.tile tl).runBit = false →
      TileIs (.tileRun p tl true) s tl (Tile.sync { (s.tile tl) with runBit := true, run := .running } (s.now + 1))) ∧
    (∀ (s : State) (p : Party) (tl : Fin 208), s.writesTile p tl → (s.tile tl).run ≠ .reset → (s.tile tl).inShf = false →
      TileIs (.tileRun p tl false) s tl { (s.tile tl) with runBit := false, run := .stopped, cur := none }) ∧
    (∀ (s : State) (p : Party) (tl : Fin 208) (v : Word), s.writesTile p tl →
      ∃ t, exec (.tileStepHiWrite p tl v) s = .next t ∧ t = { s with tiles := t.tiles } ∧ (∀ n, n ≠ tl → t.tile n = s.tile n) ∧
        t.tile tl = { (s.tile tl) with stepHi := v.extractLsb' 0 8, stepNext := (t.tile tl).stepNext } ∧
        (t.tile tl).stepNext = (if v.toNat % 256 * 65536 + (s.tile tl).stepLo.toNat = 0 then 1 else min (v.toNat % 256 * 65536 + (s.tile tl).stepLo.toNat) 0x800000)) ∧
    (∀ (s : State) (p : Party) (tl : Fin 208) (v : Word), s.writesTile p tl → TileIs (.tilePdataWrite p tl v) s tl { (s.tile tl) with prog := (s.tile tl).prog.set (s.tile tl).paddr.toNat v, paddr := (s.tile tl).paddr + 1 }) ∧
    (∀ (s : State) (p : Party) (tl : Fin 208) (a : BitVec 5) (v : Word), s.writesTile p tl → TileIs (.tileProgWrite p tl a v) s tl { (s.tile tl) with prog := (s.tile tl).prog.set a.toNat v }) ∧
    (∀ (s : State) (p : Party) (tl : Fin 208) (v : Word), s.writesTile p tl →
      ((s.tile tl).run = .reset → TileIs (.tileInjWrite p tl v) s tl { (s.tile tl) with injResult := 2 }) ∧
      ((s.tile tl).run ≠ .reset → (s.tile tl).inj = none → TileIs (.tileInjWrite p tl v) s tl { (s.tile tl) with inj := some v }) ∧
      ((s.tile tl).run ≠ .reset → (s.tile tl).inj ≠ none → TileIs (.tileInjWrite p tl v) s tl (s.tile tl))) ∧
    (∀ (s : State) (tl : Fin 208) (c : Bool) (value : BitVec 9) (ball : BitVec 4), s.tileInjectable tl = true → (s.tile tl).inj = some (tileFields 9 0 ((if c then (1 : BitVec 1) else 0) ++ value)) →
      (s.tile tl).inShf = false →
      ∃ t, exec (.tileInjectionTake tl ball) s = .next t ∧ t = { s with tiles := t.tiles, journal := t.journal } ∧ (∀ n, n ≠ tl → t.tile n = s.tile n) ∧
        (t.tile tl).inj = none ∧ (t.tile tl).injResult = 1 ∧ (t.tile tl).pc = (s.tile tl).pc ∧ (t.tile tl).run = (s.tile tl).run ∧ (t.tile tl).sr = (s.tile tl).sr ∧
        (if c then (t.tile tl).c1 = (0 : BitVec 7) ++ value ∧ (t.tile tl).c0 = (s.tile tl).c0 else (t.tile tl).c0 = (0 : BitVec 7) ++ value ∧ (t.tile tl).c1 = (s.tile tl).c1)) ∧
    (∀ (s : State) (tl : Fin 208) (mk : BitVec 2) (n : BitVec 10) (ball : BitVec 4), s.tileInjectable tl = true → (s.tile tl).inj = some (tileFields 5 mk n) →
      TileIs (.tileInjectionTake tl ball) s tl { (s.tile tl) with inj := none, injResult := 2 }) ∧
    (∀ (s : State) (n : Fin 128) (v : Reg32), s.blocksUp = true → Sparse.wf regReset s.regs = true → v.toNat / 256 % 256 < 208 →
      ∃ t, exec (.gpioOwnWrite .keystone n v) s = .next t ∧ t = { s with regs := t.regs } ∧ t.gpioOwn n.val = v &&& 0x8000FF03 ∧
        ∀ m : Fin 128, m ≠ n → t.gpioOwn m.val = s.gpioOwn m.val)

/-- The tile clock: one tile cycle each time the accumulator passes 2^24 (R176, R177). -/
def Obligations.TileClockCounts : Prop :=
  (∀ (t : Tile), t.step = t.stepNext → 0 < t.step → t.step ≤ 0x800000 → t.acc < 2 ^ 24 →
      ∃ m, (t.advance 1).edge = t.edge + 20 * m ∧ (t.advance 1).acc = t.acc + m * t.step - 2 ^ 24 ∧ 2 ^ 24 ≤ t.acc + m * t.step ∧
        (t.acc + (m - 1) * t.step < 2 ^ 24) ∧ (t.advance 1).acc < 2 ^ 24 ∧ 0 < m) ∧
    (∀ (t : Tile) (k : Nat), t.advance k = { t with acc := (t.advance k).acc, edge := (t.advance k).edge, step := (t.advance k).step }) ∧
    (∀ (t : Tile), t.step = 0x800000 → t.stepNext = 0x800000 → t.acc = 0 → (t.advance 1).edge = t.edge + 40 ∧ (t.advance 1).acc = 0)

/-- The frame-mover queues of a brick: FM_RXL, FM_RXC0, FM_TXC, FM_TXD and FM_RXMAP (R214, R215, R216, R217, R222, R223). -/
def Obligations.FrameMoverQueues : Prop :=
  (∀ (s : State) (bk : Fin 52) (v : Word), s.blocksUp = true → s.gated (courseOf bk) = false →
      ∃ t, exec (.fmRxlWrite bk v) s = .next t ∧ t = { s with bricks := t.bricks, journal := t.journal } ∧ (∀ k, k ≠ bk → t.brick k = s.brick k) ∧
        ((v.toNat / 4096 % 8 ≠ 0 ∨ v.toNat % 4096 < 16) → t.brick bk = { (s.brick bk) with fm := { (s.brick bk).fm with stat := (s.brick bk).fm.stat ||| 8 } }) ∧
        (¬ (v.toNat / 4096 % 8 ≠ 0 ∨ v.toNat % 4096 < 16) → 16 ≤ (s.brick bk).fm.bufs.length → t.brick bk = { (s.brick bk) with fm := { (s.brick bk).fm with stat := (s.brick bk).fm.stat ||| 1 } }) ∧
        (¬ (v.toNat / 4096 % 8 ≠ 0 ∨ v.toNat % 4096 < 16) → (s.brick bk).fm.bufs.length < 16 → t.brick bk = { (s.brick bk) with fm := { (s.brick bk).fm with bufs := (s.brick bk).fm.bufs ++ [((s.brick bk).fm.rxa, v)] } })) ∧
    (∀ (s : State) (bk : Fin 52), s.blocksUp = true → s.gated (courseOf bk) = false →
      ∃ t, exec (.fmRxc0Read bk) s = .next t ∧ t = { s with bricks := t.bricks, journal := t.journal, readValue := t.readValue } ∧ (∀ k, k ≠ bk → t.brick k = s.brick k) ∧
        (∀ a c r, (s.brick bk).fm.rxc = (a, c) :: r → t.readValue = (0 : Word) ++ a ∧ t.brick bk = { (s.brick bk) with fm := { (s.brick bk).fm with rxc := r, rxc1 := c } }) ∧
        ((s.brick bk).fm.rxc = [] → t.brick bk = { (s.brick bk) with fm := { (s.brick bk).fm with rxc1 := 0 } })) ∧
    (∀ (s : State) (bk : Fin 52), s.blocksUp = true → s.gated (courseOf bk) = false →
      ∃ t, exec (.fmTxdRead bk) s = .next t ∧ t = { s with bricks := t.bricks, journal := t.journal, readValue := t.readValue } ∧ (∀ k, k ≠ bk → t.brick k = s.brick k) ∧
        (∀ c r, (s.brick bk).fm.txc = c :: r → t.readValue = (0 : Word) ++ c ∧ t.brick bk = { (s.brick bk) with fm := { (s.brick bk).fm with txc := r } }) ∧
        ((s.brick bk).fm.txc = [] → t.readValue = 0 ∧ t.brick bk = s.brick bk)) ∧
    (∀ (s : State) (bk : Fin 52) (v : Word), s.blocksUp = true → s.gated (courseOf bk) = false → (s.course (courseOf bk)).mode ≠ 2 → s.txSlots bk = 0 →
      ∃ t, exec (.fmTxcWrite bk v) s = .next t ∧ t = { s with bricks := t.bricks, journal := t.journal } ∧ (∀ k, k ≠ bk → t.brick k = s.brick k) ∧ t.brick bk = { (s.brick bk) with fm := { (s.brick bk).fm with stat := (s.brick bk).fm.stat ||| 2 } }) ∧
    (∀ (s : State) (bk : Fin 52) (v : Word), s.blocksUp = true → s.gated (courseOf bk) = false → (s.course (courseOf bk)).mode ≠ 2 → s.txSlots bk ≠ 0 → v.getLsbD 15 = false →
      ∃ t, exec (.fmTxcWrite bk v) s = .next t ∧ t = { s with bricks := t.bricks, journal := t.journal } ∧ (∀ k, k ≠ bk → t.brick k = s.brick k) ∧
        t.brick bk = { (s.brick bk) with fm := { (s.brick bk).fm with segs := (s.brick bk).fm.segs ++ [{ addr := (s.brick bk).fm.txa, b := (s.brick bk).fm.txb }] } }) ∧
    (∀ (s : State) (bk : Fin 52) (v : Word), s.blocksUp = true → s.gated (courseOf bk) = false → (s.course (courseOf bk)).mode ≠ 2 → s.txSlots bk ≠ 0 → v.getLsbD 15 = true → ¬ frameDropped ((s.brick bk).fm.segs ++ [({ addr := (s.brick bk).fm.txa, b := (s.brick bk).fm.txb } : TxSeg)]) v →
      (∀ g ∈ (s.course (courseOf bk)).fmTx, g.dropped = false) →
      ∃ t, exec (.fmTxcWrite bk v) s = .next t ∧ t = { s with bricks := t.bricks, courses := t.courses, journal := t.journal } ∧ (∀ k, k ≠ bk → t.brick k = s.brick k) ∧ (∀ k, k ≠ (courseOf bk) → t.course k = s.course k) ∧
        t.brick bk = { (s.brick bk) with fm := { (s.brick bk).fm with segs := [], seqno := (s.brick bk).fm.seqno + 1 } } ∧
        t.course (courseOf bk) = { s.course (courseOf bk) with fmTx := (s.course (courseOf bk)).fmTx ++ [{ brick := localOf bk, seqno := (s.brick bk).fm.seqno, segs := ((s.brick bk).fm.segs ++ [({ addr := (s.brick bk).fm.txa, b := (s.brick bk).fm.txb } : TxSeg)]), ctl := v, dropped := false, got := [], id := none }] }) ∧
    (∀ (s : State) (bk : Fin 52) (v : Word), s.blocksUp = true → s.gated (courseOf bk) = false → (s.course (courseOf bk)).mode ≠ 2 → s.txSlots bk ≠ 0 → v.getLsbD 15 = true → frameDropped ((s.brick bk).fm.segs ++ [({ addr := (s.brick bk).fm.txa, b := (s.brick bk).fm.txb } : TxSeg)]) v →
      (∀ g ∈ (s.course (courseOf bk)).fmTx, g.brick ≠ localOf bk) →
      ∃ t, exec (.fmTxcWrite bk v) s = .next t ∧ t = { s with bricks := t.bricks, courses := t.courses, journal := t.journal } ∧ (∀ k, k ≠ bk → t.brick k = s.brick k) ∧ (∀ k, t.course k = s.course k) ∧
        (t.brick bk).fm.segs = [] ∧ (t.brick bk).fm.seqno = (s.brick bk).fm.seqno + 1 ∧ (t.brick bk).fm.txc = (s.brick bk).fm.txc ++ [(0xC0 : Byte) ++ (s.brick bk).fm.seqno] ∧ (t.brick bk).fm.bufs = (s.brick bk).fm.bufs ∧
        (t.brick bk).fm.stat = (if 8 < (((s.brick bk).fm.segs ++ [({ addr := (s.brick bk).fm.txa, b := (s.brick bk).fm.txb } : TxSeg)]).filter (fun g => decide (g.len ≠ 0))).length then (s.brick bk).fm.stat ||| 4 else (s.brick bk).fm.stat)) ∧
    (∀ (s : State) (c : Fin 13) (v : Reg32), s.blocksUp = true →
      ∃ t, exec (.fmRxmapWrite .keystone c v) s = .next t ∧ t = { s with courses := t.courses } ∧ (∀ k, k ≠ c → t.course k = s.course k) ∧
        t.course c = { s.course c with rxmap := v.extractLsb' 0 16 }) ∧
    (∀ (s : State) (p : Party) (c : Fin 13) (v : Reg32), s.blocksUp = true → p ≠ .keystone →
      exec (.fmRxmapWrite p c v) s = .next (s.refused p (0x1060000 + c.val * 0x100000) v.toNat))

/-- Receive and transmit bursts of the frame mover (R218, R219, R220, R222, R223, R224, R520). -/
def Obligations.FrameMoverBursts : Prop :=
  (∀ (s : State) (c : Fin 13) (ct : List Contention) (f : RxFrame) (rest : List RxFrame) (b : Fin 4) (a : Word) (len : Nat) (lane : Bool),
      s.bursts c → (s.course c).fmRx = f :: rest → f.dropped = false → 0 < f.staged → f.written + (min 256 (f.bytes.length - f.written)) ≤ f.staged → s.bufferFor c f = some (b, a, len, lane) →
      len < 4096 → Memory.wf bankBlank (s.course c).bank = true →
      ∃ t, exec (.fmRxBurst c ct) s = .next t ∧ t = { s with now := t.now, bricks := t.bricks, courses := t.courses, journal := t.journal } ∧
        (∀ k, k ≠ brickOf c b → t.brick k = s.brick k) ∧ (∀ k, k ≠ c → t.course k = s.course k) ∧
        (∀ k, k < (min 256 (f.bytes.length - f.written)) → f.written + k < (2 * (len - 8) - (if lane then 1 else 0)) → Sparse.read bankBlank (t.course c).bank (((2 * a.toNat + (if lane then 1 else 0) + f.written) + k) % 131072) = nth f.bytes (f.written + k) 0) ∧
        (∀ x, x < 131072 → (∀ k, k < (min 256 (f.bytes.length - f.written)) → f.written + k < (2 * (len - 8) - (if lane then 1 else 0)) → x ≠ ((2 * a.toNat + (if lane then 1 else 0) + f.written) + k) % 131072) →
          (f.bytes.length ≤ f.written + (min 256 (f.bytes.length - f.written)) → ∀ i, i < 16 → x ≠ (2 * (a.toNat + ((if lane then 1 else 0) + (min f.bytes.length (2 * (len - 8) - (if lane then 1 else 0))) + 1) / 2) + i) % 131072) → Sparse.read bankBlank (t.course c).bank x = Sparse.read bankBlank (s.course c).bank x) ∧
        (t.brick (brickOf c b)).fm.bufs = (if f.buf = none then (s.brick (brickOf c b)).fm.bufs.tail else (s.brick (brickOf c b)).fm.bufs) ∧ (t.brick (brickOf c b)).g = (s.brick (brickOf c b)).g ∧ (t.brick (brickOf c b)).imem = (s.brick (brickOf c b)).imem ∧
        (¬ f.bytes.length ≤ f.written + (min 256 (f.bytes.length - f.written)) → (t.course c).fmRx = { f with buf := some (b, a, len, lane), written := f.written + (min 256 (f.bytes.length - f.written)) } :: rest ∧ (t.brick (brickOf c b)).fm.rxc = (s.brick (brickOf c b)).fm.rxc) ∧
        (f.bytes.length ≤ f.written + (min 256 (f.bytes.length - f.written)) → (t.course c).fmRx = rest ∧
          (t.course c).bank.word ((a.toNat + ((if lane then 1 else 0) + (min f.bytes.length (2 * (len - 8) - (if lane then 1 else 0))) + 1) / 2) % 65536) = BitVec.ofNat 16 f.bytes.length ∧
          ((t.course c).bank.word (((a.toNat + ((if lane then 1 else 0) + (min f.bytes.length (2 * (len - 8) - (if lane then 1 else 0))) + 1) / 2) + 1) % 65536)).toNat = f.info.ingress.code * 1024 + f.info.cls.val * 128 + (if f.info.err then 64 else 0) +
            (if (2 * (len - 8) - (if lane then 1 else 0)) < f.bytes.length then 32 else 0) + (if f.info.tsValid then 16 else 0) + (if f.info.td then 8 else 0) ∧
          (∀ k, k < 6 → (t.course c).bank.word (((a.toNat + ((if lane then 1 else 0) + (min f.bytes.length (2 * (len - 8) - (if lane then 1 else 0))) + 1) / 2) + 2 + k) % 65536) = f.info.ts.extractLsb' (16 * k) 16) ∧
          (t.brick (brickOf c b)).fm.rxc = (s.brick (brickOf c b)).fm.rxc ++ [(a, BitVec.ofNat 16 (0x8000 + (if f.info.err then 0x4000 else 0) +
            (if (2 * (len - 8) - (if lane then 1 else 0)) < f.bytes.length then 0x2000 else 0) + (min f.bytes.length (2 * (len - 8) - (if lane then 1 else 0)))))])) ∧
    (∀ (s : State) (c : Fin 13) (ct : List Contention) (f : RxFrame) (rest : List RxFrame) (b : Fin 4),
      s.bursts c → (s.course c).fmRx = f :: rest → f.dropped = false → 0 < f.staged → f.written + (min 256 (f.bytes.length - f.written)) ≤ f.staged → f.buf = none →
      b.val = (s.course c).rxmap.toNat / 2 ^ (2 * f.info.cls.val) % 4 → (s.brick (brickOf c b)).fm.bufs = [] →
      ∃ t, exec (.fmRxBurst c ct) s = .next t ∧ t = { s with bricks := t.bricks, courses := t.courses } ∧
        (∀ k, k ≠ brickOf c b → t.brick k = s.brick k) ∧ (∀ k, k ≠ c → t.course k = s.course k) ∧
        t.brick (brickOf c b) = { (s.brick (brickOf c b)) with fm := { (s.brick (brickOf c b)).fm with nobuf := satInc (s.brick (brickOf c b)).fm.nobuf } } ∧
        t.course c = { (s.course c) with fmRx := if f.bytes.length ≤ f.staged then rest else { f with dropped := true } :: rest }) ∧
    (∀ (s : State) (c : Fin 13) (ct : List Contention), s.bursts c → (s.course c).fmRx = [] → exec (.fmRxBurst c ct) s = .next s) ∧
    (∀ (s : State) (c : Fin 13) (ct : List Contention) (f : TxFrame) (rest : List TxFrame),
      s.bursts c → (s.course c).fmTx = f :: rest → f.dropped = false → (∀ g ∈ rest, g.dropped = false) → f ∉ rest →
      ((s.course c).txCells.filter (fun e => decide (s.now < e))).length < 2 →
      ∃ t, exec (.fmTxBurst c ct) s = .next t ∧
        t = { s with now := t.now, bricks := t.bricks, courses := t.courses, journal := t.journal, mortar := t.mortar, fcs := t.fcs, ports := t.ports, lineOut := t.lineOut, freeCtr := t.freeCtr } ∧
        (∀ k, k ≠ brickOf c f.brick → t.brick k = s.brick k) ∧ (∀ k, k ≠ c → t.course k = s.course k) ∧ (t.course c).bank = (s.course c).bank ∧ (t.course c).fmRx = (s.course c).fmRx ∧
        ((f.segs.map TxSeg.len).sum ≤ f.got.length + (((streamAddrs f.segs).drop f.got.length).take 256).length → (t.course c).fmTx = rest ∧
          t.brick (brickOf c f.brick) = { (s.brick (brickOf c f.brick)) with fm := { (s.brick (brickOf c f.brick)).fm with txc := (s.brick (brickOf c f.brick)).fm.txc ++ [(if (f.ctl.getLsbD 14 = true ∧ (s.reg (0x900000 + f.ctl.toNat % 256 * 0x100)).toNat / 256 % 16 ≠ c.val) then (0xC0 : Byte) else 0x80) ++ f.seqno] } }) ∧
        (f.got.length + (((streamAddrs f.segs).drop f.got.length).take 256).length < (f.segs.map TxSeg.len).sum → t.brick (brickOf c f.brick) = (s.brick (brickOf c f.brick)) ∧
          ∃ i, (t.course c).fmTx = { f with got := f.got ++ (((streamAddrs f.segs).drop f.got.length).take 256).map (fun a => Sparse.read bankBlank (s.course c).bank a), id := some i } :: rest)) ∧
    (streamAddrs [] = [] ∧ ∀ (g : TxSeg) (gs : List TxSeg), streamAddrs (g :: gs) =
      (List.range (g.b.toNat % 8192)).map (fun i => (2 * g.addr.toNat + g.b.toNat / 32768 + i) % 131072) ++ streamAddrs gs)

/-- The end of a trowel run on a course, a buffer segment or the journal (R226, R227, R229, R230, R318, R521). -/
def Obligations.TrowelRunsEnd : Prop :=
  (∀ (s : State) (c : Fin 13) (u : TrowelRun) (fails : BitVec 16) (addr data : Reg32), s.blocksUp = true → (s.course c).trowel = some u → u.abort = false → fails ≠ 0 →
      ∃ t, exec (.trowelRunComplete (.course c) fails addr data) s = .next t ∧ (t.course c).trowel = none ∧ (t.course c).fenced = true ∧ (t.course c).trwStatus = 0xE0000000 ||| (0 : Word) ++ fails ∧ (t.course c).trwAddr = addr ∧ (t.course c).trwData = data) ∧
    (∀ (s : State) (c : Fin 13) (u : TrowelRun) (fails : BitVec 16) (addr data : Reg32), s.blocksUp = true → (s.course c).trowel = some u → u.abort = false → fails = 0 → u.preserving = true →
      ∃ t, exec (.trowelRunComplete (.course c) fails addr data) s = .next t ∧ (t.course c).trowel = none ∧ (t.course c).bank = (s.course c).bank ∧ (∀ b, (t.brick (brickOf c b)).imem = (s.brick (brickOf c b)).imem) ∧ (t.course c).trwAddr = 0 ∧ (t.course c).trwData = 0 ∧
        (u.target = 2 → (t.course c).fenced = false ∧ (t.course c).trwStatus = 0x80000000)) ∧
    (∀ (s : State) (c : Fin 13) (u : TrowelRun) (fails : BitVec 16) (addr data : Reg32), s.blocksUp = true → (s.course c).trowel = some u → u.abort = false → fails = 0 → u.preserving = false → u.bg.getLsbD 4 = true →
      ∃ t, exec (.trowelRunComplete (.course c) fails addr data) s = .next t ∧ (t.course c).trowel = none ∧ (u.target ≠ 1 → ∀ a, a < 65536 → (t.course c).bank.word a = 0x00FF) ∧
        (u.target = 1 → (t.course c).bank = (s.course c).bank) ∧ (u.target ≠ 0 → ∀ b a, a < 8192 → (t.brick (brickOf c b)).imem.word a = 0x00FF) ∧
        (u.target = 0 → ∀ b, (t.brick (brickOf c b)).imem = (s.brick (brickOf c b)).imem)) ∧
    (∀ (s : State) (c : Fin 13) (u : TrowelRun) (fails : BitVec 16) (addr data : Reg32), s.blocksUp = true → (s.course c).trowel = some u → u.abort = true → ∃ t, exec (.trowelRunComplete (.course c) fails addr data) s = .next t ∧ (t.course c).trowel = none ∧ (t.course c).trwStatus.getLsbD 28 = true ∧ (t.course c).fenced = (s.course c).fenced ∧ (t.course c).bank = (s.course c).bank ∧ (t.course c).image = none) ∧
    (∀ (s : State) (g : Fin 16) (n : Nat) (r : SvcReq) (fails : BitVec 16) (addr data : Reg32), s.blocksUp = true → s.keystone.bufTest = some (g, n, r) →
      ∃ t, exec (.trowelRunComplete (.segment g) fails addr data) s = .next t ∧ t.keystone.bufTest = none ∧
        (fails = 0 → t.mortar.quar = s.mortar.quar.filter (fun a => decide (a.toNat / 12288 ≠ g.val)) ∧ t.mortar.failed = s.mortar.failed) ∧
        (fails ≠ 0 → t.mortar.failed = s.mortar.failed ||| BitVec.twoPow 16 g.val ∧ t.mortar.quar = s.mortar.quar)) ∧
    (∀ (s : State) (n : Nat) (r : SvcReq) (fails : BitVec 16) (addr data : Reg32), s.blocksUp = true → s.keystone.jrnTest = some (n, r) →
      ∃ t, exec (.trowelRunComplete .journal fails addr data) s = .next t ∧ t.keystone.jrnTest = none ∧ t.journal.recs = [] ∧ t.journal.cfg = s.journal.cfg ∧
        (fails = 0 → t.journal.fill = some 0x00000000FFFFFFFF))

/-- LOAD writes a checked image into its course, and COURSE_RELEASE starts it (R238, R246, R247). -/
def Obligations.ImagesAreLoadedAndReleased : Prop :=
  (∀ (s : State) (r : SvcReq) (j : Fin 32) (c : Fin 13) (l : List Byte) (b : Boundary), s.asked 0x0101 r j → (s.takeMail 0x01 j).notAllowed = false → r.course = some c → (s.takeMail 0x01 j).courseBusy c = false → (s.takeMail 0x01 j).requestImage r = (0, l) →
      (s.takeMail 0x01 j).boundaryOf (some c) r = .ok b →
      ((s.takeMail 0x01 j).course c).image = none → ((s.takeMail 0x01 j).course c).fenced = false → (s.takeMail 0x01 j).standby ≠ some c → (s.takeMail 0x01 j).loadBad c c l (loadedOf c l ((s.takeMail 0x01 j).bindStage c) 0) = none →
      ∃ t, exec (.load r) s = .next t ∧ (t.course c).image = some (loadedOf c l ((s.takeMail 0x01 j).bindStage c) 0) ∧ (t.course c).released = false ∧ (t.course c).release = some (b, r) ∧ (t.course c).mode = 1 ∧ (t.course c).bank = bankOf l (loadedOf c l ((s.takeMail 0x01 j).bindStage c) 0) ∧
        (t.course c).rxmap.toNat = (loadedOf c l ((s.takeMail 0x01 j).bindStage c) 0).resNat 0x14 2 % 65536 ∧ (∀ k, (t.brick (brickOf c k)).imem = imemOf l k.val) ∧
        (∀ d, d ≠ c → (t.course d).image = ((s.takeMail 0x01 j).course d).image ∧ (t.course d).bank = ((s.takeMail 0x01 j).course d).bank)) ∧
    (∀ (s : State) (r : SvcReq) (j : Fin 32) (c : Fin 13) (l : List Byte) (b : Boundary) (e k : Nat), s.asked 0x0101 r j → (s.takeMail 0x01 j).notAllowed = false → r.course = some c → (s.takeMail 0x01 j).courseBusy c = false → (s.takeMail 0x01 j).requestImage r = (0, l) →
      (s.takeMail 0x01 j).boundaryOf (some c) r = .ok b →
      ((s.takeMail 0x01 j).course c).image = none → ((s.takeMail 0x01 j).course c).fenced = false → (s.takeMail 0x01 j).standby ≠ some c → (s.takeMail 0x01 j).loadBad c c l (loadedOf c l ((s.takeMail 0x01 j).bindStage c) 0) = some (e, k) →
      exec (.load r) s = .next (((s.takeMail 0x01 j).event .load true 0 [c.val, e, k]).svcReply 0x0101 r e [BitVec.ofNat 32 (k * 65536)])) ∧
    (∀ (l : List Byte) (b a : Nat), a < 8192 → (∀ x ∈ sectionsOf l, x.typ = 1 → x.target = b → x.load + x.len / 2 ≤ 8192 ∧ (a < x.load ∨ x.load + x.len / 2 ≤ a)) →
      (imemOf l b).word a = 0xFFFF) ∧
    (∀ (l : List Byte) (x : Sect) (b a : Nat), (sectionsOf l).filter (fun y => decide (y.typ = 1 ∧ y.target = b)) = [x] → x.load + x.len / 2 ≤ 8192 →
      (x.bytes l).length = x.len → x.load ≤ a → a < x.load + x.len / 2 →
      (imemOf l b).word a = nth (x.bytes l) (2 * (a - x.load) + 1) 0 ++ nth (x.bytes l) (2 * (a - x.load)) 0) ∧
    (∀ (s : State) (c : Fin 13) (b : Boundary) (r : SvcReq) (im : LoadedImage), s.blocksUp = true → s.power.stbySeq = false →
      (s.course c).release = some (b, r) → (s.course c).image = some im →
      ∃ t, exec (.courseRelease c) s = .next t ∧ (t.course c).released = true ∧ (t.course c).release = none ∧ (t.course c).mode = 0 ∧ (t.port (portCp c)).up = true ∧
        SameMemories s t ∧ ∀ k, (im.brickMask.getLsbD k.val = true → (t.brick (brickOf c k)).runBit = true ∧
          ((s.brick (brickOf c k)).run = .idle → (t.brick (brickOf c k)).run = .running ∧ (t.brick (brickOf c k)).pc = (s.brick (brickOf c k)).pc)) ∧
          (im.brickMask.getLsbD k.val = false → (t.brick (brickOf c k)).runBit = (s.brick (brickOf c k)).runBit ∧ (t.brick (brickOf c k)).run = (s.brick (brickOf c k)).run))

/-- PATCH, and the live reload from RELOAD and CANCEL over the commit to the re-point (R248, R249, R251, R252, R253, R254, R255). -/
def Obligations.PatchesAndReloads : Prop :=
  (∀ (s : State) (r : SvcReq) (j : Fin 32) (c : Fin 13) (l : List Byte) (b : Boundary) (im : LoadedImage), s.asked 0x0301 r j → (s.takeMail 0x01 j).notAllowed = false → r.course = some c → (s.takeMail 0x01 j).courseBusy c = false → (s.takeMail 0x01 j).requestImage r = (0, l) →
      (s.takeMail 0x01 j).boundaryOf (some c) r = .ok b →
      ((s.takeMail 0x01 j).course c).image = some im → (s.takeMail 0x01 j).gated c = false → (s.takeMail 0x01 j).patchBad c im l = none → imgNat l 6 1 ≠ 3 →
      (∀ k, Memory.wf bankBlank (s.brick k).imem = true) →
      ∃ t, exec (.patch r) s = .next t ∧
        (∃ d, t.keystone.deferred = (s.takeMail 0x01 j).keystone.deferred ++ [d] ∧ d.when_ = b ∧ d.act = .patch c ∧ d.req = r ∧ d.flying = false ∧
          d.recs = (patchRecs l).filter (fun x => decide (recOp x.2 = 1 ∨ recOp x.2 = 3))) ∧
        (t.course c).image = some { im with patches := im.patches ++ [imageId l] } ∧ (t.course c).bank = ((s.takeMail 0x01 j).course c).bank ∧
        (∀ i x, (patchRecs l).filter (fun x => decide (recOp x.2 = 2 ∨ recOp x.2 = 4)) = [(i, x)] → recOp x = 2 → recTarget x < 4 → recAddr x + 1 < 8192 →
          ∀ k : Fin 4, ∀ a, a < 8192 → (t.brick (brickOf c k)).imem.word a = (if k.val = recTarget x ∧ a = recAddr x then recWord x 0
            else if k.val = recTarget x ∧ a = recAddr x + 1 then recWord x 1 else ((s.takeMail 0x01 j).brick (brickOf c k)).imem.word a))) ∧
    (∀ (s : State) (r : SvcReq) (j : Fin 32) (c : Fin 13) (l : List Byte) (b : Boundary) (im : LoadedImage) (e : Nat), s.asked 0x0301 r j → (s.takeMail 0x01 j).notAllowed = false → r.course = some c → (s.takeMail 0x01 j).courseBusy c = false → (s.takeMail 0x01 j).requestImage r = (0, l) →
      (s.takeMail 0x01 j).boundaryOf (some c) r = .ok b →
      ((s.takeMail 0x01 j).course c).image = some im → (s.takeMail 0x01 j).gated c = false → (s.takeMail 0x01 j).patchBad c im l = some e →
      exec (.patch r) s = .next ((s.takeMail 0x01 j).patchEnds r e 255 [])) ∧
    (∀ (s : State) (r : SvcReq) (j : Fin 32) (l d : Fin 13) (bytes : List Byte) (old : LoadedImage) (td : Fin 2) (sec ns : Nat), s.asked 0x0201 r j →
      (s.takeMail 0x01 j).notAllowed = false → r.course = some l → (s.takeMail 0x01 j).standby = some d → (s.takeMail 0x01 j).courseBusy l = false → (s.takeMail 0x01 j).courseBusy d = false →
      (s.takeMail 0x01 j).keystone.handover = none → 2 ≤ r.w5.toNat / 2 ^ 30 → (s.takeMail 0x01 j).requestImage r = (0, bytes) → (s.takeMail 0x01 j).boundaryOf none r = .ok (.time td sec ns) → ((s.takeMail 0x01 j).course l).image = some old →
      l ≠ d → ((s.takeMail 0x01 j).course d).image = none → ((s.takeMail 0x01 j).course d).fenced = false → ((s.takeMail 0x01 j).course l).released = true → (s.takeMail 0x01 j).loadBad d l bytes (reloadImage d bytes old) = none → handoverFits old (reloadImage d bytes old) = true → Sparse.wf regReset s.regs = true →
      ∃ t, exec (.reload r) s = .next t ∧ t.keystone.handover = some { live := l, standby := d, td := td, sec := sec, ns := ns, acked := false, shadowReady := false, committed := false, req := r } ∧
        (t.course d).image = some (reloadImage d bytes old) ∧ (t.course d).mode = 1 ∧ (t.course d).bank = bankOf bytes (reloadImage d bytes old) ∧ (t.course d).egressOnly = some (portCp l, true) ∧
        (t.course l).image = some old ∧ (t.course l).bank = (s.course l).bank ∧ (t.course l).released = true ∧
        (∀ n : Fin 13, s.cpTarget n = l → t.cpTarget n = l ∧ t.cpShadow n = some d)) ∧
    (∀ (s : State) (r : SvcReq) (j : Fin 32) (h : Handover), s.asked 0x0202 r j → (s.takeMail 0x01 j).keystone.handover = some h → r.course = some h.live →
      (h.committed = true → exec (.cancel r) s = .next ((s.takeMail 0x01 j).svcReply 0x0202 r 4 [])) ∧
      (h.committed = false → ∃ t, exec (.cancel r) s = .next t ∧ t.keystone.handover = none ∧ (t.course h.standby).image = none ∧
        (h.live ≠ h.standby → (t.course h.live).image = (s.course h.live).image ∧ (t.course h.live).bank = (s.course h.live).bank))) ∧
    (∀ (s : State) (h : Handover), s.blocksUp = true → s.keystone.handover = some h → h.committed = false →
      (s.now + 10000000 ≤ s.rootOf (.time h.td h.sec h.ns) → ∃ t, exec .handoverCommit s = .next t ∧
        t.keystone.handover = some { h with acked := true, shadowReady := true, committed := true } ∧ SameMemories s t) ∧
      (s.rootOf (.time h.td h.sec h.ns) < s.now + 10000000 → ∃ t, exec .handoverCommit s = .next t ∧ t.keystone.handover = none ∧ (t.course h.standby).image = none)) ∧
    (∀ (s : State) (h : Handover) (im : LoadedImage), s.blocksUp = true → s.keystone.handover = some h → h.committed = true → h.live ≠ h.standby →
      (s.course h.live).trowel = none → (s.course h.standby).image = some im → im.fragment = [] → Sparse.wf regReset s.regs = true →
      ∃ t, exec .rePoint s = .next t ∧ t.keystone.handover = none ∧ (t.course h.standby).released = true ∧ (t.course h.standby).mode = 0 ∧
        (t.course h.standby).image = some im ∧ (t.course h.standby).bank = (s.course h.standby).bank ∧ (t.course h.standby).egressOnly = none ∧
        (t.course h.live).image = none ∧ (t.course h.live).released = false ∧ t.standby = some h.live ∧
        (∀ n : Fin 13, s.cpTarget n = h.live → t.cpTarget n = h.standby ∧ t.cpShadow n = none) ∧
        (∀ f : Fin 256, (s.fcCfg f).toNat / 256 % 16 = h.live.val → (t.fcCfg f).toNat / 256 % 16 = h.standby.val) ∧
        (∀ e ∈ t.mortar.queue, e.out ≠ portCp h.live))

/-- Link up, link down, PORT_HOLD and PORT_CFG (R257, R259, R260, R262, R283, R284, R515). -/
def Obligations.PortsFollowTheirLink : Prop :=
  (∀ (s : State) (q : PortCode) (rate : BitVec 3), s.blocksUp = true → (s.portCfg q).getLsbD 31 = true → (s.port q).up = false →
      ∃ t, exec (.linkUp q rate) s = .next t ∧ t = { s with ports := t.ports, freeCtr := t.freeCtr } ∧ OtherPorts s t q ∧
        (t.port q) = { (s.port q) with up := true, sync := true, rate := (t.port q).rate, anDone := (s.portCfg q).getLsbD 24, holdEnd := none, expired := false, dropping := false } ∧
        (q.isP = true → (t.port q).rate = rateInForce (s.portCfg q) rate) ∧ (q.isCp = true → (t.port q).rate = 5)) ∧
    (∀ (cfg : Reg32) (an : BitVec 3), (cfg.extractLsb' 28 3 = 1 → rateInForce cfg an = 3) ∧ (cfg.extractLsb' 28 3 = 2 → rateInForce cfg an = 5) ∧
      (cfg.extractLsb' 28 3 = 3 → rateInForce cfg an = if cfg.getLsbD 24 then an else cfg.extractLsb' 25 3)) ∧
    (∀ (s : State) (q : PortCode), s.blocksUp = true → (s.port q).up = true → s.holdTime q ≠ 0 →
      ∃ t, exec (.linkDown q) s = .next t ∧ t = { s with ports := t.ports, lineOut := t.lineOut } ∧ OtherPorts s t q ∧
        (t.port q).up = false ∧ (t.port q).sync = false ∧ (t.port q).cur = none ∧ (t.port q).starting = [] ∧ (t.port q).onLine = none ∧ (t.port q).holdEnd = some (s.now + s.holdTime q) ∧ (t.port q).dropping = false ∧
        t.counter q 13 = satAdd (s.counter q 13) ((s.port q).inTransit s.now).length ∧ t.counter q 17 = satAdd (s.counter q 17) 1 ∧ (t.port q).launch = (s.port q).launch ∧ (t.port q).oper = (s.port q).oper ∧
        (∀ x ∈ s.lineOut, x.port = q → (∃ e ∈ ((s.port q).inTransit s.now), e.frame.id = x.id) → { x with cut := true } ∈ t.lineOut)) ∧
    (∀ (s : State) (q : PortCode), s.blocksUp = true → (s.port q).up = true → s.holdTime q = 0 →
      ∃ t, exec (.linkDown q) s = .next t ∧ OtherPorts s t q ∧ KeepsQueues s t q ∧ (t.port q).up = false ∧ (t.port q).holdEnd = none ∧ (t.port q).dropping = true ∧ (t.port q).expired = true ∧
        ∀ e ∈ t.mortar.queue, e.out ≠ q) ∧
    (∀ (s : State) (q : PortCode), s.blocksUp = true → (s.port q).up = false → exec (.linkDown q) s = .next s) ∧
    (∀ (s : State) (q : PortCode) (e : Nat), s.blocksUp = true → (s.port q).holdEnd = some e →
      ∃ t, exec (.portHoldExpiry q) s = .next t ∧ t.now = max s.now e ∧ OtherPorts s t q ∧ KeepsQueues s t q ∧ (∀ x ∈ t.mortar.queue, x.out ≠ q) ∧ (t.port q).holdEnd = none ∧
        (t.port q).expired = true ∧ (t.port q).dropping = true ∧ (t.port q).up = (s.port q).up ∧
        ∀ c : Fin 8, t.counter q (holdDrop c) = satAdd (s.counter q (holdDrop c)) (s.mortar.queue.filter (fun x => decide (x.out = q ∧ x.cls = c))).length) ∧
    (∀ (s : State) (p : Party) (q : PortCode) (v : Reg32), s.blocksUp = true → (s.mayConfigure p (s.portBound q) = false ∨ (4 ≤ v.toNat / 2 ^ 28 % 8 ∨ 6 ≤ v.toNat / 2 ^ 25 % 8 ∨ v.toNat % 2 ^ 14 < 64 ∨ 9216 < v.toNat % 2 ^ 14 ∨
        (q.isP = true ∧ (s.portCfg q).getLsbD 31 = true ∧ (s.portCfg q).extractLsb' 24 7 ≠ v.extractLsb' 24 7))) →
      exec (.portCfgWrite p q v) s = .next (s.refused p (portBase q) v.toNat)) ∧
    (∀ (s : State) (p : Party) (q : PortCode) (v : Reg32), s.blocksUp = true → s.mayConfigure p (s.portBound q) = true → ¬ (4 ≤ v.toNat / 2 ^ 28 % 8 ∨ 6 ≤ v.toNat / 2 ^ 25 % 8 ∨ v.toNat % 2 ^ 14 < 64 ∨ 9216 < v.toNat % 2 ^ 14 ∨
        (q.isP = true ∧ (s.portCfg q).getLsbD 31 = true ∧ (s.portCfg q).extractLsb' 24 7 ≠ v.extractLsb' 24 7)) → Sparse.wf regReset s.regs = true → q.isP = true →
      ∃ t, exec (.portCfgWrite p q v) s = .next t ∧ t.portCfg q = v &&& 0xFFF03FFF ∧ OtherPorts s t q ∧
        (v.getLsbD 31 = (s.portCfg q).getLsbD 31 → t.port q = s.port q) ∧
        (v.getLsbD 31 = true → (s.portCfg q).getLsbD 31 = false → s.holdTime q ≠ 0 → (t.port q) = { (s.port q) with holdEnd := some (s.now + s.holdTime q), dropping := false }) ∧
        (v.getLsbD 31 = false → (s.portCfg q).getLsbD 31 = true → (t.port q).up = false))

/-- Reception checks, the filter table and steering (R263, R265, R266, R267, R268, R514). -/
def Obligations.FramesAreReceivedAndSteered : Prop :=
  (∀ (s : State) (q : PortCode) (bytes : List Byte) (interp : BitVec 7), ∀ fin, s.blocksUp = true → q.isP = true → (s.port q).up = true → ((s.portCfg q).toNat / 2 ^ 22 % 4 = 0) → fin ≠ .codeError → bytes.length < 60 →
      exec (.frameReceive q bytes fin interp) s = .next (s.countPort q 3 1)) ∧
    (∀ (s : State) (q : PortCode) (bytes : List Byte) (interp : BitVec 7), s.blocksUp = true → q.isP = true → (s.port q).up = true → ((s.portCfg q).toNat / 2 ^ 22 % 4 = 0) → s.portDozes q = false → 60 ≤ bytes.length → bytes.length + 4 ≤ s.maxFrame q → (parseFrame bytes).etype ≠ 0x8808 →
      ∃ f, f.id = s.mortar.nextId ∧ f.bytes = bytes ∧ f.total = bytes.length ∧ f.info.ingress = q ∧ f.lso = none ∧ f.info.err = false ∧
        exec (.frameReceive q bytes .good interp) s = .next ((({ s with freeCtr := s.freeCtr + 1, mortar := { s.mortar with nextId := s.mortar.nextId + 1 } } : State).countPort q 0 1 |>.countPort q 1 (bytes.length + 4)).steer q f)) ∧
    (∀ (s : State) (q : PortCode) (bytes : List Byte) (interp : BitVec 7), s.blocksUp = true → q.isP = true → (s.port q).up = true → ((s.portCfg q).toNat / 2 ^ 22 % 4 = 0) → s.portDozes q = false → 60 ≤ bytes.length → bytes.length + 4 ≤ s.maxFrame q →
      ∃ f, f.id = s.mortar.nextId ∧ f.bytes = bytes ∧ f.total = bytes.length ∧ f.info.ingress = q ∧ f.lso = none ∧ f.info.err = true ∧
        exec (.frameReceive q bytes .badFcs interp) s = .next (({ s with freeCtr := s.freeCtr + 1, mortar := { s.mortar with nextId := s.mortar.nextId + 1 } } : State).countPort q 2 1 |>.steer q f)) ∧
    (∀ (s : State) (q : PortCode) (bytes : List Byte) (interp : BitVec 7), s.blocksUp = true → q.isP = true → (s.port q).up = true → ((s.portCfg q).toNat / 2 ^ 22 % 4 = 0) → s.portDozes q = false → 60 ≤ bytes.length → bytes.length + 4 ≤ s.maxFrame q → (parseFrame bytes).etype = 0x8808 →
      ∃ t, exec (.frameReceive q bytes .good interp) s = .next t ∧ t.counter q 6 = satAdd (s.counter q 6) 1 ∧ t.counter q 0 = s.counter q 0 ∧ t.mortar.arriving = s.mortar.arriving ∧ t.mortar.queue = s.mortar.queue) ∧
    (∀ (s : State) (q : PortCode) (k : Fin 32) (n : Nat), OtherPorts s (s.countPort q k n) q ∧ s.countPort q k n = { s with ports := (s.countPort q k n).ports } ∧
      (s.countPort q k n).counter q k = satAdd (s.counter q k) n ∧ ∀ m, m ≠ k → (s.countPort q k n).counter q m = s.counter q m) ∧
    (∀ (s : State) (q : PortCode) (f : Frame) (a : Reg32), s.steerAct q (parseFrame f.bytes) = a → a.toNat / 2 ^ 30 = 3 → s.steer q f = s.countPort q 7 1) ∧
    (∀ (s : State) (q : PortCode) (f : Frame) (a : Reg32), s.steerAct q (parseFrame f.bytes) = a → a.toNat / 2 ^ 30 = 0 → ∀ o : PortCode, a.toNat % 256 = o.code → o ≠ q → o.val < 36 → q.isCp = false →
      ∃ e, s.steer q f = { s with mortar := { s.mortar with arriving := s.mortar.arriving ++ [e] } } ∧ e.out = o ∧ e.input = q ∧ e.cls.val = (if a.getLsbD 26 then (parseFrame f.bytes).pcp (s.defPcp q) % 8 else a.toNat / 2 ^ 27 % 8) ∧
        e.frame.bytes = f.bytes ∧ e.frame.id = f.id ∧ e.fc = none) ∧
    (∀ (s : State) (q : PortCode) (f : Frame) (a : Reg32), s.steerAct q (parseFrame f.bytes) = a → a.toNat / 2 ^ 30 = 2 → ∀ x : Fin 256, a.toNat % 256 = x.val →
      ∃ g, s.steer q f = s.modFc x (fun y => { y with waiting := y.waiting ++ [g] }) ∧ g.1.bytes = f.bytes ∧ g.2.1.val = (if a.getLsbD 26 then (parseFrame f.bytes).pcp (s.defPcp q) % 8 else a.toNat / 2 ^ 27 % 8) ∧ g.2.2 = true) ∧
    (∀ (s : State) (q : PortCode) (f : Frame) (a : Reg32), s.steerAct q (parseFrame f.bytes) = a → (a.toNat / 2 ^ 30 = 0 ∧ portOfCode (a.toNat % 256) = some q ∨ a.toNat / 2 ^ 30 = 0 ∧ portOfCode (a.toNat % 256) = none ∨
      a.toNat / 2 ^ 30 = 1 ∧ (a.toNat % 256 < 32 ∨ 64 ≤ a.toNat % 256)) → s.steer q f = s.countPort q 9 1) ∧
    (∀ (s : State) (q : PortCode) (p : Parsed) (e : Nat), e < 64 → s.filterMatch q p e = true → (∀ i, i < e → s.filterMatch q p i = false) →
      s.steerAct q p = s.reg (portBase q + 0x40C + 16 * e)) ∧
    (∀ (s : State) (q : PortCode) (p : Parsed), (∀ i, i < 64 → s.filterMatch q p i = false) → s.steerAct q p = s.reg (portBase q + 0x10)) ∧
    (∀ (s : State) (p : Party) (q : PortCode) (e : Fin 64) (v : Reg32), s.blocksUp = true → s.mayConfigure p (s.portBound q) = true → q.isP = true →
      Sparse.wf regReset s.regs = true →
      ∃ t, exec (.fltKey0Write p q e v) s = .next t ∧ t = { s with regs := t.regs, ports := t.ports } ∧ OtherPorts s t q ∧ t.reg (portBase q + 0x400 + 16 * e.val) = v &&& 0xE0FFFFFF ∧
        (∀ k, k = 4 ∨ k = 8 ∨ k = 12 → t.reg ((portBase q + 0x400 + 16 * e.val) + k) = match (s.port q).fltStaged.find? (fun y => decide (y.1 = 0x400 + 16 * e.val + k)) with
          | some y => y.2
          | none => s.reg ((portBase q + 0x400 + 16 * e.val) + k)) ∧
        ∀ o, (o < (portBase q + 0x400 + 16 * e.val) ∨ (portBase q + 0x400 + 16 * e.val) + 16 ≤ o) → t.reg o = s.reg o)

/-- Gate control lists: commit, change time and entry change (R274, R277, R278). -/
def Obligations.GateListsChange : Prop :=
  (∀ (s : State) (p : Party) (q : PortCode) (v : Reg32), s.blocksUp = true → s.mayConfigure p (s.portBound q) = true → ((s.adminList q (setBit v 30 true)).entries = [] ∨ (∃ e ∈ (s.adminList q (setBit v 30 true)).entries, e.2 < 16) ∨ (s.adminList q (setBit v 30 true)).cycle < 128) →
      ∃ t, exec (.gclCommit p q v) s = .next t ∧ t = { s with regs := t.regs, ports := t.ports } ∧ OtherPorts s t q ∧ (t.port q) = { (s.port q) with gclState := 3 }) ∧
    (∀ (s : State) (p : Party) (q : PortCode) (v : Reg32), s.blocksUp = true → s.mayConfigure p (s.portBound q) = true → ¬ ((s.adminList q (setBit v 30 true)).entries = [] ∨ (∃ e ∈ (s.adminList q (setBit v 30 true)).entries, e.2 < 16) ∨ (s.adminList q (setBit v 30 true)).cycle < 128) →
      ∃ t, exec (.gclCommit p q v) s = .next t ∧ t = { s with regs := t.regs, ports := t.ports } ∧ OtherPorts s t q ∧ (t.port q) = { (s.port q) with gclState := 1, ct := (t.port q).ct, pend := some ((s.adminList q (setBit v 30 true)), (t.port q).ct) } ∧
        (s.nsAt (s.adminList q (setBit v 30 true)).td s.now) + 2000000 < (t.port q).ct ∧ (s.adminList q (setBit v 30 true)).base ≤ (t.port q).ct ∧ ((t.port q).ct - (s.adminList q (setBit v 30 true)).base) % (s.adminList q (setBit v 30 true)).cycle = 0 ∧ ((s.adminList q (setBit v 30 true)).base < (t.port q).ct → (t.port q).ct < (s.nsAt (s.adminList q (setBit v 30 true)).td s.now) + 2000002 + (s.adminList q (setBit v 30 true)).cycle)) ∧
    (∀ (s : State) (p : Party) (q : PortCode) (v : Reg32), s.blocksUp = true → s.mayConfigure p (s.portBound q) = false → exec (.gclCommit p q v) s = .next (s.refused p (portBase q + 0x800) (setBit v 30 true).toNat)) ∧
    (∀ (s : State) (q : PortCode) (x : Gcl) (n : Nat), s.blocksUp = true → (s.port q).pend = some (x, n) →
      ∃ t, exec (.gclChangeTime q) s = .next t ∧ t = { s with now := t.now, ports := t.ports } ∧ OtherPorts s t q ∧ (t.port q) = { (s.port q) with oper := some { x with base := n }, pend := none, gclState := 0, gates := (t.port q).gates } ∧
        (x.en = false → (t.port q).gates = 0xFF) ∧ (∀ e r, x.en = true → x.entries = e :: r → 0 < e.2 → 0 < x.cycle → (t.port q).gates = e.1)) ∧
    (∀ (s : State) (q : PortCode), s.blocksUp = true → ∃ t, exec (.gateEntryChange q) s = .next t ∧ t = { s with now := t.now, ports := t.ports } ∧ OtherPorts s t q ∧ (t.port q) = { (s.port q) with gates := (t.port q).gates }) ∧
    (∀ (g : Gcl) (t : Nat), g.en = false → (g.at t).1 = 0xFF) ∧
    (∀ (cycle ph : Nat) (a b : Byte) (m n : Nat), m + n ≤ cycle → ph < cycle → (gclWalk cycle [(a, m), (b, n)] 0 ph).1 = if ph < m then a else b)

/-- Counter reads: CNT_LO clears into the shadow, and the shadow answers its reader (R280, R281, R282). -/
def Obligations.CountersAreReadOnce : Prop :=
  (∀ (s : State) (p : Party) (tag : BitVec 10) (q : PortCode) (k : Fin 32), s.blocksUp = true → ¬ ((∃ d, p = .chain d) ∧ (s.port q).cnt[k].req = p.code ∧ (s.port q).cnt[k].tag = tag ∧ s.tick ≤ (s.port q).cnt[k].tick + 2) →
      ∃ t, exec (.cntLoRead p tag q k) s = .next t ∧ t = { s with ports := t.ports, readValue := t.readValue, orphPf := t.orphPf } ∧ OtherPorts s t q ∧
        t.readValue = (s.port q).cnt[k].v.extractLsb' 0 32 ∧ (t.port q).cnt[k] = { v := 0, sh := (s.port q).cnt[k].v, req := p.code, tag := tag, tick := s.tick } ∧ ∀ m, m ≠ k → (t.port q).cnt[m] = (s.port q).cnt[m]) ∧
    (∀ (s : State) (p : Party) (tag : BitVec 10) (q : PortCode) (k : Fin 32), s.blocksUp = true → ((∃ d, p = .chain d) ∧ (s.port q).cnt[k].req = p.code ∧ (s.port q).cnt[k].tag = tag ∧ s.tick ≤ (s.port q).cnt[k].tick + 2) →
      ∃ t, exec (.cntLoRead p tag q k) s = .next t ∧ t.readValue = (s.port q).cnt[k].sh.extractLsb' 0 32 ∧ ∀ o, t.port o = s.port o) ∧
    (∀ (s : State) (p : Party) (tag : BitVec 10) (q : PortCode) (k : Fin 32) (hi : Bool), s.blocksUp = true →
      ∃ t, exec (.cntShadowRead p tag q k hi) s = .next t ∧ t = { s with readValue := t.readValue, orphPf := t.orphPf } ∧
        t.readValue = (if (s.port q).cnt[k].req = p.code then (if hi then (s.port q).cnt[k].sh.extractLsb' 32 32 else (s.port q).cnt[k].sh.extractLsb' 0 32) else 0))

/-- A counter's shadow answers the requester that filled it and no other (R281). -/
def Obligations.ShadowsAnswerTheirReader : Prop :=
  (∀ (s : State) (p : Party) (tag : BitVec 10) (q : PortCode) (k : Fin 32) (hi : Bool), s.blocksUp = true →
      ∃ t, exec (.cntShadowRead p tag q k hi) s = .next t ∧ t.readValue = (if (s.port q).cnt[k].req = p.code then (if hi then (s.port q).cnt[k].sh.extractLsb' 32 32 else (s.port q).cnt[k].sh.extractLsb' 0 32) else 0)) ∧
    (∀ (s : State) (p : Party) (a b : BitVec 10) (q : PortCode) (k : Fin 32), s.blocksUp = true → (∀ d, p ≠ .chain d) →
      ∃ t u, exec (.cntLoRead p a q k) s = .next t ∧ exec (.cntShadowRead p b q k true) t = .next u ∧ u.readValue ++ t.readValue = (s.port q).cnt[k].v)

/-- Admission, marking and tail drop of a copy (R299, R300, R301, R515). -/
def Obligations.CopiesAreAdmitted : Prop :=
  (∀ (s : State) (e : QEntry) (t0 : Nat) (x : Nat), s.blocksUp = true → s.arrives e t0 → (s.port e.out).dropping = false → e.frame.full = some x → x ≤ max s.now t0 → (((s.at_ t0).depth e.out e.cls) + (cellsOf e.frame.total) ≤ s.qDrop e.out e.cls ∧ (s.at_ t0).sharedUsed + (((s.at_ t0).depth e.out e.cls) + (cellsOf e.frame.total) - s.qMin e.out e.cls - (((s.at_ t0).depth e.out e.cls) - s.qMin e.out e.cls)) ≤ s.sharedSize) → ((s.at_ t0).depth e.out e.cls) + (cellsOf e.frame.total) ≤ s.qMark e.out e.cls → e.frame.lso = none →
      ∃ t, exec .frameAdmission s = .next t ∧ t = { s with now := max s.now t0, mortar := t.mortar, ports := t.ports } ∧ t.mortar.queue = s.mortar.queue ++ [{ e with charge := (cellsOf e.frame.total) }] ∧
        t.mortar.arriving = s.mortar.arriving.erase e ∧ (t.queueCounts e.out e.cls).enq = (s.queueCounts e.out e.cls).enq + 1 ∧
        (t.queueCounts e.out e.cls).tailDrop = (s.queueCounts e.out e.cls).tailDrop) ∧
    (∀ (s : State) (e : QEntry) (t0 : Nat) (x : Nat), s.blocksUp = true → s.arrives e t0 → (s.port e.out).dropping = false → e.frame.full = some x → x ≤ max s.now t0 → (((s.at_ t0).depth e.out e.cls) + (cellsOf e.frame.total) ≤ s.qDrop e.out e.cls ∧ (s.at_ t0).sharedUsed + (((s.at_ t0).depth e.out e.cls) + (cellsOf e.frame.total) - s.qMin e.out e.cls - (((s.at_ t0).depth e.out e.cls) - s.qMin e.out e.cls)) ≤ s.sharedSize) → s.qMark e.out e.cls < ((s.at_ t0).depth e.out e.cls) + (cellsOf e.frame.total) → e.frame.lso = none →
      ∃ t y, exec .frameAdmission s = .next t ∧ t = { s with now := max s.now t0, mortar := t.mortar, ports := t.ports } ∧ t.mortar.queue = s.mortar.queue ++ [y] ∧ y.out = e.out ∧ y.cls = e.cls ∧ y.charge = (cellsOf e.frame.total) ∧
        (∀ b, markFrame s.dtag e.frame.bytes = .marked b → y.frame.bytes = b ∧ (t.queueCounts e.out e.cls).marked = (s.queueCounts e.out e.cls).marked + 1) ∧
        (markFrame s.dtag e.frame.bytes = .noect → y.frame = e.frame ∧ (t.queueCounts e.out e.cls).noect = (s.queueCounts e.out e.cls).noect + 1) ∧
        (markFrame s.dtag e.frame.bytes = .unchanged → y.frame = e.frame)) ∧
    (∀ (s : State) (e : QEntry) (t0 : Nat) (x : Nat), s.blocksUp = true → s.arrives e t0 → (s.port e.out).dropping = false → e.frame.full = some x → x ≤ max s.now t0 → ¬ (((s.at_ t0).depth e.out e.cls) + (cellsOf e.frame.total) ≤ s.qDrop e.out e.cls ∧ (s.at_ t0).sharedUsed + (((s.at_ t0).depth e.out e.cls) + (cellsOf e.frame.total) - s.qMin e.out e.cls - (((s.at_ t0).depth e.out e.cls) - s.qMin e.out e.cls)) ≤ s.sharedSize) →
      ∃ t, exec .frameAdmission s = .next t ∧ t = { s with now := max s.now t0, mortar := t.mortar, ports := t.ports } ∧ t.mortar.queue = s.mortar.queue ∧ t.mortar.arriving = s.mortar.arriving.erase e ∧
        (t.queueCounts e.out e.cls).tailDrop = (s.queueCounts e.out e.cls).tailDrop + 1 ∧ (t.queueCounts e.out e.cls).enq = (s.queueCounts e.out e.cls).enq) ∧
    (∀ (s : State) (e : QEntry) (t0 : Nat), s.blocksUp = true → s.arrives e t0 → (s.port e.out).dropping = true →
      ∃ t, exec .frameAdmission s = .next t ∧ t = { s with now := max s.now t0, mortar := t.mortar, ports := t.ports } ∧ t.mortar.queue = s.mortar.queue ∧
        t.counter e.out (holdDrop e.cls) = satAdd (s.counter e.out (holdDrop e.cls)) 1) ∧
    (∀ (dtag : Option Nat) (b : List Byte), (parseFrame b).etype = 0x86DD →
      ((byteAt b ((parseFrame b).at_ + 3)) / 16 % 4 = 0 → markFrame dtag b = .noect) ∧ ((byteAt b ((parseFrame b).at_ + 3)) / 16 % 4 = 3 → markFrame dtag b = .unchanged) ∧
      ((byteAt b ((parseFrame b).at_ + 3)) / 16 % 4 = 1 ∨ (byteAt b ((parseFrame b).at_ + 3)) / 16 % 4 = 2 → ∃ m, markFrame dtag b = .marked m ∧
        ((parseFrame b).at_ + 4 ≤ b.length → m.length = b.length ∧ byteAt m ((parseFrame b).at_ + 3) / 16 % 4 = 3 ∧
          ∀ i, i ≠ (parseFrame b).at_ + 3 → byteAt m i = byteAt b i))) ∧
    (∀ (b : List Byte) (n : Nat), (parseFrame b).etype ≠ 0x0800 → (parseFrame b).etype ≠ 0x86DD →
      (markFrame none b = .noect) ∧ ((parseFrame b).etype ≠ n → markFrame (some n) b = .noect) ∧
      ((parseFrame b).etype = n → ∃ m, markFrame (some n) b = .marked m ∧ ((parseFrame b).at_ + 3 ≤ b.length →
        byteAt m ((parseFrame b).at_ + 2) = byteAt b ((parseFrame b).at_ + 2) % 128 + 128 ∧ ∀ i, i ≠ (parseFrame b).at_ + 2 → byteAt m i = byteAt b i)))

/-- Cell times, the scheduler and the start of a frame on its line (R264, R287, R292, R293, R295, R297, R317). -/
def Obligations.TheMortarMovesCells : Prop :=
  (∀ (s : State) (h : Option EccHit), s.blocksUp = true →
      ∃ t, exec (.cellTime h) s = .next t ∧ t.bricks = s.bricks ∧ t.tiles = s.tiles ∧ t.regs = s.regs ∧ t.mailboxes = s.mailboxes ∧ t.flash = s.flash ∧ t.otp = s.otp ∧
        t.rings = s.rings ∧ t.keystone = s.keystone ∧ t.cans = s.cans ∧ t.power = s.power ∧ t.replay = s.replay ∧ SameMemories s t ∧
        t.now = max s.now (nextCellTime s.now) + 1) ∧
    (∀ (s : State), s.blocksUp = true → s.mortar.queue = [] → (∀ o, (s.port o).cur = none ∧ (s.port o).launch = []) →
      exec (.cellTime none) s = .next { s with now := max s.now (nextCellTime s.now) + 1 }) ∧
    (∀ n : Nat, n ≤ nextCellTime n ∧ nextCellTime n < n + 80 ∧ nextCellTime n % 80 = 0) ∧
    (∀ (x : Sched) (o i : PortCode) (t : Nat) (first : Bool) (g : List (PortCode × Fin 8 × PortCode)), x.moved ≤ 5 →
      (x.locked o t).moved ≤ 5 ∧ (x.select o t).moved = x.moved ∧ (Sched.accept first t g x i).moved ≤ 5) ∧
    (∀ (s : State) (o : PortCode) (c : Fin 8) (t : Nat), s.classOf o t = some c →
      (∃ i e, s.headOf i o c = some e ∧ s.mayStart o e t = true) ∧ ∀ d i e, c < d → s.headOf i o d = some e → s.mayStart o e t = false) ∧
    (∀ (s : State) (o : PortCode) (e : QEntry) (t : Nat), s.mayStart o e t = true → (s.port o).up = true ∧ (s.port o).holdEnd = none ∧
      s.gateOpen o e.cls (s.startAt o t) (s.endAt o (s.startAt o t) (s.checkLen o e t)) = true ∧
      ∀ x r, (s.port o).launch = x :: r → s.endAt o (s.startAt o t) (s.checkLen o e t) + s.byteTimes o 12 ≤ s.launchRoot o x) ∧
    (∀ (s : State) (o : PortCode) (e : QEntry) (t : Nat), o.val < 36 →
      s.moveCell o e t = { s with ports := (s.moveCell o e t).ports } ∧ OtherPorts s (s.moveCell o e t) o ∧
      ((s.moveCell o e t).port o).cur = (if cellsOf e.frame.total ≤ e.sent + 1 then none else some { e with sent := e.sent + 1 })) ∧
    (∀ (s : State) (h : EccHit), s.blocksUp = true → h.ue = false →
      ∃ t u, exec (.cellTime none) s = .next t ∧ exec (.cellTime (some h)) s = .next u ∧ u = { t with mortar := { t.mortar with ce := t.mortar.ce + 1 } }) ∧
    (∀ (s : State) (h : EccHit), s.blocksUp = true → h.ue = true →
      ∃ t u, exec (.cellTime none) s = .next t ∧ exec (.cellTime (some h)) s = .next u ∧ u.mortar.ue = t.mortar.ue + 1 ∧ u.mortar.ueAddr = h.cell ∧ h.cell ∈ u.mortar.quar ∧
        (u.queueCounts h.output h.cls).eccErr = (t.queueCounts h.output h.cls).eccErr + 1) ∧
    (∀ (s : State) (q : PortCode) (interp : BitVec 7) (e : QEntry) (st : Nat) (r : List (QEntry × Nat)), s.blocksUp = true → (s.port q).starting = (e, st) :: r → q.isP = true →
      (s.portCfg q).toNat / 2 ^ 22 % 4 = 0 → (s.tsCfg q).getLsbD 31 = false → s.untags q e.frame.bytes = false →
      ∃ t, exec (.egressFrameStart q interp) s = .next t ∧ t = { s with now := max s.now st, ports := t.ports, lineOut := t.lineOut } ∧ OtherPorts s t q ∧ (t.port q).starting = r ∧
        (t.port q).onLine = some (e, st + s.byteTimes q (8 + (max e.frame.total 60 + 4))) ∧
        t.counter q 10 = satAdd (s.counter q 10) 1 ∧ t.counter q 11 = satAdd (s.counter q 11) (max e.frame.total 60 + 4) ∧
        t.counter q 12 = (if e.frame.info.err then satAdd (s.counter q 12) 1 else s.counter q 12) ∧
        ∃ x, t.lineOut = s.lineOut ++ [x] ∧ x.port = q ∧ x.bytes = e.frame.bytes ++ List.replicate (60 - e.frame.bytes.length) 0 ∧ x.err = e.frame.info.err ∧ x.cut = false ∧ x.id = e.frame.id)

/-- What a flow context does with a frame: steps 1 to 8 (R305, R306, R307, R308, R309, R310, R523). -/
def Obligations.FlowContextsActOnFrames : Prop :=
  (∀ (s : State) (f : Fin 256) (w : Frame × Fin 8 × Bool), s.blocksUp = true → (s.fc f).waiting.foldl firstWaiting none = some w → (w.1.info.err = true ∨ (s.fcCfg f).getLsbD 31 = false) → exec (.flowContextTake f) s = .next (s.taken f w)) ∧
    (∀ (s : State) (f : Fin 256) (w : Frame × Fin 8 × Bool), s.blocksUp = true → (s.fc f).waiting.foldl firstWaiting none = some w → w.1.info.err = false → (s.fcCfg f).getLsbD 31 = true → (w.2.2 = false ∧ (s.fcCfg f).toNat / 256 % 16 ≠ (if w.1.info.ingress.isH then 13 else w.1.info.ingress.val - 37)) → ∃ t, exec (.flowContextTake f) s = .next t ∧ CountsFlow (s.taken f w) t f 2) ∧
    (∀ (s : State) (f : Fin 256) (w : Frame × Fin 8 × Bool), s.blocksUp = true → (s.fc f).waiting.foldl firstWaiting none = some w → w.1.info.err = false → (s.fcCfg f).getLsbD 31 = true → ¬ (w.2.2 = false ∧ (s.fcCfg f).toNat / 256 % 16 ≠ (if w.1.info.ingress.isH then 13 else w.1.info.ingress.val - 37)) → (s.reg (fcBase f + 0xC)).getLsbD 31 = true → ¬ (beAt w.1.bytes 0 2 = (s.reg (fcBase f + 0xC)).toNat % 2 ^ 16 ∧ beAt w.1.bytes 2 4 = (s.reg (fcBase f + 8)).toNat ∧ ((s.reg (fcBase f + 0xC)).getLsbD 30 = true → (parseFrame w.1.bytes).vid (s.pvid w.1.info.ingress) = (s.reg (fcBase f + 0xC)).toNat / 2 ^ 16 % 2 ^ 12)) → ∃ t, exec (.flowContextTake f) s = .next t ∧ CountsFlow (s.taken f w) t f 1) ∧
    (∀ (s : State) (f : Fin 256) (w : Frame × Fin 8 × Bool), s.blocksUp = true → (s.fc f).waiting.foldl firstWaiting none = some w → w.1.info.err = false → (s.fcCfg f).getLsbD 31 = true → ¬ (w.2.2 = false ∧ (s.fcCfg f).toNat / 256 % 16 ≠ (if w.1.info.ingress.isH then 13 else w.1.info.ingress.val - 37)) → ((s.reg (fcBase f + 0xC)).getLsbD 31 = true → (beAt w.1.bytes 0 2 = (s.reg (fcBase f + 0xC)).toNat % 2 ^ 16 ∧ beAt w.1.bytes 2 4 = (s.reg (fcBase f + 8)).toNat ∧ ((s.reg (fcBase f + 0xC)).getLsbD 30 = true → (parseFrame w.1.bytes).vid (s.pvid w.1.info.ingress) = (s.reg (fcBase f + 0xC)).toNat / 2 ^ 16 % 2 ^ 12))) → (s.fcCfg f).getLsbD 29 = true → (s.fcCfg f).getLsbD 28 = false → ((s.fc f).police ((s.reg (fcBase f + 0x30)).toNat % 2 ^ 24) ((s.reg (fcBase f + 0x34)).toNat % 2 ^ 24) (s.taken f w).now (w.1.total + 4)).2 = false →
      ∃ t, exec (.flowContextTake f) s = .next t ∧ CountsFlow (s.taken f w) t f 3) ∧
    (∀ (s : State) (f : Fin 256) (w : Frame × Fin 8 × Bool), s.blocksUp = true → (s.fc f).waiting.foldl firstWaiting none = some w → w.1.info.err = false → (s.fcCfg f).getLsbD 31 = true → ¬ (w.2.2 = false ∧ (s.fcCfg f).toNat / 256 % 16 ≠ (if w.1.info.ingress.isH then 13 else w.1.info.ingress.val - 37)) → ((s.reg (fcBase f + 0xC)).getLsbD 31 = true → (beAt w.1.bytes 0 2 = (s.reg (fcBase f + 0xC)).toNat % 2 ^ 16 ∧ beAt w.1.bytes 2 4 = (s.reg (fcBase f + 8)).toNat ∧ ((s.reg (fcBase f + 0xC)).getLsbD 30 = true → (parseFrame w.1.bytes).vid (s.pvid w.1.info.ingress) = (s.reg (fcBase f + 0xC)).toNat / 2 ^ 16 % 2 ^ 12))) → (s.fcCfg f).getLsbD 30 = false → (s.fcCfg f).getLsbD 29 = false → (s.fcCfg f).getLsbD 24 = false → (s.fcCfg f).getLsbD 23 = false → (s.fcCfg f).getLsbD 16 = false →
      exec (.flowContextTake f) s = .next ((((s.taken f w).countFc f 0).memberOutputs f).foldl (fun s o => s.replicate f { w.1 with total := w.1.bytes.length } w.2.1 none (if (s.fcCfg f).getLsbD 20 then 1 else 0) o) ((s.taken f w).countFc f 0))) ∧
    (∀ (s : State) (f : Fin 256) (fr : Frame) (c : Fin 8) (l : Option Nat) (td : Fin 2) (o : PortCode), (s.port o).up = false →
      CountsFlow s (s.replicate f fr c l td o) f 12) ∧
    (∀ (s : State) (f : Fin 256) (fr : Frame) (c : Fin 8) (l : Option Nat) (td : Fin 2) (o : PortCode), (s.port o).up = true → s.maxFrame o < fr.total + 4 →
      CountsFlow s (s.replicate f fr c l td o) f 16) ∧
    (∀ (x : FlowCtx) (cir cbs t n : Nat), (n * 65536 ≤ min (cbs * 65536) (x.tokens + cir * ((t - x.tokAt) / 5)) → (x.police cir cbs t n).2 = true ∧
        (x.police cir cbs t n).1.tokens = min (cbs * 65536) (x.tokens + cir * ((t - x.tokAt) / 5)) - n * 65536) ∧
      (min (cbs * 65536) (x.tokens + cir * ((t - x.tokAt) / 5)) < n * 65536 → (x.police cir cbs t n).2 = false)) ∧
    (∀ (b p n : Nat), 0 < p → ∃ k, launchTime b p n = b + k * p ∧ n ≤ b + k * p ∧ ∀ j, n ≤ b + j * p → k ≤ j) ∧
    (∀ (x : FlowCtx) (len : Nat) (q : Word) (t : Nat), x.takeAny = true → (x.vector len q t).2 = true ∧ (x.vector len q t).1.takeAny = false ∧ (x.vector len q t).1.rseq = q ∧
      (x.vector len q t).1.cnt[5] = x.cnt[5] + 1) ∧
    (∀ (x : FlowCtx) (len : Nat) (t : Nat), x.takeAny = false → 0 < len → x.hist.getLsbD 0 = true → (x.vector len x.rseq t).2 = false ∧ (x.vector len x.rseq t).1.cnt[6] = x.cnt[6] + 1) ∧
    (∀ (x : FlowCtx) (len : Nat) (t : Nat), x.takeAny = false → 1 < len → (x.vector len (x.rseq + 1) t).2 = true ∧ (x.vector len (x.rseq + 1) t).1.rseq = x.rseq + 1 ∧
      (x.vector len (x.rseq + 1) t).1.hist.getLsbD 0 = true ∧ (x.vector len (x.rseq + 1) t).1.cnt[5] = x.cnt[5] + 1) ∧
    (∀ (b : List Byte) (n : Word), rtagOf (pushRtag b n) = some n ∧ popRtag (pushRtag b n) = b ∨ b.length < 20)

/-- Writes of flow-context, threshold and fence registers, and the recovery timeout (R299, R307, R308, R310, R312, R313, R316). -/
def Obligations.FlowAndQueueRegisters : Prop :=
  (∀ (s : State) (p : Party) (f : Fin 256) (v : Reg32), s.blocksUp = true → s.mayConfigure p (s.fcBound f) = true → v.getLsbD 31 = true → (v.getLsbD 24 = true ∧ v.getLsbD 23 = true ∨ v.getLsbD 30 = true ∧ s.reg (fcBase f + 0x20) = 0 ∨ (((List.range 4).map (fun k => (s.reg (fcBase f + 4)).toNat / 2 ^ (8 * k) % 256)).filter (fun n => decide (n ≠ 0xFF))) = [] ∨ ¬ (((List.range 4).map (fun k => (s.reg (fcBase f + 4)).toNat / 2 ^ (8 * k) % 256)).filter (fun n => decide (n ≠ 0xFF))).Nodup) →
      exec (.fcCfgWrite p f v) s = .next (s.refused p (fcBase f) v.toNat)) ∧
    (∀ (s : State) (p : Party) (f : Fin 256) (v : Reg32), s.blocksUp = true → s.mayConfigure p (s.fcBound f) = true → Sparse.wf regReset s.regs = true → (v.getLsbD 31 = false ∨ v.getLsbD 24 = false ∧ v.getLsbD 30 = false ∧ (((List.range 4).map (fun k => (s.reg (fcBase f + 4)).toNat / 2 ^ (8 * k) % 256)).filter (fun n => decide (n ≠ 0xFF))) ≠ [] ∧ (((List.range 4).map (fun k => (s.reg (fcBase f + 4)).toNat / 2 ^ (8 * k) % 256)).filter (fun n => decide (n ≠ 0xFF))).Nodup) →
      ∃ t, exec (.fcCfgWrite p f v) s = .next t ∧ t = { s with regs := t.regs } ∧ t.fcCfg f = v &&& 0xFFFF0F00 ∧ ∀ o, o ≠ fcBase f → t.reg o = s.reg o) ∧
    (∀ (s : State) (p : Party) (f : Fin 256) (v : Reg32), s.blocksUp = true → s.mayConfigure p (s.fcBound f) = false → exec (.fcCfgWrite p f v) s = .next (s.refused p (fcBase f) v.toNat)) ∧
    (∀ (s : State) (p : Party) (f : Fin 256) (cbs : Bool) (v : Reg32), s.blocksUp = true → s.mayConfigure p (s.fcBound f) = true → Sparse.wf regReset s.regs = true →
      ∃ t, exec (.fcCirWrite p f cbs v) s = .next t ∧ t = { s with regs := t.regs, fcs := t.fcs } ∧ t.reg (fcBase f + (if cbs then 0x34 else 0x30)) = v &&& 0xFFFFFF ∧
        (∀ o, o ≠ fcBase f + (if cbs then 0x34 else 0x30) → t.reg o = s.reg o) ∧ (∀ g, g ≠ f → t.fc g = s.fc g) ∧
        t.fc f = { s.fc f with tokens := (if cbs then v.toNat % 2 ^ 24 else (s.reg (fcBase f + 0x34)).toNat % 2 ^ 24) * 65536, tokAt := s.now }) ∧
    (∀ (s : State) (p : Party) (f : Fin 256) (k : Fin 3) (v : Reg32), s.blocksUp = true → s.mayConfigure p (s.fcBound f) = true → Sparse.wf regReset s.regs = true →
      ∃ t, exec (.fcLbaseWrite p f k v) s = .next t ∧ t = { s with regs := t.regs, fcs := t.fcs } ∧ (∀ g, g ≠ f → t.fc g = s.fc g) ∧
        t.fc f = { s.fc f with lnext := t.time3 (fcBase f + 0x14) } ∧ t.reg (fcBase f + 0x14 + 4 * k.val) = (if k = 0 then v &&& 0x3FFFFFFF else if k = 1 then v else v &&& 0xFFFF) ∧
        ∀ o, o ≠ fcBase f + 0x14 + 4 * k.val → t.reg o = s.reg o) ∧
    (∀ (s : State) (f : Fin 256), s.blocksUp = true → (s.fcCfg f).getLsbD 31 = true → (s.fcCfg f).getLsbD 23 = true → (s.reg (fcBase f + 0x44)).toNat % 2 ^ 16 ≠ 0 → (s.fc f).takeAny = false →
      ∃ t, exec (.recoveryResetTimeout f) s = .next t ∧ t = { s with now := t.now, fcs := t.fcs } ∧ (∀ g, g ≠ f → t.fc g = s.fc g) ∧ (t.fc f).takeAny = true ∧ (t.fc f).rseq = 0xFFFF ∧
        (t.fc f).hist = 0 ∧ (t.fc f).cnt[10] = (s.fc f).cnt[10] + 1 ∧ t.now = max s.now ((s.fc f).lastAt + (s.reg (fcBase f + 0x44)).toNat % 2 ^ 16 * 5000)) ∧
    (∀ (s : State) (p : Party) (q : PortCode) (c : Fin 8) (k : Fin 3) (v : Reg32), s.blocksUp = true → s.pf1MgrKey p = true → ((if k = 0 then (v.toNat % 2 ^ 18) else s.qMin q c) ≤ (if k = 1 then (v.toNat % 2 ^ 18) else s.qMark q c) ∧ (if k = 1 then (v.toNat % 2 ^ 18) else s.qMark q c) ≤ (if k = 2 then (v.toNat % 2 ^ 18) else s.qDrop q c)) → (k = 0 → (v.toNat % 2 ^ 18) + 16384 ≤ s.sharedSize + s.qMin q c) → Sparse.wf regReset s.regs = true →
      ∃ t, exec (.qThresholdWrite p q c k v) s = .next t ∧ t = { s with regs := t.regs } ∧ t.reg (queueBase q c + 4 * k.val) = v &&& 0x3FFFF ∧
        ∀ o, o ≠ queueBase q c + 4 * k.val → t.reg o = s.reg o) ∧
    (∀ (s : State) (p : Party) (q : PortCode) (c : Fin 8) (k : Fin 3) (v : Reg32), s.blocksUp = true → (s.pf1MgrKey p = false ∨ ¬ ((if k = 0 then (v.toNat % 2 ^ 18) else s.qMin q c) ≤ (if k = 1 then (v.toNat % 2 ^ 18) else s.qMark q c) ∧ (if k = 1 then (v.toNat % 2 ^ 18) else s.qMark q c) ≤ (if k = 2 then (v.toNat % 2 ^ 18) else s.qDrop q c)) ∨ ¬ (k = 0 → (v.toNat % 2 ^ 18) + 16384 ≤ s.sharedSize + s.qMin q c)) →
      exec (.qThresholdWrite p q c k v) s = .next (s.refused p (queueBase q c + 4 * k.val) v.toNat)) ∧
    (∀ (s : State) (v : Reg32), s.blocksUp = true → s.fenceFits v = true → Sparse.wf regReset s.regs = true →
      ∃ t, exec (.bufFenceWrite .keystone v) s = .next t ∧ t = { s with regs := t.regs } ∧ t.reg 0x980010 = (0 : Word) ++ (v.extractLsb' 0 16 ||| s.mortar.failed) ∧ ∀ o, o ≠ 0x980010 → t.reg o = s.reg o) ∧
    (∀ (s : State) (p : Party) (v : Reg32), s.blocksUp = true → (p ≠ .keystone ∨ s.fenceFits v = false) → exec (.bufFenceWrite p v) s = .next (s.refused p 0x980010 v.toNat))

/-- Domain values, time quads, TD_SET and the states of a domain (R320, R321, R322, R325, R328). -/
def Obligations.TimesAreReadSetAndEnabled : Prop :=
  (∀ (x : Domain) (k r : Nat), -(2 ^ 48) ≤ x.rate → x.at_ ≤ 40 * k → r < 40 →
      x.value (40 * k + r) = x.value (40 * k) + (x.stepLen * r / 40).toNat ∧ x.value (40 * (k + 1)) = x.value (40 * k) + (8 * 2 ^ 48 + 8 * x.rate).toNat) ∧
    (∀ (x : Domain) (t u : Nat), -(2 ^ 48) ≤ x.rate → x.at_ ≤ t → t ≤ u → x.value t ≤ x.value u) ∧
    (∀ (s : State) (p : Party) (tag : BitVec 10) (off : Offset) (q : BitVec 96), s.blocksUp = true → s.quadAt off.toNat = some q →
      ∃ t, exec (.timeQuadRead p tag off) s = .next t ∧ t.readValue = (0 : Word) ++ q.extractLsb' 0 16 ∧
        t = { s with readValue := t.readValue, orphPf := t.orphPf, plumb := { s.plumb with latches := t.plumb.latches } } ∧
        (Sparse.wf (fun _ => (0 : BitVec 96)) s.plumb.latches = true → t.quadLatch off.toNat p.code = q) ∧
        ∀ o c, ¬ (o = off.toNat ∧ c = p.code) → t.quadLatch o c = s.quadLatch o c) ∧
    (∀ (s : State) (code : BitVec 8) (off k : Nat), (s.quadAt off).isSome = true → 1 ≤ k → k ≤ 3 →
      s.plumbRead code (off + 4 * k) = (quadWord (s.quadLatch off code) k, s)) ∧
    (∀ (s : State) (p : Party) (d : Fin 2) (v : Reg32), s.plumbBy p → quadOk (s.stagedQuad (tdBase d + 0x20) v) = false → exec (.tdSetCommit p d v) s = .next (s.refused p (tdBase d + 0x2C) v.toNat)) ∧
    (∀ (s : State) (p : Party) (d : Fin 2) (v : Reg32), s.plumbBy p → quadOk (s.stagedQuad (tdBase d + 0x20) v) = true → (s.dom d).st ≠ .free →
      exec (.tdSetCommit p d v) s = .next ((s.setQuad (tdBase d + 0x20) (s.stagedQuad (tdBase d + 0x20) v)).refused p (tdBase d + 0x2C) 0)) ∧
    (∀ (s : State) (p : Party) (d : Fin 2) (v : Reg32), s.plumbBy p → quadOk (s.stagedQuad (tdBase d + 0x20) v) = true → (s.dom d).st = .free →
      ∃ t, exec (.tdSetCommit p d v) s = .next t ∧ t.now = timeEdge (s.now + 1) ∧ t.tdValue d t.now = ofQuad (s.stagedQuad (tdBase d + 0x20) v) ∧ (t.dom d).stepped = true ∧
        (t.dom d).st = .free ∧ (t.dom d).rate = (s.dom d).rate ∧ t.dom (otherTd d) = s.dom (otherTd d) ∧ StepLeaves s t) ∧
    (∀ (s : State) (p : Party) (d : Fin 2), s.plumbBy p → (s.dom d).st = .free →
      ∃ t, exec (.tdEnable p d) s = .next t ∧ t = { s with regs := t.regs, plumb := t.plumb } ∧ (t.dom d).st = .acquire ∧ (t.tdCtrl d).getLsbD 31 = true ∧ (∀ o, o ≠ tdBase d → t.reg o = s.reg o) ∧ (∀ e, t.tdValue e s.now = s.tdValue e s.now ∧ (t.dom e).servo = (s.dom e).servo ∧ (t.dom e).integ = (s.dom e).integ) ∧ (t.dom (otherTd d)).st = (s.dom (otherTd d)).st) ∧
    (∀ (s : State) (p : Party) (d : Fin 2), s.plumbBy p → (s.tdCtrl d).getLsbD 31 = true → ((s.dom d).st = .track ∨ (s.dom d).st = .holdover) →
      ∃ t, exec (.tdArm p d) s = .next t ∧ t = { s with regs := t.regs, plumb := t.plumb } ∧ (t.dom d).st = .acquire ∧ (∀ o, o ≠ tdBase d → t.reg o = s.reg o) ∧ (∀ e, t.tdValue e s.now = s.tdValue e s.now ∧ (t.dom e).servo = (s.dom e).servo ∧ (t.dom e).integ = (s.dom e).integ) ∧ (t.dom (otherTd d)).st = (s.dom (otherTd d)).st) ∧
    (∀ (s : State) (p : Party) (d : Fin 2), s.plumbBy p → (s.reg 0x200400).getLsbD 30 = false →
      ∃ u t, exec (.tdDisable p d) s = .next t ∧ Logs u t ∧ u = { s with regs := u.regs, plumb := u.plumb } ∧ (t.dom d).st = .free ∧ (t.dom d).locked = false ∧
        (t.tdCtrl d).getLsbD 31 = false ∧ (∀ o, o ≠ tdBase d → t.reg o = s.reg o) ∧ (∀ e, t.tdValue e s.now = s.tdValue e s.now ∧ (t.dom e).servo = (s.dom e).servo ∧ (t.dom e).integ = (s.dom e).integ)) ∧
    (∀ (s : State) (d : Fin 2), s.blocksUp = true → (s.dom d).st = .track → (s.dom d).lastTick + (s.tdCtrl d).toNat % 2 ^ 16 ≤ s.tick → (s.reg 0x200400).getLsbD 30 = false →
      ∃ u t, exec (.tdTimeout d) s = .next t ∧ Logs u t ∧ u = { s with plumb := u.plumb } ∧ (t.dom d).st = .holdover ∧ (t.dom d).locked = false ∧
        (t.dom d).servo = (s.dom d).integ ∧ ∀ e, t.tdValue e s.now = s.tdValue e s.now) ∧
    (∀ (s : State) (p : Party) (d : Fin 2), s.blocksUp = true → s.pf1MgrKey p = false → exec (.tdEnable p d) s = .next (s.refused p (tdBase d) (setBit (s.tdCtrl d) 31 true).toNat)) ∧
    (∀ (s : State) (p : Party) (d : Fin 2), s.blocksUp = true → s.pf1MgrKey p = false → exec (.tdDisable p d) s = .next (s.refused p (tdBase d) (setBit (s.tdCtrl d) 31 false).toNat)) ∧
    (∀ (s : State) (p : Party) (d : Fin 2), s.blocksUp = true → s.pf1MgrKey p = false → exec (.tdArm p d) s = .next (s.refused p (tdBase d) (setBit (s.tdCtrl d) 30 true).toNat))

/-- A sample in ACQUIRE steps the domain once, and in TRACK or HOLDOVER turns into rate (R326, R327). -/
def Obligations.SamplesSteerADomain : Prop :=
  (∀ (s : State) (p : Party) (d : Fin 2) (v : Reg32), s.plumbBy p → (s.tdCtrl d).toNat / 2 ^ 28 % 4 ≠ 0 → exec (.sampleSubmit p d v) s = .next s) ∧
    (∀ (s : State) (p : Party) (d : Fin 2) (v : Reg32), s.blocksUp = true → s.pf1MgrKey p = false → exec (.sampleSubmit p d v) s = .next (s.refused p (tdBase d + 0x4C) v.toNat)) ∧
    (∀ (s : State) (p : Party) (d : Fin 2) (v : Reg32) (u : Nat), s.plumbBy p → (s.tdCtrl d).toNat / 2 ^ 28 % 4 = 0 → (s.dom d).st ≠ .free → (s.dom d).tPrev = some u → (s.sampleT d v.toNat) ≤ u → exec (.sampleSubmit p d v) s = .next (s.setDom d { s.dom d with stale := satInc (s.dom d).stale })) ∧
    (∀ (s : State) (p : Party) (d : Fin 2) (v : Reg32), s.plumbBy p → (s.tdCtrl d).toNat / 2 ^ 28 % 4 = 0 → (s.dom d).st ≠ .free → (∀ u, (s.dom d).tPrev = some u → u < (s.sampleT d v.toNat)) → (s.dom d).st = .acquire →
      ∃ t, exec (.sampleSubmit p d v) s = .next t ∧ t.now = s.now ∧ t.tdValue d t.now = ((s.tdValue d s.now : Int) - (s.sampleX d) * 2 ^ 32).toNat ∧
        (t.dom d).st = .track ∧ (t.dom d).havePrev = false ∧ (t.dom d).stepped = true ∧ (t.dom d).last = (s.sampleX d) ∧ (t.dom d).tPrev = some (s.sampleT d v.toNat) ∧ StepLeaves s t) ∧
    (∀ (s : State) (p : Party) (d : Fin 2) (v : Reg32) (u : Nat), s.plumbBy p → (s.tdCtrl d).toNat / 2 ^ 28 % 4 = 0 → (s.dom d).st ≠ .free → (s.dom d).st ≠ .acquire → (s.dom d).havePrev = true → (s.dom d).tPrev = some u → u < (s.sampleT d v.toNat) →
      ∃ (w t : State) (e : Int), exec (.sampleSubmit p d v) s = .next t ∧ Logs w t ∧ w = { s with freeCtr := w.freeCtr, plumb := w.plumb } ∧
        (e * (((s.sampleT d v.toNat) : Int) - u) - (s.sampleX d) * 2 ^ 48).natAbs < (s.sampleT d v.toNat) - u ∧ (t.dom d).st = .track ∧ (t.dom d).tPrev = some (s.sampleT d v.toNat) ∧ (t.dom d).last = (s.sampleX d) ∧
        (t.dom d).stepped = (s.dom d).stepped ∧ t.tdValue d s.now = s.tdValue d s.now ∧
        (t.dom d).far = ((s.dom d).far || decide (s.stepThr d * 65536 < (s.sampleX d).natAbs)) ∧
        (t.dom d).integ = clampInt ((s.dom d).integ - (if s.stepThr d * 65536 < (s.sampleX d).natAbs then clampInt e s.rmax else e) / 2 ^ ((s.tdCtrl d).toNat / 2 ^ 24 % 16)) s.rmax ∧
        (t.dom d).servo = clampInt ((t.dom d).integ - (if s.stepThr d * 65536 < (s.sampleX d).natAbs then clampInt e s.rmax else e) / 2 ^ ((s.tdCtrl d).toNat / 2 ^ 20 % 16)) s.rmax) ∧
    (∀ (s : State) (p : Party) (d : Fin 2) (v : Reg32), s.plumbBy p → (s.tdCtrl d).toNat / 2 ^ 28 % 4 = 0 → (s.dom d).st ≠ .free → (∀ u, (s.dom d).tPrev = some u → u < (s.sampleT d v.toNat)) → (s.dom d).st ≠ .acquire → (s.dom d).havePrev = false →
      ∃ (w t : State), exec (.sampleSubmit p d v) s = .next t ∧ Logs w t ∧ w = { s with plumb := w.plumb } ∧ (t.dom d).st = .track ∧ (t.dom d).havePrev = true ∧
        (t.dom d).integ = (s.dom d).integ ∧ (t.dom d).servo = (s.dom d).servo ∧ (t.dom d).tPrev = some (s.sampleT d v.toNat)) ∧
    (∀ (s : State) (p : Party) (d : Fin 2) (v : Reg32), s.plumbBy p → (s.tdCtrl d).toNat / 2 ^ 28 % 4 = 0 → (s.dom d).st ≠ .free → (∀ u, (s.dom d).tPrev = some u → u < (s.sampleT d v.toNat)) → ∃ t, exec (.sampleSubmit p d v) s = .next t ∧ (4 * s.lockThr d < (s.sampleX d).natAbs → (t.dom d).locked = false) ∧
        ((s.sampleX d).natAbs ≤ s.lockThr d → (t.dom d).near = (s.dom d).near + 1 ∧ (7 ≤ (s.dom d).near → (t.dom d).locked = true)) ∧
        (s.lockThr d < (s.sampleX d).natAbs → (t.dom d).near = 0)) ∧
    (∀ (x m : Int), 0 ≤ m → -m ≤ clampInt x m ∧ clampInt x m ≤ m ∧ (-m ≤ x → x ≤ m → clampInt x m = x)) ∧
    (∀ s : State, s.rmax = ((s.rootCtrl.toNat % 256 * 2 ^ 48 / 1000000 : Nat) : Int))

/-- ACT_GO, the switch of the active domain, its slew, and a lane that is aligned again (R330, R331, R332, R337). -/
def Obligations.TheActiveTimeSwitches : Prop :=
  (∀ (s : State) (p : Party) (v : Reg32), s.plumbBy p → (ofQuad (s.quad 0x200410)) < s.taValue s.now + 2000000 * 2 ^ 48 →
      ∃ t, exec (.actGo p v) s = .next t ∧ t = { s with regs := t.regs, plumb := { s.plumb with act := { s.plumb.act with result := 2 } } } ∧ t.reg 0x200400 = v &&& 0x70000000 ∧ ∀ o, o ≠ 0x200400 → t.reg o = s.reg o) ∧
    (∀ (s : State) (p : Party) (v : Reg32), s.plumbBy p → s.taValue s.now + 2000000 * 2 ^ 48 ≤ (ofQuad (s.quad 0x200410)) → (s.plumb.act.pending.isSome = true ∨ s.plumb.act.slewing = true) →
      ∃ t, exec (.actGo p v) s = .next t ∧ t = { s with regs := t.regs, plumb := { s.plumb with act := { s.plumb.act with result := 3 } } } ∧ t.reg 0x200400 = v &&& 0x70000000 ∧ ∀ o, o ≠ 0x200400 → t.reg o = s.reg o) ∧
    (∀ (s : State) (p : Party) (v : Reg32), s.plumbBy p → s.taValue s.now + 2000000 * 2 ^ 48 ≤ (ofQuad (s.quad 0x200410)) → s.plumb.act.pending = none → s.plumb.act.slewing = false →
      ∃ t, exec (.actGo p v) s = .next t ∧ t = { s with regs := t.regs, plumb := { s.plumb with act := { s.plumb.act with pending := some (ofQuad (s.quad 0x200410), if v.getLsbD 28 then 1 else 0), result := 0 } } } ∧ t.reg 0x200400 = v &&& 0x70000000 ∧ ∀ o, o ≠ 0x200400 → t.reg o = s.reg o) ∧
    (∀ (s : State) (p : Party) (v : Reg32), s.blocksUp = true → s.pf1MgrKey p = false → exec (.actGo p v) s = .next (s.refused p 0x200400 (setBit v 31 true).toNat)) ∧
    (∀ (s : State) (v : Nat) (d : Fin 2), s.blocksUp = true → s.plumb.act.pending = some (v, d) → ((s.taValue (timeEdge (s.selReach 0 v s.now)) : Int) - s.tdValue d (timeEdge (s.selReach 0 v s.now))).natAbs ≤ (s.reg 0x20042C).toNat * 2 ^ 48 →
      ∃ t, exec .activeDomainSwitch s = .next t ∧ t.now = max s.now (timeEdge (s.selReach 0 v s.now)) ∧ ActOnly s t { sel := d, h := ((s.taValue (timeEdge (s.selReach 0 v s.now)) : Int) - s.tdValue d (timeEdge (s.selReach 0 v s.now))), hAt := (timeEdge (s.selReach 0 v s.now)), slewing := decide (((s.taValue (timeEdge (s.selReach 0 v s.now)) : Int) - s.tdValue d (timeEdge (s.selReach 0 v s.now))) ≠ 0), pending := none, result := 1 } ∧
        t.taValue (timeEdge (s.selReach 0 v s.now)) = s.taValue (timeEdge (s.selReach 0 v s.now))) ∧
    (∀ (s : State) (v : Nat) (d : Fin 2), s.blocksUp = true → s.plumb.act.pending = some (v, d) → (s.reg 0x20042C).toNat * 2 ^ 48 < ((s.taValue (timeEdge (s.selReach 0 v s.now)) : Int) - s.tdValue d (timeEdge (s.selReach 0 v s.now))).natAbs → (s.reg 0x200400).getLsbD 29 = false →
      ∃ t, exec .activeDomainSwitch s = .next t ∧ t.now = max s.now (timeEdge (s.selReach 0 v s.now)) ∧ ActOnly s t { s.plumb.act with pending := none, result := 4 }) ∧
    (∀ (s : State) (v : Nat) (d : Fin 2), s.blocksUp = true → s.plumb.act.pending = some (v, d) → (s.reg 0x20042C).toNat * 2 ^ 48 < ((s.taValue (timeEdge (s.selReach 0 v s.now)) : Int) - s.tdValue d (timeEdge (s.selReach 0 v s.now))).natAbs → (s.reg 0x200400).getLsbD 29 = true →
      ∃ t, exec .activeDomainSwitch s = .next t ∧ t.now = max s.now (timeEdge (s.selReach 0 v s.now)) ∧ t.plumb.act = { sel := d, h := 0, hAt := (timeEdge (s.selReach 0 v s.now)), slewing := false, pending := none, result := 1 } ∧
        t.taValue (timeEdge (s.selReach 0 v s.now)) = t.tdValue d (timeEdge (s.selReach 0 v s.now)) ∧ t.plumb.dom = s.plumb.dom ∧ StepLeaves s t) ∧
    (∀ (s : State), s.blocksUp = true → s.plumb.act.slewing = true → 0 < s.actSlew →
      ∃ t, exec .slewComplete s = .next t ∧ ActOnly s t { s.plumb.act with h := 0, hAt := t.now, slewing := false } ∧ s.now ≤ t.now ∧
        s.plumb.act.hold s.actSlew (s.plumb.act.hAt + (s.plumb.act.h.natAbs * 5000000000 + s.actSlew * 2 ^ 48 - 1) / (s.actSlew * 2 ^ 48)) = 0 ∧
        s.plumb.act.hAt + (s.plumb.act.h.natAbs * 5000000000 + s.actSlew * 2 ^ 48 - 1) / (s.actSlew * 2 ^ 48) ≤ t.now) ∧
    (∀ (a : ActiveTime) (ppb t u : Nat), a.slewing = true → a.hAt ≤ t → t ≤ u → (a.hold ppb u).natAbs ≤ (a.hold ppb t).natAbs ∧
      (a.hold ppb t).natAbs = a.h.natAbs - (t - a.hAt) * ppb * 2 ^ 48 / 5000000000) ∧
    (∀ (s : State) (q : PortCode), s.blocksUp = true → q.val < 36 →
      ∃ t, exec (.gridAligned q) s = .next t ∧ t = { s with plumb := { s.plumb with ports := t.plumb.ports } } ∧ t.ptime q = { s.ptime q with aligned := true } ∧ ∀ o, o ≠ q → t.ptime o = s.ptime o)

/-- TIME frames, the time source port and its loss (R344, R345, R418). -/
def Obligations.TimeCrossesTheChain : Prop :=
  (∀ (s : State), s.blocksUp = true →
      ∃ t, exec .timeFrameSend s = .next t ∧ t = { s with now := (max s.now s.plumb.nextTime), plumb := { s.plumb with nextTime := (max s.now s.plumb.nextTime) + 131072 }, urral := { s.urral with ports := t.urral.ports }, chainOut := t.chainOut } ∧
        (∀ k : Fin 4, t.urral.ports[k] = (if s.locks k then { s.urral.ports[k] with txf := satInc s.urral.ports[k].txf } else s.urral.ports[k])) ∧
        ∃ f : Fin 4 → UrrOut, t.chainOut = s.chainOut ++ ((List.finRange 4).filter (fun (k : Fin 4) => s.locks k)).map f ∧
          ∀ k, f k = .time k (quadOf (s.stampAt 0 (max s.now s.plumb.nextTime) 0 (s.txCorr (portU k)))) (quadOf (s.stampAt 1 (max s.now s.plumb.nextTime) 0 (s.txCorr (portU k)))) (s.ptime (portU k)).stamps s.ownHops (decide (s.plumb.srcPort = some k))) ∧
    (∀ (s : State) (k : Fin 4) (hops : BitVec 8) (src : Bool) (x0 x1 : TimeExchange), s.blocksUp = true → s.locks k = true → (s.ptime (portU k)).exchanges < 63 →
      ∃ t, exec (.timeFrameReceive k hops src x0 x1) s = .next t ∧ (t.ptime (portU k)).exchanges = (s.ptime (portU k)).exchanges + 1 ∧ (t.ptime (portU k)).urrHops = hops ∧ (t.ptime (portU k)).peerSrc = src ∧ (t.ptime (portU k)).lastTime = some s.now ∧
        (t.ptime (portU k)).sum0 = (s.ptime (portU k)).sum0 + (2 * (x0.t2 - x0.t1) - ((x0.t4 - x0.t1) - (x0.t3 - x0.t2)) - (signed24 (s.reg (ptimeBase (32 + k.val) + 0x18))) * 1024) ∧ (t.ptime (portU k)).sum1 = (s.ptime (portU k)).sum1 + (2 * (x1.t2 - x1.t1) - ((x1.t4 - x1.t1) - (x1.t3 - x1.t2)) - (signed24 (s.reg (ptimeBase (32 + k.val) + 0x18))) * 1024) ∧ (t.ptime (portU k)).stamps = [x0.t2, x0.t3, x1.t2, x1.t3] ∧
        (t.urral.ports[k]).rxf = satInc (s.urral.ports[k]).rxf ∧ (∀ o, o ≠ portU k → t.ptime o = s.ptime o) ∧ (∀ d, (t.dom d).stepped = (s.dom d).stepped ∧ (t.dom d).last = (s.dom d).last) ∧
        t.regs = s.regs ∧ t.tiles = s.tiles ∧ t.mailboxes = s.mailboxes ∧ t.mortar = s.mortar ∧ t.power = s.power ∧ t.cans = s.cans ∧ SameMemories s t) ∧
    (∀ (s : State) (k : Fin 4) (hops : BitVec 8) (src : Bool) (x0 x1 : TimeExchange), s.blocksUp = true → s.locks k = true → (s.ptime (portU k)).exchanges = 63 →
      ∃ t, exec (.timeFrameReceive k hops src x0 x1) s = .next t ∧ (t.ptime (portU k)).exchanges = 0 ∧ (t.ptime (portU k)).sum0 = 0 ∧ (t.ptime (portU k)).sum1 = 0 ∧ (t.ptime (portU k)).urrHops = hops ∧
        (t.urral.ports[k]).rxf = satInc (s.urral.ports[k]).rxf ∧ t.regs = s.regs ∧ t.tiles = s.tiles ∧ t.mailboxes = s.mailboxes ∧ t.power = s.power ∧ t.cans = s.cans ∧ SameMemories s t) ∧
    (∀ (s : State) (k : Fin 4), s.bestSource = some k → s.sourceOk k = true ∧
      ∀ j, s.sourceOk j = true → (s.ptime (portU k)).urrHops ≤ (s.ptime (portU j)).urrHops ∧ ((s.ptime (portU j)).urrHops = (s.ptime (portU k)).urrHops → k ≤ j)) ∧
    (∀ (s : State) (k : Fin 4), s.sourceOk k = true → (s.urral.ports[k]).st = .healthy ∧ (s.ptime (portU k)).peerSrc = false ∧
      ∃ u, (s.ptime (portU k)).lastTime = some u ∧ s.now < u + 4 * 131072) ∧
    (∀ (s : State) (k : Fin 4), s.blocksUp = true → s.plumb.srcPort = some k →
      ∃ t, exec .timeSourceTimeout s = .next t ∧ t.plumb.srcPort = (s.at_ ((s.ptime (portU k)).lastTime.getD s.now + 4 * 131072)).bestSource ∧ t.regs = s.regs ∧ t.urral = s.urral ∧ t.mailboxes = s.mailboxes ∧ t.power = s.power ∧ SameMemories s t ∧
        ((s.at_ ((s.ptime (portU k)).lastTime.getD s.now + 4 * 131072)).bestSource = none → ∀ d, (s.dom d).st = .track → s.tdSource d = 1 → (t.dom d).st = .holdover) ∧
        ((s.at_ ((s.ptime (portU k)).lastTime.getD s.now + 4 * 131072)).bestSource ≠ none → ∀ d, (t.dom d).st = (s.dom d).st ∧ (t.dom d).stepped = (s.dom d).stepped)) ∧
    (∀ s : State, s.ownHops = (if s.urral.role = .manager ∨ s.urral.role = .standby then 0 else match s.plumb.srcPort with
      | some k => (s.ptime (portU k)).urrHops + 1
      | none => 0xFF))

/-- Trigger outputs, captures, PPS_IN and PPS_OUT (R326, R347, R348, R349, R416). -/
def Obligations.TriggersAndCaptures : Prop :=
  (∀ (s : State) (p : Party) (n : Fin 32) (v : Reg32), s.blocksUp = true → s.mayConfigure p (s.anyImage (fun im => im.bindsTto n.val)) = false → exec (.ttoArm p n v) s = .next (s.refused p (ttoBase n) (setBit v 31 true).toNat)) ∧
    (∀ (s : State) (p : Party) (n : Fin 32) (v : Reg32), s.blocksUp = true → s.mayConfigure p (s.anyImage (fun im => im.bindsTto n.val)) = true → v.toNat / 2 ^ 28 % 8 < 5 → v.toNat / 2 ^ 26 % 4 ≠ 3 → (2 ≤ v.toNat / 2 ^ 28 % 8 ∧ (s.ttoStaged n (setBit v 31 true)).width < 4 * 2 ^ 48 ∨ v.toNat / 2 ^ 28 % 8 = 3 ∧ ((s.ttoStaged n (setBit v 31 true)).period < (s.ttoStaged n (setBit v 31 true)).width + 8 * 2 ^ 48 ∨ (s.ttoStaged n (setBit v 31 true)).period < 16 * 2 ^ 48)) → ∃ t, exec (.ttoArm p n v) s = .next t ∧ t = { s with now := t.now, regs := t.regs, plumb := { s.plumb with ttos := t.plumb.ttos } } ∧ t.now = s.now ∧ (∀ m, m ≠ n → t.tto m = s.tto m) ∧ (∀ o, o ≠ ttoBase n → t.reg o = s.reg o) ∧ t.tto n = { s.tto n with bad := true }) ∧
    (∀ (s : State) (p : Party) (n : Fin 32) (v : Reg32), s.blocksUp = true → s.mayConfigure p (s.anyImage (fun im => im.bindsTto n.val)) = true → v.toNat / 2 ^ 28 % 8 < 5 → v.toNat / 2 ^ 26 % 4 ≠ 3 → ¬ (2 ≤ v.toNat / 2 ^ 28 % 8 ∧ (s.ttoStaged n (setBit v 31 true)).width < 4 * 2 ^ 48 ∨ v.toNat / 2 ^ 28 % 8 = 3 ∧ ((s.ttoStaged n (setBit v 31 true)).period < (s.ttoStaged n (setBit v 31 true)).width + 8 * 2 ^ 48 ∨ (s.ttoStaged n (setBit v 31 true)).period < 16 * 2 ^ 48)) → (v.toNat / 2 ^ 28 % 8 = 1 ∨ v.toNat / 2 ^ 28 % 8 = 2) → (s.ttoStaged n (setBit v 31 true)).start < (s.brickTime (s.ttoSel (s.ttoStaged n (setBit v 31 true))) (timeEdge (s.now + 1))) →
      ∃ t, exec (.ttoArm p n v) s = .next t ∧ t = { s with now := t.now, regs := t.regs, plumb := { s.plumb with ttos := t.plumb.ttos } } ∧ t.now = s.now ∧ (∀ m, m ≠ n → t.tto m = s.tto m) ∧ (∀ o, o ≠ ttoBase n → t.reg o = s.reg o) ∧ t.tto n = { s.tto n with late := true }) ∧
    (∀ (s : State) (p : Party) (n : Fin 32) (v : Reg32), s.blocksUp = true → s.mayConfigure p (s.anyImage (fun im => im.bindsTto n.val)) = true → v.toNat / 2 ^ 28 % 8 < 5 → v.toNat / 2 ^ 26 % 4 ≠ 3 → ¬ (2 ≤ v.toNat / 2 ^ 28 % 8 ∧ (s.ttoStaged n (setBit v 31 true)).width < 4 * 2 ^ 48 ∨ v.toNat / 2 ^ 28 % 8 = 3 ∧ ((s.ttoStaged n (setBit v 31 true)).period < (s.ttoStaged n (setBit v 31 true)).width + 8 * 2 ^ 48 ∨ (s.ttoStaged n (setBit v 31 true)).period < 16 * 2 ^ 48)) → s.urral.hold = false → v.toNat / 2 ^ 28 % 8 = 0 → ∃ t, exec (.ttoArm p n v) s = .next t ∧ t.now = timeEdge (s.now + 1) ∧ t = { s with now := t.now, regs := t.regs, plumb := { s.plumb with ttos := t.plumb.ttos } } ∧ (∀ m, m ≠ n → t.tto m = s.tto m) ∧ (∀ o, o ≠ ttoBase n → t.reg o = s.reg o) ∧ (t.tto n).level = (v.getLsbD 25) ∧ (t.tto n).edges = [] ∧ (t.tto n).st = .idle) ∧
    (∀ (s : State) (p : Party) (n : Fin 32) (v : Reg32), s.blocksUp = true → s.mayConfigure p (s.anyImage (fun im => im.bindsTto n.val)) = true → v.toNat / 2 ^ 28 % 8 < 5 → v.toNat / 2 ^ 26 % 4 ≠ 3 → ¬ (2 ≤ v.toNat / 2 ^ 28 % 8 ∧ (s.ttoStaged n (setBit v 31 true)).width < 4 * 2 ^ 48 ∨ v.toNat / 2 ^ 28 % 8 = 3 ∧ ((s.ttoStaged n (setBit v 31 true)).period < (s.ttoStaged n (setBit v 31 true)).width + 8 * 2 ^ 48 ∨ (s.ttoStaged n (setBit v 31 true)).period < 16 * 2 ^ 48)) → s.urral.hold = false → v.toNat / 2 ^ 28 % 8 = 1 → (s.brickTime (s.ttoSel (s.ttoStaged n (setBit v 31 true))) (timeEdge (s.now + 1))) ≤ (s.ttoStaged n (setBit v 31 true)).start → ∃ t, exec (.ttoArm p n v) s = .next t ∧ t.now = timeEdge (s.now + 1) ∧ t = { s with now := t.now, regs := t.regs, plumb := { s.plumb with ttos := t.plumb.ttos } } ∧ (∀ m, m ≠ n → t.tto m = s.tto m) ∧ (∀ o, o ≠ ttoBase n → t.reg o = s.reg o) ∧ (t.tto n).edges = [((s.ttoStaged n (setBit v 31 true)).start, (v.getLsbD 25))] ∧ (t.tto n).st = .armed) ∧
    (∀ (s : State) (p : Party) (n : Fin 32) (v : Reg32), s.blocksUp = true → s.mayConfigure p (s.anyImage (fun im => im.bindsTto n.val)) = true → v.toNat / 2 ^ 28 % 8 < 5 → v.toNat / 2 ^ 26 % 4 ≠ 3 → ¬ (2 ≤ v.toNat / 2 ^ 28 % 8 ∧ (s.ttoStaged n (setBit v 31 true)).width < 4 * 2 ^ 48 ∨ v.toNat / 2 ^ 28 % 8 = 3 ∧ ((s.ttoStaged n (setBit v 31 true)).period < (s.ttoStaged n (setBit v 31 true)).width + 8 * 2 ^ 48 ∨ (s.ttoStaged n (setBit v 31 true)).period < 16 * 2 ^ 48)) → s.urral.hold = false → v.toNat / 2 ^ 28 % 8 = 2 → (s.brickTime (s.ttoSel (s.ttoStaged n (setBit v 31 true))) (timeEdge (s.now + 1))) ≤ (s.ttoStaged n (setBit v 31 true)).start → ∃ t, exec (.ttoArm p n v) s = .next t ∧ t.now = timeEdge (s.now + 1) ∧ t = { s with now := t.now, regs := t.regs, plumb := { s.plumb with ttos := t.plumb.ttos } } ∧ (∀ m, m ≠ n → t.tto m = s.tto m) ∧ (∀ o, o ≠ ttoBase n → t.reg o = s.reg o) ∧ (t.tto n).edges = [((s.ttoStaged n (setBit v 31 true)).start, (v.getLsbD 25)), ((s.ttoStaged n (setBit v 31 true)).start + (s.ttoStaged n (setBit v 31 true)).width, !(v.getLsbD 25))] ∧ (t.tto n).level = !(v.getLsbD 25) ∧ (t.tto n).st = .armed) ∧
    (∀ (s : State) (p : Party) (n : Fin 32) (v : Reg32) (k : Nat), s.blocksUp = true → s.mayConfigure p (s.anyImage (fun im => im.bindsTto n.val)) = true → v.toNat / 2 ^ 28 % 8 < 5 → v.toNat / 2 ^ 26 % 4 ≠ 3 → ¬ (2 ≤ v.toNat / 2 ^ 28 % 8 ∧ (s.ttoStaged n (setBit v 31 true)).width < 4 * 2 ^ 48 ∨ v.toNat / 2 ^ 28 % 8 = 3 ∧ ((s.ttoStaged n (setBit v 31 true)).period < (s.ttoStaged n (setBit v 31 true)).width + 8 * 2 ^ 48 ∨ (s.ttoStaged n (setBit v 31 true)).period < 16 * 2 ^ 48)) → s.urral.hold = false → v.toNat / 2 ^ 28 % 8 = 3 → (s.brickTime (s.ttoSel (s.ttoStaged n (setBit v 31 true))) (timeEdge (s.now + 1))) ≤ (s.ttoStaged n (setBit v 31 true)).start + k * (s.ttoStaged n (setBit v 31 true)).period → (∀ j, (s.brickTime (s.ttoSel (s.ttoStaged n (setBit v 31 true))) (timeEdge (s.now + 1))) ≤ (s.ttoStaged n (setBit v 31 true)).start + j * (s.ttoStaged n (setBit v 31 true)).period → k ≤ j) →
      ∃ t, exec (.ttoArm p n v) s = .next t ∧ t.now = timeEdge (s.now + 1) ∧ t = { s with now := t.now, regs := t.regs, plumb := { s.plumb with ttos := t.plumb.ttos } } ∧ (∀ m, m ≠ n → t.tto m = s.tto m) ∧ (∀ o, o ≠ ttoBase n → t.reg o = s.reg o) ∧ (t.tto n).level = !(v.getLsbD 25) ∧
        (t.tto n).edges = (if (s.ttoStaged n (setBit v 31 true)).count ≠ 0 ∧ (s.ttoStaged n (setBit v 31 true)).count ≤ k then [] else [((s.ttoStaged n (setBit v 31 true)).start + k * (s.ttoStaged n (setBit v 31 true)).period, (v.getLsbD 25)), ((s.ttoStaged n (setBit v 31 true)).start + k * (s.ttoStaged n (setBit v 31 true)).period + (s.ttoStaged n (setBit v 31 true)).width, !(v.getLsbD 25))])) ∧
    (∀ (s : State) (p : Party) (n : Fin 32) (v : Reg32), s.blocksUp = true → s.mayConfigure p (s.anyImage (fun im => im.bindsTto n.val)) = true → v.toNat / 2 ^ 28 % 8 < 5 → v.toNat / 2 ^ 26 % 4 ≠ 3 → ¬ (2 ≤ v.toNat / 2 ^ 28 % 8 ∧ (s.ttoStaged n (setBit v 31 true)).width < 4 * 2 ^ 48 ∨ v.toNat / 2 ^ 28 % 8 = 3 ∧ ((s.ttoStaged n (setBit v 31 true)).period < (s.ttoStaged n (setBit v 31 true)).width + 8 * 2 ^ 48 ∨ (s.ttoStaged n (setBit v 31 true)).period < 16 * 2 ^ 48)) → s.urral.hold = false → v.toNat / 2 ^ 28 % 8 = 4 → ∃ t, exec (.ttoArm p n v) s = .next t ∧ t.now = timeEdge (s.now + 1) ∧ t = { s with now := t.now, regs := t.regs, plumb := { s.plumb with ttos := t.plumb.ttos } } ∧ (∀ m, m ≠ n → t.tto m = s.tto m) ∧ (∀ o, o ≠ ttoBase n → t.reg o = s.reg o) ∧ (t.tto n).edges = [] ∧ (t.tto n).level = !(v.getLsbD 25) ∧ (t.tto n).st = .armed) ∧
    (∀ (s : State) (n : Fin 32) (e : Nat) (lv : Bool) (r : List (Nat × Bool)), s.blocksUp = true → (s.tto n).edges = (e, lv) :: r → s.urral.hold = false → ¬ (∃ u, (s.tto n).lastRoot = some u ∧ (s.ttoWhen (s.tto n) e) < u + 20) →
      ∃ t, exec (.ttoEdge n) s = .next t ∧ t = { s with now := max s.now (s.ttoWhen (s.tto n) e), plumb := { s.plumb with ttos := t.plumb.ttos } } ∧ (∀ m, m ≠ n → t.tto m = s.tto m) ∧ (t.tto n).level = lv ∧ (t.tto n).lastRoot = some (s.ttoWhen (s.tto n) e) ∧ (t.tto n).skipped = (s.tto n).skipped ∧
        (t.tto n).pulses = (if lv = (s.tto n).ctrl.getLsbD 25 then (s.tto n).pulses + 1 else (s.tto n).pulses) ∧ (r ≠ [] → (t.tto n).edges = r ∧ (t.tto n).st = .running)) ∧
    (∀ (s : State) (n : Fin 32) (e : Nat) (lv : Bool) (r : List (Nat × Bool)), s.blocksUp = true → (s.tto n).edges = (e, lv) :: r → (s.urral.hold = true ∨ (∃ u, (s.tto n).lastRoot = some u ∧ (s.ttoWhen (s.tto n) e) < u + 20)) →
      ∃ t, exec (.ttoEdge n) s = .next t ∧ t = { s with now := max s.now (s.ttoWhen (s.tto n) e), plumb := { s.plumb with ttos := t.plumb.ttos } } ∧ (∀ m, m ≠ n → t.tto m = s.tto m) ∧ (t.tto n).level = (s.tto n).level ∧ (t.tto n).pulses = (s.tto n).pulses ∧ (t.tto n).skipped = true ∧ (r ≠ [] → (t.tto n).edges = r)) ∧
    (∀ (s : State) (n : Fin 16) (rising : Bool) (interp : BitVec 7), s.blocksUp = true → ¬ ((s.reg (tcapBase n.val)).getLsbD 31 = true ∧ (s.reg (tcapBase n.val)).getLsbD (if rising then 29 else 30) = true) → ∃ t, exec (.tcapEdge n rising interp) s = .next t ∧ t = { s with plumb := { s.plumb with tcaps := t.plumb.tcaps } } ∧ (∀ m : Fin 16, m ≠ n → t.plumb.tcaps[m] = s.plumb.tcaps[m]) ∧ (t.plumb.tcaps[n]) = { (s.plumb.tcaps[n]) with level := rising }) ∧
    (∀ (s : State) (n : Fin 16) (rising : Bool) (interp : BitVec 7), s.blocksUp = true → ((s.reg (tcapBase n.val)).getLsbD 31 = true ∧ (s.reg (tcapBase n.val)).getLsbD (if rising then 29 else 30) = true) → (∃ u, (s.plumb.tcaps[n]).lastRoot = some u ∧ s.now < u + 20) → ∃ t, exec (.tcapEdge n rising interp) s = .next t ∧ t = { s with plumb := { s.plumb with tcaps := t.plumb.tcaps } } ∧ (∀ m : Fin 16, m ≠ n → t.plumb.tcaps[m] = s.plumb.tcaps[m]) ∧ (t.plumb.tcaps[n]) = { (s.plumb.tcaps[n]) with level := rising, missed := satInc (s.plumb.tcaps[n]).missed }) ∧
    (∀ (s : State) (n : Fin 16) (rising : Bool) (interp : BitVec 7), s.blocksUp = true → ((s.reg (tcapBase n.val)).getLsbD 31 = true ∧ (s.reg (tcapBase n.val)).getLsbD (if rising then 29 else 30) = true) → ¬ (∃ u, (s.plumb.tcaps[n]).lastRoot = some u ∧ s.now < u + 20) →
      ∃ t, exec (.tcapEdge n rising interp) s = .next t ∧ t = { s with freeCtr := t.freeCtr, plumb := { s.plumb with tcaps := t.plumb.tcaps }, mortar := t.mortar, ports := t.ports } ∧ (∀ m : Fin 16, m ≠ n → t.plumb.tcaps[m] = s.plumb.tcaps[m]) ∧ (t.plumb.tcaps[n]).level = rising ∧ (t.plumb.tcaps[n]).lastRoot = some s.now ∧
        ((s.plumb.tcaps[n]).fifo.length < 8 → (t.plumb.tcaps[n]).fifo = (s.plumb.tcaps[n]).fifo ++ [(s.capStamps (tcapBase n.val) interp.toNat)] ∧ (t.plumb.tcaps[n]).overs = (s.plumb.tcaps[n]).overs) ∧ (8 ≤ (s.plumb.tcaps[n]).fifo.length → (t.plumb.tcaps[n]).fifo = (s.plumb.tcaps[n]).fifo ∧ (t.plumb.tcaps[n]).overs = satInc (s.plumb.tcaps[n]).overs) ∧
        ((s.reg (tcapBase n.val)).toNat / 2 ^ 26 % 4 = 0 → t = { s with plumb := { s.plumb with tcaps := t.plumb.tcaps } } ∧ (t.plumb.tcaps[n]).missed = (s.plumb.tcaps[n]).missed ∧ (t.plumb.tcaps[n]).drop = (s.plumb.tcaps[n]).drop)) ∧
    (∀ (s : State) (p : Party) (tag : BitVec 10) (n : Fin 16) (w : BitVec 96 × BitVec 96) (r : List (BitVec 96 × BitVec 96)), s.blocksUp = true → (s.plumb.tcaps[n]).fifo = w :: r → Sparse.wf (fun _ => (0 : BitVec 96)) s.plumb.latches = true →
      ∃ t, exec (.tcapTsRead p tag n) s = .next t ∧ t = { s with freeCtr := t.freeCtr, readValue := t.readValue, orphPf := t.orphPf, plumb := { s.plumb with tcaps := t.plumb.tcaps, latches := t.plumb.latches } } ∧ (∀ m : Fin 16, m ≠ n → t.plumb.tcaps[m] = s.plumb.tcaps[m]) ∧ (t.plumb.tcaps[n]) = { (s.plumb.tcaps[n]) with fifo := r, latch := w } ∧ t.readValue = (0 : Word) ++ w.1.extractLsb' 0 16 ∧
        t.quadLatch (tcapBase n.val + 0x10) p.code = w.1 ∧ t.quadLatch (tcapBase n.val + 0x20) p.code = w.2) ∧
    (∀ (s : State) (p : Party) (tag : BitVec 10) (n : Fin 16), s.blocksUp = true → (s.plumb.tcaps[n]).fifo = [] → ∃ t, exec (.tcapTsRead p tag n) s = .next t ∧ t = { s with freeCtr := t.freeCtr, readValue := t.readValue, orphPf := t.orphPf, plumb := { s.plumb with tcaps := t.plumb.tcaps, latches := t.plumb.latches } } ∧ (∀ m : Fin 16, m ≠ n → t.plumb.tcaps[m] = s.plumb.tcaps[m]) ∧ (t.plumb.tcaps[n]).fifo = [] ∧ (t.plumb.tcaps[n]).overs = (s.plumb.tcaps[n]).overs ∧ (t.plumb.tcaps[n]).drop = (s.plumb.tcaps[n]).drop) ∧
    (∀ (s : State) (rising : Bool) (interp : BitVec 7), s.blocksUp = true → (¬ ((s.reg (tcapBase 32)).getLsbD 31 = true ∧ (s.reg (tcapBase 32)).getLsbD (if rising then 29 else 30) = true) ∨ (∃ u, s.plumb.pps.lastRoot = some u ∧ s.now < u + 20)) → ∃ t, exec (.ppsInEdge rising interp) s = .next t ∧ t = { s with plumb := { s.plumb with pps := t.plumb.pps } } ∧ t.plumb.pps.level = rising ∧ t.plumb.pps.latch = s.plumb.pps.latch) ∧
    (∀ (s : State) (rising : Bool) (interp : BitVec 7), s.blocksUp = true → ((s.reg (tcapBase 32)).getLsbD 31 = true ∧ (s.reg (tcapBase 32)).getLsbD (if rising then 29 else 30) = true) → ¬ (∃ u, s.plumb.pps.lastRoot = some u ∧ s.now < u + 20) → ∃ t, exec (.ppsInEdge rising interp) s = .next t ∧ t.plumb.pps.latch = s.capStamps (tcapBase 32) interp.toNat ∧ t.plumb.pps.level = rising ∧
      t.regs = s.regs ∧ t.tiles = s.tiles ∧ t.mailboxes = s.mailboxes ∧ t.pins = s.pins ∧ t.power = s.power ∧ SameMemories s t ∧
      ((rising = false ∨ s.tdSource 0 ≠ 2 ∧ s.tdSource 1 ≠ 2) → t.plumb = { s.plumb with pps := t.plumb.pps } ∧ t.now = s.now)) ∧
    (∀ v : Nat, ∃ k : Nat, (v : Int) - k * unitsPerSec ≤ unitsPerSec / 2 ∧ -(unitsPerSec / 2 : Int) ≤ (v : Int) - k * unitsPerSec ∧ ppsOffset v = ((v : Int) - k * unitsPerSec) / 2 ^ 32) ∧
    (∀ s : State, s.blocksUp = true → s.pins.ppsOut = false → (s.reg (tcapBase 32)).getLsbD 25 = true →
      ∃ t v, exec (.ppsOutEdge true) s = .next t ∧ t = { s with now := max s.now (s.selReach 0 v s.now), pins := { s.pins with ppsOut := true }, plumb := { s.plumb with ppsRise := some v } } ∧
        s.taValue s.now ≤ v ∧ ((∀ u, s.plumb.ppsRise = some u → u % unitsPerSec = 0) → v % unitsPerSec = 0) ∧ (s.plumb.ppsRise = none → v < s.taValue s.now + unitsPerSec) ∧ ∀ u, s.plumb.ppsRise = some u → u + unitsPerSec ≤ v) ∧
    (∀ (s : State) (u : Nat), s.blocksUp = true → s.pins.ppsOut = true → s.plumb.ppsRise = some u →
      exec (.ppsOutEdge false) s = .next { s with now := max s.now (s.selReach 0 (u + (s.reg (tcapBase 32 + 0xC)).toNat * 2 ^ 48) s.now), pins := { s.pins with ppsOut := false } })

/-- Configuration, ON and OFF, sleep and wake, bus-off and the error counters of a CAN controller (R350, R352, R353, R354, R362, R368, R371, R372). -/
def Obligations.CanControllersChangeState : Prop :=
  (∀ (s : State) (p : Party) (n : Fin 8) (off : BitVec 16) (v : Reg32), s.canUp n = true → s.configuresCan p n = false → off.toNat < 0x8000 → exec (.canConfigWrite p n off v) s = .next (s.refused p (canBase n + off.toNat) v.toNat)) ∧
    (∀ (s : State) (p : Party) (n : Fin 8) (off : BitVec 16) (v : Reg32), s.canUp n = true → s.configuresCan p n = true → canCfgMask off.toNat ≠ 0 → (s.can n).st ≠ .init → exec (.canConfigWrite p n off v) s = .next (s.refused p (canBase n + off.toNat) v.toNat)) ∧
    (∀ (s : State) (p : Party) (n : Fin 8) (off : BitVec 16) (v : Reg32), s.canUp n = true → s.configuresCan p n = true → canCfgMask off.toNat ≠ 0 → off ≠ 0x100 → off ≠ 0x108 → (s.can n).st = .init →
      exec (.canConfigWrite p n off v) s = .next (s.setReg (canBase n + off.toNat) (v &&& canCfgMask off.toNat))) ∧
    (∀ (s : State) (p : Party) (n : Fin 8) (v : Reg32), s.canUp n = true → s.configuresCan p n = true → (s.can n).st = .init → exec (.canConfigWrite p n 0 v) s = .next (s.setReg (canBase n) (v &&& 0xFFFCFF00))) ∧
    (∀ (s : State) (p : Party) (n : Fin 8) (v : Reg32), s.canUp n = true → s.configuresCan p n = true → Sparse.wf regReset s.regs = true → (s.can n).st ≠ .init →
      ∃ u t, exec (.canConfigWrite p n 0 v) s = .next t ∧ Logs u t ∧ u = { s with regs := u.regs } ∧ t.canCfg n = (s.canCfg n &&& 0xF00F00FF) ||| (v &&& 0x0FF0FF00) ∧ ∀ o, o ≠ canBase n → t.reg o = s.reg o) ∧
    (∀ (s : State) (p : Party) (n : Fin 8), s.canUp n = true → s.configuresCan p n = true → (s.can n).st = .init → (s.can n).sleep = false → (s.can n).duplicates = false → (s.ttCfg n).getLsbD 31 = false →
      ∃ t, exec (.canOn p n) s = .next t ∧ t = { s with cans := t.cans } ∧ (∀ k, k ≠ n → t.can k = s.can k) ∧ (t.can n).st = .on ∧ (t.can n).on = true ∧ (t.can n).integ = true ∧ (t.can n).cfgErr = false ∧ SameObjs s t n ∧ (t.can n).tec = (s.can n).tec ∧ (t.can n).rec_ = (s.can n).rec_ ∧ (t.can n).tx = (s.can n).tx) ∧
    (∀ (s : State) (p : Party) (n : Fin 8), s.canUp n = true → s.configuresCan p n = true → (s.can n).st = .init → (s.can n).sleep = false → (s.can n).duplicates = true →
      ∃ t, exec (.canOn p n) s = .next t ∧ t = { s with cans := t.cans } ∧ (∀ k, k ≠ n → t.can k = s.can k) ∧ (t.can n).st = .init ∧ (t.can n).cfgErr = true ∧ SameObjs s t n) ∧
    (∀ (s : State) (p : Party) (n : Fin 8), s.canUp n = true → s.configuresCan p n = true → (s.can n).st = .init → (s.can n).sleep = false → (s.can n).duplicates = false → (s.ttCfg n).getLsbD 31 = true → s.trigsBad n = true →
      ∃ t, exec (.canOn p n) s = .next t ∧ CanLeaves s t n ∧ (t.can n).st = .on ∧ (t.can n).tt.cfgErr = true ∧ (t.can n).tt.level = 3 ∧ SameObjs s t n) ∧
    (∀ c : Can, c.duplicates = true ↔ ∃ m k : Fin 64, m < k ∧ (c.obj m).cfg.getLsbD 31 = true ∧ (c.obj k).cfg.getLsbD 31 = true ∧ (c.obj m).cfg.extractLsb' 0 30 = (c.obj k).cfg.extractLsb' 0 30) ∧
    (∀ (s : State) (p : Party) (n : Fin 8), s.canUp n = true → s.configuresCan p n = true → (s.can n).st ≠ .init → (s.can n).sleep = false → (s.can n).quiet = true →
      ∃ t, exec (.canOff p n) s = .next t ∧ t = { s with cans := t.cans } ∧ (∀ k, k ≠ n → t.can k = s.can k) ∧ (t.can n).st = .init ∧ (t.can n).on = false ∧ (t.can n).tx = none ∧ SameObjs s t n ∧ (t.can n).tec = (s.can n).tec ∧ (t.can n).cnt = (s.can n).cnt) ∧
    (∀ (s : State) (p : Party) (n : Fin 8), s.canUp n = true → s.configuresCan p n = true → (s.can n).st ≠ .init → (s.can n).st ≠ .sleep → (s.can n).sleep = false → (s.can n).quiet = false →
      ∃ t, exec (.canOff p n) s = .next t ∧ t = { s with cans := t.cans } ∧ (∀ k, k ≠ n → t.can k = s.can k) ∧ (t.can n) = { (s.can n) with on := false, offReq := true, sleepReq := false }) ∧
    (∀ (s : State) (p : Party) (n : Fin 8), s.canUp n = true → s.configuresCan p n = true → (s.can n).on = true → (s.can n).offReq = false → (s.can n).sleep = false → (s.can n).st = .on → (s.can n).quiet = true →
      ∃ t, exec (.canSleep p n) s = .next t ∧ t = { s with cans := t.cans } ∧ (∀ k, k ≠ n → t.can k = s.can k) ∧ (t.can n).st = .sleep ∧ (t.can n).sleep = true ∧ SameObjs s t n ∧ (t.can n).tec = (s.can n).tec ∧ (t.can n).rec_ = (s.can n).rec_ ∧ (t.can n).tx = (s.can n).tx) ∧
    (∀ (s : State) (p : Party) (n : Fin 8), s.canUp n = true → s.configuresCan p n = true → (s.can n).on = true → (s.can n).offReq = false → (s.can n).sleep = false → (s.can n).st = .on → (s.can n).quiet = false →
      ∃ t, exec (.canSleep p n) s = .next t ∧ t = { s with cans := t.cans } ∧ (∀ k, k ≠ n → t.can k = s.can k) ∧ (t.can n) = { (s.can n) with sleep := true, sleepReq := true }) ∧
    (∀ (s : State) (p : Party) (n : Fin 8), s.canUp n = true → s.configuresCan p n = true → (s.can n).st = .sleep → (s.can n).on = true → (s.can n).tec.toNat ≤ 255 →
      ∃ t, exec (.canSleepClear p n) s = .next t ∧ CanLeaves s t n ∧ (t.can n).st = .on ∧ (t.can n).sleep = false ∧ t.evt n 6 = true ∧ SameObjs s t n ∧ (t.can n).tec = (s.can n).tec ∧ (t.can n).integ = true) ∧
    (∀ (s : State) (p : Party) (n : Fin 8), s.canUp n = true → s.configuresCan p n = true → (s.can n).st = .busOff → (s.can n).on = true → (s.can n).sleep = false →
      ∃ t, exec (.canBor p n) s = .next t ∧ t = { s with cans := t.cans } ∧ (∀ k, k ≠ n → t.can k = s.can k) ∧ (t.can n) = { (s.can n) with recovering := true, offReq := false, sleepReq := false }) ∧
    (∀ (s : State) (p : Party) (n : Fin 8), s.canUp n = true → s.configuresCan p n = false → exec (.canOn p n) s = .next (s.refused p (canBase n + 4) (setBit (s.can n).ctrl 0 true).toNat)) ∧
    (∀ (s : State) (p : Party) (n : Fin 8), s.canUp n = true → s.configuresCan p n = false → exec (.canOff p n) s = .next (s.refused p (canBase n + 4) (setBit (s.can n).ctrl 0 false).toNat)) ∧
    (∀ (s : State) (p : Party) (n : Fin 8), s.canUp n = true → s.configuresCan p n = false → exec (.canSleep p n) s = .next (s.refused p (canBase n + 4) (setBit (s.can n).ctrl 2 true).toNat)) ∧
    (∀ (s : State) (p : Party) (n : Fin 8), s.canUp n = true → s.configuresCan p n = false → exec (.canSleepClear p n) s = .next (s.refused p (canBase n + 4) (setBit (s.can n).ctrl 2 false).toNat)) ∧
    (∀ (s : State) (p : Party) (n : Fin 8), s.canUp n = true → s.configuresCan p n = false → exec (.canBor p n) s = .next (s.refused p (canBase n + 4) (setBit (s.can n).ctrl 1 true).toNat)) ∧
    (∀ (s : State) (n : Fin 8) (w : CanWake), s.canUp n = true → (s.can n).st = .sleep → (s.canCfg n).getLsbD 27 = true → (s.canCfg n).getLsbD 26 = false → (s.can n).on = true → (s.can n).tec.toNat ≤ 255 → ∃ t, exec (.canSleepWake n w) s = .next t ∧ CanLeaves s t n ∧ (t.can n).st = .on ∧ (t.can n).sleep = false ∧ t.evt n 6 = true ∧ SameObjs s t n ∧ (t.can n).tec = (s.can n).tec ∧ (t.can n).integ = true) ∧
    (∀ (s : State) (n : Fin 8) (f : CanFrame), s.canUp n = true → (s.can n).st = .sleep → (s.canCfg n).getLsbD 27 = true → (s.canCfg n).getLsbD 26 = true → s.wakeMatch n f = true → (s.can n).on = true → (s.can n).tec.toNat ≤ 255 →
      exec (.canSleepWake n (.frame f)) s = .next ((s.canWake n false).canReceive n f) ∧ ((s.canWake n false).can n).st = .on ∧ ((s.canWake n false).can n).integ = false ∧ (s.canWake n false).evt n 6 = true ∧ CanLeaves s (s.canWake n false) n) ∧
    (∀ (s : State) (n : Fin 8) (w : CanWake), s.canUp n = true → (s.can n).st = .sleep → (s.canCfg n).getLsbD 27 = true → (s.canCfg n).getLsbD 26 = true → (w = .dominant ∨ ∃ f, w = .frame f ∧ s.wakeMatch n f = false) → exec (.canSleepWake n w) s = .next s) ∧
    (∀ (s : State) (n : Fin 8), s.canUp n = true → (s.can n).st = .busOff → (s.can n).recovering = true →
      ∃ t, exec (.busOffRecoveryComplete n) s = .next t ∧ CanLeaves s t n ∧ (t.can n).st = .on ∧ (t.can n).recovering = false ∧ (t.can n).tec = 0 ∧ (t.can n).rec_ = 0 ∧ t.evt n 4 = true ∧ SameObjs s t n) ∧
    (∀ (s : State) (n : Fin 8), s.canUp n = true → (s.can n).st = .on → (s.can n).integ = true → ∃ t, exec (.busIntegrationComplete n) s = .next t ∧ t = { s with cans := t.cans } ∧ (∀ k, k ≠ n → t.can k = s.can k) ∧ (t.can n) = { (s.can n) with integ := false, tt := { (s.can n).tt with start := s.now } }) ∧
    (∀ (s : State) (n : Fin 8), s.canBus n = true → (s.can n).steady → (s.can n).tec.toNat ≤ 247 → ∃ t, exec (.canError n .txError) s = .next t ∧ SameObjs s t n ∧ CanLeaves s t n ∧ (t.can n).cnt[4] = satInc (s.can n).cnt[4] ∧ (t.can n).tec.toNat = (s.can n).tec.toNat + 8 ∧ (t.can n).rec_ = (s.can n).rec_ ∧ (t.can n).st = .on) ∧
    (∀ (s : State) (n : Fin 8), s.canBus n = true → (s.can n).steady → 247 < (s.can n).tec.toNat → ∃ t, exec (.canError n .txError) s = .next t ∧ SameObjs s t n ∧ CanLeaves s t n ∧ (t.can n).cnt[4] = satInc (s.can n).cnt[4] ∧ (t.can n).st = .busOff ∧ (t.can n).recovering = (s.canCfg n).getLsbD 30 ∧ t.evt n 4 = true ∧
        ((s.ttCfg n).getLsbD 31 = true → (t.can n).tt.level = 3)) ∧
    (∀ (s : State) (n : Fin 8) (dominant : Bool), s.canBus n = true → (s.can n).tec.toNat ≤ 247 → ∃ t, exec (.canError n (.ackError dominant)) s = .next t ∧ SameObjs s t n ∧ CanLeaves s t n ∧ (t.can n).cnt[4] = satInc (s.can n).cnt[4] ∧ (t.can n).rec_ = (s.can n).rec_ ∧ (t.can n).st = .on ∧
        (t.can n).tec.toNat = (if (128 ≤ (s.can n).tec.toNat ∨ 128 ≤ (s.can n).rec_.toNat) ∧ dominant = false then (s.can n).tec.toNat else (s.can n).tec.toNat + 8)) ∧
    (∀ (s : State) (n : Fin 8), s.canBus n = true → (s.can n).tec.toNat ≤ 255 → ∃ t, exec (.canError n .rxError) s = .next t ∧ SameObjs s t n ∧ CanLeaves s t n ∧ (t.can n).cnt[4] = satInc (s.can n).cnt[4] ∧ (t.can n).tec = (s.can n).tec ∧ (t.can n).rec_.toNat = min ((s.can n).rec_.toNat + 1) 255 ∧ (t.can n).st = .on) ∧
    (∀ (s : State) (n : Fin 8), s.canBus n = true → (s.can n).tec.toNat ≤ 255 → ∃ t, exec (.canError n .rxDominantAfterFlag) s = .next t ∧ SameObjs s t n ∧ CanLeaves s t n ∧ (t.can n).tec = (s.can n).tec ∧ (t.can n).rec_.toNat = min ((s.can n).rec_.toNat + 8) 255 ∧ (t.can n).cnt = (s.can n).cnt) ∧
    (∀ (s : State) (n : Fin 8), s.canBus n = true → (s.canCfg n).getLsbD 29 = true → ∃ t, exec (.canError n .protocolException) s = .next t ∧ SameObjs s t n ∧ CanLeaves s t n ∧ (t.can n).integ = true ∧ t.evt n 12 = true ∧ (t.can n).tec = (s.can n).tec ∧ (t.can n).rec_ = (s.can n).rec_) ∧
    (∀ (s : State) (n : Fin 8), s.canBus n = true → (s.canCfg n).getLsbD 29 = false → (s.can n).tec.toNat ≤ 255 → ∃ t, exec (.canError n .protocolException) s = .next t ∧ SameObjs s t n ∧ CanLeaves s t n ∧ (t.can n).cnt[4] = satInc (s.can n).cnt[4] ∧ (t.can n).rec_.toNat = min ((s.can n).rec_.toNat + 1) 255) ∧
    (∀ (s : State) (n : Fin 8), s.canBus n = true → (s.can n).tec.toNat ≤ 120 → (s.can n).rec_.toNat < 128 → (s.can n).steady → ∃ t, exec (.canError n .txError) s = .next t ∧ (t.evt n 3 = true ∨ (t.can n).epass = (s.can n).epass) ∧ ((s.can n).tec.toNat = 120 → t.evt n 3 = true ∧ (t.can n).epass = true))

/-- Message objects: reception, transmission, commands, snapshots and stamps (R350, R354, R355, R356, R357, R358, R359, R360, R361, R363). -/
def Obligations.ObjectsKeepTheNewestFrame : Prop :=
  (∀ (s : State) (n : Fin 8) (f : CanFrame) (m : Fin 64), s.canBus n = true → (f.fdf = false ∨ (s.canCfg n).getLsbD 31 = true) → f.remote = false → (s.obj n m).cfg.getLsbD 30 = false → (s.obj n m).names f.ide f.id = true → (∀ k, k < m → (s.obj n k).cfg.getLsbD 30 = false → (s.obj n k).names f.ide f.id = false) → ¬ (f.dlc = 0 ∧ (s.obj n m).mode.getLsbD 2 = true) →
      ∃ t, exec (.canFrameReceive n f) s = .next t ∧ CanLeaves s t n ∧ t.now = s.now ∧ (t.can n).unack = 0 ∧ (t.can n).alone = false ∧ OtherObjs s t n m ∧ (t.can n).cnt[0] = satInc (s.can n).cnt[0] ∧ t.evt n 0 = true ∧ ((s.obj n m).new_ = true → t.evt n 2 = true) ∧
        (t.obj n m) = { (s.obj n m) with fmt := fmtOf f, data := canData (dlcBytes f.fdf f.dlc.toNat) f.data, stamp := canTsc s.now, seq := (s.obj n m).seq + 1, lost := (s.obj n m).lost || (s.obj n m).new_, new_ := true }) ∧
    (∀ (s : State) (n : Fin 8) (f : CanFrame) (m : Fin 64), s.canBus n = true → (f.fdf = false ∨ (s.canCfg n).getLsbD 31 = true) → f.remote = false → (s.obj n m).cfg.getLsbD 30 = false → (s.obj n m).names f.ide f.id = true → (∀ k, k < m → (s.obj n k).cfg.getLsbD 30 = false → (s.obj n k).names f.ide f.id = false) → f.dlc = 0 → (s.obj n m).mode.getLsbD 2 = true →
      ∃ t, exec (.canFrameReceive n f) s = .next t ∧ CanLeaves s t n ∧ t.now = s.now ∧ (t.can n).unack = 0 ∧ (t.can n).alone = false ∧ OtherObjs s t n m ∧ (t.obj n m) = { (s.obj n m) with stamp := canTsc s.now, nullrx := true }) ∧
    (∀ (s : State) (n : Fin 8) (f : CanFrame), s.canBus n = true → (f.fdf = false ∨ (s.canCfg n).getLsbD 31 = true) → f.remote = true → ∃ t, exec (.canFrameReceive n f) s = .next t ∧ CanLeaves s t n ∧ t.now = s.now ∧ (t.can n).unack = 0 ∧ (t.can n).alone = false ∧ SameObjs s t n ∧ (t.can n).cnt[3] = satInc (s.can n).cnt[3]) ∧
    (∀ (s : State) (n : Fin 8) (f : CanFrame), s.canBus n = true → (f.fdf = false ∨ (s.canCfg n).getLsbD 31 = true) → f.remote = false → (∀ k, (s.obj n k).cfg.getLsbD 30 = false → (s.obj n k).names f.ide f.id = false) →
      ∃ t, exec (.canFrameReceive n f) s = .next t ∧ CanLeaves s t n ∧ t.now = s.now ∧ (t.can n).unack = 0 ∧ (t.can n).alone = false ∧ SameObjs s t n ∧ (t.can n).cnt[2] = satInc (s.can n).cnt[2]) ∧
    (∀ (s : State) (n : Fin 8) (f : CanFrame), s.canBus n = true → f.fdf = true → (s.canCfg n).getLsbD 31 = false → (s.can n).tec.toNat ≤ 255 → ∃ t, exec (.canFrameReceive n f) s = .next t ∧ CanLeaves s t n ∧ SameObjs s t n ∧ (t.can n).cnt[4] = satInc (s.can n).cnt[4] ∧ (t.can n).rec_.toNat = min ((s.can n).rec_.toNat + 1) 255) ∧
    (∀ (k : Nat) (l : List Byte), canData 8 [] = 0 ∧ canTsc (20 * k) = BitVec.ofNat 32 (8 * k / 25) ∧ (k ≤ 64 → ∀ i, 8 * k ≤ i → i < 512 → (canData k l).getLsbD i = false)) ∧
    (∀ (c : Can) (p : Fin 64 → Bool) (m : Fin 64), c.nextTx p = some m → (c.obj m).sendable = true ∧ p m = true ∧ ∀ k, (c.obj k).sendable = true → p k = true → (c.obj m).rank ≤ (c.obj k).rank) ∧
    (∀ (s : State) (n : Fin 8) (m : Fin 64), s.canBus n = true → (s.can n).quiet = true → (s.canCfg n).getLsbD 18 = false → (s.can n).tt.level < 2 → (s.canCfg n).getLsbD 19 = false → (s.can n).tx = none → (s.can n).nextTx (s.mayLeave n) = some m →
      ∃ t, exec (.canTransmitStart n) s = .next t ∧ t = { s with cans := t.cans, canOut := t.canOut } ∧ (∀ k, k ≠ n → t.can k = s.can k) ∧ OtherObjs s t n m ∧ (t.obj n m) = { (s.obj n m) with ready := false } ∧
        t.canOut = s.canOut ++ [{ n := n, id := (s.obj n m).cfg.extractLsb' 0 30, fmt := (s.obj n m).fmt, data := (s.obj n m).data, stamp := canTsc s.now }]) ∧
    (∀ (s : State) (n : Fin 8) (x : CanTx) (m : Fin 64), s.canBus n = true → (s.can n).quiet = true → (s.canCfg n).getLsbD 18 = false → (s.can n).tt.level < 2 → (s.canCfg n).getLsbD 19 = false → (s.can n).tx = some x → x.obj = m → (s.obj n m).sendable = false →
      ∃ t, exec (.canTransmitStart n) s = .next t ∧ t = { s with cans := t.cans, canOut := t.canOut } ∧ (∀ k, k ≠ n → t.can k = s.can k) ∧ SameObjs s t n ∧ t.canOut = s.canOut ++ [{ n := n, id := (s.obj n m).cfg.extractLsb' 0 30, fmt := x.fmt, data := x.data, stamp := canTsc s.now }]) ∧
    (∀ (s : State) (n : Fin 8) (x : CanTx) (m : Fin 64), s.canBus n = true → (s.can n).quiet = true → (s.canCfg n).getLsbD 18 = false → (s.can n).tt.level < 2 → (s.canCfg n).getLsbD 19 = false → (s.can n).tx = some x → x.obj = m → (s.obj n m).sendable = true →
      ∃ t, exec (.canTransmitStart n) s = .next t ∧ t = { s with cans := t.cans, canOut := t.canOut } ∧ (∀ k, k ≠ n → t.can k = s.can k) ∧ OtherObjs s t n m ∧ (t.obj n m) = { (s.obj n m) with ready := false } ∧
        t.canOut = s.canOut ++ [{ n := n, id := (s.obj n m).cfg.extractLsb' 0 30, fmt := (s.obj n m).fmt, data := (s.obj n m).data, stamp := canTsc s.now }]) ∧
    (∀ (s : State) (n : Fin 8) (x : CanTx) (m : Fin 64) (st : Reg32), s.canUp n = true → (s.can n).steady → (s.can n).tx = some x → x.obj = m → x.start = some st → (s.canCfg n).getLsbD 19 = false → (s.can n).tec.toNat ≤ 255 →
      ∃ t, exec (.canTransmitEnd n true) s = .next t ∧ CanLeaves s t n ∧ OtherObjs s t n m ∧ (t.obj n m) = { (s.obj n m) with txdone := true, stamp := st, last := (t.obj n m).last } ∧ (t.can n).tx = none ∧ (t.can n).cnt[1] = satInc (s.can n).cnt[1] ∧
        (t.can n).unack = 0 ∧ (t.can n).alone = false ∧ (t.can n).tec.toNat = (s.can n).tec.toNat - 1 ∧ t.evt n 1 = true) ∧
    (∀ (s : State) (n : Fin 8) (x : CanTx) (m : Fin 64) (st : Reg32), s.canUp n = true → (s.can n).steady → (s.can n).tx = some x → x.obj = m → x.start = some st → x.once = false →
      ∃ t, exec (.canTransmitEnd n false) s = .next t ∧ CanLeaves s t n ∧ OtherObjs s t n m ∧ (t.can n).unack = satInc (s.can n).unack ∧ ((t.can n).alone = true ↔ ((s.can n).alone = true ∨ ((s.canCfg n).toNat / 2 ^ 8 % 256) ≠ 0 ∧ ((s.canCfg n).toNat / 2 ^ 8 % 256) ≤ (satInc (s.can n).unack).toNat)) ∧ (((s.can n).alone = true ∨ ((s.canCfg n).toNat / 2 ^ 8 % 256) ≠ 0 ∧ ((s.canCfg n).toNat / 2 ^ 8 % 256) ≤ (satInc (s.can n).unack).toNat) → (s.can n).alone = false → t.evt n 5 = true) ∧
        (((s.can n).alone = true ∨ ((s.canCfg n).toNat / 2 ^ 8 % 256) ≠ 0 ∧ ((s.canCfg n).toNat / 2 ^ 8 % 256) ≤ (satInc (s.can n).unack).toNat) → (s.canCfg n).getLsbD 28 = true → (t.can n).tx = none ∧ (t.obj n m).stopped = true ∧ (x.stand = false → (t.obj n m).ready = true)) ∧
        (¬ (((s.can n).alone = true ∨ ((s.canCfg n).toNat / 2 ^ 8 % 256) ≠ 0 ∧ ((s.canCfg n).toNat / 2 ^ 8 % 256) ≤ (satInc (s.can n).unack).toNat) ∧ (s.canCfg n).getLsbD 28 = true) → (t.obj n m) = (s.obj n m) ∧ (t.can n).tx = some { x with start := none })) ∧
    (∀ (s : State) (p : Party) (n : Fin 8) (m : Fin 64), s.canUp n = true → (∀ k, p ≠ .brick k) → s.canObjRight p n = true → s.objBrickFirst n m = false → s.urral.hold = false → (s.obj n m).cfg.getLsbD 30 = true →
      ∃ t, exec (.objSend p n m) s = .next t ∧ CanLeaves s t n ∧ OtherObjs s t n m ∧ (t.obj n m) = { (s.obj n m) with ready := true, stopped := false, lost := (s.obj n m).lost || (s.obj n m).ready } ∧ ((s.obj n m).ready = true → t.evt n 2 = true)) ∧
    (∀ (s : State) (p : Party) (n : Fin 8) (m : Fin 64), s.canUp n = true → (∀ k, p ≠ .brick k) → s.canObjRight p n = true → s.objBrickFirst n m = false → (s.urral.hold = true ∨ (s.obj n m).cfg.getLsbD 30 = false) → exec (.objSend p n m) s = .next s) ∧
    (∀ (s : State) (p : Party) (n : Fin 8) (m : Fin 64), s.canUp n = true → (∀ k, p ≠ .brick k) → s.canObjRight p n = true → s.objBrickFirst n m = false → ∃ t, exec (.objAbort p n m) s = .next t ∧ t = { s with cans := t.cans } ∧ (∀ k, k ≠ n → t.can k = s.can k) ∧ OtherObjs s t n m ∧ (t.obj n m) = { (s.obj n m) with ready := false }) ∧
    (∀ (s : State) (p : Party) (n : Fin 8) (m : Fin 64), s.canUp n = true → (∀ k, p ≠ .brick k) → s.canObjRight p n = true → s.objBrickFirst n m = false → ∃ t, exec (.objResume p n m) s = .next t ∧ t = { s with cans := t.cans } ∧ (∀ k, k ≠ n → t.can k = s.can k) ∧ OtherObjs s t n m ∧ (t.obj n m) = { (s.obj n m) with stopped := false }) ∧
    (∀ (s : State) (bk : Fin 52) (n : Fin 8) (m : Fin 64), s.holdsCan bk n → (s.can n).sel = m → s.urral.hold = false → (s.obj n m).cfg.getLsbD 30 = true →
      ∃ t, exec (.objSend (.brick bk) n m) s = .next t ∧ CanLeaves s t n ∧ OtherObjs s t n m ∧
        (t.obj n m) = { (s.obj n m) with fmt := (s.can n).stFmt, data := (s.can n).stData, ready := true, stopped := false, lost := (s.obj n m).lost || (s.obj n m).ready }) ∧
    (∀ (s : State) (p : Party) (n : Fin 8) (m : Fin 64) (off : BitVec 7) (v : Reg32), s.canUp n = true → (∀ k, p ≠ .brick k) → s.canObjRight p n = true → s.objBrickFirst n m = false → (off = 8 ∨ 0x40 ≤ off) → (s.obj n m).cfg.getLsbD 30 = true → (s.obj n m).ready = false →
      ∃ t, exec (.objBar0Write p n m off v) s = .next t ∧ t = { s with cans := t.cans } ∧ (∀ k, k ≠ n → t.can k = s.can k) ∧ OtherObjs s t n m ∧ (t.obj n m) = { (s.obj n m) with fmt := (t.obj n m).fmt, data := (t.obj n m).data } ∧ (off = 8 → (t.obj n m).data = (s.obj n m).data ∧ (t.obj n m).fmt = v.extractLsb' 0 8 &&& 0xEF) ∧
        (0x40 ≤ off → (t.obj n m).fmt = (s.obj n m).fmt ∧ ∀ k : Nat, off.toNat = 0x40 + 4 * k → ∀ i, i < 512 → (t.obj n m).data.getLsbD i = (if 32 * k ≤ i ∧ i < 32 * k + 32 then v.getLsbD (i - 32 * k) else (s.obj n m).data.getLsbD i))) ∧
    (∀ (s : State) (p : Party) (n : Fin 8) (m : Fin 64) (off : BitVec 7) (v : Reg32), s.canUp n = true → (∀ k, p ≠ .brick k) → s.canObjRight p n = true → s.objBrickFirst n m = false → (off = 8 ∨ 0x40 ≤ off) → ((s.obj n m).cfg.getLsbD 30 = false ∨ (s.obj n m).ready = true) → exec (.objBar0Write p n m off v) s = .next (s.refused p (objBase n m + off.toNat) v.toNat)) ∧
    (∀ (s : State) (p : Party) (n : Fin 8) (m : Fin 64) (off : BitVec 7) (v : Reg32), s.canUp n = true → (s.objBrickFirst n m = true ∨ (off = 0 ∨ off = 4) ∧ ((s.can n).st ≠ .init ∨ s.configuresCan p n = false)) → exec (.objBar0Write p n m off v) s = .next (s.refused p (objBase n m + off.toNat) v.toNat)) ∧
    (∀ (s : State) (p : Party) (n : Fin 8) (m : Fin 64) (v : Reg32), s.canUp n = true → s.objBrickFirst n m = false → s.configuresCan p n = true → (s.can n).st = .init →
      ∃ t, exec (.objBar0Write p n m 0 v) s = .next t ∧ t = { s with cans := t.cans } ∧ (∀ k, k ≠ n → t.can k = s.can k) ∧ OtherObjs s t n m ∧ (t.obj n m) = { (s.obj n m) with cfg := v }) ∧
    (∀ (s : State) (bk : Fin 52) (n : Fin 8) (v : Word) (m : Fin 64), s.holdsCan bk n → v.toNat % 64 = m.val →
      ∃ t, exec (.canSnapshot bk n v) s = .next t ∧ t = { s with cans := t.cans, journal := t.journal } ∧ (∀ k, k ≠ n → t.can k = s.can k) ∧ OtherObjs s t n m ∧ (t.can n).sel = m ∧
        (t.obj n m) = { (s.obj n m) with new_ := false, lost := false, nullrx := false, txdone := false, missed := false } ∧ (t.can n).snap = { cfg := (s.obj n m).cfg, fmt := (s.obj n m).fmt, st := (s.obj n m).status, stamp := (s.obj n m).stamp, data := (s.obj n m).data }) ∧
    (∀ (s : State) (bk : Fin 52) (n : Fin 8), s.holdsCan bk n → ∃ t, exec (.canEvtRead bk n) s = .next t ∧ t = { s with cans := t.cans, readValue := t.readValue, journal := t.journal } ∧ (∀ k, k ≠ n → t.can k = s.can k) ∧ t.readValue = (0 : Word) ++ (s.can n).evt ∧ (t.can n) = { (s.can n) with evt := 0 }) ∧
    (∀ (s : State) (bk : Fin 52) (n : Fin 8), s.holdsCan bk n → ∃ t, exec (.canTsclRead bk n) s = .next t ∧ t = { s with cans := t.cans, readValue := t.readValue, journal := t.journal } ∧ (∀ k, k ≠ n → t.can k = s.can k) ∧ t.readValue.toNat = (canTsc s.now).toNat % 2 ^ 16 ∧ (t.can n) = { (s.can n) with tsch := (canTsc s.now).extractLsb' 16 16 }) ∧
    (∀ s : State, s.blocksUp = true → exec .anchorLatch s = .next { s with now := max s.now s.anchor.next, anchor := { cnt := canTsc s.anchor.next, td0 := quadOf (s.tdValue 0 s.anchor.next), td1 := quadOf (s.tdValue 1 s.anchor.next), next := s.anchor.next + 4096000 } })

/-- Time-triggered operation: windows, references, roles and the watch time (R364, R366, R368, R369, R370). -/
def Obligations.SchedulesRunTheWindows : Prop :=
  (∀ (s : State) (n : Fin 8) (e : Fin 128) (idle : Bool), s.ttActive n = true → (s.can n).tt.synced = true → e.val < (s.ttCfg n).toNat % 256 → (s.can n).tt.cyc.toNat % 2 ^ min ((s.trig n e.val).toNat / 2 ^ 10 % 8) 6 = (s.trig n e.val).toNat / 2 ^ 4 % 64 → (s.can n).tt.level ≠ 3 → (s.trig n e.val).toNat / 2 ^ 13 % 8 = 2 → ∃ t, exec (.triggerTimeMark n e idle) s = .next t ∧ CanLeaves s t n ∧ t.now = max s.now (s.ttWhen n ((s.trig n e.val).toNat / 2 ^ 16)) ∧ (t.can n).tt = { (s.can n).tt with window := .free } ∧ SameObjs s t n ∧ t.canOut = s.canOut) ∧
    (∀ (s : State) (n : Fin 8) (e : Fin 128) (idle : Bool), s.ttActive n = true → (s.can n).tt.synced = true → e.val < (s.ttCfg n).toNat % 256 → (s.can n).tt.cyc.toNat % 2 ^ min ((s.trig n e.val).toNat / 2 ^ 10 % 8) 6 = (s.trig n e.val).toNat / 2 ^ 4 % 64 → (s.can n).tt.level ≠ 3 → (s.trig n e.val).toNat / 2 ^ 13 % 8 = 4 → ∃ t, exec (.triggerTimeMark n e idle) s = .next t ∧ CanLeaves s t n ∧ t.now = max s.now (s.ttWhen n ((s.trig n e.val).toNat / 2 ^ 16)) ∧ (t.can n).tt = { (s.can n).tt with window := .none } ∧ t.evt n 7 = true ∧ SameObjs s t n ∧ t.canOut = s.canOut) ∧
    (∀ (s : State) (n : Fin 8) (e : Fin 128) (idle : Bool), s.ttActive n = true → (s.can n).tt.synced = true → e.val < (s.ttCfg n).toNat % 256 → (s.can n).tt.cyc.toNat % 2 ^ min ((s.trig n e.val).toNat / 2 ^ 10 % 8) 6 = (s.trig n e.val).toNat / 2 ^ 4 % 64 → (s.can n).tt.level ≠ 3 → (s.trig n e.val).toNat / 2 ^ 13 % 8 = 3 → (s.can n).tt.seen.getLsbD (s.trigObj n e.val).val = true → ∃ t, exec (.triggerTimeMark n e idle) s = .next t ∧ CanLeaves s t n ∧ t.now = max s.now (s.ttWhen n ((s.trig n e.val).toNat / 2 ^ 16)) ∧ SameObjs s t n ∧ (t.can n).tt = { (s.can n).tt with window := .none } ∧ (t.can n).evt = (s.can n).evt) ∧
    (∀ (s : State) (n : Fin 8) (e : Fin 128) (idle : Bool), s.ttActive n = true → (s.can n).tt.synced = true → e.val < (s.ttCfg n).toNat % 256 → (s.can n).tt.cyc.toNat % 2 ^ min ((s.trig n e.val).toNat / 2 ^ 10 % 8) 6 = (s.trig n e.val).toNat / 2 ^ 4 % 64 → (s.can n).tt.level ≠ 3 → (s.trig n e.val).toNat / 2 ^ 13 % 8 = 3 → (s.can n).tt.seen.getLsbD (s.trigObj n e.val).val = false → ∃ t, exec (.triggerTimeMark n e idle) s = .next t ∧ CanLeaves s t n ∧ t.now = max s.now (s.ttWhen n ((s.trig n e.val).toNat / 2 ^ 16)) ∧ OtherObjs s t n (s.trigObj n e.val) ∧ (t.obj n (s.trigObj n e.val)) = { (s.obj n (s.trigObj n e.val)) with missed := true } ∧ t.evt n 10 = true ∧
        (t.can n).tt.level = (if (s.can n).tt.level = 0 then 1 else (s.can n).tt.level) ∧ (t.can n).tt.cause1 = true) ∧
    (∀ (s : State) (n : Fin 8) (e : Fin 128), s.ttActive n = true → (s.can n).tt.synced = true → e.val < (s.ttCfg n).toNat % 256 → (s.can n).tt.cyc.toNat % 2 ^ min ((s.trig n e.val).toNat / 2 ^ 10 % 8) 6 = (s.trig n e.val).toNat / 2 ^ 4 % 64 → (s.can n).tt.level ≠ 3 → (s.trig n e.val).toNat / 2 ^ 13 % 8 = 1 → ∃ t, exec (.triggerTimeMark n e true) s = .next t ∧ CanLeaves s t n ∧ t.now = max s.now (s.ttWhen n ((s.trig n e.val).toNat / 2 ^ 16)) ∧ (t.can n).tt = { (s.can n).tt with window := .arb (s.trigObj n e.val) } ∧ SameObjs s t n ∧ t.canOut = s.canOut) ∧
    (∀ (s : State) (n : Fin 8) (e : Fin 128), s.ttActive n = true → (s.can n).tt.synced = true → e.val < (s.ttCfg n).toNat % 256 → (s.can n).tt.cyc.toNat % 2 ^ min ((s.trig n e.val).toNat / 2 ^ 10 % 8) 6 = (s.trig n e.val).toNat / 2 ^ 4 % 64 → (s.can n).tt.level ≠ 3 → (s.trig n e.val).toNat / 2 ^ 13 % 8 = 0 → (s.can n).quiet = true → (s.can n).tt.level < 2 → (s.canCfg n).getLsbD 18 = false → (s.canCfg n).getLsbD 19 = false → (s.obj n (s.trigObj n e.val)).sendable = true → ∃ t, exec (.triggerTimeMark n e true) s = .next t ∧ CanLeaves s t n ∧ t.now = max s.now (s.ttWhen n ((s.trig n e.val).toNat / 2 ^ 16)) ∧ OtherObjs s t n (s.trigObj n e.val) ∧ (t.obj n (s.trigObj n e.val)) = { (s.obj n (s.trigObj n e.val)) with ready := false } ∧ (t.can n).tt.window = .excl (s.trigObj n e.val) ∧
        t.canOut = s.canOut ++ [{ n := n, id := (s.obj n (s.trigObj n e.val)).cfg.extractLsb' 0 30, fmt := (s.obj n (s.trigObj n e.val)).fmt, data := (s.obj n (s.trigObj n e.val)).data, stamp := canTsc (max s.now (s.ttWhen n ((s.trig n e.val).toNat / 2 ^ 16))) }] ∧ ∃ x, (t.can n).tx = some x ∧ x.once = true) ∧
    (∀ (s : State) (n : Fin 8) (e : Fin 128), s.ttActive n = true → (s.can n).tt.synced = true → e.val < (s.ttCfg n).toNat % 256 → (s.can n).tt.cyc.toNat % 2 ^ min ((s.trig n e.val).toNat / 2 ^ 10 % 8) 6 = (s.trig n e.val).toNat / 2 ^ 4 % 64 → (s.can n).tt.level ≠ 3 → (s.trig n e.val).toNat / 2 ^ 13 % 8 = 0 → (s.can n).quiet = true → (s.can n).tt.level < 2 → (s.canCfg n).getLsbD 18 = false → (s.canCfg n).getLsbD 19 = false → (s.obj n (s.trigObj n e.val)).sendable = false → (s.obj n (s.trigObj n e.val)).en = true → (s.obj n (s.trigObj n e.val)).mode.getLsbD 1 = true → s.urral.hold = false → ∃ t, exec (.triggerTimeMark n e true) s = .next t ∧ CanLeaves s t n ∧ t.now = max s.now (s.ttWhen n ((s.trig n e.val).toNat / 2 ^ 16)) ∧ SameObjs s t n ∧ t.evt n 11 = true ∧
        t.canOut = s.canOut ++ [{ n := n, id := (s.obj n (s.trigObj n e.val)).cfg.extractLsb' 0 30, fmt := (s.obj n (s.trigObj n e.val)).fmt &&& 0x80, data := 0, stamp := canTsc (max s.now (s.ttWhen n ((s.trig n e.val).toNat / 2 ^ 16))) }]) ∧
    (∀ (s : State) (n : Fin 8) (e : Fin 128), s.ttActive n = true → (s.can n).tt.synced = true → e.val < (s.ttCfg n).toNat % 256 → (s.can n).tt.cyc.toNat % 2 ^ min ((s.trig n e.val).toNat / 2 ^ 10 % 8) 6 = (s.trig n e.val).toNat / 2 ^ 4 % 64 → (s.can n).tt.level ≠ 3 → (s.trig n e.val).toNat / 2 ^ 13 % 8 = 0 → (s.can n).quiet = true → (s.can n).tt.level < 2 → (s.canCfg n).getLsbD 18 = false → (s.canCfg n).getLsbD 19 = false → (s.obj n (s.trigObj n e.val)).sendable = false → (s.obj n (s.trigObj n e.val)).mode.getLsbD 1 = false → ∃ t, exec (.triggerTimeMark n e true) s = .next t ∧ CanLeaves s t n ∧ t.now = max s.now (s.ttWhen n ((s.trig n e.val).toNat / 2 ^ 16)) ∧ SameObjs s t n ∧ t.canOut = s.canOut ∧ (t.can n).tt.window = .excl (s.trigObj n e.val)) ∧
    (∀ (s : State) (n : Fin 8), s.ttActive n = true → (s.ttCfg n).getLsbD 30 = true → (s.can n).tt.level ≠ 3 → (s.can n).quiet = true → (s.canCfg n).getLsbD 18 = false → (s.canCfg n).getLsbD 19 = false → (s.can n).tt.synced = true → ∃ t, exec (.ttReferenceSend n) s = .next t ∧ CanLeaves s t n ∧ t.now = max s.now (s.ttWhen n ((s.reg (canBase n + 0x104)).toNat % 2 ^ 16)) ∧ (t.can n).tt.role = .master ∧ (t.can n).tt.synced = true ∧
        (t.can n).tt.cyc.toNat = ((s.can n).tt.cyc.toNat + 1) % 2 ^ min ((s.ttCfg n).toNat / 2 ^ 9 % 8) 6 ∧ (t.can n).tt.start = t.now ∧ t.evt n 7 = true ∧ ((s.can n).tt.role ≠ .master → t.evt n 9 = true) ∧ SameObjs s t n ∧ ∃ x, t.canOut = s.canOut ++ [x] ∧ x.n = n ∧ x.id.toNat = ((s.ttCfg n).toNat / 2 ^ 12 % 256 * 8 + (s.ttCfg n).toNat / 2 ^ 26 % 8) * 2 ^ 18) ∧
    (∀ (s : State) (n : Fin 8) (prio : BitVec 3) (cyc : BitVec 6) (g : Word), s.ttActive n = true →
      ∃ t, exec (.ttReferenceReceive n prio cyc g) s = .next t ∧ CanLeaves s t n ∧ t.now = s.now ∧ (t.can n).tt.role = (if (s.ttCfg n).getLsbD 30 then .backup else .slave) ∧ (t.can n).tt.cyc = cyc ∧ (t.can n).tt.gtime = g ∧ (t.can n).tt.prio = prio ∧
        (t.can n).tt.synced = true ∧ (t.can n).tt.start = s.now ∧ (t.can n).tt.seen = 0 ∧ (t.can n).unack = 0 ∧ t.evt n 7 = true ∧ SameObjs s t n ∧ ((s.ttCfg n).getLsbD 29 = true → (s.can n).tt.level = 2 → (t.can n).tt.level = 0) ∧ ((s.can n).tt.level = 3 → (t.can n).tt.level = 3)) ∧
    (∀ (s : State) (n : Fin 8), s.ttActive n = true → ((s.ttCfg n).getLsbD 30 = false ∨ (s.can n).tt.synced = true) →
      ∃ t, exec (.ttWatchTimeout n) s = .next t ∧ CanLeaves s t n ∧ t.now = max s.now (s.ttWhen n ((s.reg (canBase n + 0x104)).toNat / 2 ^ 16)) ∧ (t.can n).tt.synced = false ∧ (t.can n).tt.level = (if (s.can n).tt.level < 2 then 2 else (s.can n).tt.level) ∧ SameObjs s t n ∧ t.canOut = s.canOut) ∧
    (∀ (s : State) (n : Fin 8), s.ttActive n = true → (s.ttCfg n).getLsbD 30 = true → (s.can n).tt.level ≠ 3 → (s.can n).quiet = true → (s.canCfg n).getLsbD 18 = false → (s.canCfg n).getLsbD 19 = false → (s.can n).tt.synced = false → ∃ t, exec (.ttWatchTimeout n) s = .next t ∧ CanLeaves s t n ∧ (t.can n).tt.role = .master ∧ (t.can n).tt.cyc = 0 ∧ (t.can n).tt.synced = true ∧ t.evt n 7 = true ∧ SameObjs s t n ∧ ∃ x, t.canOut = s.canOut ++ [x] ∧ x.n = n ∧ x.id.toNat = ((s.ttCfg n).toNat / 2 ^ 12 % 256 * 8 + (s.ttCfg n).toNat / 2 ^ 26 % 8) * 2 ^ 18)

/-- The barrier stream, inputs, outputs, timed commands and pulse tests of the field block (R375, R377, R379, R380, R381, R383, R384, R386, R387, R388, R390, R392). -/
def Obligations.FieldChannelsFollowTheStream : Prop :=
  (∀ (s : State), s.fieldUp = true → exec (.streamFrame false) s = .next { s with now := max s.now s.field.next, field := { s.field with next := s.field.next + 5000 } }) ∧
    (∀ (s : State), s.fieldUp = true → s.field.fifo.length ≤ 32 →
      ∃ t, exec (.streamFrame true) s = .next t ∧ FieldLeaves s t ∧ t.now = max s.now s.field.next ∧ t.field.next = s.field.next + 5000 ∧ t.field.up = true ∧ t.field.streamOk = true ∧ t.field.logicRx = s.field.next ∧ t.field.fieldRx = s.field.next ∧
        t.field.out = s.field.cmd ∧ t.field.cmd = s.field.cmd ∧ t.field.held = s.field.held &&& ~~~ s.field.newOn ∧ t.field.newOn = 0 ∧ t.field.diSeen = s.field.di ∧ t.field.di = s.field.di ∧ t.field.wbSeen = s.field.wb ∧ t.field.fvSeen = s.field.fv24 ∧
        t.field.doSeen = t.field.onMask &&& ~~~ t.field.pulsed ∧ t.field.ovl = s.field.ovl ||| s.field.fOvl ∧ t.field.open_ = s.field.open_ ||| s.field.fOpen ∧ t.field.ot = s.field.ot ||| s.field.fOt ∧ t.field.fOvl = 0 ∧ t.field.fOpen = 0 ∧ t.field.fOt = 0 ∧
        (∀ i, s.field.off.getLsbD i = false → t.field.off.getLsbD i = false) ∧ (∀ i, s.field.off.getLsbD i = true → (s.field.cmd.getLsbD i = false ∨ s.field.out.getLsbD i = true) → t.field.off.getLsbD i = true) ∧
        (∀ i, s.field.cmd.getLsbD i = true → s.field.out.getLsbD i = false → s.field.hot.getLsbD i = false → t.field.off.getLsbD i = false) ∧
        t.field.cfgOut = s.field.cfgOut.drop 1 ∧ t.field.queue = s.field.queue.drop 4 ∧ t.field.fifo.map (fun (w : EdgeRec × BitVec 96) => w.1) = (s.field.fifo.map (fun (w : EdgeRec × BitVec 96) => w.1) ++ s.field.queue.take 4).take 32 ∧
        t.field.lost = (s.field.lost || decide (32 < s.field.fifo.length + (s.field.queue.take 4).length)) ∧
        (∀ p, s.field.test = some p → p.start = none → t.field.onMask.getLsbD p.ch.val = true → t.field.test = some { p with start := some s.field.next }) ∧
        (∀ p, s.field.test = some p → p.start = none → t.field.onMask.getLsbD p.ch.val = false → t.field.test = none ∧ t.field.result = 4) ∧
        (∀ p u, s.field.test = some p → p.start = some u → s.field.cmd.getLsbD p.ch.val ≠ s.field.out.getLsbD p.ch.val → t.field.test = none ∧ t.field.result = 5)) ∧
    (∀ (s : State), s.fieldUp = true → s.field.up = true →
      ∃ t, exec (.streamTimeout false) s = .next t ∧ t = { s with now := max s.now (s.field.fieldRx + 20000), field := { s.field with up := false, held := 0xFFFF, newOn := 0 } } ∧ t.doOut = 0) ∧
    (∀ (s : State), s.fieldUp = true → s.field.streamOk = true →
      ∃ t, exec (.streamTimeout true) s = .next t ∧ Logs { s with now := max s.now (s.field.logicRx + 20000), field := { s.field with streamOk := false } } t) ∧
    (∀ (s : State) (n : Fin 32) (level : Bool) (tick : Nat), s.fieldUp = true → s.field.di.getLsbD n.val ≠ level → (s.field.diCfg n.val).getLsbD (if level then 12 else 13) = false → ∃ t, exec (.diChangeAccept n level tick) s = .next t ∧ t = { s with now := max s.now (50 * tick + (s.field.diCfg n.val).toNat % 256 * 5000), field := t.field } ∧ t.field = { s.field with di := t.field.di } ∧ t.field.di.getLsbD n.val = level ∧ ∀ i, i ≠ n.val → t.field.di.getLsbD i = s.field.di.getLsbD i) ∧
    (∀ (s : State) (n : Fin 32) (level : Bool) (tick : Nat), s.fieldUp = true → s.field.di.getLsbD n.val ≠ level → (s.field.diCfg n.val).getLsbD (if level then 12 else 13) = true → s.field.queue.length < 64 → ∃ t, exec (.diChangeAccept n level tick) s = .next t ∧ t = { s with now := max s.now (50 * tick + (s.field.diCfg n.val).toNat % 256 * 5000), field := t.field } ∧ t.field = { s.field with di := t.field.di, queue := insertEdge { ch := n, rise := level, since := 50 * tick } s.field.queue } ∧ t.field.di.getLsbD n.val = level) ∧
    (∀ (s : State) (n : Fin 32) (level : Bool) (tick : Nat), s.fieldUp = true → s.field.di.getLsbD n.val ≠ level → (s.field.diCfg n.val).getLsbD (if level then 12 else 13) = true → 64 ≤ s.field.queue.length → ∃ t, exec (.diChangeAccept n level tick) s = .next t ∧ t = { s with now := max s.now (50 * tick + (s.field.diCfg n.val).toNat % 256 * 5000), field := t.field } ∧ t.field = { s.field with di := t.field.di, lost := true } ∧ t.field.di.getLsbD n.val = level) ∧
    (∀ (e : EdgeRec) (l : List EdgeRec), (insertEdge e l).Perm (e :: l) ∧ (l.Pairwise edgeBefore → (insertEdge e l).Pairwise edgeBefore)) ∧
    (∀ (s : State) (n : Fin 32), s.fieldUp = true → (s.field.diCfg n.val).getLsbD 15 = true → ∃ t, exec (.wireBreak n) s = .next t ∧ t = { s with field := t.field } ∧ t.field = { s.field with wb := t.field.wb } ∧ t.field.wb.getLsbD n.val = true ∧ ∀ i, i ≠ n.val → t.field.wb.getLsbD i = s.field.wb.getLsbD i) ∧
    (∀ (s : State) (n : Fin 32), s.fieldUp = true → ∃ t, exec (.wireBreakClear n) s = .next t ∧ t = { s with field := t.field } ∧ t.field = { s.field with wb := t.field.wb } ∧ t.field.wb.getLsbD n.val = false ∧ ∀ i, i ≠ n.val → t.field.wb.getLsbD i = s.field.wb.getLsbD i) ∧
    (∀ (s : State) (bk : Fin 52) (tag : BitVec 10) (q : EdgeRec) (w : BitVec 96) (r : List (EdgeRec × BitVec 96)), s.holdsField bk → s.field.fifo = (q, w) :: r →
      ∃ t, exec (.edgePop (.brick bk) tag) s = .next t ∧ t = { s with field := t.field, readValue := t.readValue, journal := t.journal } ∧ t.readValue.toNat = 0x8000 + (if q.rise then 0x4000 else 0) + (if s.field.lost then 0x2000 else 0) + q.ch.val ∧ t.field = { s.field with fifo := r, edgeTs := w, lost := false }) ∧
    (∀ (s : State) (p : Party) (tag : BitVec 10) (q : EdgeRec) (w : BitVec 96) (r : List (EdgeRec × BitVec 96)), s.fieldUp = true → (∀ k, p ≠ .brick k) → s.fieldHeld = false → s.field.fifo = (q, w) :: r →
      ∃ t, exec (.edgePop p tag) s = .next t ∧ t = { s with field := t.field, readValue := t.readValue, orphPf := t.orphPf } ∧ t.readValue.toNat = 0x8000 + (if q.rise then 0x4000 else 0) + (if s.field.lost then 0x2000 else 0) + q.ch.val ∧ t.field = { s.field with fifo := r, edgeTs := w, lost := false }) ∧
    (∀ (s : State) (p : Party) (tag : BitVec 10), s.fieldUp = true → (∀ k, p ≠ .brick k) → (s.fieldHeld = true ∨ s.field.fifo = []) →
      ∃ t, exec (.edgePop p tag) s = .next t ∧ t = { s with readValue := 0, orphPf := t.orphPf }) ∧
    (∀ (s : State) (bk : Fin 52) (v : Word), s.holdsField bk → s.urral.hold = false → ∃ t, exec (.doCmdWrite (.brick bk) v) s = .next t ∧ t = { s with field := t.field, journal := t.journal, regs := t.regs } ∧ t.regs = s.regs ∧ t.field = { s.field with cmd := v, newOn := v, brickWrite := t.field.brickWrite }) ∧
    (∀ (s : State) (bk : Fin 52) (v : Word), s.holdsField bk → s.urral.hold = true →
      ∃ t, exec (.doCmdWrite (.brick bk) v) s = .next t ∧ t.regs = s.regs ∧ t.field = { s.field with cmd := t.field.cmd, newOn := t.field.newOn, brickWrite := t.field.brickWrite } ∧
        ∀ i, i < 16 → t.field.cmd.getLsbD i = (s.field.cmd.getLsbD i && (v.getLsbD i || !(s.reg 0x600020).getLsbD i))) ∧
    (∀ (s : State) (p : Party) (v : Word), s.fieldUp = true → (∀ k, p ≠ .brick k) → s.fieldHeld = false → s.pf1MgrKey p = true → s.urral.hold = false → exec (.doCmdWrite p v) s = .next { s with field := { s.field with cmd := v, newOn := v } }) ∧
    (∀ (s : State) (p : Party) (v : Word), s.fieldUp = true → (∀ k, p ≠ .brick k) → (s.fieldHeld = true ∨ s.pf1MgrKey p = false ∨ s.urral.hold = true) → exec (.doCmdWrite p v) s = .next (s.refused p 0x400010 v.toNat)) ∧
    (∀ (s : State) (p : Party) (v : Reg32), s.fieldUp = true → (∀ k, p ≠ .brick k) → s.fieldHeld = false → s.pf1MgrKey p = true → s.urral.hold = false → quadOk (s.stagedQuad 0x400040 v) = true →
      ∃ t, exec (.timedCommandArm p v) s = .next t ∧ t = { s with field := t.field, plumb := { s.plumb with quads := t.plumb.quads } } ∧ t.field = { s.field with late := t.field.late, tcmd := t.field.tcmd } ∧ t.field.tcmd = some { mask := (s.reg 0x400030).extractLsb' 16 16, val := (s.reg 0x400030).extractLsb' 0 16, at_ := (ofQuad (s.stagedQuad 0x400040 v)), td := s.field.cfg.getLsbD 29, late := t.field.late, sent := false } ∧ t.field.late = decide ((ofQuad (s.stagedQuad 0x400040 v)) < (s.tdValue (if s.field.cfg.getLsbD 29 then 1 else 0) s.now) + 3000 * 2 ^ 48)) ∧
    (∀ (s : State) (p : Party) (v : Reg32), s.fieldUp = true → (∀ k, p ≠ .brick k) → ((s.fieldHeld = true ∨ s.pf1MgrKey p = false) ∨ quadOk (s.stagedQuad 0x400040 v) = false) → exec (.timedCommandArm p v) s = .next (s.refused p 0x40004C v.toNat)) ∧
    (∀ (s : State) (bk : Fin 52) (v : Reg32), s.holdsField bk → s.urral.hold = false → (s.field.tt1.toNat * 65536 + s.field.tt0.toNat) < 1000000000 → 32768 ≤ (secOf (s.tdValue (if s.field.cfg.getLsbD 29 then 1 else 0) s.now)) →
      ∃ t sec, exec (.timedCommandArm (.brick bk) v) s = .next t ∧ t = { s with field := t.field, journal := t.journal, regs := t.regs } ∧ t.regs = s.regs ∧ t.field = { s.field with late := t.field.late, tcmd := t.field.tcmd, tt2 := v.extractLsb' 0 16, brickWrite := t.field.brickWrite } ∧
        sec % 65536 = v.toNat % 65536 ∧ (secOf (s.tdValue (if s.field.cfg.getLsbD 29 then 1 else 0) s.now)) ≤ sec + 32768 ∧ sec < (secOf (s.tdValue (if s.field.cfg.getLsbD 29 then 1 else 0) s.now)) + 32768 ∧ t.field.tcmd = some { mask := (s.reg 0x400030).extractLsb' 16 16, val := (s.reg 0x400030).extractLsb' 0 16, at_ := (sec * unitsPerSec + (s.field.tt1.toNat * 65536 + s.field.tt0.toNat) * 2 ^ 48), td := s.field.cfg.getLsbD 29, late := t.field.late, sent := false } ∧ t.field.late = decide ((sec * unitsPerSec + (s.field.tt1.toNat * 65536 + s.field.tt0.toNat) * 2 ^ 48) < (s.tdValue (if s.field.cfg.getLsbD 29 then 1 else 0) s.now) + 3000 * 2 ^ 48)) ∧
    (∀ (s : State) (c : TimedCmd), s.fieldUp = true → s.field.tcmd = some c → c.sent = true →
      ∃ t, exec .timedCommandApply s = .next t ∧ t = { s with now := t.now, freeCtr := t.freeCtr, field := t.field } ∧ t.field.tcmd = none ∧ t.field.cmd = ((s.field.cmd &&& ~~~ c.mask) ||| (c.val &&& c.mask)) ∧ t.field.out = ((s.field.out &&& ~~~ c.mask) ||| (c.val &&& c.mask)) ∧ t.field.late = s.field.late ∧
        (c.late = true → t.now = s.now) ∧ (c.late = false → t.now ≤ max s.now (s.tdReach (tdOf c.td) c.at_ s.now + 100) ∧ s.tdReach (tdOf c.td) c.at_ s.now ≤ t.now + 100)) ∧
    (∀ (s : State) (m : Fin 16), s.fieldUp = true → s.doOut.getLsbD m.val = true → ∃ t, exec (.doOverload m) s = .next t ∧ t = { s with field := t.field } ∧ t.field = { s.field with fOvl := t.field.fOvl, off := t.field.off } ∧ t.field.fOvl.getLsbD m.val = true ∧ (∀ i, i ≠ m.val → t.field.off.getLsbD i = s.field.off.getLsbD i ∧ t.field.fOvl.getLsbD i = s.field.fOvl.getLsbD i) ∧
        ((s.field.doCfg m.val).getLsbD 1 = true → t.field.off.getLsbD m.val = true ∧ t.doOut.getLsbD m.val = false) ∧ ((s.field.doCfg m.val).getLsbD 1 = false → t.doOut = s.doOut)) ∧
    (∀ (s : State) (m : Fin 16), s.fieldUp = true → ∃ t, exec (.doOverTemperature m) s = .next t ∧ t = { s with field := t.field } ∧ t.field = { s.field with fOt := t.field.fOt, off := t.field.off, hot := t.field.hot } ∧ t.field.fOt.getLsbD m.val = true ∧ t.field.hot.getLsbD m.val = true ∧ t.doOut.getLsbD m.val = false ∧
        ∀ i, i ≠ m.val → t.field.off.getLsbD i = s.field.off.getLsbD i ∧ t.doOut.getLsbD i = s.doOut.getLsbD i) ∧
    (∀ (s : State) (m : Fin 16), s.fieldUp = true → s.doOut.getLsbD m.val = true → (∀ k : Fin 16, m < k → s.doOut.getLsbD k.val = false) → ∃ t, exec .groupLimit s = .next t ∧ t = { s with field := t.field } ∧ t.field = { s.field with fOvl := t.field.fOvl, off := t.field.off } ∧ t.field.fOvl.getLsbD m.val = true ∧ t.doOut.getLsbD m.val = false ∧
        ∀ i, i ≠ m.val → t.field.off.getLsbD i = s.field.off.getLsbD i ∧ t.doOut.getLsbD i = s.doOut.getLsbD i) ∧
    (∀ (s : State) (m : Fin 16), s.fieldUp = true → (s.field.doCfg m.val).getLsbD 2 = true → ∃ t, exec (.openLoad m) s = .next t ∧ t = { s with field := t.field } ∧ t.field = { s.field with fOpen := t.field.fOpen } ∧ t.field.fOpen.getLsbD m.val = true ∧ t.doOut = s.doOut) ∧
    (∀ (s : State) (ok : Bool), s.fieldFitted = true → ∃ t, exec (.fv24OkChange ok) s = .next t ∧ t = { s with field := { s.field with fv24 := ok } } ∧ (ok = false → t.doOut = 0) ∧
        (ok = true → s.fieldUp = true → s.field.up = true → s.field.test = none → t.doOut = s.field.out &&& ~~~ s.field.held &&& ~~~ s.field.off)) ∧
    (∀ (s : State) (p : Party) (v : Reg32), s.fieldUp = true → (if s.fieldHeld then p = .keystone else s.pf1MgrKey p = true) → (v.getLsbD 31 ≠ s.field.cfg.getLsbD 31 ∧ s.field.cfg.getLsbD 30 = false) → (s.field.cmd ≠ 0 ∨ s.field.doSeen ≠ 0) → ∃ t, exec (.fioCfgWrite p v) s = .next t ∧ Logs s t) ∧
    (∀ (s : State) (p : Party) (v : Reg32), s.fieldUp = true → (if s.fieldHeld then p = .keystone else s.pf1MgrKey p = true) → (¬ (v.getLsbD 31 ≠ s.field.cfg.getLsbD 31 ∧ s.field.cfg.getLsbD 30 = false) ∨ s.field.cmd = 0 ∧ s.field.doSeen = 0) → ∃ t, exec (.fioCfgWrite p v) s = .next t ∧ t = { s with field := t.field } ∧ t.field = { s.field with cfg := t.field.cfg, cfgOut := s.field.cfgOut ++ [0x400000] } ∧
        t.field.cfg.getLsbD 29 = v.getLsbD 29 ∧ t.field.cfg.getLsbD 30 = s.field.cfg.getLsbD 30 ∧ t.field.cfg.getLsbD 31 = (if s.field.cfg.getLsbD 30 then s.field.cfg.getLsbD 31 else v.getLsbD 31)) ∧
    (∀ (s : State) (p : Party) (v : Reg32), s.fieldUp = true → ¬ (if s.fieldHeld then p = .keystone else s.pf1MgrKey p = true) → exec (.fioCfgWrite p v) s = .next (s.refused p 0x400000 v.toNat)) ∧
    (∀ (s : State) (bk : Fin 52) (v : Word), s.holdsField bk → s.urral.hold = false → v.getLsbD 15 = true → s.field.test = none → 13 ≤ (v.toNat / 2 ^ 4 % 256) →
      ∃ t p', exec (.pulseTest (.brick bk) v) s = .next t ∧ t = { s with field := t.field, journal := t.journal, regs := t.regs } ∧ (∀ o, o ≠ 0x400060 → t.reg o = s.reg o) ∧ t.field = { s.field with test := some p', result := 1, brickWrite := t.field.brickWrite } ∧ p'.ch.val = (v.toNat % 16) ∧ p'.width = (v.toNat / 2 ^ 4 % 256) ∧ p'.start = none) ∧
    (∀ (s : State) (bk : Fin 52) (v : Word), s.holdsField bk → s.urral.hold = false → v.getLsbD 15 = true → s.field.test = none → (v.toNat / 2 ^ 4 % 256) < 13 → ∃ t, exec (.pulseTest (.brick bk) v) s = .next t ∧ t = { s with field := t.field, journal := t.journal, regs := t.regs } ∧ (∀ o, o ≠ 0x400060 → t.reg o = s.reg o) ∧ t.field = { s.field with result := 4, brickWrite := t.field.brickWrite }) ∧
    (∀ (s : State) (bk : Fin 52) (v : Word), s.holdsField bk → (v.getLsbD 15 = false ∨ s.field.test.isSome = true) → ∃ t, exec (.pulseTest (.brick bk) v) s = .next t ∧ t = { s with field := t.field, journal := t.journal, regs := t.regs } ∧ (∀ o, o ≠ 0x400060 → t.reg o = s.reg o) ∧ t.field = { s.field with result := s.field.result, brickWrite := t.field.brickWrite }) ∧
    (∀ (s : State) (p : Party) (v : Word), s.fieldUp = true → (∀ k, p ≠ .brick k) → s.fieldHeld = false → s.pf1MgrKey p = true → s.urral.hold = false → v.getLsbD 15 = true → s.field.test = none → 13 ≤ (v.toNat / 2 ^ 4 % 256) →
      ∃ t p', exec (.pulseTest p v) s = .next t ∧ t = { s with field := t.field, regs := t.regs } ∧ (∀ o, o ≠ 0x400060 → t.reg o = s.reg o) ∧ t.field = { s.field with test := some p', result := 1 } ∧ p'.ch.val = (v.toNat % 16) ∧ p'.width = (v.toNat / 2 ^ 4 % 256) ∧ p'.start = none) ∧
    (∀ (s : State) (p : Party) (v : Word), s.fieldUp = true → (∀ k, p ≠ .brick k) → s.fieldHeld = false → s.pf1MgrKey p = true → s.urral.hold = false → v.getLsbD 15 = true → s.field.test = none → (v.toNat / 2 ^ 4 % 256) < 13 → ∃ t, exec (.pulseTest p v) s = .next t ∧ t = { s with field := t.field, regs := t.regs } ∧ (∀ o, o ≠ 0x400060 → t.reg o = s.reg o) ∧ t.field = { s.field with result := 4 }) ∧
    (∀ (s : State) (p : Party) (v : Word), s.fieldUp = true → (∀ k, p ≠ .brick k) → s.fieldHeld = false → s.pf1MgrKey p = true → (v.getLsbD 15 = false ∨ s.field.test.isSome = true) → ∃ t, exec (.pulseTest p v) s = .next t ∧ t = { s with field := t.field, regs := t.regs } ∧ (∀ o, o ≠ 0x400060 → t.reg o = s.reg o) ∧ t.field = { s.field with result := s.field.result }) ∧
    (∀ (s : State) (b : Bool) (p : PulseTest) (u : Nat), s.fieldUp = true → s.field.test = some p → p.start = some u →
      exec (.pulseTestEnd b) s = .next { s with now := max s.now (u + 20000 * p.width), field := { s.field with test := none, result := (if b then 2 else 3) } })

/-- States of a Urral port, ring pairs, frame checks and ring transit (R394, R395, R398, R399, R400, R413). -/
def Obligations.UrralPortsCarryFrames : Prop :=
  (∀ (s : State) (k : Fin 4), s.blocksUp = true → (s.urrPort k).st ≠ .down → ∃ t, exec (.urralSignalLoss k) s = .next t ∧ OnlyUrrPort s t k ∧ LinkLeaves s t ∧ (t.urrPort k) = { (s.urrPort k) with st := .down, hello := false, times := 0, since := (t.urrPort k).since, wrapped := !(s.urrPort k).endRole } ∧ (t.port (portU k)).up = false ∧
        (∀ b, t.pairHealthy b = false → (if b then t.pins.bypB else t.pins.bypA) = false)) ∧
    (∀ (s : State) (k : Fin 4), s.blocksUp = true → (s.urrPort k).st = .training → ∃ t, exec (.urralTrainingTimeout k) s = .next t ∧ t.now = max s.now ((s.urrPort k).since + 30000000) ∧ OnlyUrrPort s t k ∧ LinkLeaves s t ∧ (t.urrPort k) = { (s.urrPort k) with st := .fault, hello := false, times := 0, since := (t.urrPort k).since, wrapped := !(s.urrPort k).endRole } ∧ (t.port (portU k)).up = false ∧
        (∀ b, t.pairHealthy b = false → (if b then t.pins.bypB else t.pins.bypA) = false)) ∧
    (∀ (s : State) (k : Fin 4), s.blocksUp = true → s.urrEn k = true → ((s.urrPort k).st = .down ∨ (s.urrPort k).st = .fault) → ∃ t, exec (.urralSignalDetect k) s = .next t ∧ t = { s with urral := t.urral } ∧ OnlyUrrPort s t k ∧ (t.urrPort k) = { (s.urrPort k) with st := .training, since := s.now, hello := false, times := 0 }) ∧
    (∀ (s : State) (k : Fin 4) (looped : Bool), s.blocksUp = true → (s.urrPort k).st = .training → (s.urrPort k).hello = true → 4 ≤ (s.urrPort k).times →
      ∃ t, exec (.urralHealthy k looped) s = .next t ∧ OnlyUrrPort s t k ∧ LinkLeaves s t ∧ (t.urrPort k) = { (s.urrPort k) with st := (if looped then .looped else .healthy), wrapped := false } ∧ (t.port (portU k)).up = true) ∧
    (∀ (s : State) (k : Fin 4) (looped : Bool), ((s.urrPort k).st ≠ .training ∨ (s.urrPort k).hello = false ∨ (s.urrPort k).times < 4) → exec (.urralHealthy k looped) s = .next s) ∧
    (∀ (s : State) (k : Fin 4) (h : HelloInfo), s.blocksUp = true → (s.urrPort k).locked = true → ∃ t, exec (.hello k h) s = .next t ∧ t = { s with urral := t.urral } ∧ OnlyUrrPort s t k ∧ (t.urrPort k) = { (s.urrPort k) with hello := true, peer := h.dev }) ∧
    (∀ (s : State) (k : Fin 4) (l : List Byte), s.blocksUp = true → (s.urrPort k).locked = true → frameOk l = false → (s.urrPort k).errs < 16 → ∃ t, exec (.urralFrameReceive k l) s = .next t ∧ t = { s with urral := t.urral } ∧ OnlyUrrPort s t k ∧ (t.urrPort k) = { (s.urrPort k) with errs := (s.urrPort k).errs + 1, crc := satInc (s.urrPort k).crc }) ∧
    (∀ (s : State) (k : Fin 4) (l : List Byte), s.blocksUp = true → (s.urrPort k).locked = true → frameOk l = false → 16 ≤ (s.urrPort k).errs → ∃ t, exec (.urralFrameReceive k l) s = .next t ∧ OnlyUrrPort s t k ∧ LinkLeaves s t ∧ (t.urrPort k).st = .fault ∧ (t.urrPort k).crc = satInc (s.urrPort k).crc ∧ (t.urrPort k).wrapped = !(s.urrPort k).endRole) ∧
    (∀ (s : State) (k : Fin 4) (l : List Byte), s.blocksUp = true → (s.urrPort k).locked = true → frameOk l = true → (byteAt l 0 % 16 ≠ 1 ∨ (byteAt l 0 / 16) = 0 ∨ 5 < (byteAt l 0 / 16) ∨ l.length ≠ beAt l 4 2 + 16 ∨ s.frameStale l = true) → ∃ t, exec (.urralFrameReceive k l) s = .next t ∧ t = { s with urral := t.urral } ∧ OnlyUrrPort s t k ∧ (t.urrPort k) = { (s.urrPort k) with rxf := satInc (s.urrPort k).rxf }) ∧
    (∀ (s : State) (k : Fin 4) (l : List Byte), s.blocksUp = true → (s.urrPort k).locked = true → frameOk l = true → byteAt l 0 % 16 = 1 → (byteAt l 0 / 16) ≠ 0 → (byteAt l 0 / 16) ≤ 5 → l.length = beAt l 4 2 + 16 → s.frameStale l = false → ¬ (s.urral.numbered = true ∧ byteAt l 1 = s.urral.devnum.val) → byteAt l 1 ≠ 255 → (byteAt l 0 / 16) ≠ 2 → byteAt l 6 ≤ 1 → ∃ t, exec (.urralFrameReceive k l) s = .next t ∧ t = { s with urral := t.urral } ∧ OnlyUrrPort s t k ∧ (t.urrPort k) = { (s.urrPort k) with rxf := satInc (s.urrPort k).rxf }) ∧
    (∀ (s : State) (k : Fin 4) (l : List Byte), s.blocksUp = true → (s.urrPort k).locked = true → frameOk l = true → byteAt l 0 % 16 = 1 → (byteAt l 0 / 16) ≠ 0 → (byteAt l 0 / 16) ≤ 5 → l.length = beAt l 4 2 + 16 → s.frameStale l = false → ¬ (s.urral.numbered = true ∧ byteAt l 1 = s.urral.devnum.val) → byteAt l 1 ≠ 255 → (byteAt l 0 / 16) ≠ 2 → 2 ≤ byteAt l 6 →
      ∃ t g, exec (.urralFrameReceive k l) s = .next t ∧ t = { s with urral := t.urral, chainOut := s.chainOut ++ [.transit (s.transitOut k) g] } ∧ t.urral = { s.urral with ports := t.urral.ports } ∧ (t.urrPort k).rxf = satInc (s.urrPort k).rxf ∧ (t.urrPort (s.transitOut k)).txf = satInc (s.urrPort (s.transitOut k)).txf ∧
        g.length = l.length ∧ frameOk g = true ∧ byteAt g 6 = byteAt l 6 - 1 ∧ ∀ i, i ≠ 6 → (i < 10 ∨ 12 ≤ i ∧ i + 4 < l.length) → byteAt g i = byteAt l i) ∧
    (∀ (s : State) (k : Fin 4) (l : List Byte), s.blocksUp = true → (s.urrPort k).locked = true → frameOk l = true → byteAt l 0 % 16 = 1 → (byteAt l 0 / 16) ≠ 0 → (byteAt l 0 / 16) ≤ 5 → l.length = beAt l 4 2 + 16 → s.frameStale l = false → (s.urral.numbered = true ∧ byteAt l 1 = s.urral.devnum.val) → (byteAt l 0 / 16) ≠ 1 → ∃ t, exec (.urralFrameReceive k l) s = .next t ∧ t = { s with urral := t.urral } ∧ OnlyUrrPort s t k ∧ (t.urrPort k) = { (s.urrPort k) with rxf := satInc (s.urrPort k).rxf }) ∧
    (∀ (s : State) (k : Fin 4) (l : List Byte), s.blocksUp = true → (s.urrPort k).locked = true → frameOk l = true → byteAt l 0 % 16 = 1 → (byteAt l 0 / 16) ≠ 0 → (byteAt l 0 / 16) ≤ 5 → l.length = beAt l 4 2 + 16 → s.frameStale l = false → (s.urral.numbered = true ∧ byteAt l 1 = s.urral.devnum.val) → (byteAt l 0 / 16) = 1 → 64 ≤ (beAt l 4 2 + 4) → (beAt l 4 2 + 4) ≤ s.maxFrame (portU k) → (parseFrame ((l.drop 12).take (beAt l 4 2))).etype ≠ 0x8808 → s.portDozes (portU k) = false →
      ∃ (x : State) (f : Frame), OnlyUrrPort s x k ∧ (x.urrPort k) = { (s.urrPort k) with rxf := satInc (s.urrPort k).rxf } ∧ f.bytes = ((l.drop 12).take (beAt l 4 2)) ∧ f.total = f.bytes.length ∧ f.info.ingress = portU k ∧ f.info.err = false ∧
        exec (.urralFrameReceive k l) s = .next ((({ s with urral := x.urral, freeCtr := s.freeCtr + 2, mortar := { s.mortar with nextId := s.mortar.nextId + 1 } } : State).countPort (portU k) 0 1 |>.countPort (portU k) 1 (beAt l 4 2 + 4)).steer (portU k) f)) ∧
    (∀ a b : BitVec 8, (epochNewer a b = true ↔ 1 ≤ (a.toNat + 256 - b.toNat) % 256 ∧ (a.toNat + 256 - b.toNat) % 256 ≤ 127) ∧ (epochOlder a b = true ↔ 128 ≤ (a.toNat + 256 - b.toNat) % 256)) ∧
    (∀ s : State, s.pairHealthy false = true ↔ (∀ k : Fin 4, k.val < 2 → (s.urrPort k).endRole = false ∧ (s.urrPort k).st ≠ .fault) ∧ ∃ k : Fin 4, k.val < 2 ∧ ((s.urrPort k).st = .healthy ∨ (s.urrPort k).st = .looped)) ∧
    (∀ s : State, s.pairHealthy true = true ↔ (∀ k : Fin 4, 2 ≤ k.val → (s.urrPort k).endRole = false ∧ (s.urrPort k).st ≠ .fault) ∧ ∃ k : Fin 4, 2 ≤ k.val ∧ ((s.urrPort k).st = .healthy ∨ (s.urrPort k).st = .looped))

/-- Claims, numbers, the lease and its lapse (R401, R402, R403, R412, R413, R415, R416). -/
def Obligations.ChainsFormAndKeepTheLease : Prop :=
  (∀ a b : Claim, (a.leaseHeld = true → b.leaseHeld = false → claimAbove a b = true) ∧ (a.leaseHeld = b.leaseHeld → epochNewer a.mepoch b.mepoch = true → claimAbove a b = true) ∧
      (a.leaseHeld = b.leaseHeld → a.mepoch = b.mepoch → a.prio < b.prio → claimAbove a b = true) ∧ (a.leaseHeld = b.leaseHeld → a.mepoch = b.mepoch → a.prio = b.prio → a.uid < b.uid → claimAbove a b = true) ∧
      (a.uid ≠ b.uid → (a.mepoch - b.mepoch).toNat ≠ 128 → claimAbove a b = !claimAbove b a)) ∧
    (∀ (s : State) (k : Fin 4) (c : Claim), s.blocksUp = true → (s.urrPort k).locked = true → (s.urral.role = .worker ∨ s.urral.role = .forming) → (s.urrPort k).endRole = false → s.urral.claim = none →
      ∃ t, exec (.claim k c) s = .next t ∧ t = { s with urral := t.urral, chainOut := s.chainOut ++ [.claim (s.transitOut k) c] } ∧ t.urral = { s.urral with mepoch := t.urral.mepoch, best := t.urral.best, mgrDev := t.urral.mgrDev } ∧ t.urral.mepoch = (if epochNewer c.mepoch s.urral.mepoch then c.mepoch else s.urral.mepoch) ∧
        (∀ b n, s.urral.best = some (b, n) → c = b → n + 2 ≤ s.tick → s.urral.leaseOk = false → t.urral.mgrDev = c.src) ∧ (s.urral.leaseOk = true → t.urral.mgrDev = s.urral.mgrDev)) ∧
    (∀ (s : State) (k : Fin 4) (c : Claim) (own : Claim) (n : Nat), s.blocksUp = true → (s.urrPort k).locked = true → s.urral.claim = some (own, n) → claimAbove c own = true → ∃ t, exec (.claim k c) s = .next t ∧ Logs { s with urral := t.urral, chainOut := t.chainOut } t ∧ t.urral.claim = none ∧ t.urral.role = (if s.urral.cap = 2 then .standby else .worker) ∧ t.urral.mepoch = (if epochNewer c.mepoch s.urral.mepoch then c.mepoch else s.urral.mepoch)) ∧
    (∀ (s : State) (k : Fin 4) (c : Claim) (own : Claim) (n : Nat), s.blocksUp = true → (s.urrPort k).locked = true → s.urral.claim = some (own, n) → claimAbove c own = false → s.urral.role ≠ .manager → ∃ t, exec (.claim k c) s = .next t ∧ Logs { s with urral := t.urral, chainOut := t.chainOut } t ∧ t.urral.claim = s.urral.claim ∧ t.urral.role = s.urral.role ∧ t.urral.mepoch = (if epochNewer c.mepoch s.urral.mepoch then c.mepoch else s.urral.mepoch)) ∧
    (∀ (s : State) (k : Fin 4) (c : Claim), s.blocksUp = true → (s.urrPort k).locked = true → s.urral.role = .manager → s.urral.claim = none → epochNewer c.mepoch s.urral.mepoch = true → ∃ t, exec (.claim k c) s = .next t ∧ Logs { s with urral := t.urral, chainOut := t.chainOut } t ∧ t.urral.role = .standby ∧ t.urral.mepoch = c.mepoch ∧ t.urral.renewing = false ∧ t.pf0.cause.getLsbD 12 = true ∧ t.pf1.cause.getLsbD 12 = true) ∧
    (∀ (s : State) (c : Claim) (n : Nat), s.blocksUp = true → s.urral.claim = some (c, n) → n + 2 ≤ s.tick → s.urral.chainId = none →
      ∃ t, exec .claimWin s = .next t ∧ Logs { s with urral := t.urral, chainOut := t.chainOut } t ∧ t.urral = { s.urral with claim := none, mepoch := c.mepoch, role := .manager, devnum := 0, numbered := true, mgrDev := 0, chainId := some (s.uid.extractLsb' 0 16), renewing := true, swapFrom := s.tick } ∧
        ∀ k, s.endPort k → UrrOut.enum k 1 (s.uid.extractLsb' 0 16) ∈ t.chainOut) ∧
    (∀ (s : State) (c : Claim) (n : Nat) (id : BitVec 16), s.blocksUp = true → s.urral.claim = some (c, n) → n + 2 ≤ s.tick → s.urral.chainId = some id → ∃ t, exec .claimWin s = .next t ∧ Logs { s with urral := t.urral, chainOut := t.chainOut } t ∧ t.urral = { s.urral with claim := none, mepoch := c.mepoch, role := .manager, mgrDev := s.urral.devnum, swapFrom := s.tick }) ∧
    (∀ (s : State), (s.urral.claim = none ∨ ∃ c n, s.urral.claim = some (c, n) ∧ s.tick < n + 2) → exec .claimWin s = .next s) ∧
    (∀ (s : State) (k : Fin 4) (n : BitVec 8) (id : BitVec 16), s.blocksUp = true → (s.urrPort k).locked = true → s.urral.role = .manager → ∃ t, exec (.enum k n id) s = .next t ∧ Logs { s with urral := t.urral } t ∧ OnlyUrrPort s t k ∧ (t.urrPort k) = { (s.urrPort k) with devs := BitVec.ofNat 6 (n.toNat - 1) }) ∧
    (∀ (s : State) (k : Fin 4) (n : BitVec 8) (id : BitVec 16), s.blocksUp = true → (s.urrPort k).locked = true → s.urral.role = .standby → ∃ t, exec (.enum k n id) s = .next t ∧ t = { s with urral := { s.urral with devnum := 63, numbered := true, chainId := some id }, chainOut := s.chainOut ++ [.enum k n id] }) ∧
    (∀ (s : State) (k : Fin 4) (n : BitVec 8) (id : BitVec 16), s.blocksUp = true → (s.urrPort k).locked = true → (s.urral.role = .worker ∨ s.urral.role = .forming) → k = 0 → n.toNat < 62 → ∃ t, exec (.enum k n id) s = .next t ∧ Logs { s with urral := t.urral, freeCtr := t.freeCtr, chainOut := t.chainOut } t ∧ t.urral = { s.urral with devnum := t.urral.devnum, numbered := true, chainId := some id, role := .worker } ∧ t.urral.devnum.val = n.toNat ∧ t.chainOut.getLast? = some (.enum (s.transitOut k) (n + 1) id)) ∧
    (∀ (s : State) (k : Fin 4) (n : BitVec 8) (id : BitVec 16), s.blocksUp = true → (s.urrPort k).locked = true → (s.urral.role = .worker ∨ s.urral.role = .forming) → k = 0 → 63 ≤ n.toNat → ∃ t, exec (.enum k n id) s = .next t ∧ Logs { s with urral := t.urral, freeCtr := t.freeCtr, chainOut := t.chainOut } t ∧ t.urral = { s.urral with chainId := some id, role := .worker } ∧ t.chainOut.getLast? = some (.enum (s.transitOut k) n id)) ∧
    (∀ (s : State) (k : Fin 4) (n : BitVec 8) (id : BitVec 16), s.blocksUp = true → (s.urrPort k).locked = true → (s.urral.role = .worker ∨ s.urral.role = .forming) → k ≠ 0 → exec (.enum k n id) s = .next { s with chainOut := s.chainOut ++ [.enum (s.transitOut k) n id] }) ∧
    (∀ (s : State) (k : Fin 4) (src : Fin 64) (e : BitVec 8) (id : BitVec 16), s.blocksUp = true → (s.urrPort k).locked = true → s.urral.heard = false → ∃ t, exec (.lease k src e id) s = .next t ∧ Logs { s with urral := t.urral } t ∧ t.urral.leaseOk = true ∧ t.urral.renewed = s.tick ∧ t.urral.linkSeen = true ∧ t.urral.hold = false ∧ t.urral.mgrDev = src ∧ t.urral.ports = s.urral.ports ∧ t.urral.devnum = s.urral.devnum ∧ t.urral.heard = true ∧ t.urral.mepoch = e ∧ t.urral.chainId = some id ∧ t.urral.claim = none ∧ t.urral.role = (if s.urral.cap = 2 then .standby else .worker)) ∧
    (∀ (s : State) (k : Fin 4) (src : Fin 64) (e : BitVec 8) (id : BitVec 16), s.blocksUp = true → (s.urrPort k).locked = true → s.urral.heard = true → (s.urral.chainId = none ∨ s.urral.chainId = some id) → epochOlder e s.urral.mepoch = false →
      ∃ t, exec (.lease k src e id) s = .next t ∧ Logs { s with urral := t.urral } t ∧ t.urral.leaseOk = true ∧ t.urral.renewed = s.tick ∧ t.urral.linkSeen = true ∧ t.urral.hold = false ∧ t.urral.mgrDev = src ∧ t.urral.ports = s.urral.ports ∧ t.urral.devnum = s.urral.devnum ∧ t.urral.mepoch = e ∧ t.urral.role = (if s.urral.role = .manager ∧ e ≠ s.urral.mepoch then .standby else s.urral.role)) ∧
    (∀ (s : State) (k : Fin 4) (src : Fin 64) (e : BitVec 8) (id : BitVec 16), s.blocksUp = true → (s.urrPort k).locked = true → s.urral.heard = true → ((∃ c, s.urral.chainId = some c ∧ c ≠ id) ∨ epochOlder e s.urral.mepoch = true) → exec (.lease k src e id) s = .next s) ∧
    (∀ (s : State), s.renews → ∃ t, exec .leaseRenewal s = .next t ∧ Renewed s t) ∧
    (∀ (s : State), ¬ s.renews → exec .leaseRenewal s = .next s) ∧
    (∀ (s : State), s.blocksUp = true → s.urral.leaseOk = true → s.urral.renewed + 8 ≤ s.tick → ∃ t, exec .leaseLapse s = .next t ∧ Logs { s with urral := t.urral, field := t.field } t ∧ t.urral = { s.urral with leaseOk := false, ready := false, best := none, hold := true, claim := t.urral.claim } ∧ (s.urral.role ≠ .standby → t.urral.claim = s.urral.claim) ∧
        t.field = { s.field with tcmd := t.field.tcmd } ∧ (s.urral.hold = false → t.field.tcmd = none) ∧
        (s.urral.role = .standby → ∃ c, t.urral.claim = some (c, s.tick) ∧ c.leaseHeld = false ∧ c.mepoch = s.urral.mepoch + 1 ∧ c.prio = s.urral.prio ∧ c.uid = s.uid ∧ c.src = s.urral.devnum ∧ ∀ k, s.endPort k → UrrOut.claim k c ∈ t.chainOut)) ∧
    (∀ (s : State), (s.urral.leaseOk = false ∨ s.tick < s.urral.renewed + 8) → exec .leaseLapse s = .next s) ∧
    (∀ (s : State), s.blocksUp = true → s.urral.role = .standby → ∃ t, exec .leaseInEdge s = .next t ∧ Logs { s with urral := t.urral, pins := t.pins } t ∧ t.pins = { s.pins with leaseIn := !s.pins.leaseIn } ∧ t.urral = { s.urral with leaseOk := true, renewed := s.tick, best := none, pinSeen := true, linkSeen := t.urral.linkSeen, hold := false }) ∧
    (∀ (s : State), s.alive = true → s.urral.role ≠ .standby → ∃ t, exec .leaseInEdge s = .next t ∧ t = { s with pins := t.pins } ∧ t.pins = { s.pins with leaseIn := !s.pins.leaseIn })

/-- Register access over the chain, the bus lock and its expiry (R404, R405, R406, R407, R408, R409). -/
def Obligations.ChainAccessesRunInOrder : Prop :=
  (∀ (s : State) (src : Fin 64) (locked : Bool) (tag : BitVec 8) (count : Fin 16) (off : Offset), s.blocksUp = true → (locked = false ∧ s.urral.lock = none ∨ locked = true ∧ ∃ n, s.urral.lock = some (src, n)) → accSecure off (count.val + 1) = false →
      ∃ t, exec (.accessRead src locked tag count off) s = .next t ∧ t = { (s.accReads src tag off 0 (count.val + 1)).2 with orph := t.orph, chainOut := (s.accReads src tag off 0 (count.val + 1)).2.chainOut ++ [.response src tag 0 (s.accReads src tag off 0 (count.val + 1)).1] } ∧
        t.orph = Sparse.write (fun _ => Orphan.reset) (s.accReads src tag off 0 (count.val + 1)).2.orph tag.toNat ⟨true, (Party.chain src).code, off, nth (s.accReads src tag off 0 (count.val + 1)).1 0 0⟩ ∧ (s.accReads src tag off 0 (count.val + 1)).1.length = count.val + 1) ∧
    (∀ (s : State) (src : Fin 64) (tag : BitVec 8) (off : Offset) (k n : Nat), s.accReads src tag off k 0 = ([], s) ∧
      s.accReads src tag off k (n + 1) = ((s.barRead (.chain src) tag.toNat (off + BitVec.ofNat 26 (4 * k))).1 :: ((s.barRead (.chain src) tag.toNat (off + BitVec.ofNat 26 (4 * k))).2.accReads src tag off (k + 1) n).1,
        ((s.barRead (.chain src) tag.toNat (off + BitVec.ofNat 26 (4 * k))).2.accReads src tag off (k + 1) n).2)) ∧
    (∀ (s : State) (src : Fin 64) (locked : Bool) (tag : BitVec 8) (count : Fin 16) (off : Offset), s.blocksUp = true → (locked = false ∧ s.urral.lock = none ∨ locked = true ∧ ∃ n, s.urral.lock = some (src, n)) → accSecure off (count.val + 1) = true → ∃ x t, exec (.accessRead src locked tag count off) s = .next t ∧ Logs s x ∧ t = { x with chainOut := x.chainOut ++ [.response src tag 1 (List.replicate (count.val + 1) 0)] }) ∧
    (∀ (s : State) (src : Fin 64) (locked : Bool) (tag : BitVec 8) (count : Fin 16) (off : Offset), s.blocksUp = true → locked = true → (∀ n, s.urral.lock ≠ some (src, n)) → exec (.accessRead src locked tag count off) s = .next { s with chainOut := s.chainOut ++ [.response src tag 3 []] }) ∧
    (∀ (s : State) (src : Fin 64) (locked : Bool) (tag : BitVec 8) (count : Fin 16) (off : Offset), s.blocksUp = true → locked = false → s.urral.lock ≠ none → s.heldReads < 64 → exec (.accessRead src locked tag count off) s = .next { s with urral := { s.urral with held := s.urral.held ++ [.accRead src tag (count.val + 1) off] } }) ∧
    (∀ (s : State) (src : Fin 64) (locked : Bool) (tag : BitVec 8) (count : Fin 16) (off : Offset), s.blocksUp = true → locked = false → s.urral.lock ≠ none → 64 ≤ s.heldReads → exec (.accessRead src locked tag count off) s = .next { s with chainOut := s.chainOut ++ [.response src tag 4 []] }) ∧
    (∀ (s : State) (src : Fin 64) (locked : Bool) (off : Offset) (data : List Reg32), s.blocksUp = true → (locked = false ∧ s.urral.lock = none ∨ locked = true ∧ ∃ n, s.urral.lock = some (src, n)) → accSecure off data.length = false →
      exec (.accessWrite src locked off data) s = .next { (data.zipIdx.foldl (fun x (e : Reg32 × Nat) => x.barWrite (.chain src) (off + BitVec.ofNat 26 (4 * e.2)) e.1) s) with chainOut := (data.zipIdx.foldl (fun x (e : Reg32 × Nat) => x.barWrite (.chain src) (off + BitVec.ofNat 26 (4 * e.2)) e.1) s).chainOut ++ [.writeAck src 0] }) ∧
    (∀ (s : State) (src : Fin 64) (locked : Bool) (off : Offset) (data : List Reg32), s.blocksUp = true → (locked = false ∧ s.urral.lock = none ∨ locked = true ∧ ∃ n, s.urral.lock = some (src, n)) → accSecure off data.length = true → ∃ x t, exec (.accessWrite src locked off data) s = .next t ∧ Logs s x ∧ t = { x with chainOut := x.chainOut ++ [.writeAck src 1] }) ∧
    (∀ (s : State) (src : Fin 64) (locked : Bool) (off : Offset) (data : List Reg32), s.blocksUp = true → locked = true → (∀ n, s.urral.lock ≠ some (src, n)) → exec (.accessWrite src locked off data) s = .next { s with chainOut := s.chainOut ++ [.writeAck src 3] }) ∧
    (∀ (s : State) (src : Fin 64) (locked : Bool) (off : Offset) (data : List Reg32), s.blocksUp = true → locked = false → s.urral.lock ≠ none → exec (.accessWrite src locked off data) s = .next { s with urral := { s.urral with held := s.urral.held ++ [.accWrite src off data] } }) ∧
    (∀ (off : Offset) (n : Nat), n ≤ 16 → off.toNat + 4 * n ≤ 2 ^ 26 → (accSecure off n = true ↔ ∃ k, k < n ∧ inSecure (off.toNat + 4 * k) = true)) ∧
    (∀ (s : State) (src : Fin 64) (rivals : List (Fin 64)), s.blocksUp = true → s.urral.lock = none → (∀ d ∈ rivals, src ≤ d) → exec (.accessLock src rivals) s = .next { s with urral := { s.urral with lock := some (src, s.now) }, chainOut := s.chainOut ++ [.response src 0 0 []] }) ∧
    (∀ (s : State) (src : Fin 64) (rivals : List (Fin 64)), s.blocksUp = true → (s.urral.lock ≠ none ∨ ∃ d ∈ rivals, d < src) → exec (.accessLock src rivals) s = .next { s with chainOut := s.chainOut ++ [.response src 0 2 []] }) ∧
    (∀ (s : State) (src : Fin 64) (n : Nat), s.blocksUp = true → s.urral.lock = some (src, n) → exec (.accessUnlock src) s = .next (s.urral.held.foldl State.performHeld { s with urral := { s.urral with lock := none, held := [] } })) ∧
    (∀ (s : State) (src : Fin 64), (∀ n, s.urral.lock ≠ some (src, n)) → exec (.accessUnlock src) s = .next s) ∧
    (∀ (s : State) (src : Fin 64) (n : Nat), s.blocksUp = true → s.urral.lock = some (src, n) → exec .busLockExpiry s = .next (s.urral.held.foldl State.performHeld { s with now := max s.now (n + 20480), urral := { s.urral with lock := none, held := [] } })) ∧
    (∀ (s : State) (p : Party) (off : Offset) (v : Reg32) (tag : BitVec 10), s.performHeld (.write p off v) = s.barWrite p off v ∧ s.performHeld (.read p tag off) = s.readDone p tag off) ∧
    (∀ (s : State) (k : Fin 4) (tag : BitVec 8) (status : BitVec 3) (data : List Reg32), s.blocksUp = true → (s.urrPort k).locked = true → (∃ n, (tag, n) ∈ s.urral.tags) →
      ∃ t, exec (.accessResponse k tag status data) s = .next t ∧ t = { s with urral := { s.urral with tags := s.urral.tags.filter (fun (x : BitVec 8 × Nat) => decide (x.1 ≠ tag)) }, readValue := t.readValue } ∧
        (status = 4 → t.readValue = s.readValue) ∧ (status ≠ 4 → t.readValue = nth data 0 0)) ∧
    (∀ (s : State) (k : Fin 4) (tag : BitVec 8) (status : BitVec 3) (data : List Reg32), s.blocksUp = true → (s.urrPort k).locked = true → ¬ (∃ n, (tag, n) ∈ s.urral.tags) → ∃ t, exec (.accessResponse k tag status data) s = .next t ∧ t = { s with urral := t.urral } ∧ OnlyUrrPort s t k ∧ (t.urrPort k) = { (s.urrPort k) with late := satInc (s.urrPort k).late }) ∧
    (∀ (s : State) (d : Fin 64), s.blocksUp = true → ∃ t, exec (.writeAck d) s = .next t ∧ t = { s with urral := t.urral } ∧ t.urral = { s.urral with slots := t.urral.slots } ∧ t.urral.slots[d].val = s.urral.slots[d].val - 1 ∧ ∀ e : Fin 64, e ≠ d → t.urral.slots[e] = s.urral.slots[e]) ∧
    (∀ (s : State) (tag : BitVec 8), s.blocksUp = true → ∃ t, exec (.accessTimeout tag) s = .next t ∧ t = { s with urral := t.urral } ∧ t.urral = { s.urral with tags := t.urral.tags } ∧
      ∀ x, x ∈ t.urral.tags ↔ x ∈ s.urral.tags ∧ (x.1 ≠ tag ∨ s.tick < x.2 + (s.reg 0x600030).toNat % 256))

/-- Mailbox locks, posts, doorbells and receivers, and the messages of chain devices (R410, R437, R438, R439, R440, R441, R442, R445). -/
def Obligations.MailboxesCarryMessages : Prop :=
  (∀ (s : State) (p : Party) (tag : BitVec 10) (j : Fin 32) (rivals : List Party), s.opens p j → (s.mailbox j).st = .empty → (s.mailbox j).recv ≠ 0 → (s.mailbox j).recv.toNat ≠ p.num → (∀ q ∈ rivals, q.num < p.num → q.num = (s.mailbox j).recv.toNat) → ∃ t, exec (.mailboxLock p tag j rivals) s = .next t ∧ t = { s with mailboxes := t.mailboxes, readValue := t.readValue, orphPf := t.orphPf, journal := t.journal } ∧ OnlyMailbox s t j ∧ (t.mailbox j) = { (s.mailbox j) with st := .locked p.num s.now } ∧ t.readValue = 0) ∧
    (∀ (s : State) (p : Party) (tag : BitVec 10) (j : Fin 32) (rivals : List Party) (q : Party), s.opens p j → (s.mailbox j).st = .empty → (s.mailbox j).recv ≠ 0 → (s.mailbox j).recv.toNat ≠ p.num → q ∈ rivals → q.num < p.num → q.num ≠ (s.mailbox j).recv.toNat → ∃ t, exec (.mailboxLock p tag j rivals) s = .next t ∧ t = { s with readValue := t.readValue, orphPf := t.orphPf, journal := t.journal } ∧ t.readValue.toNat ≤ q.num) ∧
    (∀ (s : State) (p : Party) (tag : BitVec 10) (j : Fin 32) (rivals : List Party) (h n : Nat), s.opens p j → (s.mailbox j).st = .locked h n → (s.mailbox j).recv ≠ 0 → (s.mailbox j).recv.toNat ≠ p.num → ∃ t, exec (.mailboxLock p tag j rivals) s = .next t ∧ t = { s with readValue := t.readValue, orphPf := t.orphPf, journal := t.journal } ∧ t.readValue = BitVec.ofNat 32 h) ∧
    (∀ (s : State) (p : Party) (tag : BitVec 10) (j : Fin 32) (rivals : List Party), s.opens p j → (s.mailbox j).st = .full → (s.mailbox j).recv ≠ 0 → (s.mailbox j).recv.toNat ≠ p.num → ∃ t, exec (.mailboxLock p tag j rivals) s = .next t ∧ t = { s with readValue := t.readValue, orphPf := t.orphPf, journal := t.journal } ∧ t.readValue = BitVec.ofNat 32 (s.mailbox j).sender) ∧
    (∀ (s : State) (p : Party) (tag : BitVec 10) (j : Fin 32) (rivals : List Party), s.opens p j → ((s.mailbox j).recv = 0 ∨ (s.mailbox j).recv.toNat = p.num) → ∃ t, exec (.mailboxLock p tag j rivals) s = .next t ∧ t = { s with readValue := t.readValue, orphPf := t.orphPf, journal := t.journal } ∧ t.readValue = 0xFF) ∧
    (∀ (s : State) (p : Party) (tag : BitVec 10) (j : Fin 32) (rivals : List Party), s.blocksUp = true → p = .pf0 → 16 ≤ j.val → ∃ x t, exec (.mailboxLock p tag j rivals) s = .next t ∧ Logs s x ∧ t = { x with readValue := 0, orphPf := t.orphPf }) ∧
    (∀ (s : State) (p : Party) (j : Fin 32) (k : Fin 8) (v : Reg32), s.opens p j → (∃ n, (s.mailbox j).st = .locked p.num n) → ∃ t, exec (.mailboxDataWrite p j k v) s = .next t ∧ t = { s with mailboxes := t.mailboxes } ∧ OnlyMailbox s t j ∧ (t.mailbox j) = { (s.mailbox j) with data := (s.mailbox j).data.set k v }) ∧
    (∀ (s : State) (p : Party) (j : Fin 32) (k : Fin 8) (v : Reg32), s.opens p j → ¬ (∃ n, (s.mailbox j).st = .locked p.num n) → exec (.mailboxDataWrite p j k v) s = .next (s.refused p (mbBase j + 4 * k.val) v.toNat)) ∧
    (∀ (s : State) (p : Party) (j : Fin 32) (len : BitVec 4), s.opens p j → (∃ n, (s.mailbox j).st = .locked p.num n) → 1 ≤ len.toNat → len.toNat ≤ 8 → ∃ t, exec (.mailboxPost p j len) s = .next t ∧ MailLeaves s t ∧ Posted s t p.num (s.epoch p.num) j len.toNat (fun (k : Fin 8) => (s.mailbox j).data[k]) ∧ OtherMailboxes s t j ∧ WakesReceiver t j ∧
        (¬ (∃ i, (s.mailbox i).crosses p.num (s.mailbox j).recv.toNat = true) → (t.mailbox j).crossed = false ∧ OnlyMailbox s t j) ∧ ((∃ i, (s.mailbox i).crosses p.num (s.mailbox j).recv.toNat = true) → (t.mailbox j).crossed = true ∧ ∀ i, (s.mailbox i).crosses p.num (s.mailbox j).recv.toNat = true → (t.mailbox i).crossed = true)) ∧
    (∀ (s : State) (p : Party) (j : Fin 32) (len : BitVec 4), s.opens p j → (¬ (∃ n, (s.mailbox j).st = .locked p.num n) ∨ len = 0 ∨ 8 < len.toNat) → exec (.mailboxPost p j len) s = .next (s.refused p (mbBase j + 0x28) len.toNat)) ∧
    (∀ (s : State) (p : Party) (j : Fin 32), s.opens p j → (s.mailbox j).st = .full → p.num = (s.mailbox j).recv.toNat → ∃ t, exec (.take p j) s = .next t ∧ MailLeaves s t ∧ OtherMailboxes s t j ∧ (s.noReply j → (t.mailbox j) = { (s.mailbox j) with st := .empty, sender := 0, epoch := 0, len := 0, data := Vector.replicate 8 0, crossed := false }) ∧ (¬ s.noReply j → (t.mailbox j).st = .full ∧ (t.mailbox j).sender = 1) ∧
        (∀ k : Fin 52, (s.mailbox j).sender = 0x80 + k.val → (t.brick k).io.events.getLsbD 11 = true) ∧ (∀ d : Fin 64, (s.mailbox j).sender = 0x10 + d.val → UrrOut.msg d.val 5 (0x10 + d.val) 1 s.sepoch [BitVec.ofNat 32 j.val] ∈ t.chainOut)) ∧
    (∀ (s : State) (p : Party) (j : Fin 32), s.opens p j → ((s.mailbox j).st ≠ .full ∨ p.num ≠ (s.mailbox j).recv.toNat) → exec (.take p j) s = .next s) ∧
    (∀ (s : State) (p : Party) (j : Fin 32), s.opens p j → (∃ n, (s.mailbox j).st = .locked p.num n) → ∃ t, exec (.unlock p j) s = .next t ∧ MailLeaves s t ∧ OtherMailboxes s t j ∧ (s.noReply j → (t.mailbox j) = { (s.mailbox j) with st := .empty, data := Vector.replicate 8 0 } ∧ OnlyMailbox s t j)) ∧
    (∀ (s : State) (p : Party) (j : Fin 32), s.opens p j → ¬ (∃ n, (s.mailbox j).st = .locked p.num n) → exec (.unlock p j) s = .next s) ∧
    (∀ (s : State) (p : Party) (j : Fin 32), s.opens p j → ∃ t, exec (.ring p j) s = .next t ∧ MailLeaves s t ∧ OnlyMailbox s t j ∧ (t.mailbox j) = { (s.mailbox j) with bell := true } ∧ WakesReceiver t j) ∧
    (∀ (s : State) (p : Party) (j : Fin 32), s.opens p j → ∃ t, exec (.clrDisc p j) s = .next t ∧ t = { s with mailboxes := t.mailboxes } ∧ OnlyMailbox s t j ∧ (t.mailbox j) = { (s.mailbox j) with discarded := false, dcount := 0 }) ∧
    (∀ (s : State) (p : Party) (j : Fin 32), s.opens p j → p.num = (s.mailbox j).recv.toNat → ∃ t, exec (.bellClear p j) s = .next t ∧ t = { s with mailboxes := t.mailboxes } ∧ OnlyMailbox s t j ∧ (t.mailbox j) = { (s.mailbox j) with bell := false }) ∧
    (∀ (s : State) (p : Party) (j : Fin 32), s.opens p j → p.num ≠ (s.mailbox j).recv.toNat → exec (.bellClear p j) s = .next (s.refused p (mbBase j + 0x20) 0x80)) ∧
    (∀ (s : State) (j : Fin 32) (h n : Nat), s.alive = true → (s.mailbox j).st = .locked h n →
      ∃ x t, exec (.mailboxLockExpiry j) s = .next t ∧ Logs { s with now := max s.now (n + 327680), mailboxes := x.mailboxes } x ∧ MailLeaves x t ∧ OtherMailboxes s t j ∧ (t.mailbox j).lockLost = true ∧ (s.noReply j → (t.mailbox j) = { (s.mailbox j) with st := .empty, data := Vector.replicate 8 0, lockLost := true } ∧ OnlyMailbox s t j)) ∧
    (∀ (s : State) (j : Fin 32), (∀ h n, (s.mailbox j).st ≠ .locked h n) → exec (.mailboxLockExpiry j) s = .next s) ∧
    (∀ (s : State) (p : Party) (j : Fin 32) (v : Reg32), (if j.val < 16 then s.blocksUp else s.alive) = true → ((p = .keystone ∨ p.isPf1 = true ∧ s.mbBound j.val = false) ∧ (j.val < 16 ∨ v.toNat % 256 = 1 ∨ v.toNat % 256 = 2)) → ∃ t, exec (.mbRecvWrite p j v) s = .next t ∧ MailLeaves s t ∧ OnlyMailbox s t j ∧ (t.mailbox j) = { (s.mailbox j) with recv := v.extractLsb' 0 8 } ∧ ((s.mailbox j).recv ≠ v.extractLsb' 0 8 → ((s.mailbox j).st = .full ∨ (s.mailbox j).bell = true) → WakesReceiver t j)) ∧
    (∀ (s : State) (p : Party) (j : Fin 32) (v : Reg32), (if j.val < 16 then s.blocksUp else s.alive) = true → ¬ ((p = .keystone ∨ p.isPf1 = true ∧ s.mbBound j.val = false) ∧ (j.val < 16 ∨ v.toNat % 256 = 1 ∨ v.toNat % 256 = 2)) → exec (.mbRecvWrite p j v) s = .next (s.refused p (mbBase j + 0x30) v.toNat)) ∧
    (∀ (s : State) (src : Fin 64) (fence : Bool) (ep : BitVec 4) (j : Fin 32) (words : List Reg32), s.delivers src fence → (j.val < 16 ∧ (s.mailbox j).st = .empty ∧ (s.mailbox j).recv ≠ 0 ∧ (s.mailbox j).recv.toNat ≠ 0x10 + src.val ∧ 1 ≤ words.length ∧ words.length ≤ 8) → ∃ t, exec (.msgMailboxPost src ep j words fence) s = .next t ∧ MailLeaves s t ∧ Posted s t (0x10 + src.val) ep j words.length (fun (k : Fin 8) => nth words k.val 0) ∧ OtherMailboxes s t j ∧ WakesReceiver t j) ∧
    (∀ (s : State) (src : Fin 64) (fence : Bool) (ep : BitVec 4) (j : Fin 32) (words : List Reg32), s.delivers src fence → ¬ (j.val < 16 ∧ (s.mailbox j).st = .empty ∧ (s.mailbox j).recv ≠ 0 ∧ (s.mailbox j).recv.toNat ≠ 0x10 + src.val ∧ 1 ≤ words.length ∧ words.length ≤ 8) → ∃ x t, exec (.msgMailboxPost src ep j words fence) s = .next t ∧ Logs s x ∧ t = { x with chainOut := x.chainOut ++ [.msg src.val 5 (0x10 + src.val) 2 s.sepoch [BitVec.ofNat 32 j.val]] }) ∧
    (∀ (s : State) (src : Fin 64) (fence : Bool) (j : Fin 32), s.delivers src fence → j.val < 16 → ∃ t, exec (.msgDoorbell src j fence) s = .next t ∧ MailLeaves s t ∧ OnlyMailbox s t j ∧ (t.mailbox j) = { (s.mailbox j) with bell := true } ∧ WakesReceiver t j) ∧
    (∀ (s : State) (src : Fin 64) (fence : Bool) (j : Fin 32), s.delivers src fence → 16 ≤ j.val → exec (.msgDoorbell src j fence) s = .next (s.refused (.chain src) (mbBase j + 0x2C) 8)) ∧
    (∀ (s : State) (src : Fin 64) (fence : Bool) (cause : Reg32), s.delivers src fence → ∃ t, exec (.msgInterrupt src cause fence) s = .next t ∧ t = { s with pf0 := t.pf0, pf1 := t.pf1, hostMem := t.hostMem } ∧ t.pf0.cause = s.pf0.cause ||| (cause &&& 0x16FF) ∧ t.pf1.cause = s.pf1.cause ||| (cause &&& 0x1EFF)) ∧
    (∀ (s : State) (src : Fin 64) (fence : Bool) (w0 w1 : Reg32) (ws : List Reg32), s.delivers src fence → ∃ e : Event, exec (.msgRecorderEvent src (w0 :: w1 :: ws) fence) s = .next (s.recordEvent e) ∧ Logs s (s.recordEvent e) ∧ e.code = 0x0902 ∧ e.inst.toNat = src.val ∧ e.party.toNat = 0x10 + src.val ∧ e.p0.toNat / 65536 = w1.toNat / 65536 ∧ e.p0.toNat % 4 = w1.toNat / 2 ^ 14 % 4 ∧ e.p1 = w0) ∧
    (∀ (s : State) (src : Fin 64) (fence : Bool) (q sub : BitVec 8), s.delivers src fence → ∃ t, exec (.msgMailboxNotice src q sub fence) s = .next t ∧ Logs s t ∧ t.pf0.cause.getLsbD 10 = true ∧ t.pf1.cause.getLsbD 10 = true) ∧
    (∀ (s : State) (src : Fin 64) (fence : Bool) (ep : BitVec 4) (j : Fin 32) (words : List Reg32) (cause : Reg32) (q sub : BitVec 8), ¬ s.delivers src fence → exec (.msgMailboxPost src ep j words fence) s = .next s ∧ exec (.msgDoorbell src j fence) s = .next s ∧ exec (.msgInterrupt src cause fence) s = .next s ∧
      exec (.msgRecorderEvent src words fence) s = .next s ∧ exec (.msgMailboxNotice src q sub fence) s = .next s)

/-- Descriptor rings, their registers, deliveries, interrupt moderation and orphan reads (R425, R426, R427, R428, R430, R431, R433, R434, R435). -/
def Obligations.RingsMoveFramesToAndFromTheHost : Prop :=
  (∀ (s : State) (p : Party) (n : Fin 64) (v : Reg32), s.blocksUp = true → (p = .keystone ∨ p = .pf0 ∧ (s.ring n).func = false ∨ p.isPf1 = true ∧ (s.ring n).func = true) → (v.toNat % 2 ^ 12) < 2 ^ (s.ring n).size.toNat → ∃ t, exec (.ringTailWrite p n v) s = .next t ∧ t = { s with rings := t.rings } ∧ (∀ m, m ≠ n → t.ring m = s.ring m) ∧ (t.ring n) = { (s.ring n) with tail := v.extractLsb' 0 12 }) ∧
    (∀ (s : State) (p : Party) (n : Fin 64) (v : Reg32), s.blocksUp = true → (p = .keystone ∨ p = .pf0 ∧ (s.ring n).func = false ∨ p.isPf1 = true ∧ (s.ring n).func = true) → 2 ^ (s.ring n).size.toNat ≤ (v.toNat % 2 ^ 12) → ∃ t, exec (.ringTailWrite p n v) s = .next t ∧ t = { s with rings := t.rings } ∧ (∀ m, m ≠ n → t.ring m = s.ring m) ∧ (t.ring n) = { (s.ring n) with st := .error, err := 3 }) ∧
    (∀ (s : State) (p : Party) (n : Fin 64) (v : Reg32), s.blocksUp = true → ¬ (p = .keystone ∨ p = .pf0 ∧ (s.ring n).func = false ∨ p.isPf1 = true ∧ (s.ring n).func = true) → exec (.ringTailWrite p n v) s = .next s) ∧
    (∀ (s : State) (p : Party) (n : Fin 64) (v : Reg32), s.blocksUp = true → (p = .keystone ∨ p = .pf0 ∧ (s.ring n).func = false ∨ p.isPf1 = true ∧ (s.ring n).func = true) → (s.ring n).en = false → ∃ t u, exec (.ringCtrlWrite p n 0 v) s = .next t ∧ t = { s with rings := t.rings } ∧ (∀ m, m ≠ n → t.ring m = s.ring m) ∧ (t.ring n) = { (s.ring n) with baseLo := v &&& 0xFFFFF000, head := 0, tail := 0 } ∧ exec (.ringCtrlWrite p n 1 v) s = .next u ∧ (u.ring n) = { (s.ring n) with baseHi := v, head := 0, tail := 0 }) ∧
    (∀ (s : State) (p : Party) (n : Fin 64) (v : Reg32), s.blocksUp = true → (p = .keystone ∨ p = .pf0 ∧ (s.ring n).func = false ∨ p.isPf1 = true ∧ (s.ring n).func = true) → (s.ring n).en = true → exec (.ringCtrlWrite p n 0 v) s = .next s ∧ exec (.ringCtrlWrite p n 1 v) s = .next s) ∧
    (∀ (s : State) (p : Party) (n : Fin 64) (v : Reg32), s.blocksUp = true → (p = .keystone ∨ p = .pf0 ∧ (s.ring n).func = false ∨ p.isPf1 = true ∧ (s.ring n).func = true) → (s.ring n).en = false → ∃ t, exec (.ringCtrlWrite p n 2 v) s = .next t ∧ t = { s with rings := t.rings } ∧ (∀ m, m ≠ n → t.ring m = s.ring m) ∧ (t.ring n) = { (s.ring n) with size := (t.ring n).size, head := (t.ring n).head, tail := (t.ring n).tail, func := (t.ring n).func, en := v.getLsbD 31, st := (if v.getLsbD 31 then .running else .stopped), err := (if v.getLsbD 31 then 0 else (s.ring n).err) } ∧
        ((4 ≤ (v.toNat % 16) ∧ (v.toNat % 16) ≤ 12) → (t.ring n).size.toNat = (v.toNat % 16) ∧ (t.ring n).head = 0 ∧ (t.ring n).tail = 0) ∧ (¬ (4 ≤ (v.toNat % 16) ∧ (v.toNat % 16) ≤ 12) → (t.ring n).size = (s.ring n).size ∧ (t.ring n).head = (s.ring n).head ∧ (t.ring n).tail = (s.ring n).tail) ∧ (t.ring n).func = (if p = .pf0 then (s.ring n).func else v.getLsbD 30)) ∧
    (∀ (s : State) (p : Party) (n : Fin 64) (v : Reg32), s.blocksUp = true → (p = .keystone ∨ p = .pf0 ∧ (s.ring n).func = false ∨ p.isPf1 = true ∧ (s.ring n).func = true) → (s.ring n).en = true → v.getLsbD 31 = false → ∃ t, exec (.ringCtrlWrite p n 2 v) s = .next t ∧ t = { s with rings := t.rings } ∧ (∀ m, m ≠ n → t.ring m = s.ring m) ∧ (t.ring n) = { (s.ring n) with en := false, st := .stopped }) ∧
    (∀ (s : State) (p : Party) (n : Fin 64) (v : Reg32), s.blocksUp = true → (p = .keystone ∨ p = .pf0 ∧ (s.ring n).func = false ∨ p.isPf1 = true ∧ (s.ring n).func = true) → (s.ring n).en = true → v.getLsbD 31 = true → exec (.ringCtrlWrite p n 2 v) s = .next s) ∧
    (∀ (s : State) (p : Party) (n : Fin 64) (v : Reg32), s.blocksUp = true → p.isPf1 = true → (s.ring n).func = false → (s.ring n).en = false → ∃ t, exec (.ringCtrlWrite p n 2 v) s = .next t ∧ t = { s with rings := t.rings } ∧ (∀ m, m ≠ n → t.ring m = s.ring m) ∧ (t.ring n) = { (s.ring n) with func := v.getLsbD 30 }) ∧
    (∀ (s : State) (p : Party) (n : Fin 64) (v : Reg32), s.blocksUp = true → ((p = .pf0 ∧ (s.ring n).func = true) ∨ ∃ d, p = .chain d) → ∀ k : Fin 3, exec (.ringCtrlWrite p n k v) s = .next s) ∧
    (∀ (s : State) (n : Fin 64) (ds : List TxDesc) (e : TxDesc), s.blocksUp = true → s.pins.pcieUp = true → s.txRing (fun (r : Ring) => (s.nextTx r).isSome) = some n → s.nextTx (s.ring n) = some ds → ds.getLast? = some e → s.txCause ds e (ds.map TxDesc.len).sum false = 0 → ∃ t u, exec (.hostTxFrame none) s = .next t ∧ u = { s with ringLast := n }.txEnter e ((ds.map (fun (d : TxDesc) => s.dmaRead d.addr d.len)).flatten) ∧ t.mortar = u.mortar ∧ t.ringLast = n ∧ (t.ring n) = { (s.ring n) with head := BitVec.ofNat 12 ((e.idx + 1) % 2 ^ (s.ring n).size.toNat), frames := satInc (s.ring n).frames, drop := (s.ring n).drop, conds := (t.ring n).conds, condsAt := (t.ring n).condsAt } ∧ ∀ m, m ≠ n → t.ring m = s.ring m) ∧
    (∀ (s : State) (n : Fin 64) (ds : List TxDesc) (e : TxDesc), s.blocksUp = true → s.pins.pcieUp = true → s.txRing (fun (r : Ring) => (s.nextTx r).isSome) = some n → s.nextTx (s.ring n) = some ds → ds.getLast? = some e → s.txCause ds e (ds.map TxDesc.len).sum false ≠ 0 → s.txCause ds e (ds.map TxDesc.len).sum false ≠ 4 → ∃ t, exec (.hostTxFrame none) s = .next t ∧ t.mortar = s.mortar ∧ t.fcs = s.fcs ∧ t.ringLast = n ∧ (t.ring n) = { (s.ring n) with head := BitVec.ofNat 12 ((e.idx + 1) % 2 ^ (s.ring n).size.toNat), frames := satInc (s.ring n).frames, drop := satInc (s.ring n).drop, conds := (t.ring n).conds, condsAt := (t.ring n).condsAt } ∧ ∀ m, m ≠ n → t.ring m = s.ring m) ∧
    (∀ (s : State) (n : Fin 64) (ds : List TxDesc) (e : TxDesc), s.blocksUp = true → s.pins.pcieUp = true → s.txRing (fun (r : Ring) => (s.nextTx r).isSome) = some n → s.nextTx (s.ring n) = some ds → ds.getLast? = some e → s.txCause ds e (ds.map TxDesc.len).sum true = 4 → ∃ t, exec (.hostTxFrame (some .buffer)) s = .next t ∧ t.mortar = s.mortar ∧ (t.ring n).st = .error ∧ (t.ring n).err = 2 ∧ (t.ring n).drop = satInc (s.ring n).drop ∧ ∀ m, m ≠ n → t.ring m = s.ring m) ∧
    (∀ (s : State) (n : Fin 64), s.blocksUp = true → s.pins.pcieUp = true → s.txRing (fun (r : Ring) => decide (r.waiting ≠ [])) = some n → ∃ t, exec (.hostTxFrame (some .descriptor)) s = .next t ∧ t = { s with ringLast := n, rings := t.rings } ∧ (t.ring n) = { (s.ring n) with st := .error, err := 1 } ∧ ∀ m, m ≠ n → t.ring m = s.ring m) ∧
    (∀ (s : State), s.txRing (fun (r : Ring) => (s.nextTx r).isSome) = none → exec (.hostTxFrame none) s = .next s) ∧
    (∀ (s : State) (ds : List TxDesc) (e : TxDesc) (m : Nat) (bad : Bool), s.txCause ds e m bad =
      (if ((e.ctrl.getLsbD 13 = true ∧ (s.reg (0x900000 + (e.ctrl.toNat % 256) * 0x100)).toNat / 256 % 16 ≠ 13) ∨ (e.ctrl.getLsbD 13 = false ∧ ((e.ctrl.toNat % 256) = 36 ∨ portOfCode (e.ctrl.toNat % 256) = none))) then 1 else if 16 < ds.length then 2 else if ((e.ctrl.getLsbD 14 = true ∧ (192 < e.tlen ∨ 65535 < m - e.tlen)) ∨ (e.ctrl.getLsbD 14 = false ∧ 9212 < m)) then 3 else if bad = true then 4 else if (e.ctrl.getLsbD 14 = true ∧ (e.ctrl.getLsbD 13 = true ∨ 32 ≤ (e.ctrl.toNat % 256))) then 5 else 0)) ∧
    (∀ (s : State) (e : QEntry) (es : List QEntry), s.blocksUp = true → s.pins.pcieUp = true → s.mortar.toHost = e :: es → s.rxRing e = none → ∀ f, exec (.hostRxDelivery f) s = .next (({ s with mortar := { s.mortar with toHost := es } } : State).countPort portH 9 1)) ∧
    (∀ (s : State) (e : QEntry) (es : List QEntry) (n : Fin 64), s.blocksUp = true → s.pins.pcieUp = true → s.mortar.toHost = e :: es → s.rxRing e = some n → ¬ ((s.ring n).st = .running ∧ (s.ring n).waiting ≠ []) → ∀ f, ∃ t, exec (.hostRxDelivery f) s = .next t ∧ t = { s with mortar := { s.mortar with toHost := es }, rings := t.rings } ∧ (t.ring n) = { (s.ring n) with drop := satInc (s.ring n).drop } ∧ ∀ m, m ≠ n → t.ring m = s.ring m) ∧
    (∀ (s : State) (e : QEntry) (es : List QEntry) (n : Fin 64), s.blocksUp = true → s.pins.pcieUp = true → s.mortar.toHost = e :: es → s.rxRing e = some n → ((s.ring n).st = .running ∧ (s.ring n).waiting ≠ []) → ∃ t, exec (.hostRxDelivery false) s = .next t ∧ t = { s with mortar := { s.mortar with toHost := es }, rings := t.rings, hostMem := t.hostMem, pf0 := t.pf0, pf1 := t.pf1 } ∧ (t.ring n) = { (s.ring n) with head := BitVec.ofNat 12 (((s.ring n).head.toNat + 1) % 2 ^ (s.ring n).size.toNat), frames := satInc (s.ring n).frames, drop := (s.ring n).drop, conds := (t.ring n).conds, condsAt := (t.ring n).condsAt } ∧ ∀ m, m ≠ n → t.ring m = s.ring m) ∧
    (∀ (s : State) (e : QEntry) (es : List QEntry) (n : Fin 64), s.blocksUp = true → s.pins.pcieUp = true → s.mortar.toHost = e :: es → s.rxRing e = some n → ((s.ring n).st = .running ∧ (s.ring n).waiting ≠ []) → ∃ t, exec (.hostRxDelivery true) s = .next t ∧ t = { s with mortar := { s.mortar with toHost := es }, rings := t.rings } ∧ (t.ring n) = { (s.ring n) with st := .error, err := 1, drop := satInc (s.ring n).drop } ∧ ∀ m, m ≠ n → t.ring m = s.ring m) ∧
    (∀ (s : State), s.mortar.toHost = [] → ∀ f, exec (.hostRxDelivery f) s = .next s) ∧
    (∀ (s : State) (n : Fin 64), s.blocksUp = true → (s.ring n).conds ≠ 0 → ∃ t, exec (.irqModTimer n) s = .next t ∧ t = { s with now := max s.now ((s.ring n).condsAt + 1280 * ((s.ring n).irqMod.toNat % 2 ^ 16)), rings := t.rings, hostMem := t.hostMem, pf0 := t.pf0, pf1 := t.pf1 } ∧ (t.ring n) = { (s.ring n) with conds := 0 } ∧ ∀ m, m ≠ n → t.ring m = s.ring m) ∧
    (∀ (s : State) (p : Party) (tag : BitVec 10) (i : BitVec 8), s.blocksUp = true → Sparse.wf (fun _ => Orphan.reset) s.orph = true →
      ∃ t, exec (.orphRead p tag i) s = .next t ∧ t = { s with orph := t.orph, readValue := (Sparse.read (fun _ => Orphan.reset) s.orph i.toNat).data } ∧ (Sparse.read (fun _ => Orphan.reset) t.orph i.toNat) = { (Sparse.read (fun _ => Orphan.reset) s.orph i.toNat) with valid := false } ∧ ∀ m, m ≠ i.toNat → (Sparse.read (fun _ => Orphan.reset) t.orph m) = (Sparse.read (fun _ => Orphan.reset) s.orph m)) ∧
    (∀ (s : State) (p : Party) (f : Fin 2) (i : BitVec 10), s.blocksUp = true → (f = 0 ∨ p.isPf1 = true ∨ p = .keystone) → Sparse.wf (fun _ => Orphan.reset) s.orphPf = true →
      ∃ t, exec (.orphPfRead p f i) s = .next t ∧ t = { s with orphPf := t.orphPf, readValue := (Sparse.read (fun _ => Orphan.reset) s.orphPf (1024 * f.val + i.toNat)).data } ∧ (Sparse.read (fun _ => Orphan.reset) t.orphPf (1024 * f.val + i.toNat)) = { (Sparse.read (fun _ => Orphan.reset) s.orphPf (1024 * f.val + i.toNat)) with valid := false } ∧ ∀ m, m ≠ (1024 * f.val + i.toNat) → (Sparse.read (fun _ => Orphan.reset) t.orphPf m) = (Sparse.read (fun _ => Orphan.reset) s.orphPf m)) ∧
    (∀ (s : State) (p : Party) (i : BitVec 10), s.blocksUp = true → p.isPf1 = false → p ≠ .keystone → exec (.orphPfRead p 1 i) s = .next { s with readValue := 0 })

/-- Requests, replies, boundaries and the services on courses, power, the journal and ports (R457, R458, R459, R460, R462, R463). -/
def Obligations.ServicesActAtTheirBoundary : Prop :=
  (∀ (s : State) (code : Nat) (r : SvcReq) (st : Nat) (ws : List Reg32), r.noreply = true → st = 0 → Logs s (s.svcReply code r st ws)) ∧
    (∀ (s : State) (code : Nat) (r : SvcReq) (st : Nat) (ws : List Reg32), (r.noreply = false ∨ st ≠ 0) → s.noReply r.reply → (s.mailbox r.reply).st = .empty →
      ∃ (x : State), Logs s x ∧ MailLeaves x (s.svcReply code r st ws) ∧ (s.svcReply code r st ws).keystone.replies = s.keystone.replies ∧ OtherMailboxes s (s.svcReply code r st ws) r.reply ∧
        Posted s (s.svcReply code r st ws) 0x01 (s.epoch 0x01) r.reply 8 (fun (k : Fin 8) => nth (BitVec.ofNat 32 (code / 256 * 2 ^ 24 + st * 65536 + r.tag.toNat * 256) :: ws) k.val 0)) ∧
    (∀ (s : State) (code : Nat) (r : SvcReq) (st : Nat) (ws : List Reg32), (r.noreply = false ∨ st ≠ 0) → (s.mailbox r.reply).st ≠ .empty →
      Logs { s with keystone := { s.keystone with replies := s.keystone.replies ++ [(r.reply, BitVec.ofNat 32 (code / 256 * 2 ^ 24 + st * 65536 + r.tag.toNat * 256) :: ws)] } } (s.svcReply code r st ws)) ∧
    (∀ (s : State) (code : Nat) (r : SvcReq) (j : Fin 32) (f : State → State), s.serving = true → s.frontMail = some j → (s.mailbox j).unknown s.keystone.action = false → (s.mailbox j).data.toList = r.words code → (s.mailbox j).sender = r.caller.num →
      ((s.takeMail 0x01 j).replyBad r = true → ∃ t, s.serve code r f = .next t ∧ Logs (s.takeMail 0x01 j) t) ∧ ((s.takeMail 0x01 j).replyBad r = false → (s.takeMail 0x01 j).denies code r.caller = true → s.serve code r f = .next ((s.takeMail 0x01 j).svcReply code r 1 []))) ∧
    (∀ (s : State) (code : Nat) (r : SvcReq) (f : State → State), s.serving = false → s.serve code r f = .next s) ∧
    (∀ (s : State) (r : SvcReq) (j : Fin 32) (c : Fin 13) (b : Boundary), s.asked 0x0401 r j → r.w1.toNat / 2 ^ 24 % 16 < 3 → r.course = some c → (s.takeMail 0x01 j).courseBusy c = false → r.w1.toNat / 2 ^ 16 % 8 < 3 → (s.takeMail 0x01 j).boundaryOf (some c) r = .ok b → (s.takeMail 0x01 j).standby.isSome = true → (s.takeMail 0x01 j).testable c (r.w1.getLsbD 0) = true →
      ∃ t, exec (.courseTest r) s = .next t ∧ Waits (s.takeMail 0x01 j) t b (.test c) r) ∧
    (∀ (s : State) (r : SvcReq) (j : Fin 32) (c : Fin 13), s.asked 0x0401 r j → r.w1.toNat / 2 ^ 24 % 16 < 3 → r.course = some c → (s.takeMail 0x01 j).courseBusy c = true → exec (.courseTest r) s = .next ((s.takeMail 0x01 j).svcReply 0x0401 r 3 [])) ∧
    (∀ (s : State) (r : SvcReq) (j : Fin 32) (c : Fin 13) (b : Boundary), s.asked 0x0402 r j → r.course = some c → (s.takeMail 0x01 j).courseBusy c = false → (s.takeMail 0x01 j).boundaryOf (some c) r = .ok b → ∃ t, exec (.courseReset r) s = .next t ∧ Waits (s.takeMail 0x01 j) t b (.courseReset c) r) ∧
    (∀ (s : State) (r : SvcReq) (j : Fin 32) (c : Fin 13) (e : Nat), s.asked 0x0402 r j → r.course = some c → (s.takeMail 0x01 j).courseBusy c = false → (s.takeMail 0x01 j).boundaryOf (some c) r = .error e → exec (.courseReset r) s = .next ((s.takeMail 0x01 j).svcReply 0x0402 r e [])) ∧
    (∀ (s : State) (r : SvcReq) (j : Fin 32) (c : Fin 13), s.asked 0x0402 r j → r.course = some c → (s.takeMail 0x01 j).courseBusy c = true → exec (.courseReset r) s = .next ((s.takeMail 0x01 j).svcReply 0x0402 r 3 [])) ∧
    (∀ (s : State) (r : SvcReq) (j : Fin 32), s.asked 0x0402 r j → r.course = none → exec (.courseReset r) s = .next ((s.takeMail 0x01 j).svcReply 0x0402 r 12 [])) ∧
    (∀ (s : State) (r : SvcReq) (j : Fin 32), s.asked 0x0403 r j → Sparse.wf regReset s.regs = true → (s.takeMail 0x01 j).fenceFits (setBit ((s.takeMail 0x01 j).reg 0x980010) (r.w1.toNat / 2 ^ 28) (r.w1.getLsbD 0)) = true →
      ∃ (x : State), exec (.fence r) s = .next (x.svcReply 0x0403 r 0 [x.mortarRead 0x14]) ∧ x = { (s.takeMail 0x01 j) with regs := x.regs } ∧ (∀ o, o ≠ 0x980010 → x.reg o = s.reg o) ∧ (s.mortar.failed = 0 → (x.reg 0x980010).getLsbD (r.w1.toNat / 2 ^ 28) = r.w1.getLsbD 0)) ∧
    (∀ (s : State) (r : SvcReq) (j : Fin 32), s.asked 0x0403 r j → (s.takeMail 0x01 j).fenceFits (setBit ((s.takeMail 0x01 j).reg 0x980010) (r.w1.toNat / 2 ^ 28) (r.w1.getLsbD 0)) = false → exec (.fence r) s = .next ((s.takeMail 0x01 j).svcReply 0x0403 r 11 [(s.takeMail 0x01 j).mortarRead 0x14])) ∧
    (∀ (s : State) (r : SvcReq) (j : Fin 32) (b : Boundary), s.asked 0x0501 r j → (s.takeMail 0x01 j).boundaryOf none r = .ok b → ∃ t, exec (.powerDoze r) s = .next t ∧ Waits ((((s.takeMail 0x01 j).setReg 0x88 (r.w1 &&& 0x1FFFFF)).setReg 0x8C r.w2).setReg 0x90 r.w3) t b .doze r) ∧
    (∀ (s : State) (r : SvcReq) (j : Fin 32) (e : Nat), s.asked 0x0501 r j → (s.takeMail 0x01 j).boundaryOf none r = .error e → exec (.powerDoze r) s = .next ((s.takeMail 0x01 j).svcReply 0x0501 r e [])) ∧
    (∀ (s : State) (r : SvcReq) (j : Fin 32) (b : Boundary), s.asked 0x0502 r j →  (s.takeMail 0x01 j).boundaryOf none r = .ok b → ∃ t, exec (.powerWake r) s = .next t ∧ Waits (s.takeMail 0x01 j) t b .wake r) ∧
    (∀ (s : State) (r : SvcReq) (j : Fin 32) (e : Nat), s.asked 0x0502 r j →  (s.takeMail 0x01 j).boundaryOf none r = .error e → exec (.powerWake r) s = .next ((s.takeMail 0x01 j).svcReply 0x0502 r e [])) ∧
    (∀ (s : State) (r : SvcReq) (j : Fin 32) (b : Boundary), s.asked 0x0503 r j → resetOk r.w1 = true → (match resetCourse r.w1 with | some c => (s.takeMail 0x01 j).courseBusy c | none => false) = false → (s.takeMail 0x01 j).boundaryOf (resetCourse r.w1) r = .ok b → ∃ t, exec (.powerReset r) s = .next t ∧ Waits (s.takeMail 0x01 j) t b (.reset r.w1) r) ∧
    (∀ (s : State) (r : SvcReq) (j : Fin 32) (e : Nat), s.asked 0x0503 r j → resetOk r.w1 = true → (match resetCourse r.w1 with | some c => (s.takeMail 0x01 j).courseBusy c | none => false) = false → (s.takeMail 0x01 j).boundaryOf (resetCourse r.w1) r = .error e → exec (.powerReset r) s = .next ((s.takeMail 0x01 j).svcReply 0x0503 r e [])) ∧
    (∀ (s : State) (r : SvcReq) (j : Fin 32), s.asked 0x0503 r j → resetOk r.w1 = false → exec (.powerReset r) s = .next ((s.takeMail 0x01 j).svcReply 0x0503 r 2 [])) ∧
    (∀ (s : State) (r : SvcReq) (j : Fin 32) (c : Fin 13) (b : Boundary), s.asked 0x0E01 r j → r.course = some c → (s.takeMail 0x01 j).journalBusy = false → (r.w1.getLsbD 27 = true → 32 ≤ r.w1.toNat / 2 ^ 8 % 256 ∧ r.w1.toNat / 2 ^ 8 % 256 ≤ 63) → (s.takeMail 0x01 j).boundaryOf (some c) r = .ok b → ∃ t, exec (.journalStart r) s = .next t ∧ Waits (s.takeMail 0x01 j) t b .journalStart r) ∧
    (∀ (s : State) (r : SvcReq) (j : Fin 32) (c : Fin 13) (e : Nat), s.asked 0x0E01 r j → r.course = some c → (s.takeMail 0x01 j).journalBusy = false → (r.w1.getLsbD 27 = true → 32 ≤ r.w1.toNat / 2 ^ 8 % 256 ∧ r.w1.toNat / 2 ^ 8 % 256 ≤ 63) → (s.takeMail 0x01 j).boundaryOf (some c) r = .error e → exec (.journalStart r) s = .next ((s.takeMail 0x01 j).svcReply 0x0E01 r e [])) ∧
    (∀ (s : State) (r : SvcReq) (j : Fin 32) (c : Fin 13), s.asked 0x0E01 r j → r.course = some c → (s.takeMail 0x01 j).journalBusy = true → exec (.journalStart r) s = .next ((s.takeMail 0x01 j).svcReply 0x0E01 r 3 [])) ∧
    (∀ (s : State) (r : SvcReq) (j : Fin 32) (b : Boundary), s.asked 0x0E02 r j → (s.takeMail 0x01 j).journal.live = true → (s.takeMail 0x01 j).boundaryOf (some (s.takeMail 0x01 j).jrnCourse) r = .ok b → ∃ t, exec (.journalStop r) s = .next t ∧ Waits (s.takeMail 0x01 j) t b .journalStop r) ∧
    (∀ (s : State) (r : SvcReq) (j : Fin 32) (e : Nat), s.asked 0x0E02 r j → (s.takeMail 0x01 j).journal.live = true → (s.takeMail 0x01 j).boundaryOf (some (s.takeMail 0x01 j).jrnCourse) r = .error e → exec (.journalStop r) s = .next ((s.takeMail 0x01 j).svcReply 0x0E02 r e [])) ∧
    (∀ (s : State) (r : SvcReq) (j : Fin 32), s.asked 0x0E02 r j → (s.takeMail 0x01 j).journal.live = false → exec (.journalStop r) s = .next ((s.takeMail 0x01 j).svcReply 0x0E02 r 2 [])) ∧
    (∀ (s : State) (r : SvcReq) (j : Fin 32) (d : Fin 13) (b : Boundary), s.asked 0x0E03 r j → (s.takeMail 0x01 j).standby = some d → (s.takeMail 0x01 j).replayBad d r = none → (s.takeMail 0x01 j).boundaryOf none r = .ok b → ∃ t, exec (.replay r) s = .next t ∧ Waits (s.takeMail 0x01 j) t b .replay r) ∧
    (∀ (s : State) (r : SvcReq) (j : Fin 32) (d : Fin 13) (e : Nat), s.asked 0x0E03 r j → (s.takeMail 0x01 j).standby = some d → (s.takeMail 0x01 j).replayBad d r = none → (s.takeMail 0x01 j).boundaryOf none r = .error e → exec (.replay r) s = .next ((s.takeMail 0x01 j).svcReply 0x0E03 r e [])) ∧
    (∀ (s : State) (r : SvcReq) (j : Fin 32) (d : Fin 13) (e : Nat), s.asked 0x0E03 r j → (s.takeMail 0x01 j).standby = some d → (s.takeMail 0x01 j).replayBad d r = some e → exec (.replay r) s = .next ((s.takeMail 0x01 j).svcReply 0x0E03 r e [])) ∧
    (∀ (s : State) (r : SvcReq) (j : Fin 32) (q : PortCode) (b : Boundary), s.asked 0x0F01 r j → r.port 32 = some q → (s.takeMail 0x01 j).portBusy q.val = false → portCfgIllegal r.w2 = false → (s.takeMail 0x01 j).modeAccepted q r.w2 = true → (s.takeMail 0x01 j).boundaryOf none r = .ok b → ∃ t, exec (.portConfig r) s = .next t ∧ Waits (s.takeMail 0x01 j) t b .portConfig r) ∧
    (∀ (s : State) (r : SvcReq) (j : Fin 32) (q : PortCode) (e : Nat), s.asked 0x0F01 r j → r.port 32 = some q → (s.takeMail 0x01 j).portBusy q.val = false → portCfgIllegal r.w2 = false → (s.takeMail 0x01 j).modeAccepted q r.w2 = true → (s.takeMail 0x01 j).boundaryOf none r = .error e → exec (.portConfig r) s = .next ((s.takeMail 0x01 j).svcReply 0x0F01 r e [])) ∧
    (∀ (s : State) (r : SvcReq) (j : Fin 32) (q : PortCode), s.asked 0x0F01 r j → r.port 32 = some q → (s.takeMail 0x01 j).portBusy q.val = false → portCfgIllegal r.w2 = false → (s.takeMail 0x01 j).modeAccepted q r.w2 = false → exec (.portConfig r) s = .next ((s.takeMail 0x01 j).svcReply 0x0F01 r 11 [])) ∧
    (∀ (s : State) (r : SvcReq) (j : Fin 32) (q : PortCode) (b : Boundary), s.asked 0x0F03 r j → r.port 32 = some q → (s.takeMail 0x01 j).portBusy q.val = false → (s.takeMail 0x01 j).boundaryOf none r = .ok b → ∃ t, exec (.portLoop r) s = .next t ∧ Waits (s.takeMail 0x01 j) t b .portLoop r) ∧
    (∀ (s : State) (r : SvcReq) (j : Fin 32) (q : PortCode) (e : Nat), s.asked 0x0F03 r j → r.port 32 = some q → (s.takeMail 0x01 j).portBusy q.val = false → (s.takeMail 0x01 j).boundaryOf none r = .error e → exec (.portLoop r) s = .next ((s.takeMail 0x01 j).svcReply 0x0F03 r e [])) ∧
    (∀ (s : State) (r : SvcReq) (j : Fin 32) (q : PortCode) (b : Boundary), s.asked 0x0F04 r j → r.port 36 = some q → (s.takeMail 0x01 j).portBusy q.val = false → (s.takeMail 0x01 j).boundaryOf none r = .ok b → ∃ t, exec (.portReset r) s = .next t ∧ Waits (s.takeMail 0x01 j) t b .portReset r) ∧
    (∀ (s : State) (r : SvcReq) (j : Fin 32) (q : PortCode) (e : Nat), s.asked 0x0F04 r j → r.port 36 = some q → (s.takeMail 0x01 j).portBusy q.val = false → (s.takeMail 0x01 j).boundaryOf none r = .error e → exec (.portReset r) s = .next ((s.takeMail 0x01 j).svcReply 0x0F04 r e [])) ∧
    (∀ (s : State) (r : SvcReq) (j : Fin 32) (q : PortCode), s.asked 0x0F02 r j → Sparse.wf regReset s.regs = true → portOfCode (r.w1.toNat % 256) = some q →
      ∃ (x : State), exec (.portHold r) s = .next (x.svcReply 0x0F02 r 0 []) ∧ x = { (s.takeMail 0x01 j) with regs := x.regs } ∧ x.reg (portBase q + 0x0C) = r.w2 &&& 0xFFFF ∧ ∀ o, o ≠ portBase q + 0x0C → x.reg o = s.reg o) ∧
    (∀ (s : State) (r : SvcReq) (j : Fin 32), s.asked 0x0F02 r j → portOfCode (r.w1.toNat % 256) = none → exec (.portHold r) s = .next ((s.takeMail 0x01 j).svcReply 0x0F02 r 2 [])) ∧
    (∀ (s : State) (c : Option (Fin 13)) (r : SvcReq) (d : Fin 2), r.w7.toNat / 65536 = 0 → (r.w5.toNat / 2 ^ 30) = 2 + d.val → (r.w5.toNat % 2 ^ 30) < 1000000000 → s.boundaryOf c r = if s.rootOf (.time d (r.w6.toNat + r.w7.toNat % 65536 * 2 ^ 32) (r.w5.toNat % 2 ^ 30)) < s.now + 10000000 then .error 4 else .ok (.time d (r.w6.toNat + r.w7.toNat % 65536 * 2 ^ 32) (r.w5.toNat % 2 ^ 30))) ∧
    (∀ (s : State) (c : Option (Fin 13)) (r : SvcReq) (n : Fin 13), r.w7.toNat / 65536 = 0 → c = some n → (r.w5.toNat / 2 ^ 30) = 1 → (r.w5.toNat % 2 ^ 30) = 0 → s.cycles n = true → s.boundaryOf c r = if s.rootOf (.cycle n (r.w6.toNat + r.w7.toNat % 65536 * 2 ^ 32)) < s.now + 10000000 then .error 4 else .ok (.cycle n (r.w6.toNat + r.w7.toNat % 65536 * 2 ^ 32))) ∧
    (∀ (s : State) (c : Option (Fin 13)) (r : SvcReq), r.w7.toNat / 65536 = 0 → (r.w5.toNat / 2 ^ 30) = 0 → (r.w5.toNat % 2 ^ 30) = 0 → s.boundaryOf c r = .ok (s.earliest c)) ∧
    (∀ (s : State) (c : Option (Fin 13)) (r : SvcReq), (r.w7.toNat / 65536 ≠ 0 ∨ (r.w5.toNat / 2 ^ 30) = 0 ∧ (r.w5.toNat % 2 ^ 30) ≠ 0 ∨ (r.w5.toNat / 2 ^ 30) = 1 ∧ ((r.w5.toNat % 2 ^ 30) ≠ 0 ∨ ∀ n, c = some n → s.cycles n = false) ∨ 2 ≤ (r.w5.toNat / 2 ^ 30) ∧ 1000000000 ≤ (r.w5.toNat % 2 ^ 30)) → s.boundaryOf c r = .error 2) ∧
    (∀ (s : State) (d : Deferred) (c : Fin 13), s.due d → d.act = (.courseReset c) → exec .serviceBoundary s = .next (((s.whenDue d).courseResetAct c).svcDone 0x0402 d.req d.when_ [])) ∧
    (∀ (s : State) (d : Deferred), s.due d → d.act = .doze → exec .serviceBoundary s = .next (((s.whenDue d).dozeRequest).svcDone 0x0501 d.req d.when_ [])) ∧
    (∀ (s : State) (d : Deferred), s.due d → d.act = .wake → exec .serviceBoundary s = .next (((s.whenDue d).wakeAll 3).svcDone 0x0502 d.req d.when_ [])) ∧
    (∀ (s : State) (d : Deferred) (v : Reg32), s.due d → d.act = (.reset v) → exec .serviceBoundary s = .next ((s.whenDue d).resetAt v d.when_ d.req)) ∧
    (∀ (s : State) (d : Deferred), s.due d → d.act = .journalStart → exec .serviceBoundary s = .next ((((s.whenDue d).modJournal (fun q => { q with mark := d.req.w2.extractLsb' 0 16 })).journalBegin d.req.jrnCfg).svcDone 0x0E01 d.req d.when_ [])) ∧
    (∀ (s : State) (d : Deferred), s.due d → d.act = .journalStop → exec .serviceBoundary s = .next (((s.whenDue d).journalEnd (s.whenDue d).jrnCourse 0).svcDone 0x0E02 d.req d.when_ [])) ∧
    (∀ (s : State) (d : Deferred), s.due d → d.act = .replay → exec .serviceBoundary s = .next ((s.whenDue d).replayAt d.req)) ∧
    (∀ (s : State) (d : Deferred) (q : PortCode), s.due d → d.act = .portConfig → d.req.port 32 = some q → ∃ (x : State), exec .serviceBoundary s = .next (x.svcDone 0x0F01 d.req d.when_ [x.portStatus q]) ∧ x = (s.whenDue d).portReconfigure q d.req.w2) ∧
    (∀ (s : State) (d : Deferred) (q : PortCode), s.due d → d.act = .portLoop → d.req.port 32 = some q → ∃ (x : State), exec .serviceBoundary s = .next (x.svcDone 0x0F03 d.req d.when_ [x.portStatus q]) ∧ x = (s.whenDue d).portReconfigure q (setBits (s.portCfg q) 23 22 (d.req.w2.toNat % 4))) ∧
    (∀ (s : State) (d : Deferred) (q : PortCode), s.due d → d.act = .portReset → d.req.port 36 = some q → exec .serviceBoundary s = .next (((s.whenDue d).portResetAny q).svcDone 0x0F04 d.req d.when_ [])) ∧
    (∀ (s : State) (d : Deferred) (c : Fin 13), s.due d → d.act = .test c → (s.whenDue d).testable c (d.req.w1.getLsbD 0) = true → ∃ t n, exec .serviceBoundary s = .next t ∧ (t.course c).mode = 1 ∧ (t.port (portCp c)).up = false ∧ (t.course c).trowel = some n ∧ n.req = some d.req ∧ n.target = d.req.w1.extractLsb' 24 2 ∧ n.preserving = d.req.w1.getLsbD 0 ∧ n.abort = false ∧ SameMemories s t) ∧
    (∀ (s : State) (d : Deferred) (g : Fin 16), s.due d → d.act = .testSegment g → ∃ n, exec .serviceBoundary s = .next { (s.whenDue d) with keystone := { (s.whenDue d).keystone with bufTest := some (g, n, d.req) } }) ∧
    (∀ (s : State) (d : Deferred), s.due d → d.act = .testJournal → ∃ n, exec .serviceBoundary s = .next { (s.whenDue d) with keystone := { (s.whenDue d).keystone with jrnTest := some (n, d.req) } }) ∧
    (∀ (s : State), takeFirst s.reported s.keystone.deferred = none → s.nextDeferred = none → exec .serviceBoundary s = .next s)

/-- Challenges, the checks of SUBMIT, lifecycle transitions, sessions and attestation (R447, R452, R453, R455, R464, R465, R467, R469, R470). -/
def Obligations.AuthorisationsAreCheckedAndActOnce : Prop :=
  (∀ (s : State) (r : SvcReq) (j : Fin 32), s.asked 0x0901 r j → s.keystone.lockoutEnd = none →
      ∃ (x : State), exec (.authChallenge r) s = .next (x.authReply 1 r 0) ∧ x = { (s.takeMail 0x01 j) with freeCtr := s.freeCtr + 32, keystone := { (s.takeMail 0x01 j).keystone with window := x.keystone.window, challenge := true, sessionNo := s.keystone.sessionNo + 1 } } ∧ (∀ a, 32 ≤ a → x.authByte a = (s.takeMail 0x01 j).authByte a ∨ 0x2C ≤ a ∧ a < 0x30)) ∧
    (∀ (s : State) (r : SvcReq) (j : Fin 32) (e : Nat), s.asked 0x0901 r j → s.keystone.lockoutEnd = some e → exec (.authChallenge r) s = .next ((s.takeMail 0x01 j).authReply 1 r 15)) ∧
    (∀ (s : State) (r : SvcReq) (j : Fin 32), s.asked 0x0903 r j → ∃ (x : State), exec (.authEnd r) s = .next (x.authReply 3 r 0) ∧ SessionEnded (s.takeMail 0x01 j) x ∧ x.keystone.challenge = s.keystone.challenge) ∧
    (∀ (s : State) (a : Nat) (r : SvcReq) (j : Fin 32) (c : Instr) (e : Nat), SubmitOf c a r → s.keystone.action = a → s.asked 0x0902 r j → (s.takeMail 0x01 j).submitBad a = some e →
      ∃ (x : State), exec c s = .next (x.authReply 2 r e) ∧ x = { (s.takeMail 0x01 j) with keystone := { (s.takeMail 0x01 j).keystone with challenge := false, fails := x.keystone.fails, lockoutEnd := x.keystone.lockoutEnd } } ∧
        (s.keystone.fails < 2 → x.keystone.fails = s.keystone.fails + 1 ∧ x.keystone.lockoutEnd = s.keystone.lockoutEnd) ∧ (2 ≤ s.keystone.fails → x.keystone.fails = 0 ∧ x.keystone.lockoutEnd = some (s.tick + 1000))) ∧
    (∀ (c : Instr) (a : Nat) (r : SvcReq) (s : State), SubmitOf c a r → s.keystone.action ≠ a → exec c s = .next s) ∧
    (∀ (s : State) (a : Nat), (s.keystone.challenge = false → s.submitBad a = some 2) ∧ (s.keystone.challenge = true → s.submitForm a = true → s.submitAllowed a = false → s.submitBad a = some 14) ∧
      (s.keystone.challenge = true → s.submitForm a = true → s.submitAllowed a = true → a ≠ 0 → s.signerOk = false → s.submitBad a = some 6) ∧
      (s.keystone.challenge = true → s.submitForm a = true → s.submitAllowed a = true → a ≠ 0 → s.signerOk = true → Config.ecdsaVerify (s.authBytes 0xA0 132) (Config.sha512 (s.authBytes 0 160)) (s.authBytes 0x124 132) = false → s.submitBad a = some 7)) ∧
    (∀ (s : State) (r : SvcReq) (j : Fin 32), s.submits 0 r j → Sparse.wf (fun _ => (0 : Reg32)) s.otp = true → Memory.wf flashBlank s.flash = true → ∃ t, exec (.provision r) s = .next t ∧ Restarted t 7 ∧ t.otpWord 2 = s.otpWord 2 ||| 1 ∧ Memory.readBytes flashBlank t.flash 0x2000 132 = (s.takeMail 0x01 j).authBytes 0x1A8 132 ∧ FlashOutside s t 0x2000 0x1000 ∧ ∀ w, (w < 2 ∨ w = 3 ∨ 20 ≤ w ∧ w < 41 ∨ 58 ≤ w) → t.otpWord w = s.otpWord w) ∧
    (∀ (s : State) (r : SvcReq) (j : Fin 32), s.submits 2 r j → Sparse.wf (fun _ => (0 : Reg32)) s.otp = true → ∃ t, exec (.deploy r) s = .next t ∧ Restarted t 7 ∧ t.otpWord 2 = s.otpWord 2 ||| 2 ∧ t.flash = s.flash ∧ OtpOutside s t 2 1) ∧
    (∀ (s : State) (r : SvcReq) (j : Fin 32), s.submits 3 r j → Sparse.wf (fun _ => (0 : Reg32)) s.otp = true → Memory.wf flashBlank s.flash = true → ∃ t, exec (.returnAuth r) s = .next t ∧ Restarted t 7 ∧ t.otpWord 2 = s.otpWord 2 ||| 4 ∧ OtpOutside s t 2 1 ∧ (∀ x, (0x10000 ≤ x ∧ x < 0x20000 ∨ 0x500000 ≤ x ∧ x < 0x3500000) → Sparse.read flashBlank t.flash x = 0xFF) ∧ ∀ x, (x < 0x10000 ∨ 0x20000 ≤ x ∧ x < 0x500000 ∨ 0x3500000 ≤ x) → Sparse.read flashBlank t.flash x = Sparse.read flashBlank s.flash x) ∧
    (∀ (s : State) (r : SvcReq) (j : Fin 32), s.submits 4 r j → Sparse.wf (fun _ => (0 : Reg32)) s.otp = true → Memory.wf flashBlank s.flash = true → ∃ t, exec (.retire r) s = .next t ∧ Restarted t 7 ∧ t.otpWord 2 = s.otpWord 2 ||| 8 ∧ t.power.phase = .footing ∧ t.lifecycle = .retired ∧ (∀ w, 41 ≤ w → w < 58 → t.otpWord w = BitVec.allOnes 32) ∧ (∀ x, 0x1000 ≤ x → x < 0x4000000 → Sparse.read flashBlank t.flash x = 0xFF) ∧ ∀ x, x < 0x1000 → Sparse.read flashBlank t.flash x = Sparse.read flashBlank s.flash x) ∧
    (∀ (s : State) (r : SvcReq) (j : Fin 32), s.submits 5 r j → Sparse.wf (fun _ => (0 : Reg32)) s.otp = true → Memory.wf flashBlank s.flash = true → ∃ t, exec (.rotate r) s = .next t ∧ Restarted t 7 ∧ t.otpWord 36 = s.otpWord 36 ||| 3 ∧ Memory.readBytes flashBlank t.flash 0x2000 132 = (s.takeMail 0x01 j).authBytes 0x1A8 132 ∧ FlashOutside s t 0x2000 0x1000 ∧ t.ownerSlot = 1 ∧ ∀ w, (w < 20 ∨ 37 ≤ w) → t.otpWord w = s.otpWord w) ∧
    (∀ (s : State) (r : SvcReq) (j : Fin 32), s.submits 6 r j → (s.takeMail 0x01 j).rollback ((s.takeMail 0x01 j).authNat 0x44 4) ((s.takeMail 0x01 j).authNat 0x48 4) = false →
      ∃ (x : State), exec (.svnCommit r) s = .next (x.authReply 2 r 0) ∧ x = { (s.takeMail 0x01 j).submitPasses with otp := x.otp } ∧ ∀ w, (if ((s.takeMail 0x01 j).authNat 0x44 4) = 0 then w ≠ 37 ∧ w ≠ 38 else w ≠ 39 ∧ w ≠ 40) → x.otpWord w = s.otpWord w) ∧
    (∀ (s : State) (r : SvcReq) (j : Fin 32), s.submits 6 r j → Sparse.wf (fun _ => (0 : Reg32)) s.otp = true → (s.takeMail 0x01 j).rollback ((s.takeMail 0x01 j).authNat 0x44 4) ((s.takeMail 0x01 j).authNat 0x48 4) = false → ∃ (x : State), exec (.svnCommit r) s = .next (x.authReply 2 r 0) ∧ (∀ i, i < 32 → (x.otpWord (if ((s.takeMail 0x01 j).authNat 0x44 4) = 0 then 37 else 39)).getLsbD i = ((s.otpWord (if ((s.takeMail 0x01 j).authNat 0x44 4) = 0 then 37 else 39)).getLsbD i || decide (i < ((s.takeMail 0x01 j).authNat 0x48 4)))) ∧ ∀ i, i < 32 → (x.otpWord ((if ((s.takeMail 0x01 j).authNat 0x44 4) = 0 then 37 else 39) + 1)).getLsbD i = ((s.otpWord ((if ((s.takeMail 0x01 j).authNat 0x44 4) = 0 then 37 else 39) + 1)).getLsbD i || decide (32 + i < ((s.takeMail 0x01 j).authNat 0x48 4)))) ∧
    (∀ (s : State) (r : SvcReq) (j : Fin 32), s.submits 6 r j → (s.takeMail 0x01 j).submitPasses.rollback ((s.takeMail 0x01 j).authNat 0x44 4) ((s.takeMail 0x01 j).authNat 0x48 4) = true → exec (.svnCommit r) s = .next ((s.takeMail 0x01 j).submitPasses.authReply 2 r 9)) ∧
    (∀ (s : State) (r : SvcReq) (j : Fin 32), s.submits 1 r j → ∃ (x : State), exec (.debugAuth r) s = .next (x.authReply 2 r 0) ∧ Logs { (s.takeMail 0x01 j).submitPasses with keystone := x.keystone } x ∧
      x.keystone = { (s.takeMail 0x01 j).submitPasses.keystone with session := some { level := BitVec.ofNat 2 ((s.takeMail 0x01 j).authNat 0x44 4), scope := BitVec.ofNat 4 (((s.takeMail 0x01 j).authNat 0x44 4) / 256), oliaz := decide ((s.takeMail 0x01 j).authNat 0x41 1 = 1), endTick := if ((s.takeMail 0x01 j).authNat 0x48 4) = 0 then none else some (s.tick + ((s.takeMail 0x01 j).authNat 0x48 4)) } }) ∧
    (∀ (s : State) (x : Session) (n : Nat), s.alive = true → s.keystone.session = some x → x.endTick = some n → n ≤ s.tick → ∃ t, exec .debugSessionExpiry s = .next t ∧ SessionEnded s t ∧ t.keystone.challenge = s.keystone.challenge ∧ t.keystone.window = s.keystone.window) ∧
    (∀ (s : State) (x : Session) (n : Nat), s.keystone.session = some x → (x.endTick = none ∨ x.endTick = some n ∧ s.tick < n) → exec .debugSessionExpiry s = .next s) ∧
    (∀ (s : State) (n : Nat), s.alive = true → s.keystone.lockoutEnd = some n → n ≤ s.tick → exec .lockoutEnd s = .next { s with keystone := { s.keystone with lockoutEnd := none } }) ∧
    (∀ (s : State), (∀ n, s.keystone.lockoutEnd = some n → s.tick < n) → exec .lockoutEnd s = .next s) ∧
    (∀ (s : State) (r : SvcReq) (j : Fin 32), s.asked 0x0801 r j → ∃ (x : State) (sig : List Byte), exec (.attestReport r) s = .next (x.svcReply 0x0801 r 0 [BitVec.ofNat 32 (((s.takeMail 0x01 j).attBody r (s.keystone.attSeq + 1).toNat).length + 132), (s.keystone.attSeq + 1)]) ∧ x = { (s.takeMail 0x01 j) with freeCtr := s.freeCtr + 1, keystone := { (s.takeMail 0x01 j).keystone with challenge := false, window := x.keystone.window, attSeq := (s.keystone.attSeq + 1), attest := x.keystone.attest } } ∧
        x.keystone.attest = Memory.writeBytes hostBlank s.keystone.attest 0 ((((s.takeMail 0x01 j).attBody r (s.keystone.attSeq + 1).toNat) ++ sig).take 0x4000) ∧ sig = Config.ecdsaSign (s.takeMail 0x01 j).identityKey (Config.sha512 ((s.takeMail 0x01 j).attBody r (s.keystone.attSeq + 1).toNat)) (Config.free s.freeCtr)) ∧
    (∀ (s : State) (r : SvcReq) (n : Nat), (s.attBody r n).length = 192 + 76 * s.attEntries.length ∧ (s.attBody r n).take 6 = [0x41, 0x54, 0x54, 0x52, 1, 0] ∧ ∀ e ∈ s.attEntries, e.length = 76) ∧
    (∀ (s : State) (r : SvcReq) (j : Fin 32), s.asked 0x0802 r j → ∃ (x : State), exec (.idPub r) s = .next (x.svcReply 0x0802 r 0 [132]) ∧ x = { (s.takeMail 0x01 j) with keystone := { (s.takeMail 0x01 j).keystone with attest := Memory.writeBytes hostBlank s.keystone.attest 0 ((Config.ecdsaPublic (s.takeMail 0x01 j).identityKey).take 132) } })

/-- FLASH, RECORDER, CAL, TIME and CKPT services, and the role swap of a manager pair (R92, R414, R415, R417, R450, R461, R484, R499). -/
def Obligations.StoresSamplesAndCheckpoints : Prop :=
  (∀ (s : State) (r : SvcReq) (j : Fin 32) (a n : Nat), s.asked 0x0A01 r j → flashRegion r.w4.toNat = some (a, n) → r.w3.toNat ≤ n → ((s.takeMail 0x01 j).notAllowed = true → r.w4 = 0x80) → (s.takeMail 0x01 j).imageBad (slotKind r.w4.toNat ((s.takeMail 0x01 j).hostBytes r.w1 r.w2 (min r.w3.toNat n))) ((s.takeMail 0x01 j).hostBytes r.w1 r.w2 (min r.w3.toNat n)) = none → Memory.wf flashBlank s.flash = true → 
      ∃ (x : State), exec (.flashWrite r) s = .next (x.svcReply 0x0A01 r 0 [r.w3]) ∧ x = { (s.takeMail 0x01 j) with flash := x.flash } ∧ FlashOutside s x a n ∧ Memory.readBytes flashBlank x.flash a ((s.takeMail 0x01 j).hostBytes r.w1 r.w2 (min r.w3.toNat n)).length = ((s.takeMail 0x01 j).hostBytes r.w1 r.w2 (min r.w3.toNat n)) ∧ ∀ y : Nat, a + ((s.takeMail 0x01 j).hostBytes r.w1 r.w2 (min r.w3.toNat n)).length ≤ y → y < a + n → Sparse.read flashBlank x.flash y = 0xFF) ∧
    (∀ (s : State) (r : SvcReq) (j : Fin 32) (a n : Nat), s.asked 0x0A01 r j → flashRegion r.w4.toNat = some (a, n) → r.w3.toNat ≤ n → (s.takeMail 0x01 j).notAllowed = true → r.w4 ≠ 0x80 → exec (.flashWrite r) s = .next ((s.takeMail 0x01 j).svcReply 0x0A01 r 14 [0])) ∧
    (∀ (s : State) (r : SvcReq) (j : Fin 32) (a n : Nat), s.asked 0x0A01 r j → flashRegion r.w4.toNat = some (a, n) → r.w3.toNat ≤ n → ((s.takeMail 0x01 j).notAllowed = true → r.w4 = 0x80) → ∀ e k, (s.takeMail 0x01 j).imageBad (slotKind r.w4.toNat ((s.takeMail 0x01 j).hostBytes r.w1 r.w2 (min r.w3.toNat n))) ((s.takeMail 0x01 j).hostBytes r.w1 r.w2 (min r.w3.toNat n)) = some (e, k) → exec (.flashWrite r) s = .next ((s.takeMail 0x01 j).svcReply 0x0A01 r e [0])) ∧
    (∀ n : Nat, (n < 48 → flashRegion n = some (0x500000 + n * 0x100000, 0x100000)) ∧ flashRegion 0x80 = some (0x100000, 0x400000) ∧ flashRegion 0x81 = some (0x10000, 0x10000) ∧ (48 ≤ n → n ≠ 0x80 → n ≠ 0x81 → flashRegion n = none)) ∧
    (∀ (s : State) (r : SvcReq) (j : Fin 32), s.asked 0x0B01 r j → s.alive = true → ∃ t, exec (.clearStart r) s = .next t ∧ Restarted t 7 ∧ t.flash = s.flash ∧ t.otp = s.otp ∧ (s.lifecycle ≠ .retired → t.power.phase = .rom ∧ t.power.startRec.count = 1)) ∧
    (∀ (s : State) (r : SvcReq) (j : Fin 32), s.asked 0x0C01 r j → 1 ≤ r.w4.toNat → r.w4.toNat ≤ 16384 →
      ∃ (x : State), exec (.recorderRead r) s = .next (x.svcReply 0x0C01 r 0 [BitVec.ofNat 32 ((s.takeMail 0x01 j).recorder.range r.w3 r.w4.toNat).length, lastSeq ((s.takeMail 0x01 j).recorder.range r.w3 r.w4.toNat)]) ∧ x = { (s.takeMail 0x01 j) with hostMem := Memory.writeBytes hostBlank (s.takeMail 0x01 j).hostMem (hostAddr r.w1 r.w2) (((s.takeMail 0x01 j).recorder.range r.w3 r.w4.toNat).flatMap RecEntry.bytes) }) ∧
    (∀ (s : State) (r : SvcReq) (j : Fin 32), s.asked 0x0C01 r j → (r.w4 = 0 ∨ 16384 < r.w4.toNat) → exec (.recorderRead r) s = .next ((s.takeMail 0x01 j).svcReply 0x0C01 r 2 [])) ∧
    (∀ (s : State) (r : SvcReq) (j : Fin 32) (b : FlushBlock), s.asked 0x0C02 r j → s.recorder.blocks[r.w3.toNat]? = some b →
      ∃ (x : State), exec (.readFlush r) s = .next (x.svcReply 0x0C02 r 0 [BitVec.ofNat 32 b.cause, lastSeq b.recs]) ∧ x = { (s.takeMail 0x01 j) with hostMem := Memory.writeBytes hostBlank (s.takeMail 0x01 j).hostMem (hostAddr r.w1 r.w2) ((b.recs.take r.w4.toNat).flatMap RecEntry.bytes) }) ∧
    (∀ (s : State) (r : SvcReq) (j : Fin 32), s.asked 0x0C02 r j → (s.takeMail 0x01 j).recorder.blocks[r.w3.toNat]? = none → exec (.readFlush r) s = .next ((s.takeMail 0x01 j).svcReply 0x0C02 r 2 [])) ∧
    (∀ (x : Recorder) (first : Reg32) (n : Nat), ∀ e ∈ x.range first n, e ∈ x.recs ∧ (e.seq - first).toNat < n) ∧
    (∀ (s : State) (r : SvcReq) (j : Fin 32), s.asked 0x0D01 r j → ∃ (x : State), exec (.calRead r) s = .next (x.svcReply 0x0D01 r 0 []) ∧ x = { (s.takeMail 0x01 j) with hostMem := Memory.writeBytes hostBlank (s.takeMail 0x01 j).hostMem (hostAddr r.w1 r.w2) (Memory.readBytes flashBlank s.flash 0 4096) }) ∧
    (∀ (s : State) (r : SvcReq) (j : Fin 32), s.asked 0x0D02 r j → s.lifecycle ≠ .manufacture → r.w3 = 0x0C411B05 → (s.takeMail 0x01 j).calValid ((s.takeMail 0x01 j).hostBytes r.w1 r.w2 4096) = true → Memory.wf flashBlank s.flash = true → 
      ∃ (x : State), exec (.calWrite r) s = .next (x.svcReply 0x0D02 r 0 []) ∧ x = { (s.takeMail 0x01 j) with flash := x.flash } ∧ FlashOutside s x 0 4096 ∧ (((s.takeMail 0x01 j).hostBytes r.w1 r.w2 4096) = (Memory.readBytes flashBlank s.flash 0 4096) → Memory.readBytes flashBlank x.flash 0 4096 = (Memory.readBytes flashBlank s.flash 0 4096)) ∧ (((s.takeMail 0x01 j).hostBytes r.w1 r.w2 4096) ≠ (Memory.readBytes flashBlank s.flash 0 4096) → Sparse.read flashBlank x.flash 6 = 1 ∧ ∀ a, a < 0xFC0 → a ≠ 6 → Sparse.read flashBlank x.flash a = nth ((s.takeMail 0x01 j).hostBytes r.w1 r.w2 4096) a 0)) ∧
    (∀ (s : State) (r : SvcReq) (j : Fin 32), s.asked 0x0D02 r j → s.lifecycle = .manufacture → exec (.calWrite r) s = .next ((s.takeMail 0x01 j).svcReply 0x0D02 r 14 [])) ∧
    (∀ (s : State) (r : SvcReq) (j : Fin 32), s.asked 0x0D02 r j → s.lifecycle ≠ .manufacture → r.w3 ≠ 0x0C411B05 → exec (.calWrite r) s = .next ((s.takeMail 0x01 j).svcReply 0x0D02 r 2 [])) ∧
    (∀ (s : State) (r : SvcReq) (j : Fin 32), s.asked 0x0D02 r j → s.lifecycle ≠ .manufacture → r.w3 = 0x0C411B05 → (s.takeMail 0x01 j).calValid ((s.takeMail 0x01 j).hostBytes r.w1 r.w2 4096) = false → exec (.calWrite r) s = .next ((s.takeMail 0x01 j).svcReply 0x0D02 r 5 [])) ∧
    (∀ (s : State) (r : SvcReq) (j : Fin 32), s.asked 0x0601 r j → (s.takeMail 0x01 j).timeAllows r.caller (if r.w1.getLsbD 0 then 1 else 0 : Fin 2) = true → (r.w4.toNat % 2 ^ 30) < 1000000000 → (s.takeMail 0x01 j).tdSource (if r.w1.getLsbD 0 then 1 else 0 : Fin 2) = 0 → (s.takeMail 0x01 j).sampleStale (if r.w1.getLsbD 0 then 1 else 0 : Fin 2) (((r.w5.toNat + r.w6.toNat % 65536 * 2 ^ 32) * 1000000000 + (r.w4.toNat % 2 ^ 30)) * 65536) = false → exec (.timeSample r) s = .next ((((((s.takeMail 0x01 j).setReg (tdBase (if r.w1.getLsbD 0 then 1 else 0 : Fin 2) + 0x40) r.w2).setReg (tdBase (if r.w1.getLsbD 0 then 1 else 0 : Fin 2) + 0x44) r.w3).setReg (tdBase (if r.w1.getLsbD 0 then 1 else 0 : Fin 2) + 0x48) (r.w4 &&& 0x3FFFFFFF)).submitSample (if r.w1.getLsbD 0 then 1 else 0 : Fin 2) (r.w5.toNat + r.w6.toNat % 65536 * 2 ^ 32)).svcReply 0x0601 r 0 [((((((s.takeMail 0x01 j).setReg (tdBase (if r.w1.getLsbD 0 then 1 else 0 : Fin 2) + 0x40) r.w2).setReg (tdBase (if r.w1.getLsbD 0 then 1 else 0 : Fin 2) + 0x44) r.w3).setReg (tdBase (if r.w1.getLsbD 0 then 1 else 0 : Fin 2) + 0x48) (r.w4 &&& 0x3FFFFFFF)).submitSample (if r.w1.getLsbD 0 then 1 else 0 : Fin 2) (r.w5.toNat + r.w6.toNat % 65536 * 2 ^ 32)).dom (if r.w1.getLsbD 0 then 1 else 0 : Fin 2)).status &&& 0xF8000000])) ∧
    (∀ (s : State) (r : SvcReq) (j : Fin 32), s.asked 0x0601 r j → (s.takeMail 0x01 j).timeAllows r.caller (if r.w1.getLsbD 0 then 1 else 0 : Fin 2) = true → (r.w4.toNat % 2 ^ 30) < 1000000000 → ((s.takeMail 0x01 j).tdSource (if r.w1.getLsbD 0 then 1 else 0 : Fin 2) ≠ 0 ∨ (s.takeMail 0x01 j).sampleStale (if r.w1.getLsbD 0 then 1 else 0 : Fin 2) (((r.w5.toNat + r.w6.toNat % 65536 * 2 ^ 32) * 1000000000 + (r.w4.toNat % 2 ^ 30)) * 65536) = true) → exec (.timeSample r) s = .next ((((((s.takeMail 0x01 j).setReg (tdBase (if r.w1.getLsbD 0 then 1 else 0 : Fin 2) + 0x40) r.w2).setReg (tdBase (if r.w1.getLsbD 0 then 1 else 0 : Fin 2) + 0x44) r.w3).setReg (tdBase (if r.w1.getLsbD 0 then 1 else 0 : Fin 2) + 0x48) (r.w4 &&& 0x3FFFFFFF)).submitSample (if r.w1.getLsbD 0 then 1 else 0 : Fin 2) (r.w5.toNat + r.w6.toNat % 65536 * 2 ^ 32)).svcReply 0x0601 r 17 [((((((s.takeMail 0x01 j).setReg (tdBase (if r.w1.getLsbD 0 then 1 else 0 : Fin 2) + 0x40) r.w2).setReg (tdBase (if r.w1.getLsbD 0 then 1 else 0 : Fin 2) + 0x44) r.w3).setReg (tdBase (if r.w1.getLsbD 0 then 1 else 0 : Fin 2) + 0x48) (r.w4 &&& 0x3FFFFFFF)).submitSample (if r.w1.getLsbD 0 then 1 else 0 : Fin 2) (r.w5.toNat + r.w6.toNat % 65536 * 2 ^ 32)).dom (if r.w1.getLsbD 0 then 1 else 0 : Fin 2)).status &&& 0xF8000000])) ∧
    (∀ (s : State) (r : SvcReq) (j : Fin 32), s.asked 0x0601 r j → (s.takeMail 0x01 j).timeAllows r.caller (if r.w1.getLsbD 0 then 1 else 0 : Fin 2) = false → exec (.timeSample r) s = .next ((s.takeMail 0x01 j).svcReply 0x0601 r 1 [])) ∧
    (∀ (s : State) (r : SvcReq) (j : Fin 32), s.asked 0x0601 r j → (s.takeMail 0x01 j).timeAllows r.caller (if r.w1.getLsbD 0 then 1 else 0 : Fin 2) = true → 1000000000 ≤ (r.w4.toNat % 2 ^ 30) → exec (.timeSample r) s = .next ((s.takeMail 0x01 j).svcReply 0x0601 r 2 [])) ∧
    (∀ (s : State) (r : SvcReq) (j : Fin 32), s.asked 0x0701 r j → s.urral.role = .manager → r.w3.toNat ≤ 4194304 → s.urral.swap ≠ .checkpoint → ∃ (x : State), exec (.ckptPush r) s = .next (x.svcReply 0x0701 r 0 [(r.w4.extractLsb' 0 16).setWidth 32]) ∧ x = { (s.takeMail 0x01 j) with urral := { (s.takeMail 0x01 j).urral with ckptSent := (r.w4.extractLsb' 0 16) }, chainOut := (s.takeMail 0x01 j).chainOut ++ [UrrOut.ckpt (r.w4.extractLsb' 0 16) ((s.takeMail 0x01 j).hostBytes r.w1 r.w2 r.w3.toNat) (Config.sha512 ((s.takeMail 0x01 j).hostBytes r.w1 r.w2 r.w3.toNat))] }) ∧
    (∀ (s : State) (r : SvcReq) (j : Fin 32), s.asked 0x0701 r j → s.urral.role = .manager → r.w3.toNat ≤ 4194304 → s.urral.swap = .checkpoint → ∃ (x : State), exec (.ckptPush r) s = .next (x.svcReply 0x0701 r 0 [(r.w4.extractLsb' 0 16).setWidth 32]) ∧ x = { (s.takeMail 0x01 j) with urral := { (s.takeMail 0x01 j).urral with ckptSent := (r.w4.extractLsb' 0 16), swap := .handed s.tick, renewing := false, ready := false }, chainOut := (s.takeMail 0x01 j).chainOut ++ [UrrOut.ckpt (r.w4.extractLsb' 0 16) ((s.takeMail 0x01 j).hostBytes r.w1 r.w2 r.w3.toNat) (Config.sha512 ((s.takeMail 0x01 j).hostBytes r.w1 r.w2 r.w3.toNat))] ++ [UrrOut.handoff (r.w4.extractLsb' 0 16)] }) ∧
    (∀ (s : State) (r : SvcReq) (j : Fin 32), s.asked 0x0701 r j → s.urral.role ≠ .manager → exec (.ckptPush r) s = .next ((s.takeMail 0x01 j).svcReply 0x0701 r 14 [])) ∧
    (∀ (s : State) (r : SvcReq) (j : Fin 32), s.asked 0x0701 r j → s.urral.role = .manager → 4194304 < r.w3.toNat → exec (.ckptPush r) s = .next ((s.takeMail 0x01 j).svcReply 0x0701 r 2 [])) ∧
    (∀ (s : State), s.blocksUp = true → s.urral.swapFrom + (s.reg 0x600010).toNat / 65536 * 60000 ≤ s.tick → s.urral.role = .manager → s.urral.swap = .none → ∃ t, exec .roleSwap s = .next t ∧ Logs { s with urral := t.urral } t ∧ t.urral = { s.urral with swap := .checkpoint, swapFrom := s.tick, swapFail := false } ∧ t.pf1.cause.getLsbD 11 = true) ∧
    (∀ (s : State) (p : Party), s.blocksUp = true → (p.isPf1 = true ∨ p = .keystone) → s.urral.role = .manager → s.urral.swap = .none → ∃ t, exec (.swapNow p) s = .next t ∧ Logs { s with urral := t.urral } t ∧ t.urral = { s.urral with swap := .checkpoint, swapFrom := s.tick, swapFail := false } ∧ t.pf1.cause.getLsbD 11 = true) ∧
    (∀ (s : State) (p : Party), s.blocksUp = true → p.isPf1 = false → p ≠ .keystone → exec (.swapNow p) s = .next (s.refused p 0x600014 4) ∧ exec (.ready p) s = .next (s.refused p 0x600014 2)) ∧
    (∀ (s : State), s.blocksUp = true → s.urral.role = .manager → s.tick % 100 = 0 → ∃ t, exec .ckptDue s = .next t ∧ Logs s t ∧ t.pf1.cause.getLsbD 11 = true) ∧
    (∀ (s : State), (s.urral.role ≠ .manager ∨ s.tick % 100 ≠ 0) → exec .ckptDue s = .next s) ∧
    (∀ (s : State) (seq : Word) (data : List Byte) (dg : BitVec 512), s.blocksUp = true → s.urral.role = .standby → Config.sha512 data = dg → ∃ t e, exec (.ckpt seq data dg) s = .next t ∧ t = { s with urral := { s.urral with ckptSeq := seq }, mortar := { s.mortar with toHost := s.mortar.toHost ++ [e], nextId := s.mortar.nextId + 1 } } ∧ e.frame.bytes = data ∧ e.out = portH ∧ ∃ n : Fin 64, e.frame.ring = some n ∧ n.val = (s.reg 0x600010).toNat / 256 % 256 % 64) ∧
    (∀ (s : State) (seq : Word) (data : List Byte) (dg : BitVec 512), s.blocksUp = true → s.urral.role = .standby → Config.sha512 data ≠ dg → exec (.ckpt seq data dg) s = .next s) ∧
    (∀ (s : State) (p : Party), s.blocksUp = true → (p.isPf1 = true ∨ p = .keystone) → s.urral.handoff = true → s.urral.role = .standby →
      ∃ t c, exec (.ready p) s = .next t ∧ Logs { s with urral := t.urral, chainOut := t.chainOut } t ∧ t.urral = { s.urral with handoff := false, ready := true, renewing := false, mepoch := s.urral.mepoch + 1, mgrDev := s.urral.devnum, swapFrom := s.tick, role := .manager } ∧
        c.leaseHeld = true ∧ c.mepoch = s.urral.mepoch + 1 ∧ c.prio = s.urral.prio ∧ c.uid = s.uid ∧ ∀ k, s.endPort k → UrrOut.claim k c ∈ t.chainOut) ∧
    (∀ (s : State) (p : Party), s.blocksUp = true → (p.isPf1 = true ∨ p = .keystone) → (s.urral.handoff = false ∨ s.urral.role ≠ .standby) → exec (.ready p) s = .next { s with urral := { s.urral with ready := true } }) ∧
    (∀ (s : State) (n : Word), s.blocksUp = true → s.urral.role = .standby → exec (.handoff n) s = .next { s with urral := { s.urral with handoff := true, ready := false } }) ∧
    (∀ (s : State), s.blocksUp = true → s.urral.role = .manager → s.urral.renewing = false → s.urral.ready = false → s.urral.swap = .none → s.urral.renewed + 25 ≤ s.tick →
      ∃ (x t : State), exec .restoreLate s = .next t ∧ Logs { s with urral := { s.urral with restoreLate := true } } x ∧ Renewed x t ∧ t.urral.restoreLate = true) ∧
    (∀ (s : State) (n : Nat) (cause : Option (BitVec 8)), s.blocksUp = true → s.urral.role = .manager → s.urral.swap = .handed n → s.urral.renewed + 6 ≤ s.tick →
      ∃ (x t : State), exec (.swapFail cause) s = .next t ∧ Logs { s with urral := { s.urral with swap := .none, swapFail := true } } x ∧ Renewed x t ∧ t.urral.swapFail = true) ∧
    (∀ (s : State) (cause : Option (BitVec 8)), s.urral.swap = .none → exec (.swapFail cause) s = .next s)

/-- The event recorder, its freeze, clear and flush, the journal, replay, and the host link (R474, R475, R477, R480, R481, R482, R483, R488, R489, R493, R494, R495). -/
def Obligations.RecorderJournalAndReplayKeepTheRecord : Prop :=
  (∀ (s : State) (e : Event) (x : RecEntry) (xs : List RecEntry), s.recorder.frozen = none → s.recorder.recs = x :: xs → s.recorder.oldest ≠ s.recorder.next → ((x.code = e.code ∧ x.inst = e.inst) ∧ (x.party = e.party ∧ x.p0 = e.p0 ∧ x.p1 = e.p1)) → s.recordEvent e = { s with recorder := { s.recorder with recs := { x with rpt := satInc x.rpt, dirty := true } :: xs } }) ∧
    (∀ (s : State) (e : Event), s.recorder.frozen = none → (s.recorder.oldest = s.recorder.next ∨ s.recorder.recs = [] ∨ ∃ x xs, s.recorder.recs = x :: xs ∧ ¬ ((x.code = e.code ∧ x.inst = e.inst) ∧ (x.party = e.party ∧ x.p0 = e.p0 ∧ x.p1 = e.p1))) →
      Logs s (s.recordEvent e) ∧ (s.recordEvent e).recorder = { s.recorder with recs := ((e.entry s.recorder.next s.tick (if e.mgmt then s.plumb.tickTd0 else s.tdValue 0 s.now)) :: s.recorder.recs).take 16384, next := s.recorder.next + 1, oldest := (s.recordEvent e).recorder.oldest } ∧
        ((s.recorder.cfg.toNat % 4) ≤ e.sev.toNat → (s.recordEvent e).pf0.cause.getLsbD 9 = true ∧ (s.recordEvent e).pf1.cause.getLsbD 9 = true) ∧
        (s.recorder.cfg.getLsbD 6 = true → (s.recorder.cfg.toNat / 2 ^ 4 % 4) ≤ e.sev.toNat → s.urral.mgrDev ≠ s.urral.devnum → UrrOut.msg s.urral.mgrDev.val 4 0 0 s.sepoch (e.entry s.recorder.next s.tick (if e.mgmt then s.plumb.tickTd0 else s.tdValue 0 s.now)).words ∈ (s.recordEvent e).chainOut) ∧
        (e.sev = 3 → s.journal.st = .recording → s.journal.cfg.getLsbD 30 = false → (s.recordEvent e).journal.st = .post) ∧ (e.sev ≠ 3 → (s.recordEvent e).journal = s.journal)) ∧
    (∀ (s : State) (e : Event) (n : Nat) (x : RecEntry), s.recorder.frozen = some n → s.recorder.side.getLast? = some x → ((x.code = e.code ∧ x.inst = e.inst) ∧ (x.party = e.party ∧ x.p0 = e.p0 ∧ x.p1 = e.p1)) → s.recordEvent e = { s with recorder := { s.recorder with side := s.recorder.side.dropLast ++ [{ x with rpt := satInc x.rpt, dirty := true }] } }) ∧
    (∀ (s : State) (e : Event) (n : Nat), s.recorder.frozen = some n → s.recorder.side.length < 64 → (∀ x, s.recorder.side.getLast? = some x → ¬ ((x.code = e.code ∧ x.inst = e.inst) ∧ (x.party = e.party ∧ x.p0 = e.p0 ∧ x.p1 = e.p1))) → Logs s (s.recordEvent e) ∧ (s.recordEvent e).recorder = { s.recorder with side := s.recorder.side ++ [(e.entry s.recorder.next s.tick (if e.mgmt then s.plumb.tickTd0 else s.tdValue 0 s.now))], next := s.recorder.next + 1 }) ∧
    (∀ (s : State) (e : Event) (n : Nat), s.recorder.frozen = some n → 64 ≤ s.recorder.side.length → (∀ x, s.recorder.side.getLast? = some x → ¬ ((x.code = e.code ∧ x.inst = e.inst) ∧ (x.party = e.party ∧ x.p0 = e.p0 ∧ x.p1 = e.p1))) → s.recordEvent e = { s with recorder := { s.recorder with lost := satInc s.recorder.lost } }) ∧
    (∀ (s : State) (e : Event) (seq : Reg32) (tick td : Nat), (e.entry seq tick td).words = [seq, BitVec.ofNat 32 (e.code.toNat * 65536 + e.sev.toNat * 2 ^ 14 + e.inst.toNat), BitVec.ofNat 32 (e.party.toNat * 256 + 1), BitVec.ofNat 32 tick, BitVec.ofNat 32 (nsOf td), BitVec.ofNat 32 (secOf td), e.p0, e.p1]) ∧
    (∀ (s : State) (p : Party) (n : Nat), s.alive = true → s.recorder.frozen = some n → exec (.recClear p) s = .next s) ∧
    (∀ (s : State) (p : Party) (b : FlushBlock), s.alive = true → s.recorder.frozen = none → s.recorder.flushing = some b → exec (.recClear p) s = .next { s with recorder := { s.recorder with clearPending := true } }) ∧
    (∀ (s : State) (p : Party), s.alive = true → s.recorder.frozen = none → s.recorder.flushing = none → exec (.recClear p) s = .next (({ s with recorder := { s.recorder with oldest := s.recorder.next, clearPending := false } } : State).event .clear true 0 [])) ∧
    (∀ (s : State) (p : Party), s.alive = true → (p.isPf1 = true ∨ p = .keystone) → s.recorder.frozen = none → ∃ x t, exec (.recFreeze p) s = .next t ∧ Logs s x ∧ t = { x with recorder := { x.recorder with frozen := some s.tick } }) ∧
    (∀ (s : State) (p : Party), s.alive = true → (p.isPf1 = true ∨ p = .keystone) → s.recorder.frozen.isSome = true → exec (.recFreeze p) s = .next s) ∧
    (∀ (s : State) (p : Party), s.alive = true → p.isPf1 = false → p ≠ .keystone → exec (.recFreeze p) s = .next (s.refused p 0x500008 1) ∧ exec (.recUnfreeze p) s = .next s) ∧
    (∀ (s : State) (p : Party) (n : Nat), s.alive = true → (p.isPf1 = true ∨ p = .keystone) → s.recorder.frozen = some n → s.recorder.recs.length ≤ 16384 → ∃ x t, exec (.recUnfreeze p) s = .next t ∧ Logs x t ∧ x = { s with recorder := { s.recorder with frozen := none, side := [], recs := (s.recorder.side.reverse ++ s.recorder.recs).take 16384, oldest := x.recorder.oldest } }) ∧
    (∀ (s : State) (p : Party), s.alive = true → (p.isPf1 = true ∨ p = .keystone) → s.recorder.frozen = none → exec (.recUnfreeze p) s = .next s) ∧
    (∀ (s : State) (n : Nat), s.alive = true → s.recorder.frozen = some n → n + 1000 ≤ s.tick → s.recorder.recs.length ≤ 16384 → ∃ x t, exec .freezeTimeout s = .next t ∧ Logs x t ∧ x = { s with recorder := { s.recorder with frozen := none, side := [], recs := (s.recorder.side.reverse ++ s.recorder.recs).take 16384, oldest := x.recorder.oldest } }) ∧
    (∀ (s : State), (∀ n, s.recorder.frozen = some n → s.tick < n + 1000) → exec .freezeTimeout s = .next s) ∧
    (∀ (s : State) (p : Party), s.alive = true → p.isPf1 = true → s.recorder.flushing = none → s.pins.vhold = true → ∃ x t, exec (.recFlush p) s = .next t ∧ Logs s x ∧
      t = { x with recorder := { x.recorder with flushState := 1, flushing := some { cause := 3, starts := s.power.startRec.number, recs := (x.recorder.recs.reverse ++ x.recorder.side).filter (fun (y : RecEntry) => y.dirty), ended := false, reported := false } } }) ∧
    (∀ (s : State) (p : Party), s.alive = true → p.isPf1 = true → (s.recorder.flushing.isSome = true ∨ s.pins.vhold = false) → exec (.recFlush p) s = .next s) ∧
    (∀ (s : State) (p : Party), s.alive = true → p.isPf1 = false → exec (.recFlush p) s = .next (s.refused p 0x500008 (if s.recorder.frozen.isSome then 5 else 4))) ∧
    (∀ (s : State) (b : FlushBlock), s.recorder.flushing = some b → s.recorder.clearPending = false → exec .flushComplete s = .next (({ s with recorder := { s.recorder with flushing := none, flushState := 2, blocks := keepBlocks 3604480 ({ b with ended := true } :: s.recorder.blocks), recs := s.recorder.recs.map (markFlushed b), side := s.recorder.side.map (markFlushed b) } } : State).event .flushEnd true 0 [])) ∧
    (∀ (s : State) (b : FlushBlock), s.recorder.flushing = some b → s.recorder.clearPending = true → ∃ x t, exec .flushComplete s = .next t ∧ x = ({ s with recorder := { s.recorder with flushing := none, flushState := 2, blocks := keepBlocks 3604480 ({ b with ended := true } :: s.recorder.blocks), recs := s.recorder.recs.map (markFlushed b), side := s.recorder.side.map (markFlushed b) } } : State).event .flushEnd true 0 [] ∧ t = ({ x with recorder := { x.recorder with oldest := x.recorder.next, clearPending := false } } : State).event .clear true 0 []) ∧
    (∀ (s : State), s.recorder.flushing = none → exec .flushComplete s = .next s) ∧
    (∀ (b : FlushBlock) (e : RecEntry), (e ∈ b.recs → (markFlushed b e).dirty = false) ∧ (e ∉ b.recs → markFlushed b e = e)) ∧
    (∀ (s : State), (s.journal.st = .recording ∨ s.journal.st = .post) → (s.journal.cfg.toNat / 2 ^ 16 % 256) ≠ 0 → s.journal.kfTick + (s.journal.cfg.toNat / 2 ^ 16 % 256) ≤ s.tick → s.journal.kfBusyUntil ≤ s.now → s.journal.cfg.toNat / 2 ^ 24 % 16 < 13 → s.journal.cfg.getLsbD 30 = false → ∃ t e, exec .keyframe s = .next t ∧ t = { s with journal := t.journal } ∧ t.journal.recs.getLast? = some e ∧ e.what = .keyframe ((s.course s.jrnCourse).cycleAt s.now) (s.snap s.jrnCourse) ∧ t.journal.kfTick = s.tick ∧ t.journal.kfBusyUntil = s.now + 100356 ∧ t.journal.st = s.journal.st ∧ t.journal.cfg = s.journal.cfg) ∧
    (∀ (s : State), (s.journal.st = .recording ∨ s.journal.st = .post) → (s.journal.cfg.toNat / 2 ^ 16 % 256) ≠ 0 → s.journal.kfTick + (s.journal.cfg.toNat / 2 ^ 16 % 256) ≤ s.tick → s.now < s.journal.kfBusyUntil → exec .keyframe s = .next { s with journal := { s.journal with kfTick := s.tick } }) ∧
    (∀ (s : State), (s.journal.st = .off ∨ s.journal.st = .frozen ∨ (s.journal.cfg.toNat / 2 ^ 16 % 256) = 0 ∨ s.tick < s.journal.kfTick + (s.journal.cfg.toNat / 2 ^ 16 % 256)) → exec .keyframe s = .next s) ∧
    (∀ (s : State) (p : Party), s.blocksUp = true → p.isPf1 = true → s.journal.st = .recording → s.journal.cfg.getLsbD 30 = false → ∃ t, exec (.journalTrigger p) s = .next t ∧ t = { s with journal := t.journal } ∧ t.journal = { s.journal with st := .post, trig := t.journal.trig, postEnd := s.tick + s.journal.cfg.toNat % 256 } ∧ (s.journal.cfg.toNat / 2 ^ 24 % 16 < 13 → t.journal.trig = (s.course s.jrnCourse).cycleAt s.now)) ∧
    (∀ (s : State) (p : Party), s.blocksUp = true → p.isPf1 = true → (s.journal.st ≠ .recording ∨ s.journal.cfg.getLsbD 30 = true) → exec (.journalTrigger p) s = .next s) ∧
    (∀ (s : State) (p : Party), s.blocksUp = true → p.isPf1 = false → exec (.journalTrigger p) s = .next (s.refused p 0x510004 1)) ∧
    (∀ (s : State), s.journal.st = .post → s.journal.postEnd ≤ s.tick → ∃ t, exec .journalFreeze s = .next t ∧ t = { s with journal := t.journal } ∧ t.journal = { s.journal with st := .frozen, cfg := t.journal.cfg } ∧ t.journal.cfg.getLsbD 31 = false ∧ ∀ i, i ≠ 31 → t.journal.cfg.getLsbD i = s.journal.cfg.getLsbD i) ∧
    (∀ (s : State), (s.journal.st ≠ .post ∨ s.tick < s.journal.postEnd) → exec .journalFreeze s = .next s) ∧
    (∀ (s : State) (n : Fin 64), s.blocksUp = true → s.pins.pcieUp = true → s.journal.cfg.getLsbD 30 = true → 512 ≤ s.journal.unspilled → n.val = s.journal.cfg.toNat / 2 ^ 8 % 256 % 64 → ((s.ring n).st = .running ∧ (s.ring n).waiting ≠ []) → ∃ t, exec .spillBlock s = .next t ∧ t = { s with freeCtr := t.freeCtr, rings := t.rings, hostMem := t.hostMem, pf0 := t.pf0, pf1 := t.pf1, journal := { s.journal with unspilled := s.journal.unspilled - 512 } } ∧ (t.ring n).head.toNat = ((s.ring n).head.toNat + 1) % 2 ^ (s.ring n).size.toNat % 4096 ∧ ∀ m, m ≠ n → t.ring m = s.ring m) ∧
    (∀ (s : State) (n : Fin 64), s.blocksUp = true → s.pins.pcieUp = true → s.journal.cfg.getLsbD 30 = true → 512 ≤ s.journal.unspilled → n.val = s.journal.cfg.toNat / 2 ^ 8 % 256 % 64 → ¬ ((s.ring n).st = .running ∧ (s.ring n).waiting ≠ []) → exec .spillBlock s = .next s) ∧
    (∀ (s : State) (n : Nat) (k : KeySnap) (rest : List JRec), s.blocksUp = true → s.replay.st = .loading → s.replay.feed = .keyframe n k :: rest → ∃ t, exec .replayRelease s = .next t ∧ t = { s with courses := t.courses, bricks := t.bricks, tiles := t.tiles, replay := { s.replay with st := .running, feed := rest, start := n, index := 1 } } ∧
      (t.course s.replay.course).bank = k.bank ∧ (t.course s.replay.course).conf = k.conf ∧ (t.course s.replay.course).released = true ∧ (t.course s.replay.course).mode = (s.course s.replay.course).mode ∧ (∀ d, d ≠ s.replay.course → t.course d = s.course d) ∧
      (∀ (i : Fin 4) (x : Brick), k.bricks[i.val]? = some x → t.brick (brickOf s.replay.course i) = { x with ready := (t.brick (brickOf s.replay.course i)).ready, feAt := (t.brick (brickOf s.replay.course i)).feAt, wd := { x.wd with since := (t.brick (brickOf s.replay.course i)).wd.since } }) ∧ ∀ y, courseOf y ≠ s.replay.course → t.brick y = s.brick y) ∧
    (∀ (s : State), s.blocksUp = true → s.replay.st = .loading → (∀ n k rest, s.replay.feed ≠ .keyframe n k :: rest) → ∃ t, exec .replayRelease s = .next t ∧ t.replay.st = .aborted ∧ SameMemories s t) ∧
    (∀ (s : State) (x : JRec) (rest : List JRec), s.blocksUp = true → s.replay.st = .running → s.replay.starving = false → takeFirst JRec.fed s.replay.feed = some (x, rest) → exec .replayFeed s = .next (({ s with now := max s.now ((s.course s.replay.course).base + 4 * x.cyc), replay := { s.replay with feed := rest, index := s.replay.index + 1 } } : State).feedRecord s.replay.course x)) ∧
    (∀ (s : State), s.blocksUp = true → s.replay.st = .running → s.replay.starving = false → s.replay.feed = [] → ∃ t, exec .replayFeed s = .next t ∧ t.replay = { s.replay with st := .done, cycle := (s.course s.replay.course).cycleAt s.now }) ∧
    (∀ (s : State) (c : Fin 13) (m : Fin 4) (a : Word) (q : Nat) (lv : Bool) (n : Nat) (ws : List Word), (∀ v, (s.feedRecord c (.fmburst false a ws n q)) = { s with courses := v } → v[c].bank = (s.course c).bank.setWords 65536 a.toNat ws) ∧ (s.feedRecord c (.fmburst false a ws n q)).bricks = s.bricks ∧
      (11 ≤ n → n < 16 → ((s.feedRecord c (.evline m n lv q)).brick (brickOf c m)).io.events.getLsbD n = true) ∧ (n < 11 → ((s.feedRecord c (.evline m n lv q)).brick (brickOf c m)).io.levels.getLsbD n = lv) ∧ (s.feedRecord c (.fin q 0)).replay = { s.replay with st := .done, cycle := q }) ∧
    (∀ (s : State), s.blocksUp = true → s.replay.st = .running → s.replay.starving = false → ∃ t, exec .replayStarve s = .next t ∧ t = { s with courses := t.courses, replay := { s.replay with starving := true, starved := true } } ∧ t.gated s.replay.course = true ∧ ∀ d, d ≠ s.replay.course → t.course d = s.course d) ∧
    (∀ (s : State), s.blocksUp = true → s.replay.st = .running → s.replay.starving = true → ∃ t, exec .replayStagingFilled s = .next t ∧ t.replay = { s.replay with starving := false } ∧ t.gated s.replay.course = false ∧ SameMemories s t) ∧
    (∀ (s : State), (s.replay.st ≠ .running ∨ s.replay.starving = false) → exec .replayStagingFilled s = .next s) ∧
    (∀ (s : State), (s.replay.st ≠ .running ∨ s.replay.starving = true) → exec .replayStarve s = .next s ∧ exec .replayFeed s = .next s) ∧
    (∀ (s : State), s.blocksUp = true → ∃ t, exec .pcieLinkDown s = .next t ∧ t.pins = { s.pins with pcieUp := false } ∧ (t.port portH).up = false ∧ OtherPorts s t portH ∧ SameMemories s t ∧ t.regs = s.regs ∧ t.rings = s.rings) ∧
    (∀ (s : State), s.blocksUp = true → ∃ t, exec .pcieLinkUp s = .next t ∧ t = { s with ports := t.ports, freeCtr := t.freeCtr, pins := { s.pins with pcieUp := true } } ∧ (t.port portH).up = true ∧ (t.port portH).holdEnd = none ∧ OtherPorts s t portH)

/-- The bypasses, PFAIL_N, the wake pins, DOZE and STANDBY (R48, R49, R54, R56, R58, R65, R67, R68, R70, R72, R75). -/
def Obligations.PowerStatesFollowTheirConditions : Prop :=
  (∀ (s : State), (s.bypCause false = 0 ↔ (s.active = true ∧ s.power.phase = .running ∧ s.pairHealthy false = true ∧ (s.reg 0x60).getLsbD 0 = false ∧ s.power.tap.extestClass = false ∧ s.power.fault = false ∧ s.pins.bypALow ≤ s.tick)) ∧ (s.bypCause true = 0 ↔ (s.active = true ∧ s.power.phase = .running ∧ s.pairHealthy true = true ∧ (s.reg 0x60).getLsbD 1 = false ∧ s.power.tap.extestClass = false ∧ s.power.fault = false ∧ s.pins.bypBLow ≤ s.tick))) ∧
    (∀ (s : State), s.active = true ↔ (s.power.supply = .on ∧ s.gatedCourses = 0 ∧ s.power.doze.cans = 0 ∧ s.power.doze.ports = 0 ∧ s.power.stbySeq = false ∧ s.power.stbyReady = false)) ∧
    (∀ (s : State) (p : Party) (v : Reg32), s.alive = true → s.pf1OrMgr p = true → ∃ t, exec (.bypCtrlWrite p v) s = .next t ∧ BypassesDrop { s with regs := Sparse.write regReset s.regs 0x60 (v &&& 3) } t ∧ (Sparse.wf regReset s.regs = true → t.reg 0x60 = v &&& 3) ∧ ∀ a, a ≠ 0x60 → t.reg a = s.reg a) ∧
    (∀ (s : State) (p : Party) (v : Reg32), (s.alive = false ∨ s.pf1OrMgr p = false) → exec (.bypCtrlWrite p v) s = .next s) ∧
    (∀ (s : State), s.power.supply = .on → s.pins.pfailLow = false → s.unflushed → s.recorder.flushing = none → s.pins.vhold = true → ∃ x t, exec .pfailNFall s = .next t ∧ Logs { s with pins := { s.pins with pfailLow := true } } x ∧
      t = { x with recorder := { x.recorder with flushState := 1, flushing := some { cause := 0, starts := s.power.startRec.number, recs := (x.recorder.recs.reverse ++ x.recorder.side).filter (fun (y : RecEntry) => y.dirty), ended := false, reported := false } } }) ∧
    (∀ (s : State), s.power.supply = .on → s.pins.pfailLow = false → (¬ s.unflushed ∨ s.recorder.flushing.isSome = true ∨ s.pins.vhold = false) → exec .pfailNFall s = .next { s with pins := { s.pins with pfailLow := true } }) ∧
    (∀ (s : State), (s.power.supply ≠ .on ∨ s.pins.pfailLow = true) → exec .pfailNFall s = .next s) ∧
    (∀ (s : State), s.power.supply = .on → s.pins.pfailLow = true → s.recorder.flushing.isSome = true → ∃ t, exec .pfailNRise s = .next t ∧ Logs { s with pins := { s.pins with pfailLow := false } } t) ∧
    (∀ (s : State), s.power.supply = .on → s.pins.pfailLow = true → s.recorder.flushing = none → exec .pfailNRise s = .next { s with pins := { s.pins with pfailLow := false } }) ∧
    (∀ (s : State), (s.power.supply ≠ .on ∨ s.pins.pfailLow = false) → exec .pfailNRise s = .next s) ∧
    (∀ (s : State) (b : FlushBlock), s.recorder.flushing = some b → ∃ t, exec .vholdLoss s = .next t ∧ t = { s with pins := { s.pins with vhold := false }, recorder := { s.recorder with flushing := none, flushState := 0, blocks := t.recorder.blocks } } ∧ (b.size ≤ 3604480 → t.recorder.blocks.head? = some b)) ∧
    (∀ (s : State), s.recorder.flushing = none → exec .vholdLoss s = .next { s with pins := { s.pins with vhold := false } }) ∧
    (∀ (s : State), s.alive = true → ∃ t, exec .wakeRisingEdge s = .next t ∧ Logs { s with power := { s.power with wakePin := true } } t) ∧
    (∀ (s : State), s.alive = false → exec .wakeRisingEdge s = .next { s with power := { s.power with wakePin := decide (s.power.supply ≠ .off) } }) ∧
    (∀ (s : State), (s.power.stbyReady = true ∨ (s.power.supply = .standby ∧ s.power.wakeSrc.getLsbD 15 = true)) → s.power.wakePin = true → exec .wakeQualify s = .next { s with power := { s.power with wakeSrc := setBit s.power.wakeSrc 0 true } }) ∧
    (∀ (s : State), (¬ (s.power.stbyReady = true ∨ (s.power.supply = .standby ∧ s.power.wakeSrc.getLsbD 15 = true)) ∨ s.power.wakePin = false) → exec .wakeQualify s = .next s) ∧
    (∀ (s : State) (n : Fin 8) (w : CanWake) (c : WakeCfg), (s.power.stbyReady = true ∨ (s.power.supply = .standby ∧ s.power.wakeSrc.getLsbD 15 = true)) → s.power.wakeCfg[n.val]? = some c → c.en = true → c.frame = false → exec (.canRxdWake n w) s = .next { s with power := { s.power with wakeSrc := setBit s.power.wakeSrc (16 + n.val) true } }) ∧
    (∀ (s : State) (n : Fin 8) (w : CanWake) (c : WakeCfg), (s.power.stbyReady = true ∨ (s.power.supply = .standby ∧ s.power.wakeSrc.getLsbD 15 = true)) → s.power.wakeCfg[n.val]? = some c → c.en = true → c.frame = true → (∃ f, w = .frame f ∧ f.fdf = false ∧ f.ide = c.ide ∧ f.id &&& c.mask = c.id &&& c.mask) → exec (.canRxdWake n w) s = .next { s with power := { s.power with wakeSrc := setBit s.power.wakeSrc (24 + n.val) true } }) ∧
    (∀ (s : State) (n : Fin 8) (w : CanWake) (c : WakeCfg), s.power.wakeCfg[n.val]? = some c → (¬ (s.power.stbyReady = true ∨ (s.power.supply = .standby ∧ s.power.wakeSrc.getLsbD 15 = true)) ∨ c.en = false ∨ (c.frame = true ∧ ¬ (∃ f, w = .frame f ∧ f.fdf = false ∧ f.ide = c.ide ∧ f.id &&& c.mask = c.id &&& c.mask))) → exec (.canRxdWake n w) s = .next s) ∧
    (∀ (s : State) (n : Fin 8) (w : CanWake), s.power.wakeCfg[n.val]? = none → exec (.canRxdWake n w) s = .next s) ∧
    (∀ (s : State) (p : Party) (key : BitVec 8), (s.blocksUp = false ∨ s.pf1OrMgr p = false ∨ s.power.stbySeq = true) → exec (.dozeRequest p) s = .next s ∧ exec (.pwrWake p) s = .next s ∧ exec (.standbyPrepare p key) s = .next s) ∧
    (∀ (s : State) (p : Party), s.blocksUp = true → s.pf1OrMgr p = true → s.power.stbySeq = false → s.reg 0x88 &&& 0x1FFFFF = 0 → s.reg 0x8C = 0 → exec (.dozeRequest p) s = .next s) ∧
    (∀ (s : State) (p : Party), s.blocksUp = true → s.pf1OrMgr p = true → s.power.stbySeq = false → (s.reg 0x88 &&& 0x1FFFFF ≠ 0 ∨ s.reg 0x8C ≠ 0) → ∃ u t, exec (.dozeRequest p) s = .next t ∧ BypassesDrop u t ∧ u.pins = s.pins ∧ t.regs = s.regs ∧ SameMemories s t ∧ t.courses = s.courses ∧ t.cans = s.cans ∧
      t.power = { s.power with doze := { s.power.doze with waitCourses := (s.reg 0x88).extractLsb' 0 13 &&& ~~~ s.gatedCourses, waitCans := (s.reg 0x88).extractLsb' 13 8 &&& ~~~ s.power.doze.cans, since := s.now, ports := s.power.doze.ports ||| s.reg 0x8C, timerEnd := if s.reg 0x90 = 0 then none else some (s.now + (s.reg 0x90).toNat * 8) } } ∧
      (∀ q : PortCode, q.val < 32 → (s.reg 0x8C).getLsbD q.val = true ∧ s.power.doze.ports.getLsbD q.val = false ∧ (s.port q).up = true → s.holdTime q ≠ 0 → t.port q = { s.port q with holdEnd := some (s.now + s.holdTime q), dropping := false }) ∧
      (∀ q : PortCode, ¬ (q.val < 32 ∧ (s.reg 0x8C).getLsbD q.val = true ∧ s.power.doze.ports.getLsbD q.val = false ∧ (s.port q).up = true) → t.port q = s.port q)) ∧
    (∀ (s : State) (p : Party), s.blocksUp = true → s.pf1OrMgr p = true → s.power.stbySeq = false → ∃ t, exec (.pwrWake p) s = .next t ∧ Woken s t) ∧
    (∀ (s : State) (n : Nat), s.blocksUp = true → s.power.stbySeq = false → s.power.doze.timerEnd = some n → ∃ t, exec .dozeTimerExpiry s = .next t ∧ Woken { s with now := max s.now n } t) ∧
    (∀ (s : State), (s.blocksUp = false ∨ s.power.stbySeq = true ∨ s.power.doze.timerEnd = none) → exec .dozeTimerExpiry s = .next s) ∧
    (∀ (s : State) (c : Fin 13), s.blocksUp = true → s.power.doze.waitCourses.getLsbD c.val = true → s.now ≤ s.power.doze.since + 50000 → s.gated c = false → ((∀ b, ((s.brick (brickOf c b)).counts && (s.brick (brickOf c b)).inRep) = false) ∧ (∀ f, f ∈ (s.course c).fmRx → f.written = 0) ∧ (∀ f, f ∈ (s.course c).fmTx → f.got = []) ∧ ∀ i, (s.tile (tileOfCourse c i)).cur = none) →
      ∃ u t, exec (.courseGate c) s = .next t ∧ BypassesDrop u t ∧ u.pins = s.pins ∧ s.now ≤ t.now ∧ (∃ g, t.course c = { s.course c with gatedAt := some g } ∧ s.now ≤ g) ∧ (∀ d, d ≠ c → t.course d = s.course d) ∧
        t.power = { s.power with doze := { s.power.doze with waitCourses := setBit s.power.doze.waitCourses c.val false } } ∧ (∀ k, courseOf k ≠ c → t.brick k = s.brick k) ∧ (∀ b, t.brick (brickOf c b) = { s.brick (brickOf c b) with ready := (t.brick (brickOf c b)).ready }) ∧
        OtherPorts s t (portCp c) ∧ ((s.port (portCp c)).up = true → s.holdTime (portCp c) ≠ 0 → (t.port (portCp c)).holdEnd = some (t.now + s.holdTime (portCp c))) ∧ t.tiles = s.tiles ∧ t.regs = s.regs ∧ t.cans = s.cans) ∧
    (∀ (s : State) (c : Fin 13), (s.blocksUp = false ∨ s.power.doze.waitCourses.getLsbD c.val = false ∨ s.power.doze.since + 50000 < s.now ∨ s.gated c = true ∨ ¬ ((∀ b, ((s.brick (brickOf c b)).counts && (s.brick (brickOf c b)).inRep) = false) ∧ (∀ f, f ∈ (s.course c).fmRx → f.written = 0) ∧ (∀ f, f ∈ (s.course c).fmTx → f.got = []) ∧ ∀ i, (s.tile (tileOfCourse c i)).cur = none)) → exec (.courseGate c) s = .next s) ∧
    (∀ (s : State) (n : Fin 8), s.blocksUp = true → s.power.doze.waitCans.getLsbD n.val = true → s.now ≤ s.power.doze.since + 50000 → ((s.can n).st = .busOff ∨ ∀ x, (s.can n).tx = some x → x.start = none) → ∃ t, exec (.canGate n) s = .next t ∧
      BypassesDrop { s with power := { s.power with doze := { s.power.doze with waitCans := setBit s.power.doze.waitCans n.val false, cans := setBit s.power.doze.cans n.val true } } } t) ∧
    (∀ (s : State) (n : Fin 8), (s.blocksUp = false ∨ s.power.doze.waitCans.getLsbD n.val = false ∨ s.power.doze.since + 50000 < s.now ∨ ¬ ((s.can n).st = .busOff ∨ ∀ x, (s.can n).tx = some x → x.start = none)) → exec (.canGate n) s = .next s) ∧
    (∀ (s : State), s.blocksUp = true → (s.power.doze.waitCourses ≠ 0 ∨ s.power.doze.waitCans ≠ 0) → ∃ t, exec .dozeGateTimeout s = .next t ∧ Logs { s with now := max s.now (s.power.doze.since + 50000), power := { s.power with doze := { s.power.doze with waitCourses := 0, waitCans := 0 } } } t) ∧
    (∀ (s : State), (s.blocksUp = false ∨ (s.power.doze.waitCourses = 0 ∧ s.power.doze.waitCans = 0)) → exec .dozeGateTimeout s = .next s) ∧
    (∀ (s : State) (p : Party) (key : BitVec 8), s.blocksUp = true → s.pf1OrMgr p = true → s.power.stbySeq = false → key ≠ 0xC3 → ∃ t, exec (.standbyPrepare p key) s = .next t ∧ Logs s t) ∧
    (∀ (s : State) (p : Party), s.blocksUp = true → s.pf1OrMgr p = true → s.power.stbySeq = false → ∃ t, exec (.standbyPrepare p 0xC3) s = .next t ∧ t.power = { s.power with stbySeq := true } ∧ t.pins.bypA = false ∧ t.pins.bypB = false ∧ t.keystone.handover = none ∧
      (∀ k, (t.brick k).haltReq = ((s.brick k).haltReq || (s.brick k).counts)) ∧ (∀ k, (t.tile k).runBit = false) ∧ (∀ q, (t.port q).dropping = true ∧ (t.port q).gates = 0) ∧ t.mortar.queue = [] ∧
      (∀ n, (t.can n).sleep = true ∨ (t.can n).st = .sleep) ∧ t.field.out = 0 ∧ (s.pins.vhold = true → t.recorder.flushing.isSome = true) ∧ SameMemories s t ∧ t.flash = s.flash ∧ t.otp = s.otp) ∧
    (∀ (s : State), s.blocksUp = true → s.power.stbySeq = true → s.recorder.flushing = none → ∃ t, exec .stbyReady s = .next t ∧ SessionEnded s t ∧ t.keystone.challenge = false ∧ t.power = { s.power with stbyReady := true, wakeSrc := 0, wakeCfg := t.power.wakeCfg } ∧ SameMemories s t ∧ t.regs = s.regs ∧
      ∀ n : Fin 8, t.power.wakeCfg[n.val]? = some { en := (s.canCfg n).getLsbD 27, frame := (s.canCfg n).getLsbD 26, ide := ((s.can n).obj ⟨(s.canCfg n).toNat / 2 ^ 20 % 64, Nat.mod_lt _ (Nat.succ_pos 63)⟩).cfg.getLsbD 29, id := ((s.can n).obj ⟨(s.canCfg n).toNat / 2 ^ 20 % 64, Nat.mod_lt _ (Nat.succ_pos 63)⟩).cfg.extractLsb' 0 29, mask := (s.reg (canBase n + 0x24)).extractLsb' 0 29 }) ∧
    (∀ (s : State), (s.blocksUp = false ∨ s.power.stbySeq = false ∨ s.recorder.flushing.isSome = true) → exec .stbyReady s = .next s)

/-- The management tick, and the register accesses of host, keystone, TAP and chain (R7, R9, R11, R15, R23, R24, R89, R408, R435, R466, R511, R522). -/
def Obligations.RegisterAccessesFollowTheirRights : Prop :=
  (∀ (s : State) (x : BitVec 16), s.alive = true → ∃ t, exec (.managementTick x) s = .next t ∧ t.tick = s.tick + 1 ∧ t.now = max s.now ((s.tick + 1) * 5000000) ∧ t.power = { s.power with hotFrom := (if 2000 < x.toInt then (match s.power.hotFrom with | some n => some n | none => some (s.tick + 1)) else none) } ∧
      t.courses = s.courses ∧ t.bricks = s.bricks ∧ t.tiles = s.tiles ∧ t.regs = s.regs ∧ t.mailboxes = s.mailboxes ∧ t.rings = s.rings ∧ t.ports = s.ports ∧ t.cans = s.cans ∧ t.field = s.field ∧ t.keystone = s.keystone ∧ t.flash = s.flash ∧ t.otp = s.otp ∧
      (s.blocksUp = false → t.pins = s.pins ∧ t.urral = s.urral ∧ t.plumb = s.plumb) ∧
      (s.blocksUp = true → t.pins = { s.pins with bypA := s.pins.bypA || decide (({ s with tick := s.tick + 1 } : State).bypCause false = 0), bypB := s.pins.bypB || decide (({ s with tick := s.tick + 1 } : State).bypCause true = 0) } ∧ t.plumb.tickTd0 = s.tdValue 0 t.now ∧ (t.plumb.pull - s.plumb.pull).natAbs ≤ 1000 ∧
        (∀ k : Fin 4, t.urral.ports[k] = { s.urral.ports[k] with errs := 0 }) ∧ (∀ k, s.urrEn k = true → UrrOut.hello k s.uid s.urral.cap s.urral.prio (s.urrPort k).endRole ∈ t.chainOut) ∧
        ∀ c n, s.urral.claim = some (c, n) → ∀ k, k ∈ s.endPorts → UrrOut.claim k c ∈ t.chainOut)) ∧
    (∀ (s : State) (x : BitVec 16), s.alive = false → exec (.managementTick x) s = .next s) ∧
    (∀ (s : State) (p : Party) (off : Offset) (v : Reg32), s.alive = true → s.urral.lock.isSome = true → p ≠ .keystone → (∀ k, p ≠ .brick k) → exec (.registerWrite p off v) s = .next { s with urral := { s.urral with held := s.urral.held ++ [.write p off v] } }) ∧
    (∀ (s : State) (p : Party) (tag : BitVec 10) (off : Offset), s.alive = true → s.urral.lock.isSome = true → p ≠ .keystone → (∀ k, p ≠ .brick k) → exec (.rcRead p tag off) s = .next { s with urral := { s.urral with held := s.urral.held ++ [.read p tag off] } }) ∧
    (∀ (s : State) (p : Party) (off : Offset) (v : Reg32), s.alive = true → (s.urral.lock = none ∨ p = .keystone) → (s.reaches p (off.toNat / 4 * 4) = false ∨ s.power.stbyReady = true) → exec (.registerWrite p off v) s = .next s) ∧
    (∀ (s : State) (p : Party) (tag : BitVec 10) (off : Offset), s.alive = true → (s.urral.lock = none ∨ p = .keystone) → s.reaches p (off.toNat / 4 * 4) = false → ∃ t, exec (.rcRead p tag off) s = .next t ∧ t = { s with readValue := 0, orphPf := t.orphPf }) ∧
    (∀ (s : State) (p : Party) (off : Offset) (v : Reg32) (tag : BitVec 10), s.alive = false → exec (.registerWrite p off v) s = .next s ∧ exec (.rcRead p tag off) s = .next s) ∧
    (∀ (s : State) (a : Nat), (s.alive = true → s.power.phase ≠ .footing → s.reaches .pf0 a = true ∧ s.reaches .pf1 a = true ∧ s.reaches .tap a = true) ∧ (s.power.phase = .footing → s.reaches .pf0 a = false ∧ ∀ d, s.reaches (.chain d) a = false) ∧
      (s.alive = true → s.power.phase = .footing → (s.reaches .pf1 a = true ↔ (a < 0x100000 ∨ (0x180000 ≤ a ∧ a < 0x200000) ∨ (0x500000 ≤ a ∧ a < 0x510000) ∨ (0x580000 ≤ a ∧ a < 0x600000)))) ∧ (s.reaches .keystone a = s.alive) ∧ ∀ k, s.reaches (.brick k) a = false) ∧
    (∀ (s : State) (p : Party) (v : Reg32), s.alive = true → (s.urral.lock = none ∨ p = .keystone) → s.reaches p 0x88 = true → s.power.stbyReady = false → s.pf1OrMgr p = true → Sparse.wf regReset s.regs = true → ∃ t, exec (.registerWrite p 0x88 v) s = .next t ∧ t = { s with regs := t.regs } ∧ t.reg 0x88 = v &&& 0x1FFFFF ∧ ∀ b, b ≠ 0x88 → t.reg b = s.reg b) ∧
    (∀ (s : State) (p : Party) (v : Reg32), s.alive = true → (s.urral.lock = none ∨ p = .keystone) → s.reaches p 0x8C = true → s.power.stbyReady = false → s.pf1OrMgr p = true → Sparse.wf regReset s.regs = true → ∃ t, exec (.registerWrite p 0x8C v) s = .next t ∧ t = { s with regs := t.regs } ∧ t.reg 0x8C = v ∧ ∀ b, b ≠ 0x8C → t.reg b = s.reg b) ∧
    (∀ (s : State) (p : Party) (v : Reg32), s.alive = true → (s.urral.lock = none ∨ p = .keystone) → s.reaches p 0x90 = true → s.power.stbyReady = false → s.pf1OrMgr p = true → Sparse.wf regReset s.regs = true → ∃ t, exec (.registerWrite p 0x90 v) s = .next t ∧ t = { s with regs := t.regs } ∧ t.reg 0x90 = v ∧ ∀ b, b ≠ 0x90 → t.reg b = s.reg b) ∧
    (∀ (s : State) (p : Party) (v : Reg32), s.alive = true → (s.urral.lock = none ∨ p = .keystone) → s.reaches p 0x88 = true → s.pf1OrMgr p = false → exec (.registerWrite p 0x88 v) s = .next s ∧ exec (.registerWrite p 0x8C v) s = .next s ∧ exec (.registerWrite p 0x90 v) s = .next s) ∧
    (∀ (s : State) (p : Party) (v : Reg32), s.alive = true → (s.urral.lock = none ∨ p = .keystone) → s.reaches p 0xA4 = true → s.power.stbyReady = false → p.isPf1 = true → exec (.registerWrite p 0xA4 v) s = .next { s with power := { s.power with wakeSrc := s.power.wakeSrc &&& ~~~ (v &&& 0xFFFF0001) } }) ∧
    (∀ (s : State) (v : Reg32), (s.alive = true → s.urral.lock = none → s.power.phase ≠ .footing → s.power.stbyReady = false → exec (.registerWrite .pf0 0x200 v) s = .next { s with pf0 := { s.pf0 with cause := s.pf0.cause &&& ~~~ v } }) ∧
      (s.alive = true → s.urral.lock = none → s.power.stbyReady = false → exec (.registerWrite .pf1 0x200 v) s = .next { s with pf1 := { s.pf1 with cause := s.pf1.cause &&& ~~~ v } })) ∧
    (∀ (s : State) (p : Party) (v : Reg32), s.alive = true → (s.urral.lock = none ∨ p = .keystone) → s.reaches p 0x60 = true → s.power.stbyReady = false → exec (.registerWrite p 0x60 v) s = exec (.bypCtrlWrite p v) s) ∧
    (∀ (s : State) (p : Party) (v : Reg32), s.alive = true → (s.urral.lock = none ∨ p = .keystone) → s.reaches p 0x80 = true → s.power.stbyReady = false → (v.toNat % 4 = 0 → exec (.registerWrite p 0x80 v) s = .next s) ∧ (v.toNat % 4 = 1 → exec (.registerWrite p 0x80 v) s = exec (.dozeRequest p) s) ∧ (v.toNat % 4 = 2 → exec (.registerWrite p 0x80 v) s = exec (.pwrWake p) s) ∧
      (v.toNat % 4 = 3 → exec (.registerWrite p 0x80 v) s = exec (.standbyPrepare p (v.extractLsb' 8 8)) s)) ∧
    (∀ (s : State) (p : Party) (v : Reg32), s.alive = true → (s.urral.lock = none ∨ p = .keystone) → s.reaches p 0xB0 = true → s.power.stbyReady = false → (v.toNat / 2 ^ 22 % 4 = 0 → exec (.registerWrite p 0xB0 v) s = exec (.rstCtrlDevice p (v.extractLsb' 24 8)) s) ∧ (v.toNat / 2 ^ 22 % 4 = 1 → exec (.registerWrite p 0xB0 v) s = exec (.rstCtrlCourse p (v.extractLsb' 24 8) (v.extractLsb' 0 6)) s) ∧ (v.toNat / 2 ^ 22 % 4 = 2 → exec (.registerWrite p 0xB0 v) s = exec (.rstCtrlPort p (v.extractLsb' 24 8) (v.extractLsb' 0 6)) s) ∧ (v.toNat / 2 ^ 22 % 4 = 3 → exec (.registerWrite p 0xB0 v) s = exec (.rstCtrlCanctl p (v.extractLsb' 24 8) (v.extractLsb' 0 6)) s)) ∧
    (∀ (s : State) (tag : BitVec 10) (j : Fin 32), s.alive = true → s.urral.lock = none → s.reaches .pf1 (mbBase j + 0x24) = true → s.mbOpen .pf1 j true = true → exec (.rcRead .pf1 tag (BitVec.ofNat 26 (mbBase j + 0x24))) s = exec (.mailboxLock .pf1 tag j []) s) ∧
    (∀ (s : State) (p : Party) (v : Reg32), exec (.courseRoleWrite p v) s = exec (.registerWrite p 0x40 v) s) ∧
    (∀ (s : State) (p : Party) (v : Reg32), s.alive = true → (s.urral.lock = none ∨ p = .keystone) → s.reaches p 0x40 = true → s.power.stbyReady = false → p.isPf1 = true → (v.toNat % 16 < 13) → (∀ c : Fin 13, c.val = v.toNat % 16 ∨ c.val = (s.reg 0x40).toNat % 16 → (s.course c).image = none) → (s.reg 0x40).toNat % 16 < 13 → Sparse.wf regReset s.regs = true → ∃ t, exec (.courseRoleWrite p v) s = .next t ∧ t = { s with regs := t.regs } ∧ t.reg 0x40 = v &&& 0x8000000F ∧ ∀ b, b ≠ 0x40 → t.reg b = s.reg b) ∧
    (∀ (s : State) (p : Party) (v : Reg32), s.alive = true → (s.urral.lock = none ∨ p = .keystone) → (p.isPf1 = false ∨ 13 ≤ v.toNat % 16 ∨ ∃ c : Fin 13, (c.val = v.toNat % 16 ∨ c.val = (s.reg 0x40).toNat % 16) ∧ (s.course c).image.isSome = true) → exec (.courseRoleWrite p v) s = .next s) ∧
    (∀ (s : State) (p : Party) (tag : BitVec 10), s.alive = true → (s.urral.lock = none ∨ p = .keystone) → s.reaches p 0x0 = true →  ∃ t, exec (.rcRead p tag 0x0) s = .next t ∧ t = { s with readValue := (if s.fieldFitted then 0x92640090 else 0x92640010), orphPf := t.orphPf }) ∧
    (∀ (s : State) (p : Party) (tag : BitVec 10), s.alive = true → (s.urral.lock = none ∨ p = .keystone) → s.reaches p 0xA0 = true →  ∃ t, exec (.rcRead p tag 0xA0) s = .next t ∧ t = { s with readValue := s.power.startStatus, orphPf := t.orphPf }) ∧
    (∀ (s : State) (p : Party) (tag : BitVec 10), s.alive = true → (s.urral.lock = none ∨ p = .keystone) → s.reaches p 0xA4 = true →  ∃ t, exec (.rcRead p tag 0xA4) s = .next t ∧ t = { s with readValue := s.power.wakeSrc, orphPf := t.orphPf }) ∧
    (∀ (s : State) (p : Party) (tag : BitVec 10), s.alive = true → (s.urral.lock = none ∨ p = .keystone) → s.reaches p 0xA8 = true →  ∃ t, exec (.rcRead p tag 0xA8) s = .next t ∧ t = { s with readValue := s.power.footingCause, orphPf := t.orphPf }) ∧
    (∀ (s : State) (p : Party) (tag : BitVec 10), s.alive = true → (s.urral.lock = none ∨ p = .keystone) → s.reaches p 0xAC = true →  ∃ t, exec (.rcRead p tag 0xAC) s = .next t ∧ t = { s with readValue := s.power.startRec.param, orphPf := t.orphPf }) ∧
    (∀ (s : State) (p : Party) (tag : BitVec 10), s.alive = true → (s.urral.lock = none ∨ p = .keystone) → s.reaches p 0x304 = true →  ∃ t, exec (.rcRead p tag 0x304) s = .next t ∧ t = { s with readValue := s.power.lcStatus, orphPf := t.orphPf }) ∧
    (∀ (s : State) (p : Party) (tag : BitVec 10), s.alive = true → (s.urral.lock = none ∨ p = .keystone) → s.reaches p 0x40 = true →  ∃ t, exec (.rcRead p tag 0x40) s = .next t ∧ t = { s with readValue := s.reg 0x40, orphPf := t.orphPf }) ∧
    (∀ (s : State) (p : Party) (tag : BitVec 10), s.alive = true → (s.urral.lock = none ∨ p = .keystone) → s.reaches p 0x88 = true →  ∃ t, exec (.rcRead p tag 0x88) s = .next t ∧ t = { s with readValue := s.reg 0x88, orphPf := t.orphPf }) ∧
    (∀ (s : State) (p : Party) (tag : BitVec 10), s.alive = true → (s.urral.lock = none ∨ p = .keystone) → s.reaches p 0x8C = true →  ∃ t, exec (.rcRead p tag 0x8C) s = .next t ∧ t = { s with readValue := s.reg 0x8C, orphPf := t.orphPf }) ∧
    (∀ (s : State) (p : Party) (tag : BitVec 10), s.alive = true → (s.urral.lock = none ∨ p = .keystone) → s.reaches p 0x90 = true →  ∃ t, exec (.rcRead p tag 0x90) s = .next t ∧ t = { s with readValue := s.reg 0x90, orphPf := t.orphPf }) ∧
    (∀ (s : State) (p : Party) (tag : BitVec 10), s.alive = true → (s.urral.lock = none ∨ p = .keystone) → s.reaches p 0x500014 = true → ∃ t, exec (.rcRead p tag 0x500014) s = .next t ∧ t = { s with readValue := s.recorder.lost, orphPf := t.orphPf, recorder := { s.recorder with lost := 0, lostShadow := s.recorder.lost } }) ∧
    (∀ (s : State) (p : Party) (tag : BitVec 10), s.alive = true → (s.urral.lock = none ∨ p = .keystone) → s.reaches p 0x600118 = true → ∃ t, exec (.rcRead p tag 0x600118) s = .next t ∧ t = { s with readValue := (s.urrPort 0).crc, orphPf := t.orphPf, urral := t.urral } ∧ t.urrPort 0 = { s.urrPort 0 with crc := 0, crcShadow := (s.urrPort 0).crc } ∧ ∀ k, k ≠ 0 → t.urrPort k = s.urrPort k) ∧
    (∀ (s : State) (tag : BitVec 10) (off : Offset), s.alive = true → s.urral.lock = none → s.power.phase ≠ .footing → (off.toNat < 0x608000 ∨ 0x618000 ≤ off.toNat) → ∃ t, exec (.rcRead .pf0 tag off) s = .next t ∧ (Sparse.wf (fun _ => Orphan.reset) s.orphPf = true → Sparse.read (fun _ => Orphan.reset) t.orphPf tag.toNat = { valid := true, req := Party.pf0.code, off := off, data := t.readValue })) ∧
    (∀ (s : State) (p : Party) (c : Fin 13) (k : BitVec 16) (v : Reg32), s.alive = true → (s.urral.lock = none ∨ p = .keystone) → s.reaches p (courseBase c + 4 * k.toNat) = true → s.power.stbyReady = false → k.toNat < 0x8000 → s.gated c = false → (s.course c).testing false = false → ((s.course c).image = none → (s.course c).mode ≠ 2 → s.pf1MgrKey p = true) → ((s.course c).image.isSome = true ∨ (s.course c).mode = 2 → s.brickDebug p = true) → ∃ t, exec (.bankImageWrite p c k v) s = .next t ∧ t = { s with courses := t.courses, journal := t.journal } ∧
      t.course c = { s.course c with bank := ((s.course c).bank.setWord (2 * k.toNat) (v.extractLsb' 0 16)).setWord (2 * k.toNat + 1) (v.extractLsb' 16 16) } ∧ ∀ d, d ≠ c → t.course d = s.course d) ∧
    (∀ (s : State) (p : Party) (c : Fin 13) (k : BitVec 16) (v : Reg32) (b : Fin 4), s.alive = true → (s.urral.lock = none ∨ p = .keystone) → s.reaches p (courseBase c + 4 * k.toNat) = true → s.power.stbyReady = false → k.toNat / 0x1000 = 8 + b.val → s.gated c = false → (s.course c).testing true = false → ((s.course c).image = none → (s.course c).mode ≠ 2 → s.pf1MgrKey p = true) → ((s.course c).image.isSome = true ∨ (s.course c).mode = 2 → s.brickDebug p = true) → ∃ t, exec (.bankImageWrite p c k v) s = .next t ∧ t = { s with bricks := t.bricks, journal := t.journal } ∧
      t.brick (brickOf c b) = { s.brick (brickOf c b) with imem := ((s.brick (brickOf c b)).imem.setWord (2 * (k.toNat % 0x1000)) (v.extractLsb' 0 16)).setWord ((2 * (k.toNat % 0x1000)) + 1) (v.extractLsb' 16 16) } ∧ ∀ x, x ≠ (brickOf c b) → t.brick x = s.brick x) ∧
    (∀ (s : State) (p : Party) (c : Fin 13) (k : BitVec 16) (v : Reg32), s.alive = true → (s.urral.lock = none ∨ p = .keystone) → s.reaches p (courseBase c + 4 * k.toNat) = true → s.power.stbyReady = false → k.toNat < 0xC000 → (s.gated c = true ∨ (s.course c).testing (decide (0x8000 ≤ k.toNat)) = true ∨ (if (s.course c).image.isSome ∨ (s.course c).mode = 2 then s.brickDebug p = false else s.pf1MgrKey p = false)) →
      exec (.bankImageWrite p c k v) s = .next (s.refused p (courseBase c + 4 * k.toNat) v.toNat)) ∧
    (∀ (s : State) (p : Party) (c : Fin 13) (k : BitVec 16) (v : Reg32), s.alive = true → (s.urral.lock = none ∨ p = .keystone) → 0xC000 ≤ k.toNat → exec (.bankImageWrite p c k v) s = .next s) ∧
    (∀ (s : State) (tag : BitVec 10) (off : BitVec 19) (v : Reg32), s.alive = true → s.urral.lock = none → s.power.phase ≠ .footing → s.power.stbyReady = false → exec (.securePageAccess tag off (some v)) s = .next (s.refused .pf0 ((0x180000 + off.toNat) / 4 * 4) v.toNat)) ∧
    (∀ (s : State) (tag : BitVec 10) (off : BitVec 19), s.alive = true → s.urral.lock = none → s.power.phase ≠ .footing → ∃ t, exec (.securePageAccess tag off none) s = .next t ∧ t = { s.refused .pf0 ((0x180000 + off.toNat) / 4 * 4) 0 with readValue := 0, orphPf := t.orphPf }) ∧
    (∀ (s : State) (tag : BitVec 10) (off : BitVec 19) (o : Option Reg32), (s.alive = false ∨ s.power.phase = .footing) → exec (.securePageAccess tag off o) s = .next s) ∧
    (∀ (s : State) (off : Offset) (v : Reg32), s.power.tap = .dbgAccess → s.tapAllowed .dbgAccess = true → exec (.dbgAccess off (some v)) s = exec (.registerWrite .tap off v) s) ∧
    (∀ (s : State) (off : Offset), s.power.tap = .dbgAccess → s.tapAllowed .dbgAccess = true → exec (.dbgAccess off none) s = exec (.rcRead .tap 0 off) s) ∧
    (∀ (s : State) (off : Offset) (o : Option Reg32), (s.power.tap ≠ .dbgAccess ∨ s.tapAllowed .dbgAccess = false) → exec (.dbgAccess off o) s = .next s) ∧
    (∀ (s : State), s.tapAllowed .dbgAccess = true ↔ (s.debugLevel = 2 ∨ (s.debugLevel = 1 ∧ s.debugScope.getLsbD 1 = true)))

/-- Decoding and encoding of brick instructions agree, both ways (R100, R101, R102, R103, R107, R108, R109, R110, R113, R115, R118, R124). -/
def Obligations.BrickEncodingRoundTrips : Prop :=
  (∀ i : BInstr, i.wellFormed = true → decodeBrick (encodeBrick i).1 (encodeBrick i).2 = some i) ∧
    ∀ (w w2 : Word) (i : BInstr), decodeBrick w w2 = some i → i.wellFormed = true ∧ (encodeBrick i).1 = w ∧ (i.length = 2 → (encodeBrick i).2 = w2)

/-- Every step keeps the canonical form of every memory and table, and the sizes of the queues (R477, R481, R381, R435, R443, R447, R450). -/
def Obligations.StepKeepsInvariant : Prop :=
  ∀ s t : State, s.Inv → step s = .next t → t.Inv

/-- What reset leaves, where the spec gives a value, and that it satisfies the invariant (R14, R43, R51, R66, R262, R269, R324, R328, R356, R391, R420, R437). -/
def Obligations.ResetStateHoldsTheSpecsValues : Prop :=
  State.reset.Inv ∧
    State.reset.pending = [] ∧
    State.reset.tick = 0 ∧
    State.reset.power.rstLow = true ∧
    State.reset.power.phase = .rom ∧
    State.reset.power.fault = true ∧
    State.reset.reg 0x40 = 0x8000000C ∧
    State.reset.reg 0x60 = 0 ∧
    State.reset.bypCtrl = 0x00220000 ∧
    State.reset.reg 0x88 = 0 ∧
    State.reset.reg 0x8C = 0 ∧
    State.reset.reg 0x90 = 0 ∧
    State.reset.pwrStatus = 0 ∧
    State.reset.power.wakeSrc = 0 ∧
    (State.reset.pf0.cause = 0 ∧ State.reset.pf1.cause = 0 ∧ State.reset.pf0.causeEn = 0 ∧ State.reset.pf1.causeEn = 0) ∧
    (∀ c : Fin 13, (State.reset.course c).image = none ∧ State.reset.reg (0x8F8000 + 4 * c.val) = BitVec.ofNat 32 c.val) ∧
    (∀ k : Fin 52, (State.reset.brick k).run = .idle ∧ (State.reset.brick k).pc = 0 ∧ (State.reset.brick k).g = Vector.replicate 16 0 ∧ (State.reset.brick k).rstk = []) ∧
    (∀ k : Fin 208, (State.reset.tile k).pc = 0 ∧ (State.reset.tile k).runBit = false) ∧
    (∀ j : Fin 32, (State.reset.mailbox j).st = .empty ∧ (State.reset.mailbox j).data = Vector.replicate 8 0 ∧ (State.reset.mailbox j).bell = false) ∧
    (∀ n : Fin 64, (State.reset.ring n).st = .stopped ∧ (State.reset.ring n).en = false ∧ (State.reset.ring n).head = 0 ∧ (State.reset.ring n).tail = 0) ∧
    (∀ q : PortCode, q.val < 32 → State.reset.reg (portBase q) = 0x2B0005F2 ∧ (State.reset.port q).up = false) ∧
    (∀ n : Fin 8, State.reset.canCfg n = 0x60008000 ∧ (State.reset.can n).st = .init) ∧
    (∀ n : Fin 32, State.reset.reg (0x400100 + 4 * n.val) = 0x000A0003) ∧
    (∀ m : Fin 16, State.reset.reg (0x400180 + 4 * m.val) = 2) ∧
    State.reset.doOut = 0 ∧
    State.reset.reg 0x200000 = 0x88B6E03F ∧
    State.reset.reg 0x200004 = 0x20000050 ∧
    State.reset.reg 0x200100 = 0x34100BB8 ∧
    State.reset.reg 0x600000 = 0x0080000F ∧
    State.reset.reg 0x600010 = 0x05A03E00 ∧
    State.reset.recorder.cfg = 0x32 ∧
    State.reset.recorder.recs = [] ∧
    State.reset.recorder.next = 0 ∧
    State.reset.journal.cfg = 0x00643D05 ∧
    State.reset.journal.st = .off ∧
    State.reset.urral.role = .forming ∧
    State.reset.urral.hold = false ∧
    State.reset.keystone.session = none
end

