-- ==== Sys2Proof/Laws/Sparse.lean ====
section
/-! SUPPORT. The laws of sparse maps and byte memories: a read after a write, and the canonical form that every operation keeps. -/

namespace Sys2Proof.Machine

variable {α : Type}

/-! ### Reads -/

theorem Sparse.read_erase_ne (d : Nat → α) (m : List (Nat × α)) {a x : Nat} (h : x ≠ a) :
    Sparse.read d (Sparse.erase m a) x = Sparse.read d m x := by
  induction m with
  | nil => rfl
  | cons e m ih =>
    obtain ⟨b, v⟩ := e
    by_cases hb : b = a
    · simp [Sparse.erase, Sparse.read, hb, Ne.symm h]
    · simp [Sparse.erase, Sparse.read, hb, ih]

theorem Sparse.read_insert_ne (d : Nat → α) (m : List (Nat × α)) {a x : Nat} (v : α) (h : x ≠ a) :
    Sparse.read d (Sparse.insert m a v) x = Sparse.read d m x := by
  induction m with
  | nil => simp [Sparse.insert, Sparse.read, Ne.symm h]
  | cons e m ih =>
    obtain ⟨b, w⟩ := e
    rcases Nat.lt_trichotomy a b with hlt | rfl | hgt
    · simp [Sparse.insert, Sparse.read, hlt, Ne.symm h]
    · simp [Sparse.insert, Sparse.read, Ne.symm h]
    · have h1 : ¬ a < b := by omega
      have h2 : a ≠ b := by omega
      simp [Sparse.insert, Sparse.read, h1, h2, ih]

theorem Sparse.read_insert_same (d : Nat → α) (m : List (Nat × α)) (a : Nat) (v : α) :
    Sparse.read d (Sparse.insert m a v) a = v := by
  induction m with
  | nil => simp [Sparse.insert, Sparse.read]
  | cons e m ih =>
    obtain ⟨b, w⟩ := e
    rcases Nat.lt_trichotomy a b with hlt | rfl | hgt
    · simp [Sparse.insert, Sparse.read, hlt]
    · simp [Sparse.insert, Sparse.read]
    · have h1 : ¬ a < b := by omega
      have h2 : a ≠ b := by omega
      simp [Sparse.insert, Sparse.read, h1, h2, Ne.symm h2, ih]

/-- Dropping entries keeps what the others read as. -/
theorem Sparse.read_filter (d : Nat → α) (m : List (Nat × α)) (p : Nat → Bool) {a : Nat} (h : p a = true) :
    Sparse.read d (m.filter (fun e => p e.1)) a = Sparse.read d m a := by
  induction m with
  | nil => rfl
  | cons e m ih =>
    obtain ⟨b, v⟩ := e
    by_cases hb : b = a
    · subst hb; simp [h, Sparse.read]
    · by_cases hp : p b = true <;> simp [hp, Sparse.read, hb, ih]

/-- What is dropped reads as unlisted. -/
theorem Sparse.read_filter_out (d : Nat → α) (m : List (Nat × α)) (p : Nat → Bool) {a : Nat} (h : p a = false) :
    Sparse.read d (m.filter (fun e => p e.1)) a = d a := by
  induction m with
  | nil => rfl
  | cons e m ih =>
    obtain ⟨b, v⟩ := e
    by_cases hp : p b = true
    · have hb : b ≠ a := by rintro rfl; simp [h] at hp
      simp [hp, Sparse.read, hb, ih]
    · simp [hp, ih]

variable [DecidableEq α]

/-- A write leaves every other address alone. -/
theorem Sparse.read_write_ne (d : Nat → α) (m : List (Nat × α)) {a x : Nat} (v : α) (h : x ≠ a) :
    Sparse.read d (Sparse.write d m a v) x = Sparse.read d m x := by
  unfold Sparse.write
  split
  · exact Sparse.read_erase_ne d m h
  · exact Sparse.read_insert_ne d m v h

/-! ### The canonical form -/

theorem Sparse.wfFrom_mono (d : Nat → α) {m : List (Nat × α)} {n k : Nat} (hk : k ≤ n) (h : Sparse.wfFrom d n m = true) :
    Sparse.wfFrom d k m = true := by
  cases m with
  | nil => rfl
  | cons e m =>
    simp only [Sparse.wfFrom, Bool.and_eq_true, decide_eq_true_eq] at h ⊢
    exact ⟨by omega, h.2⟩

/-- An address below the bound of a canonical map is not listed. -/
theorem Sparse.read_below (d : Nat → α) {m : List (Nat × α)} {n a : Nat} (ha : a < n) (h : Sparse.wfFrom d n m = true) :
    Sparse.read d m a = d a := by
  induction m generalizing n with
  | nil => rfl
  | cons e m ih =>
    simp only [Sparse.wfFrom, Bool.and_eq_true, decide_eq_true_eq] at h
    have hb : e.1 ≠ a := by omega
    simp only [Sparse.read, hb, if_false]
    exact ih (n := e.1 + 1) (by omega) h.2.2

theorem Sparse.read_erase_same (d : Nat → α) {m : List (Nat × α)} {n : Nat} (a : Nat) (h : Sparse.wfFrom d n m = true) :
    Sparse.read d (Sparse.erase m a) a = d a := by
  induction m generalizing n with
  | nil => rfl
  | cons e m ih =>
    obtain ⟨b, v⟩ := e
    simp only [Sparse.wfFrom, Bool.and_eq_true, decide_eq_true_eq] at h
    by_cases hb : b = a
    · subst hb
      simp only [Sparse.erase, if_true]
      exact Sparse.read_below d (Nat.lt_succ_self b) h.2.2
    · simp only [Sparse.erase, Sparse.read, hb, if_false]
      exact ih h.2.2

/-- A read after a write to the same address gives the value written. -/
theorem Sparse.read_write_same (d : Nat → α) {m : List (Nat × α)} (a : Nat) (v : α) (h : Sparse.wf d m = true) :
    Sparse.read d (Sparse.write d m a v) a = v := by
  unfold Sparse.write
  split
  · next hv => rw [Sparse.read_erase_same d a h, hv]
  · exact Sparse.read_insert_same d m a v

theorem Sparse.wfFrom_erase (d : Nat → α) {m : List (Nat × α)} {n : Nat} (a : Nat) (h : Sparse.wfFrom d n m = true) :
    Sparse.wfFrom d n (Sparse.erase m a) = true := by
  induction m generalizing n with
  | nil => rfl
  | cons e m ih =>
    obtain ⟨b, v⟩ := e
    simp only [Sparse.wfFrom, Bool.and_eq_true, decide_eq_true_eq] at h
    by_cases hb : b = a
    · simp only [Sparse.erase, hb, if_true]
      exact Sparse.wfFrom_mono d (by omega) h.2.2
    · simp only [Sparse.erase, hb, if_false, Sparse.wfFrom, Bool.and_eq_true, decide_eq_true_eq]
      exact ⟨h.1, h.2.1, ih h.2.2⟩

theorem Sparse.wfFrom_insert (d : Nat → α) {m : List (Nat × α)} {n a : Nat} {v : α} (hv : v ≠ d a) (ha : n ≤ a)
    (h : Sparse.wfFrom d n m = true) : Sparse.wfFrom d n (Sparse.insert m a v) = true := by
  induction m generalizing n with
  | nil => simp [Sparse.insert, Sparse.wfFrom, hv, ha]
  | cons e m ih =>
    obtain ⟨b, w⟩ := e
    simp only [Sparse.wfFrom, Bool.and_eq_true, decide_eq_true_eq] at h
    rcases Nat.lt_trichotomy a b with hlt | rfl | hgt
    · simp only [Sparse.insert, hlt, if_true, Sparse.wfFrom, Bool.and_eq_true, decide_eq_true_eq]
      exact ⟨ha, hv, by omega, h.2⟩
    · simp only [Sparse.insert, Nat.lt_irrefl, if_false, if_true, Sparse.wfFrom, Bool.and_eq_true, decide_eq_true_eq]
      exact ⟨ha, hv, h.2.2⟩
    · have h1 : ¬ a < b := by omega
      have h2 : a ≠ b := by omega
      simp only [Sparse.insert, h1, h2, if_false, Sparse.wfFrom, Bool.and_eq_true, decide_eq_true_eq]
      exact ⟨h.1, h.2.1, ih (by omega) h.2.2⟩

/-- A write keeps the canonical form. -/
theorem Sparse.wf_write (d : Nat → α) {m : List (Nat × α)} (a : Nat) (v : α) (h : Sparse.wf d m = true) :
    Sparse.wf d (Sparse.write d m a v) = true := by
  unfold Sparse.write
  split
  · exact Sparse.wfFrom_erase d a h
  · next hv => exact Sparse.wfFrom_insert d hv (Nat.zero_le a) h

theorem Sparse.wfFrom_filter (d : Nat → α) {m : List (Nat × α)} {n : Nat} (p : Nat × α → Bool) (h : Sparse.wfFrom d n m = true) :
    Sparse.wfFrom d n (m.filter p) = true := by
  induction m generalizing n with
  | nil => rfl
  | cons e m ih =>
    simp only [Sparse.wfFrom, Bool.and_eq_true, decide_eq_true_eq] at h
    by_cases hp : p e
    · simp only [List.filter_cons_of_pos hp, Sparse.wfFrom, Bool.and_eq_true, decide_eq_true_eq]
      exact ⟨h.1, h.2.1, ih h.2.2⟩
    · rw [List.filter_cons_of_neg hp]
      exact Sparse.wfFrom_mono d (by omega) (ih h.2.2)

/-- So does dropping entries. -/
theorem Sparse.wf_filter (d : Nat → α) {m : List (Nat × α)} (p : Nat × α → Bool) (h : Sparse.wf d m = true) :
    Sparse.wf d (m.filter p) = true := Sparse.wfFrom_filter d p h

/-! ### Byte memories -/

/-- Writing bytes keeps the canonical form. -/
theorem Memory.wf_writeBytes (d : Nat → Byte) {m : Memory} (a : Nat) (l : List Byte) (h : Memory.wf d m = true) :
    Memory.wf d (Memory.writeBytes d m a l) = true := by
  induction l generalizing m a with
  | nil => exact h
  | cons b bs ih => exact ih (a + 1) (Sparse.wf_write d a b h)

/-- Bytes outside those written read as before. -/
theorem Memory.read_writeBytes_out (d : Nat → Byte) (m : Memory) (a : Nat) (l : List Byte) {x : Nat} (h : x < a ∨ a + l.length ≤ x) :
    Sparse.read d (Memory.writeBytes d m a l) x = Sparse.read d m x := by
  induction l generalizing m a with
  | nil => rfl
  | cons b bs ih =>
    simp only [List.length_cons] at h
    rw [Memory.writeBytes, ih _ (a + 1) (by omega), Sparse.read_write_ne d m b (by omega)]

/-- Writing a word keeps the canonical form. -/
theorem Memory.wf_setWord {m : Memory} (w : Nat) (v : Word) (h : Memory.wf bankBlank m = true) :
    Memory.wf bankBlank (m.setWord w v) = true :=
  Sparse.wf_write bankBlank _ _ (Sparse.wf_write bankBlank _ _ h)

/-- So does writing several. -/
theorem Memory.wf_setWords {m : Memory} (n w : Nat) (l : List Word) (h : Memory.wf bankBlank m = true) :
    Memory.wf bankBlank (m.setWords n w l) = true := by
  induction l generalizing m w with
  | nil => exact h
  | cons v vs ih => exact ih (w + 1) (Memory.wf_setWord (w % n) v h)

/-- A word reads back as written. -/
theorem Memory.word_setWord_same {m : Memory} (w : Nat) (v : Word) (h : Memory.wf bankBlank m = true) : (m.setWord w v).word w = v := by
  unfold Memory.word Memory.setWord
  rw [Sparse.read_write_same bankBlank _ _ (Sparse.wf_write bankBlank _ _ h),
    Sparse.read_write_ne bankBlank _ _ (by omega), Sparse.read_write_same bankBlank _ _ h]
  apply BitVec.eq_of_getLsbD_eq
  intro i hi
  rw [BitVec.getLsbD_append]
  by_cases h8 : i < 8
  · simp [h8]
  · have h16 : i - 8 < 8 := by omega
    have : 8 + (i - 8) = i := by omega
    simp [h8, h16, this]

/-- The other words read as before. -/
theorem Memory.word_setWord_ne (m : Memory) {w x : Nat} (v : Word) (h : x ≠ w) : (m.setWord w v).word x = m.word x := by
  unfold Memory.word Memory.setWord
  rw [Sparse.read_write_ne bankBlank _ _ (by omega), Sparse.read_write_ne bankBlank _ _ (by omega),
    Sparse.read_write_ne bankBlank _ _ (by omega), Sparse.read_write_ne bankBlank _ _ (by omega)]

/-- A map listed from a rising run of addresses, without what reads as unlisted, is canonical. -/
theorem Sparse.wfFrom_build (d : Nat → α) (f : Nat → α) (n k : Nat) :
    Sparse.wfFrom d n ((List.range' n k).filterMap (fun a => if f a = d a then none else some (a, f a))) = true := by
  induction k generalizing n with
  | zero => rfl
  | succ k ih =>
    rw [List.range'_succ, List.filterMap_cons]
    by_cases hf : f n = d n
    · simp only [hf, if_true]
      exact Sparse.wfFrom_mono d (Nat.le_succ n) (ih (n + 1))
    · simp only [hf, if_false, Sparse.wfFrom, Bool.and_eq_true, decide_eq_true_eq]
      exact ⟨Nat.le_refl n, hf, ih (n + 1)⟩

/-- The memories that a fill and an undefined content leave are canonical. -/
theorem Memory.wf_fillMemory (n : Nat) (w : Word) : Memory.wf bankBlank (fillMemory n w) = true := by
  have h := Sparse.wfFrom_build bankBlank (fun a => if a % 2 = 0 then w.extractLsb' 0 8 else w.extractLsb' 8 8) 0 (2 * n)
  rw [← List.range_eq_range'] at h
  exact h

theorem Memory.wf_freeBytes (s : State) (n : Nat) : Memory.wf bankBlank (s.freeBytes n).1 = true := by
  have h := Sparse.wfFrom_build bankBlank (fun k => BitVec.ofNat 8 (Config.free (s.freeCtr + k))) 0 n
  rw [← List.range_eq_range'] at h
  exact h

/-- The memories of an image are canonical. -/
theorem Memory.wf_imemOf (l : List Byte) (b : Nat) : Memory.wf bankBlank (imemOf l b) = true := by
  unfold imemOf
  generalize List.filter _ (sectionsOf l) = xs
  have h := Memory.wf_fillMemory 8192 0xFFFF
  revert h
  generalize fillMemory 8192 0xFFFF = m
  induction xs generalizing m with
  | nil => exact id
  | cons x xs ih => intro h; exact ih _ (Memory.wf_setWords 8192 x.load _ h)

theorem Memory.wf_bankOf (l : List Byte) (im : LoadedImage) : Memory.wf bankBlank (bankOf l im) = true := by
  unfold bankOf
  apply Memory.wf_setWords
  generalize List.filter _ (sectionsOf l) = xs
  have h := Memory.wf_fillMemory 65536 0
  revert h
  generalize fillMemory 65536 0 = m
  induction xs generalizing m with
  | nil => exact id
  | cons x xs ih => intro h; exact ih _ (Memory.wf_setWords 65536 x.load _ h)

end Sys2Proof.Machine
end

