-- ==== Sys2Proof/Laws/State.lean ====
section
/-! SUPPORT. What each update of the state leaves alone, field by field, and what reads back after it: no proof need unfold an update. -/

namespace Sys2Proof.Machine

/-! ### State.setBrick -/

@[simp] theorem State.setBrick_pending (s : State) (k : Fin 52) (b : Brick) : (s.setBrick k b).pending = s.pending := rfl
@[simp] theorem State.setBrick_freeCtr (s : State) (k : Fin 52) (b : Brick) : (s.setBrick k b).freeCtr = s.freeCtr := rfl
@[simp] theorem State.setBrick_readValue (s : State) (k : Fin 52) (b : Brick) : (s.setBrick k b).readValue = s.readValue := rfl
@[simp] theorem State.setBrick_now (s : State) (k : Fin 52) (b : Brick) : (s.setBrick k b).now = s.now := rfl
@[simp] theorem State.setBrick_tick (s : State) (k : Fin 52) (b : Brick) : (s.setBrick k b).tick = s.tick := rfl
@[simp] theorem State.setBrick_fieldFitted (s : State) (k : Fin 52) (b : Brick) : (s.setBrick k b).fieldFitted = s.fieldFitted := rfl
@[simp] theorem State.setBrick_regs (s : State) (k : Fin 52) (b : Brick) : (s.setBrick k b).regs = s.regs := rfl
@[simp] theorem State.setBrick_flash (s : State) (k : Fin 52) (b : Brick) : (s.setBrick k b).flash = s.flash := rfl
@[simp] theorem State.setBrick_otp (s : State) (k : Fin 52) (b : Brick) : (s.setBrick k b).otp = s.otp := rfl
@[simp] theorem State.setBrick_hostMem (s : State) (k : Fin 52) (b : Brick) : (s.setBrick k b).hostMem = s.hostMem := rfl
@[simp] theorem State.setBrick_pins (s : State) (k : Fin 52) (b : Brick) : (s.setBrick k b).pins = s.pins := rfl
@[simp] theorem State.setBrick_power (s : State) (k : Fin 52) (b : Brick) : (s.setBrick k b).power = s.power := rfl
@[simp] theorem State.setBrick_tiles (s : State) (k : Fin 52) (b : Brick) : (s.setBrick k b).tiles = s.tiles := rfl
@[simp] theorem State.setBrick_courses (s : State) (k : Fin 52) (b : Brick) : (s.setBrick k b).courses = s.courses := rfl
@[simp] theorem State.setBrick_mailboxes (s : State) (k : Fin 52) (b : Brick) : (s.setBrick k b).mailboxes = s.mailboxes := rfl
@[simp] theorem State.setBrick_epochs (s : State) (k : Fin 52) (b : Brick) : (s.setBrick k b).epochs = s.epochs := rfl
@[simp] theorem State.setBrick_recorder (s : State) (k : Fin 52) (b : Brick) : (s.setBrick k b).recorder = s.recorder := rfl
@[simp] theorem State.setBrick_journal (s : State) (k : Fin 52) (b : Brick) : (s.setBrick k b).journal = s.journal := rfl
@[simp] theorem State.setBrick_replay (s : State) (k : Fin 52) (b : Brick) : (s.setBrick k b).replay = s.replay := rfl
@[simp] theorem State.setBrick_pf0 (s : State) (k : Fin 52) (b : Brick) : (s.setBrick k b).pf0 = s.pf0 := rfl
@[simp] theorem State.setBrick_pf1 (s : State) (k : Fin 52) (b : Brick) : (s.setBrick k b).pf1 = s.pf1 := rfl
@[simp] theorem State.setBrick_rings (s : State) (k : Fin 52) (b : Brick) : (s.setBrick k b).rings = s.rings := rfl
@[simp] theorem State.setBrick_ringLast (s : State) (k : Fin 52) (b : Brick) : (s.setBrick k b).ringLast = s.ringLast := rfl
@[simp] theorem State.setBrick_orphPf (s : State) (k : Fin 52) (b : Brick) : (s.setBrick k b).orphPf = s.orphPf := rfl
@[simp] theorem State.setBrick_orph (s : State) (k : Fin 52) (b : Brick) : (s.setBrick k b).orph = s.orph := rfl
@[simp] theorem State.setBrick_keystone (s : State) (k : Fin 52) (b : Brick) : (s.setBrick k b).keystone = s.keystone := rfl
@[simp] theorem State.setBrick_plumb (s : State) (k : Fin 52) (b : Brick) : (s.setBrick k b).plumb = s.plumb := rfl
@[simp] theorem State.setBrick_ports (s : State) (k : Fin 52) (b : Brick) : (s.setBrick k b).ports = s.ports := rfl
@[simp] theorem State.setBrick_fcs (s : State) (k : Fin 52) (b : Brick) : (s.setBrick k b).fcs = s.fcs := rfl
@[simp] theorem State.setBrick_mortar (s : State) (k : Fin 52) (b : Brick) : (s.setBrick k b).mortar = s.mortar := rfl
@[simp] theorem State.setBrick_cans (s : State) (k : Fin 52) (b : Brick) : (s.setBrick k b).cans = s.cans := rfl
@[simp] theorem State.setBrick_anchor (s : State) (k : Fin 52) (b : Brick) : (s.setBrick k b).anchor = s.anchor := rfl
@[simp] theorem State.setBrick_field (s : State) (k : Fin 52) (b : Brick) : (s.setBrick k b).field = s.field := rfl
@[simp] theorem State.setBrick_urral (s : State) (k : Fin 52) (b : Brick) : (s.setBrick k b).urral = s.urral := rfl
@[simp] theorem State.setBrick_canOut (s : State) (k : Fin 52) (b : Brick) : (s.setBrick k b).canOut = s.canOut := rfl
@[simp] theorem State.setBrick_lineOut (s : State) (k : Fin 52) (b : Brick) : (s.setBrick k b).lineOut = s.lineOut := rfl
@[simp] theorem State.setBrick_chainOut (s : State) (k : Fin 52) (b : Brick) : (s.setBrick k b).chainOut = s.chainOut := rfl

/-! ### State.setTile -/

@[simp] theorem State.setTile_pending (s : State) (k : Fin 208) (x : Tile) : (s.setTile k x).pending = s.pending := rfl
@[simp] theorem State.setTile_freeCtr (s : State) (k : Fin 208) (x : Tile) : (s.setTile k x).freeCtr = s.freeCtr := rfl
@[simp] theorem State.setTile_readValue (s : State) (k : Fin 208) (x : Tile) : (s.setTile k x).readValue = s.readValue := rfl
@[simp] theorem State.setTile_now (s : State) (k : Fin 208) (x : Tile) : (s.setTile k x).now = s.now := rfl
@[simp] theorem State.setTile_tick (s : State) (k : Fin 208) (x : Tile) : (s.setTile k x).tick = s.tick := rfl
@[simp] theorem State.setTile_fieldFitted (s : State) (k : Fin 208) (x : Tile) : (s.setTile k x).fieldFitted = s.fieldFitted := rfl
@[simp] theorem State.setTile_regs (s : State) (k : Fin 208) (x : Tile) : (s.setTile k x).regs = s.regs := rfl
@[simp] theorem State.setTile_flash (s : State) (k : Fin 208) (x : Tile) : (s.setTile k x).flash = s.flash := rfl
@[simp] theorem State.setTile_otp (s : State) (k : Fin 208) (x : Tile) : (s.setTile k x).otp = s.otp := rfl
@[simp] theorem State.setTile_hostMem (s : State) (k : Fin 208) (x : Tile) : (s.setTile k x).hostMem = s.hostMem := rfl
@[simp] theorem State.setTile_pins (s : State) (k : Fin 208) (x : Tile) : (s.setTile k x).pins = s.pins := rfl
@[simp] theorem State.setTile_power (s : State) (k : Fin 208) (x : Tile) : (s.setTile k x).power = s.power := rfl
@[simp] theorem State.setTile_bricks (s : State) (k : Fin 208) (x : Tile) : (s.setTile k x).bricks = s.bricks := rfl
@[simp] theorem State.setTile_courses (s : State) (k : Fin 208) (x : Tile) : (s.setTile k x).courses = s.courses := rfl
@[simp] theorem State.setTile_mailboxes (s : State) (k : Fin 208) (x : Tile) : (s.setTile k x).mailboxes = s.mailboxes := rfl
@[simp] theorem State.setTile_epochs (s : State) (k : Fin 208) (x : Tile) : (s.setTile k x).epochs = s.epochs := rfl
@[simp] theorem State.setTile_recorder (s : State) (k : Fin 208) (x : Tile) : (s.setTile k x).recorder = s.recorder := rfl
@[simp] theorem State.setTile_journal (s : State) (k : Fin 208) (x : Tile) : (s.setTile k x).journal = s.journal := rfl
@[simp] theorem State.setTile_replay (s : State) (k : Fin 208) (x : Tile) : (s.setTile k x).replay = s.replay := rfl
@[simp] theorem State.setTile_pf0 (s : State) (k : Fin 208) (x : Tile) : (s.setTile k x).pf0 = s.pf0 := rfl
@[simp] theorem State.setTile_pf1 (s : State) (k : Fin 208) (x : Tile) : (s.setTile k x).pf1 = s.pf1 := rfl
@[simp] theorem State.setTile_rings (s : State) (k : Fin 208) (x : Tile) : (s.setTile k x).rings = s.rings := rfl
@[simp] theorem State.setTile_ringLast (s : State) (k : Fin 208) (x : Tile) : (s.setTile k x).ringLast = s.ringLast := rfl
@[simp] theorem State.setTile_orphPf (s : State) (k : Fin 208) (x : Tile) : (s.setTile k x).orphPf = s.orphPf := rfl
@[simp] theorem State.setTile_orph (s : State) (k : Fin 208) (x : Tile) : (s.setTile k x).orph = s.orph := rfl
@[simp] theorem State.setTile_keystone (s : State) (k : Fin 208) (x : Tile) : (s.setTile k x).keystone = s.keystone := rfl
@[simp] theorem State.setTile_plumb (s : State) (k : Fin 208) (x : Tile) : (s.setTile k x).plumb = s.plumb := rfl
@[simp] theorem State.setTile_ports (s : State) (k : Fin 208) (x : Tile) : (s.setTile k x).ports = s.ports := rfl
@[simp] theorem State.setTile_fcs (s : State) (k : Fin 208) (x : Tile) : (s.setTile k x).fcs = s.fcs := rfl
@[simp] theorem State.setTile_mortar (s : State) (k : Fin 208) (x : Tile) : (s.setTile k x).mortar = s.mortar := rfl
@[simp] theorem State.setTile_cans (s : State) (k : Fin 208) (x : Tile) : (s.setTile k x).cans = s.cans := rfl
@[simp] theorem State.setTile_anchor (s : State) (k : Fin 208) (x : Tile) : (s.setTile k x).anchor = s.anchor := rfl
@[simp] theorem State.setTile_field (s : State) (k : Fin 208) (x : Tile) : (s.setTile k x).field = s.field := rfl
@[simp] theorem State.setTile_urral (s : State) (k : Fin 208) (x : Tile) : (s.setTile k x).urral = s.urral := rfl
@[simp] theorem State.setTile_canOut (s : State) (k : Fin 208) (x : Tile) : (s.setTile k x).canOut = s.canOut := rfl
@[simp] theorem State.setTile_lineOut (s : State) (k : Fin 208) (x : Tile) : (s.setTile k x).lineOut = s.lineOut := rfl
@[simp] theorem State.setTile_chainOut (s : State) (k : Fin 208) (x : Tile) : (s.setTile k x).chainOut = s.chainOut := rfl

/-! ### State.setCourse -/

@[simp] theorem State.setCourse_pending (s : State) (c : Fin 13) (x : Course) : (s.setCourse c x).pending = s.pending := rfl
@[simp] theorem State.setCourse_freeCtr (s : State) (c : Fin 13) (x : Course) : (s.setCourse c x).freeCtr = s.freeCtr := rfl
@[simp] theorem State.setCourse_readValue (s : State) (c : Fin 13) (x : Course) : (s.setCourse c x).readValue = s.readValue := rfl
@[simp] theorem State.setCourse_now (s : State) (c : Fin 13) (x : Course) : (s.setCourse c x).now = s.now := rfl
@[simp] theorem State.setCourse_tick (s : State) (c : Fin 13) (x : Course) : (s.setCourse c x).tick = s.tick := rfl
@[simp] theorem State.setCourse_fieldFitted (s : State) (c : Fin 13) (x : Course) : (s.setCourse c x).fieldFitted = s.fieldFitted := rfl
@[simp] theorem State.setCourse_regs (s : State) (c : Fin 13) (x : Course) : (s.setCourse c x).regs = s.regs := rfl
@[simp] theorem State.setCourse_flash (s : State) (c : Fin 13) (x : Course) : (s.setCourse c x).flash = s.flash := rfl
@[simp] theorem State.setCourse_otp (s : State) (c : Fin 13) (x : Course) : (s.setCourse c x).otp = s.otp := rfl
@[simp] theorem State.setCourse_hostMem (s : State) (c : Fin 13) (x : Course) : (s.setCourse c x).hostMem = s.hostMem := rfl
@[simp] theorem State.setCourse_pins (s : State) (c : Fin 13) (x : Course) : (s.setCourse c x).pins = s.pins := rfl
@[simp] theorem State.setCourse_power (s : State) (c : Fin 13) (x : Course) : (s.setCourse c x).power = s.power := rfl
@[simp] theorem State.setCourse_bricks (s : State) (c : Fin 13) (x : Course) : (s.setCourse c x).bricks = s.bricks := rfl
@[simp] theorem State.setCourse_tiles (s : State) (c : Fin 13) (x : Course) : (s.setCourse c x).tiles = s.tiles := rfl
@[simp] theorem State.setCourse_mailboxes (s : State) (c : Fin 13) (x : Course) : (s.setCourse c x).mailboxes = s.mailboxes := rfl
@[simp] theorem State.setCourse_epochs (s : State) (c : Fin 13) (x : Course) : (s.setCourse c x).epochs = s.epochs := rfl
@[simp] theorem State.setCourse_recorder (s : State) (c : Fin 13) (x : Course) : (s.setCourse c x).recorder = s.recorder := rfl
@[simp] theorem State.setCourse_journal (s : State) (c : Fin 13) (x : Course) : (s.setCourse c x).journal = s.journal := rfl
@[simp] theorem State.setCourse_replay (s : State) (c : Fin 13) (x : Course) : (s.setCourse c x).replay = s.replay := rfl
@[simp] theorem State.setCourse_pf0 (s : State) (c : Fin 13) (x : Course) : (s.setCourse c x).pf0 = s.pf0 := rfl
@[simp] theorem State.setCourse_pf1 (s : State) (c : Fin 13) (x : Course) : (s.setCourse c x).pf1 = s.pf1 := rfl
@[simp] theorem State.setCourse_rings (s : State) (c : Fin 13) (x : Course) : (s.setCourse c x).rings = s.rings := rfl
@[simp] theorem State.setCourse_ringLast (s : State) (c : Fin 13) (x : Course) : (s.setCourse c x).ringLast = s.ringLast := rfl
@[simp] theorem State.setCourse_orphPf (s : State) (c : Fin 13) (x : Course) : (s.setCourse c x).orphPf = s.orphPf := rfl
@[simp] theorem State.setCourse_orph (s : State) (c : Fin 13) (x : Course) : (s.setCourse c x).orph = s.orph := rfl
@[simp] theorem State.setCourse_keystone (s : State) (c : Fin 13) (x : Course) : (s.setCourse c x).keystone = s.keystone := rfl
@[simp] theorem State.setCourse_plumb (s : State) (c : Fin 13) (x : Course) : (s.setCourse c x).plumb = s.plumb := rfl
@[simp] theorem State.setCourse_ports (s : State) (c : Fin 13) (x : Course) : (s.setCourse c x).ports = s.ports := rfl
@[simp] theorem State.setCourse_fcs (s : State) (c : Fin 13) (x : Course) : (s.setCourse c x).fcs = s.fcs := rfl
@[simp] theorem State.setCourse_mortar (s : State) (c : Fin 13) (x : Course) : (s.setCourse c x).mortar = s.mortar := rfl
@[simp] theorem State.setCourse_cans (s : State) (c : Fin 13) (x : Course) : (s.setCourse c x).cans = s.cans := rfl
@[simp] theorem State.setCourse_anchor (s : State) (c : Fin 13) (x : Course) : (s.setCourse c x).anchor = s.anchor := rfl
@[simp] theorem State.setCourse_field (s : State) (c : Fin 13) (x : Course) : (s.setCourse c x).field = s.field := rfl
@[simp] theorem State.setCourse_urral (s : State) (c : Fin 13) (x : Course) : (s.setCourse c x).urral = s.urral := rfl
@[simp] theorem State.setCourse_canOut (s : State) (c : Fin 13) (x : Course) : (s.setCourse c x).canOut = s.canOut := rfl
@[simp] theorem State.setCourse_lineOut (s : State) (c : Fin 13) (x : Course) : (s.setCourse c x).lineOut = s.lineOut := rfl
@[simp] theorem State.setCourse_chainOut (s : State) (c : Fin 13) (x : Course) : (s.setCourse c x).chainOut = s.chainOut := rfl

/-! ### State.setMailbox -/

@[simp] theorem State.setMailbox_pending (s : State) (j : Fin 32) (m : Mailbox) : (s.setMailbox j m).pending = s.pending := rfl
@[simp] theorem State.setMailbox_freeCtr (s : State) (j : Fin 32) (m : Mailbox) : (s.setMailbox j m).freeCtr = s.freeCtr := rfl
@[simp] theorem State.setMailbox_readValue (s : State) (j : Fin 32) (m : Mailbox) : (s.setMailbox j m).readValue = s.readValue := rfl
@[simp] theorem State.setMailbox_now (s : State) (j : Fin 32) (m : Mailbox) : (s.setMailbox j m).now = s.now := rfl
@[simp] theorem State.setMailbox_tick (s : State) (j : Fin 32) (m : Mailbox) : (s.setMailbox j m).tick = s.tick := rfl
@[simp] theorem State.setMailbox_fieldFitted (s : State) (j : Fin 32) (m : Mailbox) : (s.setMailbox j m).fieldFitted = s.fieldFitted := rfl
@[simp] theorem State.setMailbox_regs (s : State) (j : Fin 32) (m : Mailbox) : (s.setMailbox j m).regs = s.regs := rfl
@[simp] theorem State.setMailbox_flash (s : State) (j : Fin 32) (m : Mailbox) : (s.setMailbox j m).flash = s.flash := rfl
@[simp] theorem State.setMailbox_otp (s : State) (j : Fin 32) (m : Mailbox) : (s.setMailbox j m).otp = s.otp := rfl
@[simp] theorem State.setMailbox_hostMem (s : State) (j : Fin 32) (m : Mailbox) : (s.setMailbox j m).hostMem = s.hostMem := rfl
@[simp] theorem State.setMailbox_pins (s : State) (j : Fin 32) (m : Mailbox) : (s.setMailbox j m).pins = s.pins := rfl
@[simp] theorem State.setMailbox_power (s : State) (j : Fin 32) (m : Mailbox) : (s.setMailbox j m).power = s.power := rfl
@[simp] theorem State.setMailbox_bricks (s : State) (j : Fin 32) (m : Mailbox) : (s.setMailbox j m).bricks = s.bricks := rfl
@[simp] theorem State.setMailbox_tiles (s : State) (j : Fin 32) (m : Mailbox) : (s.setMailbox j m).tiles = s.tiles := rfl
@[simp] theorem State.setMailbox_courses (s : State) (j : Fin 32) (m : Mailbox) : (s.setMailbox j m).courses = s.courses := rfl
@[simp] theorem State.setMailbox_epochs (s : State) (j : Fin 32) (m : Mailbox) : (s.setMailbox j m).epochs = s.epochs := rfl
@[simp] theorem State.setMailbox_recorder (s : State) (j : Fin 32) (m : Mailbox) : (s.setMailbox j m).recorder = s.recorder := rfl
@[simp] theorem State.setMailbox_journal (s : State) (j : Fin 32) (m : Mailbox) : (s.setMailbox j m).journal = s.journal := rfl
@[simp] theorem State.setMailbox_replay (s : State) (j : Fin 32) (m : Mailbox) : (s.setMailbox j m).replay = s.replay := rfl
@[simp] theorem State.setMailbox_pf0 (s : State) (j : Fin 32) (m : Mailbox) : (s.setMailbox j m).pf0 = s.pf0 := rfl
@[simp] theorem State.setMailbox_pf1 (s : State) (j : Fin 32) (m : Mailbox) : (s.setMailbox j m).pf1 = s.pf1 := rfl
@[simp] theorem State.setMailbox_rings (s : State) (j : Fin 32) (m : Mailbox) : (s.setMailbox j m).rings = s.rings := rfl
@[simp] theorem State.setMailbox_ringLast (s : State) (j : Fin 32) (m : Mailbox) : (s.setMailbox j m).ringLast = s.ringLast := rfl
@[simp] theorem State.setMailbox_orphPf (s : State) (j : Fin 32) (m : Mailbox) : (s.setMailbox j m).orphPf = s.orphPf := rfl
@[simp] theorem State.setMailbox_orph (s : State) (j : Fin 32) (m : Mailbox) : (s.setMailbox j m).orph = s.orph := rfl
@[simp] theorem State.setMailbox_keystone (s : State) (j : Fin 32) (m : Mailbox) : (s.setMailbox j m).keystone = s.keystone := rfl
@[simp] theorem State.setMailbox_plumb (s : State) (j : Fin 32) (m : Mailbox) : (s.setMailbox j m).plumb = s.plumb := rfl
@[simp] theorem State.setMailbox_ports (s : State) (j : Fin 32) (m : Mailbox) : (s.setMailbox j m).ports = s.ports := rfl
@[simp] theorem State.setMailbox_fcs (s : State) (j : Fin 32) (m : Mailbox) : (s.setMailbox j m).fcs = s.fcs := rfl
@[simp] theorem State.setMailbox_mortar (s : State) (j : Fin 32) (m : Mailbox) : (s.setMailbox j m).mortar = s.mortar := rfl
@[simp] theorem State.setMailbox_cans (s : State) (j : Fin 32) (m : Mailbox) : (s.setMailbox j m).cans = s.cans := rfl
@[simp] theorem State.setMailbox_anchor (s : State) (j : Fin 32) (m : Mailbox) : (s.setMailbox j m).anchor = s.anchor := rfl
@[simp] theorem State.setMailbox_field (s : State) (j : Fin 32) (m : Mailbox) : (s.setMailbox j m).field = s.field := rfl
@[simp] theorem State.setMailbox_urral (s : State) (j : Fin 32) (m : Mailbox) : (s.setMailbox j m).urral = s.urral := rfl
@[simp] theorem State.setMailbox_canOut (s : State) (j : Fin 32) (m : Mailbox) : (s.setMailbox j m).canOut = s.canOut := rfl
@[simp] theorem State.setMailbox_lineOut (s : State) (j : Fin 32) (m : Mailbox) : (s.setMailbox j m).lineOut = s.lineOut := rfl
@[simp] theorem State.setMailbox_chainOut (s : State) (j : Fin 32) (m : Mailbox) : (s.setMailbox j m).chainOut = s.chainOut := rfl

/-! ### State.setRing -/

@[simp] theorem State.setRing_pending (s : State) (n : Fin 64) (r : Ring) : (s.setRing n r).pending = s.pending := rfl
@[simp] theorem State.setRing_freeCtr (s : State) (n : Fin 64) (r : Ring) : (s.setRing n r).freeCtr = s.freeCtr := rfl
@[simp] theorem State.setRing_readValue (s : State) (n : Fin 64) (r : Ring) : (s.setRing n r).readValue = s.readValue := rfl
@[simp] theorem State.setRing_now (s : State) (n : Fin 64) (r : Ring) : (s.setRing n r).now = s.now := rfl
@[simp] theorem State.setRing_tick (s : State) (n : Fin 64) (r : Ring) : (s.setRing n r).tick = s.tick := rfl
@[simp] theorem State.setRing_fieldFitted (s : State) (n : Fin 64) (r : Ring) : (s.setRing n r).fieldFitted = s.fieldFitted := rfl
@[simp] theorem State.setRing_regs (s : State) (n : Fin 64) (r : Ring) : (s.setRing n r).regs = s.regs := rfl
@[simp] theorem State.setRing_flash (s : State) (n : Fin 64) (r : Ring) : (s.setRing n r).flash = s.flash := rfl
@[simp] theorem State.setRing_otp (s : State) (n : Fin 64) (r : Ring) : (s.setRing n r).otp = s.otp := rfl
@[simp] theorem State.setRing_hostMem (s : State) (n : Fin 64) (r : Ring) : (s.setRing n r).hostMem = s.hostMem := rfl
@[simp] theorem State.setRing_pins (s : State) (n : Fin 64) (r : Ring) : (s.setRing n r).pins = s.pins := rfl
@[simp] theorem State.setRing_power (s : State) (n : Fin 64) (r : Ring) : (s.setRing n r).power = s.power := rfl
@[simp] theorem State.setRing_bricks (s : State) (n : Fin 64) (r : Ring) : (s.setRing n r).bricks = s.bricks := rfl
@[simp] theorem State.setRing_tiles (s : State) (n : Fin 64) (r : Ring) : (s.setRing n r).tiles = s.tiles := rfl
@[simp] theorem State.setRing_courses (s : State) (n : Fin 64) (r : Ring) : (s.setRing n r).courses = s.courses := rfl
@[simp] theorem State.setRing_mailboxes (s : State) (n : Fin 64) (r : Ring) : (s.setRing n r).mailboxes = s.mailboxes := rfl
@[simp] theorem State.setRing_epochs (s : State) (n : Fin 64) (r : Ring) : (s.setRing n r).epochs = s.epochs := rfl
@[simp] theorem State.setRing_recorder (s : State) (n : Fin 64) (r : Ring) : (s.setRing n r).recorder = s.recorder := rfl
@[simp] theorem State.setRing_journal (s : State) (n : Fin 64) (r : Ring) : (s.setRing n r).journal = s.journal := rfl
@[simp] theorem State.setRing_replay (s : State) (n : Fin 64) (r : Ring) : (s.setRing n r).replay = s.replay := rfl
@[simp] theorem State.setRing_pf0 (s : State) (n : Fin 64) (r : Ring) : (s.setRing n r).pf0 = s.pf0 := rfl
@[simp] theorem State.setRing_pf1 (s : State) (n : Fin 64) (r : Ring) : (s.setRing n r).pf1 = s.pf1 := rfl
@[simp] theorem State.setRing_ringLast (s : State) (n : Fin 64) (r : Ring) : (s.setRing n r).ringLast = s.ringLast := rfl
@[simp] theorem State.setRing_orphPf (s : State) (n : Fin 64) (r : Ring) : (s.setRing n r).orphPf = s.orphPf := rfl
@[simp] theorem State.setRing_orph (s : State) (n : Fin 64) (r : Ring) : (s.setRing n r).orph = s.orph := rfl
@[simp] theorem State.setRing_keystone (s : State) (n : Fin 64) (r : Ring) : (s.setRing n r).keystone = s.keystone := rfl
@[simp] theorem State.setRing_plumb (s : State) (n : Fin 64) (r : Ring) : (s.setRing n r).plumb = s.plumb := rfl
@[simp] theorem State.setRing_ports (s : State) (n : Fin 64) (r : Ring) : (s.setRing n r).ports = s.ports := rfl
@[simp] theorem State.setRing_fcs (s : State) (n : Fin 64) (r : Ring) : (s.setRing n r).fcs = s.fcs := rfl
@[simp] theorem State.setRing_mortar (s : State) (n : Fin 64) (r : Ring) : (s.setRing n r).mortar = s.mortar := rfl
@[simp] theorem State.setRing_cans (s : State) (n : Fin 64) (r : Ring) : (s.setRing n r).cans = s.cans := rfl
@[simp] theorem State.setRing_anchor (s : State) (n : Fin 64) (r : Ring) : (s.setRing n r).anchor = s.anchor := rfl
@[simp] theorem State.setRing_field (s : State) (n : Fin 64) (r : Ring) : (s.setRing n r).field = s.field := rfl
@[simp] theorem State.setRing_urral (s : State) (n : Fin 64) (r : Ring) : (s.setRing n r).urral = s.urral := rfl
@[simp] theorem State.setRing_canOut (s : State) (n : Fin 64) (r : Ring) : (s.setRing n r).canOut = s.canOut := rfl
@[simp] theorem State.setRing_lineOut (s : State) (n : Fin 64) (r : Ring) : (s.setRing n r).lineOut = s.lineOut := rfl
@[simp] theorem State.setRing_chainOut (s : State) (n : Fin 64) (r : Ring) : (s.setRing n r).chainOut = s.chainOut := rfl

/-! ### State.setReg -/

@[simp] theorem State.setReg_pending (s : State) (a : Nat) (v : Reg32) : (s.setReg a v).pending = s.pending := rfl
@[simp] theorem State.setReg_freeCtr (s : State) (a : Nat) (v : Reg32) : (s.setReg a v).freeCtr = s.freeCtr := rfl
@[simp] theorem State.setReg_readValue (s : State) (a : Nat) (v : Reg32) : (s.setReg a v).readValue = s.readValue := rfl
@[simp] theorem State.setReg_now (s : State) (a : Nat) (v : Reg32) : (s.setReg a v).now = s.now := rfl
@[simp] theorem State.setReg_tick (s : State) (a : Nat) (v : Reg32) : (s.setReg a v).tick = s.tick := rfl
@[simp] theorem State.setReg_fieldFitted (s : State) (a : Nat) (v : Reg32) : (s.setReg a v).fieldFitted = s.fieldFitted := rfl
@[simp] theorem State.setReg_flash (s : State) (a : Nat) (v : Reg32) : (s.setReg a v).flash = s.flash := rfl
@[simp] theorem State.setReg_otp (s : State) (a : Nat) (v : Reg32) : (s.setReg a v).otp = s.otp := rfl
@[simp] theorem State.setReg_hostMem (s : State) (a : Nat) (v : Reg32) : (s.setReg a v).hostMem = s.hostMem := rfl
@[simp] theorem State.setReg_pins (s : State) (a : Nat) (v : Reg32) : (s.setReg a v).pins = s.pins := rfl
@[simp] theorem State.setReg_power (s : State) (a : Nat) (v : Reg32) : (s.setReg a v).power = s.power := rfl
@[simp] theorem State.setReg_bricks (s : State) (a : Nat) (v : Reg32) : (s.setReg a v).bricks = s.bricks := rfl
@[simp] theorem State.setReg_tiles (s : State) (a : Nat) (v : Reg32) : (s.setReg a v).tiles = s.tiles := rfl
@[simp] theorem State.setReg_courses (s : State) (a : Nat) (v : Reg32) : (s.setReg a v).courses = s.courses := rfl
@[simp] theorem State.setReg_mailboxes (s : State) (a : Nat) (v : Reg32) : (s.setReg a v).mailboxes = s.mailboxes := rfl
@[simp] theorem State.setReg_epochs (s : State) (a : Nat) (v : Reg32) : (s.setReg a v).epochs = s.epochs := rfl
@[simp] theorem State.setReg_recorder (s : State) (a : Nat) (v : Reg32) : (s.setReg a v).recorder = s.recorder := rfl
@[simp] theorem State.setReg_journal (s : State) (a : Nat) (v : Reg32) : (s.setReg a v).journal = s.journal := rfl
@[simp] theorem State.setReg_replay (s : State) (a : Nat) (v : Reg32) : (s.setReg a v).replay = s.replay := rfl
@[simp] theorem State.setReg_pf0 (s : State) (a : Nat) (v : Reg32) : (s.setReg a v).pf0 = s.pf0 := rfl
@[simp] theorem State.setReg_pf1 (s : State) (a : Nat) (v : Reg32) : (s.setReg a v).pf1 = s.pf1 := rfl
@[simp] theorem State.setReg_rings (s : State) (a : Nat) (v : Reg32) : (s.setReg a v).rings = s.rings := rfl
@[simp] theorem State.setReg_ringLast (s : State) (a : Nat) (v : Reg32) : (s.setReg a v).ringLast = s.ringLast := rfl
@[simp] theorem State.setReg_orphPf (s : State) (a : Nat) (v : Reg32) : (s.setReg a v).orphPf = s.orphPf := rfl
@[simp] theorem State.setReg_orph (s : State) (a : Nat) (v : Reg32) : (s.setReg a v).orph = s.orph := rfl
@[simp] theorem State.setReg_keystone (s : State) (a : Nat) (v : Reg32) : (s.setReg a v).keystone = s.keystone := rfl
@[simp] theorem State.setReg_plumb (s : State) (a : Nat) (v : Reg32) : (s.setReg a v).plumb = s.plumb := rfl
@[simp] theorem State.setReg_ports (s : State) (a : Nat) (v : Reg32) : (s.setReg a v).ports = s.ports := rfl
@[simp] theorem State.setReg_fcs (s : State) (a : Nat) (v : Reg32) : (s.setReg a v).fcs = s.fcs := rfl
@[simp] theorem State.setReg_mortar (s : State) (a : Nat) (v : Reg32) : (s.setReg a v).mortar = s.mortar := rfl
@[simp] theorem State.setReg_cans (s : State) (a : Nat) (v : Reg32) : (s.setReg a v).cans = s.cans := rfl
@[simp] theorem State.setReg_anchor (s : State) (a : Nat) (v : Reg32) : (s.setReg a v).anchor = s.anchor := rfl
@[simp] theorem State.setReg_field (s : State) (a : Nat) (v : Reg32) : (s.setReg a v).field = s.field := rfl
@[simp] theorem State.setReg_urral (s : State) (a : Nat) (v : Reg32) : (s.setReg a v).urral = s.urral := rfl
@[simp] theorem State.setReg_canOut (s : State) (a : Nat) (v : Reg32) : (s.setReg a v).canOut = s.canOut := rfl
@[simp] theorem State.setReg_lineOut (s : State) (a : Nat) (v : Reg32) : (s.setReg a v).lineOut = s.lineOut := rfl
@[simp] theorem State.setReg_chainOut (s : State) (a : Nat) (v : Reg32) : (s.setReg a v).chainOut = s.chainOut := rfl

/-! ### State.setCan -/

@[simp] theorem State.setCan_pending (s : State) (n : Fin 8) (c : Can) : (s.setCan n c).pending = s.pending := rfl
@[simp] theorem State.setCan_freeCtr (s : State) (n : Fin 8) (c : Can) : (s.setCan n c).freeCtr = s.freeCtr := rfl
@[simp] theorem State.setCan_readValue (s : State) (n : Fin 8) (c : Can) : (s.setCan n c).readValue = s.readValue := rfl
@[simp] theorem State.setCan_now (s : State) (n : Fin 8) (c : Can) : (s.setCan n c).now = s.now := rfl
@[simp] theorem State.setCan_tick (s : State) (n : Fin 8) (c : Can) : (s.setCan n c).tick = s.tick := rfl
@[simp] theorem State.setCan_fieldFitted (s : State) (n : Fin 8) (c : Can) : (s.setCan n c).fieldFitted = s.fieldFitted := rfl
@[simp] theorem State.setCan_regs (s : State) (n : Fin 8) (c : Can) : (s.setCan n c).regs = s.regs := rfl
@[simp] theorem State.setCan_flash (s : State) (n : Fin 8) (c : Can) : (s.setCan n c).flash = s.flash := rfl
@[simp] theorem State.setCan_otp (s : State) (n : Fin 8) (c : Can) : (s.setCan n c).otp = s.otp := rfl
@[simp] theorem State.setCan_hostMem (s : State) (n : Fin 8) (c : Can) : (s.setCan n c).hostMem = s.hostMem := rfl
@[simp] theorem State.setCan_pins (s : State) (n : Fin 8) (c : Can) : (s.setCan n c).pins = s.pins := rfl
@[simp] theorem State.setCan_power (s : State) (n : Fin 8) (c : Can) : (s.setCan n c).power = s.power := rfl
@[simp] theorem State.setCan_bricks (s : State) (n : Fin 8) (c : Can) : (s.setCan n c).bricks = s.bricks := rfl
@[simp] theorem State.setCan_tiles (s : State) (n : Fin 8) (c : Can) : (s.setCan n c).tiles = s.tiles := rfl
@[simp] theorem State.setCan_courses (s : State) (n : Fin 8) (c : Can) : (s.setCan n c).courses = s.courses := rfl
@[simp] theorem State.setCan_mailboxes (s : State) (n : Fin 8) (c : Can) : (s.setCan n c).mailboxes = s.mailboxes := rfl
@[simp] theorem State.setCan_epochs (s : State) (n : Fin 8) (c : Can) : (s.setCan n c).epochs = s.epochs := rfl
@[simp] theorem State.setCan_recorder (s : State) (n : Fin 8) (c : Can) : (s.setCan n c).recorder = s.recorder := rfl
@[simp] theorem State.setCan_journal (s : State) (n : Fin 8) (c : Can) : (s.setCan n c).journal = s.journal := rfl
@[simp] theorem State.setCan_replay (s : State) (n : Fin 8) (c : Can) : (s.setCan n c).replay = s.replay := rfl
@[simp] theorem State.setCan_pf0 (s : State) (n : Fin 8) (c : Can) : (s.setCan n c).pf0 = s.pf0 := rfl
@[simp] theorem State.setCan_pf1 (s : State) (n : Fin 8) (c : Can) : (s.setCan n c).pf1 = s.pf1 := rfl
@[simp] theorem State.setCan_rings (s : State) (n : Fin 8) (c : Can) : (s.setCan n c).rings = s.rings := rfl
@[simp] theorem State.setCan_ringLast (s : State) (n : Fin 8) (c : Can) : (s.setCan n c).ringLast = s.ringLast := rfl
@[simp] theorem State.setCan_orphPf (s : State) (n : Fin 8) (c : Can) : (s.setCan n c).orphPf = s.orphPf := rfl
@[simp] theorem State.setCan_orph (s : State) (n : Fin 8) (c : Can) : (s.setCan n c).orph = s.orph := rfl
@[simp] theorem State.setCan_keystone (s : State) (n : Fin 8) (c : Can) : (s.setCan n c).keystone = s.keystone := rfl
@[simp] theorem State.setCan_plumb (s : State) (n : Fin 8) (c : Can) : (s.setCan n c).plumb = s.plumb := rfl
@[simp] theorem State.setCan_ports (s : State) (n : Fin 8) (c : Can) : (s.setCan n c).ports = s.ports := rfl
@[simp] theorem State.setCan_fcs (s : State) (n : Fin 8) (c : Can) : (s.setCan n c).fcs = s.fcs := rfl
@[simp] theorem State.setCan_mortar (s : State) (n : Fin 8) (c : Can) : (s.setCan n c).mortar = s.mortar := rfl
@[simp] theorem State.setCan_anchor (s : State) (n : Fin 8) (c : Can) : (s.setCan n c).anchor = s.anchor := rfl
@[simp] theorem State.setCan_field (s : State) (n : Fin 8) (c : Can) : (s.setCan n c).field = s.field := rfl
@[simp] theorem State.setCan_urral (s : State) (n : Fin 8) (c : Can) : (s.setCan n c).urral = s.urral := rfl
@[simp] theorem State.setCan_canOut (s : State) (n : Fin 8) (c : Can) : (s.setCan n c).canOut = s.canOut := rfl
@[simp] theorem State.setCan_lineOut (s : State) (n : Fin 8) (c : Can) : (s.setCan n c).lineOut = s.lineOut := rfl
@[simp] theorem State.setCan_chainOut (s : State) (n : Fin 8) (c : Can) : (s.setCan n c).chainOut = s.chainOut := rfl

/-! ### State.setField -/

@[simp] theorem State.setField_pending (s : State) (x : FieldIo) : (s.setField x).pending = s.pending := rfl
@[simp] theorem State.setField_freeCtr (s : State) (x : FieldIo) : (s.setField x).freeCtr = s.freeCtr := rfl
@[simp] theorem State.setField_readValue (s : State) (x : FieldIo) : (s.setField x).readValue = s.readValue := rfl
@[simp] theorem State.setField_now (s : State) (x : FieldIo) : (s.setField x).now = s.now := rfl
@[simp] theorem State.setField_tick (s : State) (x : FieldIo) : (s.setField x).tick = s.tick := rfl
@[simp] theorem State.setField_fieldFitted (s : State) (x : FieldIo) : (s.setField x).fieldFitted = s.fieldFitted := rfl
@[simp] theorem State.setField_regs (s : State) (x : FieldIo) : (s.setField x).regs = s.regs := rfl
@[simp] theorem State.setField_flash (s : State) (x : FieldIo) : (s.setField x).flash = s.flash := rfl
@[simp] theorem State.setField_otp (s : State) (x : FieldIo) : (s.setField x).otp = s.otp := rfl
@[simp] theorem State.setField_hostMem (s : State) (x : FieldIo) : (s.setField x).hostMem = s.hostMem := rfl
@[simp] theorem State.setField_pins (s : State) (x : FieldIo) : (s.setField x).pins = s.pins := rfl
@[simp] theorem State.setField_power (s : State) (x : FieldIo) : (s.setField x).power = s.power := rfl
@[simp] theorem State.setField_bricks (s : State) (x : FieldIo) : (s.setField x).bricks = s.bricks := rfl
@[simp] theorem State.setField_tiles (s : State) (x : FieldIo) : (s.setField x).tiles = s.tiles := rfl
@[simp] theorem State.setField_courses (s : State) (x : FieldIo) : (s.setField x).courses = s.courses := rfl
@[simp] theorem State.setField_mailboxes (s : State) (x : FieldIo) : (s.setField x).mailboxes = s.mailboxes := rfl
@[simp] theorem State.setField_epochs (s : State) (x : FieldIo) : (s.setField x).epochs = s.epochs := rfl
@[simp] theorem State.setField_recorder (s : State) (x : FieldIo) : (s.setField x).recorder = s.recorder := rfl
@[simp] theorem State.setField_journal (s : State) (x : FieldIo) : (s.setField x).journal = s.journal := rfl
@[simp] theorem State.setField_replay (s : State) (x : FieldIo) : (s.setField x).replay = s.replay := rfl
@[simp] theorem State.setField_pf0 (s : State) (x : FieldIo) : (s.setField x).pf0 = s.pf0 := rfl
@[simp] theorem State.setField_pf1 (s : State) (x : FieldIo) : (s.setField x).pf1 = s.pf1 := rfl
@[simp] theorem State.setField_rings (s : State) (x : FieldIo) : (s.setField x).rings = s.rings := rfl
@[simp] theorem State.setField_ringLast (s : State) (x : FieldIo) : (s.setField x).ringLast = s.ringLast := rfl
@[simp] theorem State.setField_orphPf (s : State) (x : FieldIo) : (s.setField x).orphPf = s.orphPf := rfl
@[simp] theorem State.setField_orph (s : State) (x : FieldIo) : (s.setField x).orph = s.orph := rfl
@[simp] theorem State.setField_keystone (s : State) (x : FieldIo) : (s.setField x).keystone = s.keystone := rfl
@[simp] theorem State.setField_plumb (s : State) (x : FieldIo) : (s.setField x).plumb = s.plumb := rfl
@[simp] theorem State.setField_ports (s : State) (x : FieldIo) : (s.setField x).ports = s.ports := rfl
@[simp] theorem State.setField_fcs (s : State) (x : FieldIo) : (s.setField x).fcs = s.fcs := rfl
@[simp] theorem State.setField_mortar (s : State) (x : FieldIo) : (s.setField x).mortar = s.mortar := rfl
@[simp] theorem State.setField_cans (s : State) (x : FieldIo) : (s.setField x).cans = s.cans := rfl
@[simp] theorem State.setField_anchor (s : State) (x : FieldIo) : (s.setField x).anchor = s.anchor := rfl
@[simp] theorem State.setField_urral (s : State) (x : FieldIo) : (s.setField x).urral = s.urral := rfl
@[simp] theorem State.setField_canOut (s : State) (x : FieldIo) : (s.setField x).canOut = s.canOut := rfl
@[simp] theorem State.setField_lineOut (s : State) (x : FieldIo) : (s.setField x).lineOut = s.lineOut := rfl
@[simp] theorem State.setField_chainOut (s : State) (x : FieldIo) : (s.setField x).chainOut = s.chainOut := rfl

/-! ### State.setFc -/

@[simp] theorem State.setFc_pending (s : State) (f : Fin 256) (x : FlowCtx) : (s.setFc f x).pending = s.pending := rfl
@[simp] theorem State.setFc_freeCtr (s : State) (f : Fin 256) (x : FlowCtx) : (s.setFc f x).freeCtr = s.freeCtr := rfl
@[simp] theorem State.setFc_readValue (s : State) (f : Fin 256) (x : FlowCtx) : (s.setFc f x).readValue = s.readValue := rfl
@[simp] theorem State.setFc_now (s : State) (f : Fin 256) (x : FlowCtx) : (s.setFc f x).now = s.now := rfl
@[simp] theorem State.setFc_tick (s : State) (f : Fin 256) (x : FlowCtx) : (s.setFc f x).tick = s.tick := rfl
@[simp] theorem State.setFc_fieldFitted (s : State) (f : Fin 256) (x : FlowCtx) : (s.setFc f x).fieldFitted = s.fieldFitted := rfl
@[simp] theorem State.setFc_regs (s : State) (f : Fin 256) (x : FlowCtx) : (s.setFc f x).regs = s.regs := rfl
@[simp] theorem State.setFc_flash (s : State) (f : Fin 256) (x : FlowCtx) : (s.setFc f x).flash = s.flash := rfl
@[simp] theorem State.setFc_otp (s : State) (f : Fin 256) (x : FlowCtx) : (s.setFc f x).otp = s.otp := rfl
@[simp] theorem State.setFc_hostMem (s : State) (f : Fin 256) (x : FlowCtx) : (s.setFc f x).hostMem = s.hostMem := rfl
@[simp] theorem State.setFc_pins (s : State) (f : Fin 256) (x : FlowCtx) : (s.setFc f x).pins = s.pins := rfl
@[simp] theorem State.setFc_power (s : State) (f : Fin 256) (x : FlowCtx) : (s.setFc f x).power = s.power := rfl
@[simp] theorem State.setFc_bricks (s : State) (f : Fin 256) (x : FlowCtx) : (s.setFc f x).bricks = s.bricks := rfl
@[simp] theorem State.setFc_tiles (s : State) (f : Fin 256) (x : FlowCtx) : (s.setFc f x).tiles = s.tiles := rfl
@[simp] theorem State.setFc_courses (s : State) (f : Fin 256) (x : FlowCtx) : (s.setFc f x).courses = s.courses := rfl
@[simp] theorem State.setFc_mailboxes (s : State) (f : Fin 256) (x : FlowCtx) : (s.setFc f x).mailboxes = s.mailboxes := rfl
@[simp] theorem State.setFc_epochs (s : State) (f : Fin 256) (x : FlowCtx) : (s.setFc f x).epochs = s.epochs := rfl
@[simp] theorem State.setFc_recorder (s : State) (f : Fin 256) (x : FlowCtx) : (s.setFc f x).recorder = s.recorder := rfl
@[simp] theorem State.setFc_journal (s : State) (f : Fin 256) (x : FlowCtx) : (s.setFc f x).journal = s.journal := rfl
@[simp] theorem State.setFc_replay (s : State) (f : Fin 256) (x : FlowCtx) : (s.setFc f x).replay = s.replay := rfl
@[simp] theorem State.setFc_pf0 (s : State) (f : Fin 256) (x : FlowCtx) : (s.setFc f x).pf0 = s.pf0 := rfl
@[simp] theorem State.setFc_pf1 (s : State) (f : Fin 256) (x : FlowCtx) : (s.setFc f x).pf1 = s.pf1 := rfl
@[simp] theorem State.setFc_rings (s : State) (f : Fin 256) (x : FlowCtx) : (s.setFc f x).rings = s.rings := rfl
@[simp] theorem State.setFc_ringLast (s : State) (f : Fin 256) (x : FlowCtx) : (s.setFc f x).ringLast = s.ringLast := rfl
@[simp] theorem State.setFc_orphPf (s : State) (f : Fin 256) (x : FlowCtx) : (s.setFc f x).orphPf = s.orphPf := rfl
@[simp] theorem State.setFc_orph (s : State) (f : Fin 256) (x : FlowCtx) : (s.setFc f x).orph = s.orph := rfl
@[simp] theorem State.setFc_keystone (s : State) (f : Fin 256) (x : FlowCtx) : (s.setFc f x).keystone = s.keystone := rfl
@[simp] theorem State.setFc_plumb (s : State) (f : Fin 256) (x : FlowCtx) : (s.setFc f x).plumb = s.plumb := rfl
@[simp] theorem State.setFc_ports (s : State) (f : Fin 256) (x : FlowCtx) : (s.setFc f x).ports = s.ports := rfl
@[simp] theorem State.setFc_mortar (s : State) (f : Fin 256) (x : FlowCtx) : (s.setFc f x).mortar = s.mortar := rfl
@[simp] theorem State.setFc_cans (s : State) (f : Fin 256) (x : FlowCtx) : (s.setFc f x).cans = s.cans := rfl
@[simp] theorem State.setFc_anchor (s : State) (f : Fin 256) (x : FlowCtx) : (s.setFc f x).anchor = s.anchor := rfl
@[simp] theorem State.setFc_field (s : State) (f : Fin 256) (x : FlowCtx) : (s.setFc f x).field = s.field := rfl
@[simp] theorem State.setFc_urral (s : State) (f : Fin 256) (x : FlowCtx) : (s.setFc f x).urral = s.urral := rfl
@[simp] theorem State.setFc_canOut (s : State) (f : Fin 256) (x : FlowCtx) : (s.setFc f x).canOut = s.canOut := rfl
@[simp] theorem State.setFc_lineOut (s : State) (f : Fin 256) (x : FlowCtx) : (s.setFc f x).lineOut = s.lineOut := rfl
@[simp] theorem State.setFc_chainOut (s : State) (f : Fin 256) (x : FlowCtx) : (s.setFc f x).chainOut = s.chainOut := rfl

/-! ### State.setPort -/

@[simp] theorem State.setPort_pending (s : State) (q : PortCode) (p : Port) : (s.setPort q p).pending = s.pending := rfl
@[simp] theorem State.setPort_freeCtr (s : State) (q : PortCode) (p : Port) : (s.setPort q p).freeCtr = s.freeCtr := rfl
@[simp] theorem State.setPort_readValue (s : State) (q : PortCode) (p : Port) : (s.setPort q p).readValue = s.readValue := rfl
@[simp] theorem State.setPort_now (s : State) (q : PortCode) (p : Port) : (s.setPort q p).now = s.now := rfl
@[simp] theorem State.setPort_tick (s : State) (q : PortCode) (p : Port) : (s.setPort q p).tick = s.tick := rfl
@[simp] theorem State.setPort_fieldFitted (s : State) (q : PortCode) (p : Port) : (s.setPort q p).fieldFitted = s.fieldFitted := rfl
@[simp] theorem State.setPort_regs (s : State) (q : PortCode) (p : Port) : (s.setPort q p).regs = s.regs := rfl
@[simp] theorem State.setPort_flash (s : State) (q : PortCode) (p : Port) : (s.setPort q p).flash = s.flash := rfl
@[simp] theorem State.setPort_otp (s : State) (q : PortCode) (p : Port) : (s.setPort q p).otp = s.otp := rfl
@[simp] theorem State.setPort_hostMem (s : State) (q : PortCode) (p : Port) : (s.setPort q p).hostMem = s.hostMem := rfl
@[simp] theorem State.setPort_pins (s : State) (q : PortCode) (p : Port) : (s.setPort q p).pins = s.pins := rfl
@[simp] theorem State.setPort_power (s : State) (q : PortCode) (p : Port) : (s.setPort q p).power = s.power := rfl
@[simp] theorem State.setPort_bricks (s : State) (q : PortCode) (p : Port) : (s.setPort q p).bricks = s.bricks := rfl
@[simp] theorem State.setPort_tiles (s : State) (q : PortCode) (p : Port) : (s.setPort q p).tiles = s.tiles := rfl
@[simp] theorem State.setPort_courses (s : State) (q : PortCode) (p : Port) : (s.setPort q p).courses = s.courses := rfl
@[simp] theorem State.setPort_mailboxes (s : State) (q : PortCode) (p : Port) : (s.setPort q p).mailboxes = s.mailboxes := rfl
@[simp] theorem State.setPort_epochs (s : State) (q : PortCode) (p : Port) : (s.setPort q p).epochs = s.epochs := rfl
@[simp] theorem State.setPort_recorder (s : State) (q : PortCode) (p : Port) : (s.setPort q p).recorder = s.recorder := rfl
@[simp] theorem State.setPort_journal (s : State) (q : PortCode) (p : Port) : (s.setPort q p).journal = s.journal := rfl
@[simp] theorem State.setPort_replay (s : State) (q : PortCode) (p : Port) : (s.setPort q p).replay = s.replay := rfl
@[simp] theorem State.setPort_pf0 (s : State) (q : PortCode) (p : Port) : (s.setPort q p).pf0 = s.pf0 := rfl
@[simp] theorem State.setPort_pf1 (s : State) (q : PortCode) (p : Port) : (s.setPort q p).pf1 = s.pf1 := rfl
@[simp] theorem State.setPort_rings (s : State) (q : PortCode) (p : Port) : (s.setPort q p).rings = s.rings := rfl
@[simp] theorem State.setPort_ringLast (s : State) (q : PortCode) (p : Port) : (s.setPort q p).ringLast = s.ringLast := rfl
@[simp] theorem State.setPort_orphPf (s : State) (q : PortCode) (p : Port) : (s.setPort q p).orphPf = s.orphPf := rfl
@[simp] theorem State.setPort_orph (s : State) (q : PortCode) (p : Port) : (s.setPort q p).orph = s.orph := rfl
@[simp] theorem State.setPort_keystone (s : State) (q : PortCode) (p : Port) : (s.setPort q p).keystone = s.keystone := rfl
@[simp] theorem State.setPort_plumb (s : State) (q : PortCode) (p : Port) : (s.setPort q p).plumb = s.plumb := rfl
@[simp] theorem State.setPort_fcs (s : State) (q : PortCode) (p : Port) : (s.setPort q p).fcs = s.fcs := rfl
@[simp] theorem State.setPort_mortar (s : State) (q : PortCode) (p : Port) : (s.setPort q p).mortar = s.mortar := rfl
@[simp] theorem State.setPort_cans (s : State) (q : PortCode) (p : Port) : (s.setPort q p).cans = s.cans := rfl
@[simp] theorem State.setPort_anchor (s : State) (q : PortCode) (p : Port) : (s.setPort q p).anchor = s.anchor := rfl
@[simp] theorem State.setPort_field (s : State) (q : PortCode) (p : Port) : (s.setPort q p).field = s.field := rfl
@[simp] theorem State.setPort_urral (s : State) (q : PortCode) (p : Port) : (s.setPort q p).urral = s.urral := rfl
@[simp] theorem State.setPort_canOut (s : State) (q : PortCode) (p : Port) : (s.setPort q p).canOut = s.canOut := rfl
@[simp] theorem State.setPort_lineOut (s : State) (q : PortCode) (p : Port) : (s.setPort q p).lineOut = s.lineOut := rfl
@[simp] theorem State.setPort_chainOut (s : State) (q : PortCode) (p : Port) : (s.setPort q p).chainOut = s.chainOut := rfl

/-! ### State.setDom -/

@[simp] theorem State.setDom_pending (s : State) (d : Fin 2) (x : Domain) : (s.setDom d x).pending = s.pending := rfl
@[simp] theorem State.setDom_freeCtr (s : State) (d : Fin 2) (x : Domain) : (s.setDom d x).freeCtr = s.freeCtr := rfl
@[simp] theorem State.setDom_readValue (s : State) (d : Fin 2) (x : Domain) : (s.setDom d x).readValue = s.readValue := rfl
@[simp] theorem State.setDom_now (s : State) (d : Fin 2) (x : Domain) : (s.setDom d x).now = s.now := rfl
@[simp] theorem State.setDom_tick (s : State) (d : Fin 2) (x : Domain) : (s.setDom d x).tick = s.tick := rfl
@[simp] theorem State.setDom_fieldFitted (s : State) (d : Fin 2) (x : Domain) : (s.setDom d x).fieldFitted = s.fieldFitted := rfl
@[simp] theorem State.setDom_regs (s : State) (d : Fin 2) (x : Domain) : (s.setDom d x).regs = s.regs := rfl
@[simp] theorem State.setDom_flash (s : State) (d : Fin 2) (x : Domain) : (s.setDom d x).flash = s.flash := rfl
@[simp] theorem State.setDom_otp (s : State) (d : Fin 2) (x : Domain) : (s.setDom d x).otp = s.otp := rfl
@[simp] theorem State.setDom_hostMem (s : State) (d : Fin 2) (x : Domain) : (s.setDom d x).hostMem = s.hostMem := rfl
@[simp] theorem State.setDom_pins (s : State) (d : Fin 2) (x : Domain) : (s.setDom d x).pins = s.pins := rfl
@[simp] theorem State.setDom_power (s : State) (d : Fin 2) (x : Domain) : (s.setDom d x).power = s.power := rfl
@[simp] theorem State.setDom_bricks (s : State) (d : Fin 2) (x : Domain) : (s.setDom d x).bricks = s.bricks := rfl
@[simp] theorem State.setDom_tiles (s : State) (d : Fin 2) (x : Domain) : (s.setDom d x).tiles = s.tiles := rfl
@[simp] theorem State.setDom_courses (s : State) (d : Fin 2) (x : Domain) : (s.setDom d x).courses = s.courses := rfl
@[simp] theorem State.setDom_mailboxes (s : State) (d : Fin 2) (x : Domain) : (s.setDom d x).mailboxes = s.mailboxes := rfl
@[simp] theorem State.setDom_epochs (s : State) (d : Fin 2) (x : Domain) : (s.setDom d x).epochs = s.epochs := rfl
@[simp] theorem State.setDom_recorder (s : State) (d : Fin 2) (x : Domain) : (s.setDom d x).recorder = s.recorder := rfl
@[simp] theorem State.setDom_journal (s : State) (d : Fin 2) (x : Domain) : (s.setDom d x).journal = s.journal := rfl
@[simp] theorem State.setDom_replay (s : State) (d : Fin 2) (x : Domain) : (s.setDom d x).replay = s.replay := rfl
@[simp] theorem State.setDom_pf0 (s : State) (d : Fin 2) (x : Domain) : (s.setDom d x).pf0 = s.pf0 := rfl
@[simp] theorem State.setDom_pf1 (s : State) (d : Fin 2) (x : Domain) : (s.setDom d x).pf1 = s.pf1 := rfl
@[simp] theorem State.setDom_rings (s : State) (d : Fin 2) (x : Domain) : (s.setDom d x).rings = s.rings := rfl
@[simp] theorem State.setDom_ringLast (s : State) (d : Fin 2) (x : Domain) : (s.setDom d x).ringLast = s.ringLast := rfl
@[simp] theorem State.setDom_orphPf (s : State) (d : Fin 2) (x : Domain) : (s.setDom d x).orphPf = s.orphPf := rfl
@[simp] theorem State.setDom_orph (s : State) (d : Fin 2) (x : Domain) : (s.setDom d x).orph = s.orph := rfl
@[simp] theorem State.setDom_keystone (s : State) (d : Fin 2) (x : Domain) : (s.setDom d x).keystone = s.keystone := rfl
@[simp] theorem State.setDom_ports (s : State) (d : Fin 2) (x : Domain) : (s.setDom d x).ports = s.ports := rfl
@[simp] theorem State.setDom_fcs (s : State) (d : Fin 2) (x : Domain) : (s.setDom d x).fcs = s.fcs := rfl
@[simp] theorem State.setDom_mortar (s : State) (d : Fin 2) (x : Domain) : (s.setDom d x).mortar = s.mortar := rfl
@[simp] theorem State.setDom_cans (s : State) (d : Fin 2) (x : Domain) : (s.setDom d x).cans = s.cans := rfl
@[simp] theorem State.setDom_anchor (s : State) (d : Fin 2) (x : Domain) : (s.setDom d x).anchor = s.anchor := rfl
@[simp] theorem State.setDom_field (s : State) (d : Fin 2) (x : Domain) : (s.setDom d x).field = s.field := rfl
@[simp] theorem State.setDom_urral (s : State) (d : Fin 2) (x : Domain) : (s.setDom d x).urral = s.urral := rfl
@[simp] theorem State.setDom_canOut (s : State) (d : Fin 2) (x : Domain) : (s.setDom d x).canOut = s.canOut := rfl
@[simp] theorem State.setDom_lineOut (s : State) (d : Fin 2) (x : Domain) : (s.setDom d x).lineOut = s.lineOut := rfl
@[simp] theorem State.setDom_chainOut (s : State) (d : Fin 2) (x : Domain) : (s.setDom d x).chainOut = s.chainOut := rfl

/-! ### State.setTto -/

@[simp] theorem State.setTto_pending (s : State) (n : Fin 32) (x : Tto) : (s.setTto n x).pending = s.pending := rfl
@[simp] theorem State.setTto_freeCtr (s : State) (n : Fin 32) (x : Tto) : (s.setTto n x).freeCtr = s.freeCtr := rfl
@[simp] theorem State.setTto_readValue (s : State) (n : Fin 32) (x : Tto) : (s.setTto n x).readValue = s.readValue := rfl
@[simp] theorem State.setTto_now (s : State) (n : Fin 32) (x : Tto) : (s.setTto n x).now = s.now := rfl
@[simp] theorem State.setTto_tick (s : State) (n : Fin 32) (x : Tto) : (s.setTto n x).tick = s.tick := rfl
@[simp] theorem State.setTto_fieldFitted (s : State) (n : Fin 32) (x : Tto) : (s.setTto n x).fieldFitted = s.fieldFitted := rfl
@[simp] theorem State.setTto_regs (s : State) (n : Fin 32) (x : Tto) : (s.setTto n x).regs = s.regs := rfl
@[simp] theorem State.setTto_flash (s : State) (n : Fin 32) (x : Tto) : (s.setTto n x).flash = s.flash := rfl
@[simp] theorem State.setTto_otp (s : State) (n : Fin 32) (x : Tto) : (s.setTto n x).otp = s.otp := rfl
@[simp] theorem State.setTto_hostMem (s : State) (n : Fin 32) (x : Tto) : (s.setTto n x).hostMem = s.hostMem := rfl
@[simp] theorem State.setTto_pins (s : State) (n : Fin 32) (x : Tto) : (s.setTto n x).pins = s.pins := rfl
@[simp] theorem State.setTto_power (s : State) (n : Fin 32) (x : Tto) : (s.setTto n x).power = s.power := rfl
@[simp] theorem State.setTto_bricks (s : State) (n : Fin 32) (x : Tto) : (s.setTto n x).bricks = s.bricks := rfl
@[simp] theorem State.setTto_tiles (s : State) (n : Fin 32) (x : Tto) : (s.setTto n x).tiles = s.tiles := rfl
@[simp] theorem State.setTto_courses (s : State) (n : Fin 32) (x : Tto) : (s.setTto n x).courses = s.courses := rfl
@[simp] theorem State.setTto_mailboxes (s : State) (n : Fin 32) (x : Tto) : (s.setTto n x).mailboxes = s.mailboxes := rfl
@[simp] theorem State.setTto_epochs (s : State) (n : Fin 32) (x : Tto) : (s.setTto n x).epochs = s.epochs := rfl
@[simp] theorem State.setTto_recorder (s : State) (n : Fin 32) (x : Tto) : (s.setTto n x).recorder = s.recorder := rfl
@[simp] theorem State.setTto_journal (s : State) (n : Fin 32) (x : Tto) : (s.setTto n x).journal = s.journal := rfl
@[simp] theorem State.setTto_replay (s : State) (n : Fin 32) (x : Tto) : (s.setTto n x).replay = s.replay := rfl
@[simp] theorem State.setTto_pf0 (s : State) (n : Fin 32) (x : Tto) : (s.setTto n x).pf0 = s.pf0 := rfl
@[simp] theorem State.setTto_pf1 (s : State) (n : Fin 32) (x : Tto) : (s.setTto n x).pf1 = s.pf1 := rfl
@[simp] theorem State.setTto_rings (s : State) (n : Fin 32) (x : Tto) : (s.setTto n x).rings = s.rings := rfl
@[simp] theorem State.setTto_ringLast (s : State) (n : Fin 32) (x : Tto) : (s.setTto n x).ringLast = s.ringLast := rfl
@[simp] theorem State.setTto_orphPf (s : State) (n : Fin 32) (x : Tto) : (s.setTto n x).orphPf = s.orphPf := rfl
@[simp] theorem State.setTto_orph (s : State) (n : Fin 32) (x : Tto) : (s.setTto n x).orph = s.orph := rfl
@[simp] theorem State.setTto_keystone (s : State) (n : Fin 32) (x : Tto) : (s.setTto n x).keystone = s.keystone := rfl
@[simp] theorem State.setTto_ports (s : State) (n : Fin 32) (x : Tto) : (s.setTto n x).ports = s.ports := rfl
@[simp] theorem State.setTto_fcs (s : State) (n : Fin 32) (x : Tto) : (s.setTto n x).fcs = s.fcs := rfl
@[simp] theorem State.setTto_mortar (s : State) (n : Fin 32) (x : Tto) : (s.setTto n x).mortar = s.mortar := rfl
@[simp] theorem State.setTto_cans (s : State) (n : Fin 32) (x : Tto) : (s.setTto n x).cans = s.cans := rfl
@[simp] theorem State.setTto_anchor (s : State) (n : Fin 32) (x : Tto) : (s.setTto n x).anchor = s.anchor := rfl
@[simp] theorem State.setTto_field (s : State) (n : Fin 32) (x : Tto) : (s.setTto n x).field = s.field := rfl
@[simp] theorem State.setTto_urral (s : State) (n : Fin 32) (x : Tto) : (s.setTto n x).urral = s.urral := rfl
@[simp] theorem State.setTto_canOut (s : State) (n : Fin 32) (x : Tto) : (s.setTto n x).canOut = s.canOut := rfl
@[simp] theorem State.setTto_lineOut (s : State) (n : Fin 32) (x : Tto) : (s.setTto n x).lineOut = s.lineOut := rfl
@[simp] theorem State.setTto_chainOut (s : State) (n : Fin 32) (x : Tto) : (s.setTto n x).chainOut = s.chainOut := rfl

/-! ### State.setQuad -/

@[simp] theorem State.setQuad_pending (s : State) (a : Nat) (q : BitVec 96) : (s.setQuad a q).pending = s.pending := rfl
@[simp] theorem State.setQuad_freeCtr (s : State) (a : Nat) (q : BitVec 96) : (s.setQuad a q).freeCtr = s.freeCtr := rfl
@[simp] theorem State.setQuad_readValue (s : State) (a : Nat) (q : BitVec 96) : (s.setQuad a q).readValue = s.readValue := rfl
@[simp] theorem State.setQuad_now (s : State) (a : Nat) (q : BitVec 96) : (s.setQuad a q).now = s.now := rfl
@[simp] theorem State.setQuad_tick (s : State) (a : Nat) (q : BitVec 96) : (s.setQuad a q).tick = s.tick := rfl
@[simp] theorem State.setQuad_fieldFitted (s : State) (a : Nat) (q : BitVec 96) : (s.setQuad a q).fieldFitted = s.fieldFitted := rfl
@[simp] theorem State.setQuad_regs (s : State) (a : Nat) (q : BitVec 96) : (s.setQuad a q).regs = s.regs := rfl
@[simp] theorem State.setQuad_flash (s : State) (a : Nat) (q : BitVec 96) : (s.setQuad a q).flash = s.flash := rfl
@[simp] theorem State.setQuad_otp (s : State) (a : Nat) (q : BitVec 96) : (s.setQuad a q).otp = s.otp := rfl
@[simp] theorem State.setQuad_hostMem (s : State) (a : Nat) (q : BitVec 96) : (s.setQuad a q).hostMem = s.hostMem := rfl
@[simp] theorem State.setQuad_pins (s : State) (a : Nat) (q : BitVec 96) : (s.setQuad a q).pins = s.pins := rfl
@[simp] theorem State.setQuad_power (s : State) (a : Nat) (q : BitVec 96) : (s.setQuad a q).power = s.power := rfl
@[simp] theorem State.setQuad_bricks (s : State) (a : Nat) (q : BitVec 96) : (s.setQuad a q).bricks = s.bricks := rfl
@[simp] theorem State.setQuad_tiles (s : State) (a : Nat) (q : BitVec 96) : (s.setQuad a q).tiles = s.tiles := rfl
@[simp] theorem State.setQuad_courses (s : State) (a : Nat) (q : BitVec 96) : (s.setQuad a q).courses = s.courses := rfl
@[simp] theorem State.setQuad_mailboxes (s : State) (a : Nat) (q : BitVec 96) : (s.setQuad a q).mailboxes = s.mailboxes := rfl
@[simp] theorem State.setQuad_epochs (s : State) (a : Nat) (q : BitVec 96) : (s.setQuad a q).epochs = s.epochs := rfl
@[simp] theorem State.setQuad_recorder (s : State) (a : Nat) (q : BitVec 96) : (s.setQuad a q).recorder = s.recorder := rfl
@[simp] theorem State.setQuad_journal (s : State) (a : Nat) (q : BitVec 96) : (s.setQuad a q).journal = s.journal := rfl
@[simp] theorem State.setQuad_replay (s : State) (a : Nat) (q : BitVec 96) : (s.setQuad a q).replay = s.replay := rfl
@[simp] theorem State.setQuad_pf0 (s : State) (a : Nat) (q : BitVec 96) : (s.setQuad a q).pf0 = s.pf0 := rfl
@[simp] theorem State.setQuad_pf1 (s : State) (a : Nat) (q : BitVec 96) : (s.setQuad a q).pf1 = s.pf1 := rfl
@[simp] theorem State.setQuad_rings (s : State) (a : Nat) (q : BitVec 96) : (s.setQuad a q).rings = s.rings := rfl
@[simp] theorem State.setQuad_ringLast (s : State) (a : Nat) (q : BitVec 96) : (s.setQuad a q).ringLast = s.ringLast := rfl
@[simp] theorem State.setQuad_orphPf (s : State) (a : Nat) (q : BitVec 96) : (s.setQuad a q).orphPf = s.orphPf := rfl
@[simp] theorem State.setQuad_orph (s : State) (a : Nat) (q : BitVec 96) : (s.setQuad a q).orph = s.orph := rfl
@[simp] theorem State.setQuad_keystone (s : State) (a : Nat) (q : BitVec 96) : (s.setQuad a q).keystone = s.keystone := rfl
@[simp] theorem State.setQuad_ports (s : State) (a : Nat) (q : BitVec 96) : (s.setQuad a q).ports = s.ports := rfl
@[simp] theorem State.setQuad_fcs (s : State) (a : Nat) (q : BitVec 96) : (s.setQuad a q).fcs = s.fcs := rfl
@[simp] theorem State.setQuad_mortar (s : State) (a : Nat) (q : BitVec 96) : (s.setQuad a q).mortar = s.mortar := rfl
@[simp] theorem State.setQuad_cans (s : State) (a : Nat) (q : BitVec 96) : (s.setQuad a q).cans = s.cans := rfl
@[simp] theorem State.setQuad_anchor (s : State) (a : Nat) (q : BitVec 96) : (s.setQuad a q).anchor = s.anchor := rfl
@[simp] theorem State.setQuad_field (s : State) (a : Nat) (q : BitVec 96) : (s.setQuad a q).field = s.field := rfl
@[simp] theorem State.setQuad_urral (s : State) (a : Nat) (q : BitVec 96) : (s.setQuad a q).urral = s.urral := rfl
@[simp] theorem State.setQuad_canOut (s : State) (a : Nat) (q : BitVec 96) : (s.setQuad a q).canOut = s.canOut := rfl
@[simp] theorem State.setQuad_lineOut (s : State) (a : Nat) (q : BitVec 96) : (s.setQuad a q).lineOut = s.lineOut := rfl
@[simp] theorem State.setQuad_chainOut (s : State) (a : Nat) (q : BitVec 96) : (s.setQuad a q).chainOut = s.chainOut := rfl

/-! ### State.setLatch -/

@[simp] theorem State.setLatch_pending (s : State) (a : Nat) (k : BitVec 8) (q : BitVec 96) : (s.setLatch a k q).pending = s.pending := rfl
@[simp] theorem State.setLatch_freeCtr (s : State) (a : Nat) (k : BitVec 8) (q : BitVec 96) : (s.setLatch a k q).freeCtr = s.freeCtr := rfl
@[simp] theorem State.setLatch_readValue (s : State) (a : Nat) (k : BitVec 8) (q : BitVec 96) : (s.setLatch a k q).readValue = s.readValue := rfl
@[simp] theorem State.setLatch_now (s : State) (a : Nat) (k : BitVec 8) (q : BitVec 96) : (s.setLatch a k q).now = s.now := rfl
@[simp] theorem State.setLatch_tick (s : State) (a : Nat) (k : BitVec 8) (q : BitVec 96) : (s.setLatch a k q).tick = s.tick := rfl
@[simp] theorem State.setLatch_fieldFitted (s : State) (a : Nat) (k : BitVec 8) (q : BitVec 96) : (s.setLatch a k q).fieldFitted = s.fieldFitted := rfl
@[simp] theorem State.setLatch_regs (s : State) (a : Nat) (k : BitVec 8) (q : BitVec 96) : (s.setLatch a k q).regs = s.regs := rfl
@[simp] theorem State.setLatch_flash (s : State) (a : Nat) (k : BitVec 8) (q : BitVec 96) : (s.setLatch a k q).flash = s.flash := rfl
@[simp] theorem State.setLatch_otp (s : State) (a : Nat) (k : BitVec 8) (q : BitVec 96) : (s.setLatch a k q).otp = s.otp := rfl
@[simp] theorem State.setLatch_hostMem (s : State) (a : Nat) (k : BitVec 8) (q : BitVec 96) : (s.setLatch a k q).hostMem = s.hostMem := rfl
@[simp] theorem State.setLatch_pins (s : State) (a : Nat) (k : BitVec 8) (q : BitVec 96) : (s.setLatch a k q).pins = s.pins := rfl
@[simp] theorem State.setLatch_power (s : State) (a : Nat) (k : BitVec 8) (q : BitVec 96) : (s.setLatch a k q).power = s.power := rfl
@[simp] theorem State.setLatch_bricks (s : State) (a : Nat) (k : BitVec 8) (q : BitVec 96) : (s.setLatch a k q).bricks = s.bricks := rfl
@[simp] theorem State.setLatch_tiles (s : State) (a : Nat) (k : BitVec 8) (q : BitVec 96) : (s.setLatch a k q).tiles = s.tiles := rfl
@[simp] theorem State.setLatch_courses (s : State) (a : Nat) (k : BitVec 8) (q : BitVec 96) : (s.setLatch a k q).courses = s.courses := rfl
@[simp] theorem State.setLatch_mailboxes (s : State) (a : Nat) (k : BitVec 8) (q : BitVec 96) : (s.setLatch a k q).mailboxes = s.mailboxes := rfl
@[simp] theorem State.setLatch_epochs (s : State) (a : Nat) (k : BitVec 8) (q : BitVec 96) : (s.setLatch a k q).epochs = s.epochs := rfl
@[simp] theorem State.setLatch_recorder (s : State) (a : Nat) (k : BitVec 8) (q : BitVec 96) : (s.setLatch a k q).recorder = s.recorder := rfl
@[simp] theorem State.setLatch_journal (s : State) (a : Nat) (k : BitVec 8) (q : BitVec 96) : (s.setLatch a k q).journal = s.journal := rfl
@[simp] theorem State.setLatch_replay (s : State) (a : Nat) (k : BitVec 8) (q : BitVec 96) : (s.setLatch a k q).replay = s.replay := rfl
@[simp] theorem State.setLatch_pf0 (s : State) (a : Nat) (k : BitVec 8) (q : BitVec 96) : (s.setLatch a k q).pf0 = s.pf0 := rfl
@[simp] theorem State.setLatch_pf1 (s : State) (a : Nat) (k : BitVec 8) (q : BitVec 96) : (s.setLatch a k q).pf1 = s.pf1 := rfl
@[simp] theorem State.setLatch_rings (s : State) (a : Nat) (k : BitVec 8) (q : BitVec 96) : (s.setLatch a k q).rings = s.rings := rfl
@[simp] theorem State.setLatch_ringLast (s : State) (a : Nat) (k : BitVec 8) (q : BitVec 96) : (s.setLatch a k q).ringLast = s.ringLast := rfl
@[simp] theorem State.setLatch_orphPf (s : State) (a : Nat) (k : BitVec 8) (q : BitVec 96) : (s.setLatch a k q).orphPf = s.orphPf := rfl
@[simp] theorem State.setLatch_orph (s : State) (a : Nat) (k : BitVec 8) (q : BitVec 96) : (s.setLatch a k q).orph = s.orph := rfl
@[simp] theorem State.setLatch_keystone (s : State) (a : Nat) (k : BitVec 8) (q : BitVec 96) : (s.setLatch a k q).keystone = s.keystone := rfl
@[simp] theorem State.setLatch_ports (s : State) (a : Nat) (k : BitVec 8) (q : BitVec 96) : (s.setLatch a k q).ports = s.ports := rfl
@[simp] theorem State.setLatch_fcs (s : State) (a : Nat) (k : BitVec 8) (q : BitVec 96) : (s.setLatch a k q).fcs = s.fcs := rfl
@[simp] theorem State.setLatch_mortar (s : State) (a : Nat) (k : BitVec 8) (q : BitVec 96) : (s.setLatch a k q).mortar = s.mortar := rfl
@[simp] theorem State.setLatch_cans (s : State) (a : Nat) (k : BitVec 8) (q : BitVec 96) : (s.setLatch a k q).cans = s.cans := rfl
@[simp] theorem State.setLatch_anchor (s : State) (a : Nat) (k : BitVec 8) (q : BitVec 96) : (s.setLatch a k q).anchor = s.anchor := rfl
@[simp] theorem State.setLatch_field (s : State) (a : Nat) (k : BitVec 8) (q : BitVec 96) : (s.setLatch a k q).field = s.field := rfl
@[simp] theorem State.setLatch_urral (s : State) (a : Nat) (k : BitVec 8) (q : BitVec 96) : (s.setLatch a k q).urral = s.urral := rfl
@[simp] theorem State.setLatch_canOut (s : State) (a : Nat) (k : BitVec 8) (q : BitVec 96) : (s.setLatch a k q).canOut = s.canOut := rfl
@[simp] theorem State.setLatch_lineOut (s : State) (a : Nat) (k : BitVec 8) (q : BitVec 96) : (s.setLatch a k q).lineOut = s.lineOut := rfl
@[simp] theorem State.setLatch_chainOut (s : State) (a : Nat) (k : BitVec 8) (q : BitVec 96) : (s.setLatch a k q).chainOut = s.chainOut := rfl

/-! ### State.modPower -/

@[simp] theorem State.modPower_pending (s : State) (f : Power → Power) : (s.modPower f).pending = s.pending := rfl
@[simp] theorem State.modPower_freeCtr (s : State) (f : Power → Power) : (s.modPower f).freeCtr = s.freeCtr := rfl
@[simp] theorem State.modPower_readValue (s : State) (f : Power → Power) : (s.modPower f).readValue = s.readValue := rfl
@[simp] theorem State.modPower_now (s : State) (f : Power → Power) : (s.modPower f).now = s.now := rfl
@[simp] theorem State.modPower_tick (s : State) (f : Power → Power) : (s.modPower f).tick = s.tick := rfl
@[simp] theorem State.modPower_fieldFitted (s : State) (f : Power → Power) : (s.modPower f).fieldFitted = s.fieldFitted := rfl
@[simp] theorem State.modPower_regs (s : State) (f : Power → Power) : (s.modPower f).regs = s.regs := rfl
@[simp] theorem State.modPower_flash (s : State) (f : Power → Power) : (s.modPower f).flash = s.flash := rfl
@[simp] theorem State.modPower_otp (s : State) (f : Power → Power) : (s.modPower f).otp = s.otp := rfl
@[simp] theorem State.modPower_hostMem (s : State) (f : Power → Power) : (s.modPower f).hostMem = s.hostMem := rfl
@[simp] theorem State.modPower_pins (s : State) (f : Power → Power) : (s.modPower f).pins = s.pins := rfl
@[simp] theorem State.modPower_bricks (s : State) (f : Power → Power) : (s.modPower f).bricks = s.bricks := rfl
@[simp] theorem State.modPower_tiles (s : State) (f : Power → Power) : (s.modPower f).tiles = s.tiles := rfl
@[simp] theorem State.modPower_courses (s : State) (f : Power → Power) : (s.modPower f).courses = s.courses := rfl
@[simp] theorem State.modPower_mailboxes (s : State) (f : Power → Power) : (s.modPower f).mailboxes = s.mailboxes := rfl
@[simp] theorem State.modPower_epochs (s : State) (f : Power → Power) : (s.modPower f).epochs = s.epochs := rfl
@[simp] theorem State.modPower_recorder (s : State) (f : Power → Power) : (s.modPower f).recorder = s.recorder := rfl
@[simp] theorem State.modPower_journal (s : State) (f : Power → Power) : (s.modPower f).journal = s.journal := rfl
@[simp] theorem State.modPower_replay (s : State) (f : Power → Power) : (s.modPower f).replay = s.replay := rfl
@[simp] theorem State.modPower_pf0 (s : State) (f : Power → Power) : (s.modPower f).pf0 = s.pf0 := rfl
@[simp] theorem State.modPower_pf1 (s : State) (f : Power → Power) : (s.modPower f).pf1 = s.pf1 := rfl
@[simp] theorem State.modPower_rings (s : State) (f : Power → Power) : (s.modPower f).rings = s.rings := rfl
@[simp] theorem State.modPower_ringLast (s : State) (f : Power → Power) : (s.modPower f).ringLast = s.ringLast := rfl
@[simp] theorem State.modPower_orphPf (s : State) (f : Power → Power) : (s.modPower f).orphPf = s.orphPf := rfl
@[simp] theorem State.modPower_orph (s : State) (f : Power → Power) : (s.modPower f).orph = s.orph := rfl
@[simp] theorem State.modPower_keystone (s : State) (f : Power → Power) : (s.modPower f).keystone = s.keystone := rfl
@[simp] theorem State.modPower_plumb (s : State) (f : Power → Power) : (s.modPower f).plumb = s.plumb := rfl
@[simp] theorem State.modPower_ports (s : State) (f : Power → Power) : (s.modPower f).ports = s.ports := rfl
@[simp] theorem State.modPower_fcs (s : State) (f : Power → Power) : (s.modPower f).fcs = s.fcs := rfl
@[simp] theorem State.modPower_mortar (s : State) (f : Power → Power) : (s.modPower f).mortar = s.mortar := rfl
@[simp] theorem State.modPower_cans (s : State) (f : Power → Power) : (s.modPower f).cans = s.cans := rfl
@[simp] theorem State.modPower_anchor (s : State) (f : Power → Power) : (s.modPower f).anchor = s.anchor := rfl
@[simp] theorem State.modPower_field (s : State) (f : Power → Power) : (s.modPower f).field = s.field := rfl
@[simp] theorem State.modPower_urral (s : State) (f : Power → Power) : (s.modPower f).urral = s.urral := rfl
@[simp] theorem State.modPower_canOut (s : State) (f : Power → Power) : (s.modPower f).canOut = s.canOut := rfl
@[simp] theorem State.modPower_lineOut (s : State) (f : Power → Power) : (s.modPower f).lineOut = s.lineOut := rfl
@[simp] theorem State.modPower_chainOut (s : State) (f : Power → Power) : (s.modPower f).chainOut = s.chainOut := rfl

/-! ### State.modRec -/

@[simp] theorem State.modRec_pending (s : State) (f : Recorder → Recorder) : (s.modRec f).pending = s.pending := rfl
@[simp] theorem State.modRec_freeCtr (s : State) (f : Recorder → Recorder) : (s.modRec f).freeCtr = s.freeCtr := rfl
@[simp] theorem State.modRec_readValue (s : State) (f : Recorder → Recorder) : (s.modRec f).readValue = s.readValue := rfl
@[simp] theorem State.modRec_now (s : State) (f : Recorder → Recorder) : (s.modRec f).now = s.now := rfl
@[simp] theorem State.modRec_tick (s : State) (f : Recorder → Recorder) : (s.modRec f).tick = s.tick := rfl
@[simp] theorem State.modRec_fieldFitted (s : State) (f : Recorder → Recorder) : (s.modRec f).fieldFitted = s.fieldFitted := rfl
@[simp] theorem State.modRec_regs (s : State) (f : Recorder → Recorder) : (s.modRec f).regs = s.regs := rfl
@[simp] theorem State.modRec_flash (s : State) (f : Recorder → Recorder) : (s.modRec f).flash = s.flash := rfl
@[simp] theorem State.modRec_otp (s : State) (f : Recorder → Recorder) : (s.modRec f).otp = s.otp := rfl
@[simp] theorem State.modRec_hostMem (s : State) (f : Recorder → Recorder) : (s.modRec f).hostMem = s.hostMem := rfl
@[simp] theorem State.modRec_pins (s : State) (f : Recorder → Recorder) : (s.modRec f).pins = s.pins := rfl
@[simp] theorem State.modRec_power (s : State) (f : Recorder → Recorder) : (s.modRec f).power = s.power := rfl
@[simp] theorem State.modRec_bricks (s : State) (f : Recorder → Recorder) : (s.modRec f).bricks = s.bricks := rfl
@[simp] theorem State.modRec_tiles (s : State) (f : Recorder → Recorder) : (s.modRec f).tiles = s.tiles := rfl
@[simp] theorem State.modRec_courses (s : State) (f : Recorder → Recorder) : (s.modRec f).courses = s.courses := rfl
@[simp] theorem State.modRec_mailboxes (s : State) (f : Recorder → Recorder) : (s.modRec f).mailboxes = s.mailboxes := rfl
@[simp] theorem State.modRec_epochs (s : State) (f : Recorder → Recorder) : (s.modRec f).epochs = s.epochs := rfl
@[simp] theorem State.modRec_journal (s : State) (f : Recorder → Recorder) : (s.modRec f).journal = s.journal := rfl
@[simp] theorem State.modRec_replay (s : State) (f : Recorder → Recorder) : (s.modRec f).replay = s.replay := rfl
@[simp] theorem State.modRec_pf0 (s : State) (f : Recorder → Recorder) : (s.modRec f).pf0 = s.pf0 := rfl
@[simp] theorem State.modRec_pf1 (s : State) (f : Recorder → Recorder) : (s.modRec f).pf1 = s.pf1 := rfl
@[simp] theorem State.modRec_rings (s : State) (f : Recorder → Recorder) : (s.modRec f).rings = s.rings := rfl
@[simp] theorem State.modRec_ringLast (s : State) (f : Recorder → Recorder) : (s.modRec f).ringLast = s.ringLast := rfl
@[simp] theorem State.modRec_orphPf (s : State) (f : Recorder → Recorder) : (s.modRec f).orphPf = s.orphPf := rfl
@[simp] theorem State.modRec_orph (s : State) (f : Recorder → Recorder) : (s.modRec f).orph = s.orph := rfl
@[simp] theorem State.modRec_keystone (s : State) (f : Recorder → Recorder) : (s.modRec f).keystone = s.keystone := rfl
@[simp] theorem State.modRec_plumb (s : State) (f : Recorder → Recorder) : (s.modRec f).plumb = s.plumb := rfl
@[simp] theorem State.modRec_ports (s : State) (f : Recorder → Recorder) : (s.modRec f).ports = s.ports := rfl
@[simp] theorem State.modRec_fcs (s : State) (f : Recorder → Recorder) : (s.modRec f).fcs = s.fcs := rfl
@[simp] theorem State.modRec_mortar (s : State) (f : Recorder → Recorder) : (s.modRec f).mortar = s.mortar := rfl
@[simp] theorem State.modRec_cans (s : State) (f : Recorder → Recorder) : (s.modRec f).cans = s.cans := rfl
@[simp] theorem State.modRec_anchor (s : State) (f : Recorder → Recorder) : (s.modRec f).anchor = s.anchor := rfl
@[simp] theorem State.modRec_field (s : State) (f : Recorder → Recorder) : (s.modRec f).field = s.field := rfl
@[simp] theorem State.modRec_urral (s : State) (f : Recorder → Recorder) : (s.modRec f).urral = s.urral := rfl
@[simp] theorem State.modRec_canOut (s : State) (f : Recorder → Recorder) : (s.modRec f).canOut = s.canOut := rfl
@[simp] theorem State.modRec_lineOut (s : State) (f : Recorder → Recorder) : (s.modRec f).lineOut = s.lineOut := rfl
@[simp] theorem State.modRec_chainOut (s : State) (f : Recorder → Recorder) : (s.modRec f).chainOut = s.chainOut := rfl

/-! ### State.modKeystone -/

@[simp] theorem State.modKeystone_pending (s : State) (f : Keystone → Keystone) : (s.modKeystone f).pending = s.pending := rfl
@[simp] theorem State.modKeystone_freeCtr (s : State) (f : Keystone → Keystone) : (s.modKeystone f).freeCtr = s.freeCtr := rfl
@[simp] theorem State.modKeystone_readValue (s : State) (f : Keystone → Keystone) : (s.modKeystone f).readValue = s.readValue := rfl
@[simp] theorem State.modKeystone_now (s : State) (f : Keystone → Keystone) : (s.modKeystone f).now = s.now := rfl
@[simp] theorem State.modKeystone_tick (s : State) (f : Keystone → Keystone) : (s.modKeystone f).tick = s.tick := rfl
@[simp] theorem State.modKeystone_fieldFitted (s : State) (f : Keystone → Keystone) : (s.modKeystone f).fieldFitted = s.fieldFitted := rfl
@[simp] theorem State.modKeystone_regs (s : State) (f : Keystone → Keystone) : (s.modKeystone f).regs = s.regs := rfl
@[simp] theorem State.modKeystone_flash (s : State) (f : Keystone → Keystone) : (s.modKeystone f).flash = s.flash := rfl
@[simp] theorem State.modKeystone_otp (s : State) (f : Keystone → Keystone) : (s.modKeystone f).otp = s.otp := rfl
@[simp] theorem State.modKeystone_hostMem (s : State) (f : Keystone → Keystone) : (s.modKeystone f).hostMem = s.hostMem := rfl
@[simp] theorem State.modKeystone_pins (s : State) (f : Keystone → Keystone) : (s.modKeystone f).pins = s.pins := rfl
@[simp] theorem State.modKeystone_power (s : State) (f : Keystone → Keystone) : (s.modKeystone f).power = s.power := rfl
@[simp] theorem State.modKeystone_bricks (s : State) (f : Keystone → Keystone) : (s.modKeystone f).bricks = s.bricks := rfl
@[simp] theorem State.modKeystone_tiles (s : State) (f : Keystone → Keystone) : (s.modKeystone f).tiles = s.tiles := rfl
@[simp] theorem State.modKeystone_courses (s : State) (f : Keystone → Keystone) : (s.modKeystone f).courses = s.courses := rfl
@[simp] theorem State.modKeystone_mailboxes (s : State) (f : Keystone → Keystone) : (s.modKeystone f).mailboxes = s.mailboxes := rfl
@[simp] theorem State.modKeystone_epochs (s : State) (f : Keystone → Keystone) : (s.modKeystone f).epochs = s.epochs := rfl
@[simp] theorem State.modKeystone_recorder (s : State) (f : Keystone → Keystone) : (s.modKeystone f).recorder = s.recorder := rfl
@[simp] theorem State.modKeystone_journal (s : State) (f : Keystone → Keystone) : (s.modKeystone f).journal = s.journal := rfl
@[simp] theorem State.modKeystone_replay (s : State) (f : Keystone → Keystone) : (s.modKeystone f).replay = s.replay := rfl
@[simp] theorem State.modKeystone_pf0 (s : State) (f : Keystone → Keystone) : (s.modKeystone f).pf0 = s.pf0 := rfl
@[simp] theorem State.modKeystone_pf1 (s : State) (f : Keystone → Keystone) : (s.modKeystone f).pf1 = s.pf1 := rfl
@[simp] theorem State.modKeystone_rings (s : State) (f : Keystone → Keystone) : (s.modKeystone f).rings = s.rings := rfl
@[simp] theorem State.modKeystone_ringLast (s : State) (f : Keystone → Keystone) : (s.modKeystone f).ringLast = s.ringLast := rfl
@[simp] theorem State.modKeystone_orphPf (s : State) (f : Keystone → Keystone) : (s.modKeystone f).orphPf = s.orphPf := rfl
@[simp] theorem State.modKeystone_orph (s : State) (f : Keystone → Keystone) : (s.modKeystone f).orph = s.orph := rfl
@[simp] theorem State.modKeystone_plumb (s : State) (f : Keystone → Keystone) : (s.modKeystone f).plumb = s.plumb := rfl
@[simp] theorem State.modKeystone_ports (s : State) (f : Keystone → Keystone) : (s.modKeystone f).ports = s.ports := rfl
@[simp] theorem State.modKeystone_fcs (s : State) (f : Keystone → Keystone) : (s.modKeystone f).fcs = s.fcs := rfl
@[simp] theorem State.modKeystone_mortar (s : State) (f : Keystone → Keystone) : (s.modKeystone f).mortar = s.mortar := rfl
@[simp] theorem State.modKeystone_cans (s : State) (f : Keystone → Keystone) : (s.modKeystone f).cans = s.cans := rfl
@[simp] theorem State.modKeystone_anchor (s : State) (f : Keystone → Keystone) : (s.modKeystone f).anchor = s.anchor := rfl
@[simp] theorem State.modKeystone_field (s : State) (f : Keystone → Keystone) : (s.modKeystone f).field = s.field := rfl
@[simp] theorem State.modKeystone_urral (s : State) (f : Keystone → Keystone) : (s.modKeystone f).urral = s.urral := rfl
@[simp] theorem State.modKeystone_canOut (s : State) (f : Keystone → Keystone) : (s.modKeystone f).canOut = s.canOut := rfl
@[simp] theorem State.modKeystone_lineOut (s : State) (f : Keystone → Keystone) : (s.modKeystone f).lineOut = s.lineOut := rfl
@[simp] theorem State.modKeystone_chainOut (s : State) (f : Keystone → Keystone) : (s.modKeystone f).chainOut = s.chainOut := rfl

/-! ### State.modJournal -/

@[simp] theorem State.modJournal_pending (s : State) (f : Journal → Journal) : (s.modJournal f).pending = s.pending := rfl
@[simp] theorem State.modJournal_freeCtr (s : State) (f : Journal → Journal) : (s.modJournal f).freeCtr = s.freeCtr := rfl
@[simp] theorem State.modJournal_readValue (s : State) (f : Journal → Journal) : (s.modJournal f).readValue = s.readValue := rfl
@[simp] theorem State.modJournal_now (s : State) (f : Journal → Journal) : (s.modJournal f).now = s.now := rfl
@[simp] theorem State.modJournal_tick (s : State) (f : Journal → Journal) : (s.modJournal f).tick = s.tick := rfl
@[simp] theorem State.modJournal_fieldFitted (s : State) (f : Journal → Journal) : (s.modJournal f).fieldFitted = s.fieldFitted := rfl
@[simp] theorem State.modJournal_regs (s : State) (f : Journal → Journal) : (s.modJournal f).regs = s.regs := rfl
@[simp] theorem State.modJournal_flash (s : State) (f : Journal → Journal) : (s.modJournal f).flash = s.flash := rfl
@[simp] theorem State.modJournal_otp (s : State) (f : Journal → Journal) : (s.modJournal f).otp = s.otp := rfl
@[simp] theorem State.modJournal_hostMem (s : State) (f : Journal → Journal) : (s.modJournal f).hostMem = s.hostMem := rfl
@[simp] theorem State.modJournal_pins (s : State) (f : Journal → Journal) : (s.modJournal f).pins = s.pins := rfl
@[simp] theorem State.modJournal_power (s : State) (f : Journal → Journal) : (s.modJournal f).power = s.power := rfl
@[simp] theorem State.modJournal_bricks (s : State) (f : Journal → Journal) : (s.modJournal f).bricks = s.bricks := rfl
@[simp] theorem State.modJournal_tiles (s : State) (f : Journal → Journal) : (s.modJournal f).tiles = s.tiles := rfl
@[simp] theorem State.modJournal_courses (s : State) (f : Journal → Journal) : (s.modJournal f).courses = s.courses := rfl
@[simp] theorem State.modJournal_mailboxes (s : State) (f : Journal → Journal) : (s.modJournal f).mailboxes = s.mailboxes := rfl
@[simp] theorem State.modJournal_epochs (s : State) (f : Journal → Journal) : (s.modJournal f).epochs = s.epochs := rfl
@[simp] theorem State.modJournal_recorder (s : State) (f : Journal → Journal) : (s.modJournal f).recorder = s.recorder := rfl
@[simp] theorem State.modJournal_replay (s : State) (f : Journal → Journal) : (s.modJournal f).replay = s.replay := rfl
@[simp] theorem State.modJournal_pf0 (s : State) (f : Journal → Journal) : (s.modJournal f).pf0 = s.pf0 := rfl
@[simp] theorem State.modJournal_pf1 (s : State) (f : Journal → Journal) : (s.modJournal f).pf1 = s.pf1 := rfl
@[simp] theorem State.modJournal_rings (s : State) (f : Journal → Journal) : (s.modJournal f).rings = s.rings := rfl
@[simp] theorem State.modJournal_ringLast (s : State) (f : Journal → Journal) : (s.modJournal f).ringLast = s.ringLast := rfl
@[simp] theorem State.modJournal_orphPf (s : State) (f : Journal → Journal) : (s.modJournal f).orphPf = s.orphPf := rfl
@[simp] theorem State.modJournal_orph (s : State) (f : Journal → Journal) : (s.modJournal f).orph = s.orph := rfl
@[simp] theorem State.modJournal_keystone (s : State) (f : Journal → Journal) : (s.modJournal f).keystone = s.keystone := rfl
@[simp] theorem State.modJournal_plumb (s : State) (f : Journal → Journal) : (s.modJournal f).plumb = s.plumb := rfl
@[simp] theorem State.modJournal_ports (s : State) (f : Journal → Journal) : (s.modJournal f).ports = s.ports := rfl
@[simp] theorem State.modJournal_fcs (s : State) (f : Journal → Journal) : (s.modJournal f).fcs = s.fcs := rfl
@[simp] theorem State.modJournal_mortar (s : State) (f : Journal → Journal) : (s.modJournal f).mortar = s.mortar := rfl
@[simp] theorem State.modJournal_cans (s : State) (f : Journal → Journal) : (s.modJournal f).cans = s.cans := rfl
@[simp] theorem State.modJournal_anchor (s : State) (f : Journal → Journal) : (s.modJournal f).anchor = s.anchor := rfl
@[simp] theorem State.modJournal_field (s : State) (f : Journal → Journal) : (s.modJournal f).field = s.field := rfl
@[simp] theorem State.modJournal_urral (s : State) (f : Journal → Journal) : (s.modJournal f).urral = s.urral := rfl
@[simp] theorem State.modJournal_canOut (s : State) (f : Journal → Journal) : (s.modJournal f).canOut = s.canOut := rfl
@[simp] theorem State.modJournal_lineOut (s : State) (f : Journal → Journal) : (s.modJournal f).lineOut = s.lineOut := rfl
@[simp] theorem State.modJournal_chainOut (s : State) (f : Journal → Journal) : (s.modJournal f).chainOut = s.chainOut := rfl

/-! ### State.modReplay -/

@[simp] theorem State.modReplay_pending (s : State) (f : Replay → Replay) : (s.modReplay f).pending = s.pending := rfl
@[simp] theorem State.modReplay_freeCtr (s : State) (f : Replay → Replay) : (s.modReplay f).freeCtr = s.freeCtr := rfl
@[simp] theorem State.modReplay_readValue (s : State) (f : Replay → Replay) : (s.modReplay f).readValue = s.readValue := rfl
@[simp] theorem State.modReplay_now (s : State) (f : Replay → Replay) : (s.modReplay f).now = s.now := rfl
@[simp] theorem State.modReplay_tick (s : State) (f : Replay → Replay) : (s.modReplay f).tick = s.tick := rfl
@[simp] theorem State.modReplay_fieldFitted (s : State) (f : Replay → Replay) : (s.modReplay f).fieldFitted = s.fieldFitted := rfl
@[simp] theorem State.modReplay_regs (s : State) (f : Replay → Replay) : (s.modReplay f).regs = s.regs := rfl
@[simp] theorem State.modReplay_flash (s : State) (f : Replay → Replay) : (s.modReplay f).flash = s.flash := rfl
@[simp] theorem State.modReplay_otp (s : State) (f : Replay → Replay) : (s.modReplay f).otp = s.otp := rfl
@[simp] theorem State.modReplay_hostMem (s : State) (f : Replay → Replay) : (s.modReplay f).hostMem = s.hostMem := rfl
@[simp] theorem State.modReplay_pins (s : State) (f : Replay → Replay) : (s.modReplay f).pins = s.pins := rfl
@[simp] theorem State.modReplay_power (s : State) (f : Replay → Replay) : (s.modReplay f).power = s.power := rfl
@[simp] theorem State.modReplay_bricks (s : State) (f : Replay → Replay) : (s.modReplay f).bricks = s.bricks := rfl
@[simp] theorem State.modReplay_tiles (s : State) (f : Replay → Replay) : (s.modReplay f).tiles = s.tiles := rfl
@[simp] theorem State.modReplay_courses (s : State) (f : Replay → Replay) : (s.modReplay f).courses = s.courses := rfl
@[simp] theorem State.modReplay_mailboxes (s : State) (f : Replay → Replay) : (s.modReplay f).mailboxes = s.mailboxes := rfl
@[simp] theorem State.modReplay_epochs (s : State) (f : Replay → Replay) : (s.modReplay f).epochs = s.epochs := rfl
@[simp] theorem State.modReplay_recorder (s : State) (f : Replay → Replay) : (s.modReplay f).recorder = s.recorder := rfl
@[simp] theorem State.modReplay_journal (s : State) (f : Replay → Replay) : (s.modReplay f).journal = s.journal := rfl
@[simp] theorem State.modReplay_pf0 (s : State) (f : Replay → Replay) : (s.modReplay f).pf0 = s.pf0 := rfl
@[simp] theorem State.modReplay_pf1 (s : State) (f : Replay → Replay) : (s.modReplay f).pf1 = s.pf1 := rfl
@[simp] theorem State.modReplay_rings (s : State) (f : Replay → Replay) : (s.modReplay f).rings = s.rings := rfl
@[simp] theorem State.modReplay_ringLast (s : State) (f : Replay → Replay) : (s.modReplay f).ringLast = s.ringLast := rfl
@[simp] theorem State.modReplay_orphPf (s : State) (f : Replay → Replay) : (s.modReplay f).orphPf = s.orphPf := rfl
@[simp] theorem State.modReplay_orph (s : State) (f : Replay → Replay) : (s.modReplay f).orph = s.orph := rfl
@[simp] theorem State.modReplay_keystone (s : State) (f : Replay → Replay) : (s.modReplay f).keystone = s.keystone := rfl
@[simp] theorem State.modReplay_plumb (s : State) (f : Replay → Replay) : (s.modReplay f).plumb = s.plumb := rfl
@[simp] theorem State.modReplay_ports (s : State) (f : Replay → Replay) : (s.modReplay f).ports = s.ports := rfl
@[simp] theorem State.modReplay_fcs (s : State) (f : Replay → Replay) : (s.modReplay f).fcs = s.fcs := rfl
@[simp] theorem State.modReplay_mortar (s : State) (f : Replay → Replay) : (s.modReplay f).mortar = s.mortar := rfl
@[simp] theorem State.modReplay_cans (s : State) (f : Replay → Replay) : (s.modReplay f).cans = s.cans := rfl
@[simp] theorem State.modReplay_anchor (s : State) (f : Replay → Replay) : (s.modReplay f).anchor = s.anchor := rfl
@[simp] theorem State.modReplay_field (s : State) (f : Replay → Replay) : (s.modReplay f).field = s.field := rfl
@[simp] theorem State.modReplay_urral (s : State) (f : Replay → Replay) : (s.modReplay f).urral = s.urral := rfl
@[simp] theorem State.modReplay_canOut (s : State) (f : Replay → Replay) : (s.modReplay f).canOut = s.canOut := rfl
@[simp] theorem State.modReplay_lineOut (s : State) (f : Replay → Replay) : (s.modReplay f).lineOut = s.lineOut := rfl
@[simp] theorem State.modReplay_chainOut (s : State) (f : Replay → Replay) : (s.modReplay f).chainOut = s.chainOut := rfl

/-! ### State.modUrral -/

@[simp] theorem State.modUrral_pending (s : State) (f : Urral → Urral) : (s.modUrral f).pending = s.pending := rfl
@[simp] theorem State.modUrral_freeCtr (s : State) (f : Urral → Urral) : (s.modUrral f).freeCtr = s.freeCtr := rfl
@[simp] theorem State.modUrral_readValue (s : State) (f : Urral → Urral) : (s.modUrral f).readValue = s.readValue := rfl
@[simp] theorem State.modUrral_now (s : State) (f : Urral → Urral) : (s.modUrral f).now = s.now := rfl
@[simp] theorem State.modUrral_tick (s : State) (f : Urral → Urral) : (s.modUrral f).tick = s.tick := rfl
@[simp] theorem State.modUrral_fieldFitted (s : State) (f : Urral → Urral) : (s.modUrral f).fieldFitted = s.fieldFitted := rfl
@[simp] theorem State.modUrral_regs (s : State) (f : Urral → Urral) : (s.modUrral f).regs = s.regs := rfl
@[simp] theorem State.modUrral_flash (s : State) (f : Urral → Urral) : (s.modUrral f).flash = s.flash := rfl
@[simp] theorem State.modUrral_otp (s : State) (f : Urral → Urral) : (s.modUrral f).otp = s.otp := rfl
@[simp] theorem State.modUrral_hostMem (s : State) (f : Urral → Urral) : (s.modUrral f).hostMem = s.hostMem := rfl
@[simp] theorem State.modUrral_pins (s : State) (f : Urral → Urral) : (s.modUrral f).pins = s.pins := rfl
@[simp] theorem State.modUrral_power (s : State) (f : Urral → Urral) : (s.modUrral f).power = s.power := rfl
@[simp] theorem State.modUrral_bricks (s : State) (f : Urral → Urral) : (s.modUrral f).bricks = s.bricks := rfl
@[simp] theorem State.modUrral_tiles (s : State) (f : Urral → Urral) : (s.modUrral f).tiles = s.tiles := rfl
@[simp] theorem State.modUrral_courses (s : State) (f : Urral → Urral) : (s.modUrral f).courses = s.courses := rfl
@[simp] theorem State.modUrral_mailboxes (s : State) (f : Urral → Urral) : (s.modUrral f).mailboxes = s.mailboxes := rfl
@[simp] theorem State.modUrral_epochs (s : State) (f : Urral → Urral) : (s.modUrral f).epochs = s.epochs := rfl
@[simp] theorem State.modUrral_recorder (s : State) (f : Urral → Urral) : (s.modUrral f).recorder = s.recorder := rfl
@[simp] theorem State.modUrral_journal (s : State) (f : Urral → Urral) : (s.modUrral f).journal = s.journal := rfl
@[simp] theorem State.modUrral_replay (s : State) (f : Urral → Urral) : (s.modUrral f).replay = s.replay := rfl
@[simp] theorem State.modUrral_pf0 (s : State) (f : Urral → Urral) : (s.modUrral f).pf0 = s.pf0 := rfl
@[simp] theorem State.modUrral_pf1 (s : State) (f : Urral → Urral) : (s.modUrral f).pf1 = s.pf1 := rfl
@[simp] theorem State.modUrral_rings (s : State) (f : Urral → Urral) : (s.modUrral f).rings = s.rings := rfl
@[simp] theorem State.modUrral_ringLast (s : State) (f : Urral → Urral) : (s.modUrral f).ringLast = s.ringLast := rfl
@[simp] theorem State.modUrral_orphPf (s : State) (f : Urral → Urral) : (s.modUrral f).orphPf = s.orphPf := rfl
@[simp] theorem State.modUrral_orph (s : State) (f : Urral → Urral) : (s.modUrral f).orph = s.orph := rfl
@[simp] theorem State.modUrral_keystone (s : State) (f : Urral → Urral) : (s.modUrral f).keystone = s.keystone := rfl
@[simp] theorem State.modUrral_plumb (s : State) (f : Urral → Urral) : (s.modUrral f).plumb = s.plumb := rfl
@[simp] theorem State.modUrral_ports (s : State) (f : Urral → Urral) : (s.modUrral f).ports = s.ports := rfl
@[simp] theorem State.modUrral_fcs (s : State) (f : Urral → Urral) : (s.modUrral f).fcs = s.fcs := rfl
@[simp] theorem State.modUrral_mortar (s : State) (f : Urral → Urral) : (s.modUrral f).mortar = s.mortar := rfl
@[simp] theorem State.modUrral_cans (s : State) (f : Urral → Urral) : (s.modUrral f).cans = s.cans := rfl
@[simp] theorem State.modUrral_anchor (s : State) (f : Urral → Urral) : (s.modUrral f).anchor = s.anchor := rfl
@[simp] theorem State.modUrral_field (s : State) (f : Urral → Urral) : (s.modUrral f).field = s.field := rfl
@[simp] theorem State.modUrral_canOut (s : State) (f : Urral → Urral) : (s.modUrral f).canOut = s.canOut := rfl
@[simp] theorem State.modUrral_lineOut (s : State) (f : Urral → Urral) : (s.modUrral f).lineOut = s.lineOut := rfl
@[simp] theorem State.modUrral_chainOut (s : State) (f : Urral → Urral) : (s.modUrral f).chainOut = s.chainOut := rfl

/-! ### State.at_ -/

@[simp] theorem State.atTime_pending (s : State) (t : Nat) : (s.at_ t).pending = s.pending := rfl
@[simp] theorem State.atTime_freeCtr (s : State) (t : Nat) : (s.at_ t).freeCtr = s.freeCtr := rfl
@[simp] theorem State.atTime_readValue (s : State) (t : Nat) : (s.at_ t).readValue = s.readValue := rfl
@[simp] theorem State.atTime_tick (s : State) (t : Nat) : (s.at_ t).tick = s.tick := rfl
@[simp] theorem State.atTime_fieldFitted (s : State) (t : Nat) : (s.at_ t).fieldFitted = s.fieldFitted := rfl
@[simp] theorem State.atTime_regs (s : State) (t : Nat) : (s.at_ t).regs = s.regs := rfl
@[simp] theorem State.atTime_flash (s : State) (t : Nat) : (s.at_ t).flash = s.flash := rfl
@[simp] theorem State.atTime_otp (s : State) (t : Nat) : (s.at_ t).otp = s.otp := rfl
@[simp] theorem State.atTime_hostMem (s : State) (t : Nat) : (s.at_ t).hostMem = s.hostMem := rfl
@[simp] theorem State.atTime_pins (s : State) (t : Nat) : (s.at_ t).pins = s.pins := rfl
@[simp] theorem State.atTime_power (s : State) (t : Nat) : (s.at_ t).power = s.power := rfl
@[simp] theorem State.atTime_bricks (s : State) (t : Nat) : (s.at_ t).bricks = s.bricks := rfl
@[simp] theorem State.atTime_tiles (s : State) (t : Nat) : (s.at_ t).tiles = s.tiles := rfl
@[simp] theorem State.atTime_courses (s : State) (t : Nat) : (s.at_ t).courses = s.courses := rfl
@[simp] theorem State.atTime_mailboxes (s : State) (t : Nat) : (s.at_ t).mailboxes = s.mailboxes := rfl
@[simp] theorem State.atTime_epochs (s : State) (t : Nat) : (s.at_ t).epochs = s.epochs := rfl
@[simp] theorem State.atTime_recorder (s : State) (t : Nat) : (s.at_ t).recorder = s.recorder := rfl
@[simp] theorem State.atTime_journal (s : State) (t : Nat) : (s.at_ t).journal = s.journal := rfl
@[simp] theorem State.atTime_replay (s : State) (t : Nat) : (s.at_ t).replay = s.replay := rfl
@[simp] theorem State.atTime_pf0 (s : State) (t : Nat) : (s.at_ t).pf0 = s.pf0 := rfl
@[simp] theorem State.atTime_pf1 (s : State) (t : Nat) : (s.at_ t).pf1 = s.pf1 := rfl
@[simp] theorem State.atTime_rings (s : State) (t : Nat) : (s.at_ t).rings = s.rings := rfl
@[simp] theorem State.atTime_ringLast (s : State) (t : Nat) : (s.at_ t).ringLast = s.ringLast := rfl
@[simp] theorem State.atTime_orphPf (s : State) (t : Nat) : (s.at_ t).orphPf = s.orphPf := rfl
@[simp] theorem State.atTime_orph (s : State) (t : Nat) : (s.at_ t).orph = s.orph := rfl
@[simp] theorem State.atTime_keystone (s : State) (t : Nat) : (s.at_ t).keystone = s.keystone := rfl
@[simp] theorem State.atTime_plumb (s : State) (t : Nat) : (s.at_ t).plumb = s.plumb := rfl
@[simp] theorem State.atTime_ports (s : State) (t : Nat) : (s.at_ t).ports = s.ports := rfl
@[simp] theorem State.atTime_fcs (s : State) (t : Nat) : (s.at_ t).fcs = s.fcs := rfl
@[simp] theorem State.atTime_mortar (s : State) (t : Nat) : (s.at_ t).mortar = s.mortar := rfl
@[simp] theorem State.atTime_cans (s : State) (t : Nat) : (s.at_ t).cans = s.cans := rfl
@[simp] theorem State.atTime_anchor (s : State) (t : Nat) : (s.at_ t).anchor = s.anchor := rfl
@[simp] theorem State.atTime_field (s : State) (t : Nat) : (s.at_ t).field = s.field := rfl
@[simp] theorem State.atTime_urral (s : State) (t : Nat) : (s.at_ t).urral = s.urral := rfl
@[simp] theorem State.atTime_canOut (s : State) (t : Nat) : (s.at_ t).canOut = s.canOut := rfl
@[simp] theorem State.atTime_lineOut (s : State) (t : Nat) : (s.at_ t).lineOut = s.lineOut := rfl
@[simp] theorem State.atTime_chainOut (s : State) (t : Nat) : (s.at_ t).chainOut = s.chainOut := rfl

/-! ### State.chainSend -/

@[simp] theorem State.chainSend_pending (s : State) (o : UrrOut) : (s.chainSend o).pending = s.pending := rfl
@[simp] theorem State.chainSend_freeCtr (s : State) (o : UrrOut) : (s.chainSend o).freeCtr = s.freeCtr := rfl
@[simp] theorem State.chainSend_readValue (s : State) (o : UrrOut) : (s.chainSend o).readValue = s.readValue := rfl
@[simp] theorem State.chainSend_now (s : State) (o : UrrOut) : (s.chainSend o).now = s.now := rfl
@[simp] theorem State.chainSend_tick (s : State) (o : UrrOut) : (s.chainSend o).tick = s.tick := rfl
@[simp] theorem State.chainSend_fieldFitted (s : State) (o : UrrOut) : (s.chainSend o).fieldFitted = s.fieldFitted := rfl
@[simp] theorem State.chainSend_regs (s : State) (o : UrrOut) : (s.chainSend o).regs = s.regs := rfl
@[simp] theorem State.chainSend_flash (s : State) (o : UrrOut) : (s.chainSend o).flash = s.flash := rfl
@[simp] theorem State.chainSend_otp (s : State) (o : UrrOut) : (s.chainSend o).otp = s.otp := rfl
@[simp] theorem State.chainSend_hostMem (s : State) (o : UrrOut) : (s.chainSend o).hostMem = s.hostMem := rfl
@[simp] theorem State.chainSend_pins (s : State) (o : UrrOut) : (s.chainSend o).pins = s.pins := rfl
@[simp] theorem State.chainSend_power (s : State) (o : UrrOut) : (s.chainSend o).power = s.power := rfl
@[simp] theorem State.chainSend_bricks (s : State) (o : UrrOut) : (s.chainSend o).bricks = s.bricks := rfl
@[simp] theorem State.chainSend_tiles (s : State) (o : UrrOut) : (s.chainSend o).tiles = s.tiles := rfl
@[simp] theorem State.chainSend_courses (s : State) (o : UrrOut) : (s.chainSend o).courses = s.courses := rfl
@[simp] theorem State.chainSend_mailboxes (s : State) (o : UrrOut) : (s.chainSend o).mailboxes = s.mailboxes := rfl
@[simp] theorem State.chainSend_epochs (s : State) (o : UrrOut) : (s.chainSend o).epochs = s.epochs := rfl
@[simp] theorem State.chainSend_recorder (s : State) (o : UrrOut) : (s.chainSend o).recorder = s.recorder := rfl
@[simp] theorem State.chainSend_journal (s : State) (o : UrrOut) : (s.chainSend o).journal = s.journal := rfl
@[simp] theorem State.chainSend_replay (s : State) (o : UrrOut) : (s.chainSend o).replay = s.replay := rfl
@[simp] theorem State.chainSend_pf0 (s : State) (o : UrrOut) : (s.chainSend o).pf0 = s.pf0 := rfl
@[simp] theorem State.chainSend_pf1 (s : State) (o : UrrOut) : (s.chainSend o).pf1 = s.pf1 := rfl
@[simp] theorem State.chainSend_rings (s : State) (o : UrrOut) : (s.chainSend o).rings = s.rings := rfl
@[simp] theorem State.chainSend_ringLast (s : State) (o : UrrOut) : (s.chainSend o).ringLast = s.ringLast := rfl
@[simp] theorem State.chainSend_orphPf (s : State) (o : UrrOut) : (s.chainSend o).orphPf = s.orphPf := rfl
@[simp] theorem State.chainSend_orph (s : State) (o : UrrOut) : (s.chainSend o).orph = s.orph := rfl
@[simp] theorem State.chainSend_keystone (s : State) (o : UrrOut) : (s.chainSend o).keystone = s.keystone := rfl
@[simp] theorem State.chainSend_plumb (s : State) (o : UrrOut) : (s.chainSend o).plumb = s.plumb := rfl
@[simp] theorem State.chainSend_ports (s : State) (o : UrrOut) : (s.chainSend o).ports = s.ports := rfl
@[simp] theorem State.chainSend_fcs (s : State) (o : UrrOut) : (s.chainSend o).fcs = s.fcs := rfl
@[simp] theorem State.chainSend_mortar (s : State) (o : UrrOut) : (s.chainSend o).mortar = s.mortar := rfl
@[simp] theorem State.chainSend_cans (s : State) (o : UrrOut) : (s.chainSend o).cans = s.cans := rfl
@[simp] theorem State.chainSend_anchor (s : State) (o : UrrOut) : (s.chainSend o).anchor = s.anchor := rfl
@[simp] theorem State.chainSend_field (s : State) (o : UrrOut) : (s.chainSend o).field = s.field := rfl
@[simp] theorem State.chainSend_urral (s : State) (o : UrrOut) : (s.chainSend o).urral = s.urral := rfl
@[simp] theorem State.chainSend_canOut (s : State) (o : UrrOut) : (s.chainSend o).canOut = s.canOut := rfl
@[simp] theorem State.chainSend_lineOut (s : State) (o : UrrOut) : (s.chainSend o).lineOut = s.lineOut := rfl

/-! ### What is updated -/

@[simp] theorem State.modPower_power (s : State) (f : Power → Power) : (s.modPower f).power = f s.power := rfl
@[simp] theorem State.modRec_recorder (s : State) (f : Recorder → Recorder) : (s.modRec f).recorder = f s.recorder := rfl
@[simp] theorem State.modKeystone_keystone (s : State) (f : Keystone → Keystone) : (s.modKeystone f).keystone = f s.keystone := rfl
@[simp] theorem State.modJournal_journal (s : State) (f : Journal → Journal) : (s.modJournal f).journal = f s.journal := rfl
@[simp] theorem State.modReplay_replay (s : State) (f : Replay → Replay) : (s.modReplay f).replay = f s.replay := rfl
@[simp] theorem State.modUrral_urral (s : State) (f : Urral → Urral) : (s.modUrral f).urral = f s.urral := rfl
@[simp] theorem State.setField_field (s : State) (x : FieldIo) : (s.setField x).field = x := rfl
@[simp] theorem State.atTime_now (s : State) (t : Nat) : (s.at_ t).now = max s.now t := rfl
@[simp] theorem State.chainSend_chainOut (s : State) (o : UrrOut) : (s.chainSend o).chainOut = s.chainOut ++ [o] := rfl
@[simp] theorem State.setReg_regs (s : State) (a : Nat) (v : Reg32) : (s.setReg a v).regs = Sparse.write regReset s.regs a v := rfl

/-! ### Updates by a function are updates by a value -/

@[simp] theorem State.modBrick_eq (s : State) (k : Fin 52) (f : Brick → Brick) : s.modBrick k f = s.setBrick k (f (s.brick k)) := rfl
@[simp] theorem State.modTile_eq (s : State) (k : Fin 208) (f : Tile → Tile) : s.modTile k f = s.setTile k (f (s.tile k)) := rfl
@[simp] theorem State.modCourse_eq (s : State) (k : Fin 13) (f : Course → Course) : s.modCourse k f = s.setCourse k (f (s.course k)) := rfl
@[simp] theorem State.modRing_eq (s : State) (k : Fin 64) (f : Ring → Ring) : s.modRing k f = s.setRing k (f (s.ring k)) := rfl
@[simp] theorem State.modCan_eq (s : State) (k : Fin 8) (f : Can → Can) : s.modCan k f = s.setCan k (f (s.can k)) := rfl
@[simp] theorem State.modFc_eq (s : State) (k : Fin 256) (f : FlowCtx → FlowCtx) : s.modFc k f = s.setFc k (f (s.fc k)) := rfl
@[simp] theorem State.modPort_eq (s : State) (k : PortCode) (f : Port → Port) : s.modPort k f = s.setPort k (f (s.port k)) := rfl
@[simp] theorem State.modDom_eq (s : State) (k : Fin 2) (f : Domain → Domain) : s.modDom k f = s.setDom k (f (s.dom k)) := rfl
@[simp] theorem State.modField_eq (s : State) (f : FieldIo → FieldIo) : s.modField f = s.setField (f s.field) := rfl
@[simp] theorem State.modDoze_eq (s : State) (f : Doze → Doze) : s.modDoze f = s.modPower (fun p => { p with doze := f p.doze }) := rfl
@[simp] theorem State.modRecord_eq (s : State) (f : StartRecord → StartRecord) : s.modRecord f = s.modPower (fun p => { p with startRec := f p.startRec }) := rfl

/-! ### Reading back -/

@[simp] theorem State.brick_setBrick (s : State) (k : Fin 52) (x : Brick) : (s.setBrick k x).brick k = x := by simp [State.brick, State.setBrick]
theorem State.brick_setBrick_ne (s : State) {j k : Fin 52} (x : Brick) (h : j ≠ k) : (s.setBrick k x).brick j = s.brick j := by
  have h1 : k.val ≠ j.val := fun e => h (Fin.ext e.symm)
  simp [State.brick, State.setBrick, h1]
@[simp] theorem State.tile_setTile (s : State) (k : Fin 208) (x : Tile) : (s.setTile k x).tile k = x := by simp [State.tile, State.setTile]
theorem State.tile_setTile_ne (s : State) {j k : Fin 208} (x : Tile) (h : j ≠ k) : (s.setTile k x).tile j = s.tile j := by
  have h1 : k.val ≠ j.val := fun e => h (Fin.ext e.symm)
  simp [State.tile, State.setTile, h1]
@[simp] theorem State.course_setCourse (s : State) (k : Fin 13) (x : Course) : (s.setCourse k x).course k = x := by simp [State.course, State.setCourse]
theorem State.course_setCourse_ne (s : State) {j k : Fin 13} (x : Course) (h : j ≠ k) : (s.setCourse k x).course j = s.course j := by
  have h1 : k.val ≠ j.val := fun e => h (Fin.ext e.symm)
  simp [State.course, State.setCourse, h1]
@[simp] theorem State.mailbox_setMailbox (s : State) (k : Fin 32) (x : Mailbox) : (s.setMailbox k x).mailbox k = x := by simp [State.mailbox, State.setMailbox]
theorem State.mailbox_setMailbox_ne (s : State) {j k : Fin 32} (x : Mailbox) (h : j ≠ k) : (s.setMailbox k x).mailbox j = s.mailbox j := by
  have h1 : k.val ≠ j.val := fun e => h (Fin.ext e.symm)
  simp [State.mailbox, State.setMailbox, h1]
@[simp] theorem State.ring_setRing (s : State) (k : Fin 64) (x : Ring) : (s.setRing k x).ring k = x := by simp [State.ring, State.setRing]
theorem State.ring_setRing_ne (s : State) {j k : Fin 64} (x : Ring) (h : j ≠ k) : (s.setRing k x).ring j = s.ring j := by
  have h1 : k.val ≠ j.val := fun e => h (Fin.ext e.symm)
  simp [State.ring, State.setRing, h1]
@[simp] theorem State.can_setCan (s : State) (k : Fin 8) (x : Can) : (s.setCan k x).can k = x := by simp [State.can, State.setCan]
theorem State.can_setCan_ne (s : State) {j k : Fin 8} (x : Can) (h : j ≠ k) : (s.setCan k x).can j = s.can j := by
  have h1 : k.val ≠ j.val := fun e => h (Fin.ext e.symm)
  simp [State.can, State.setCan, h1]
@[simp] theorem State.fc_setFc (s : State) (k : Fin 256) (x : FlowCtx) : (s.setFc k x).fc k = x := by simp [State.fc, State.setFc]
theorem State.fc_setFc_ne (s : State) {j k : Fin 256} (x : FlowCtx) (h : j ≠ k) : (s.setFc k x).fc j = s.fc j := by
  have h1 : k.val ≠ j.val := fun e => h (Fin.ext e.symm)
  simp [State.fc, State.setFc, h1]
@[simp] theorem State.port_setPort (s : State) (k : PortCode) (x : Port) : (s.setPort k x).port k = x := by simp [State.port, State.setPort]
theorem State.port_setPort_ne (s : State) {j k : PortCode} (x : Port) (h : j ≠ k) : (s.setPort k x).port j = s.port j := by
  have h1 : k.val ≠ j.val := fun e => h (Fin.ext e.symm)
  simp [State.port, State.setPort, h1]
@[simp] theorem State.dom_setDom (s : State) (d : Fin 2) (x : Domain) : (s.setDom d x).dom d = x := by simp [State.dom, State.setDom]
theorem State.dom_setDom_ne (s : State) {d e : Fin 2} (x : Domain) (h : e ≠ d) : (s.setDom d x).dom e = s.dom e := by
  have h1 : d.val ≠ e.val := fun q => h (Fin.ext q.symm)
  simp [State.dom, State.setDom, h1]
/-- A register reads back as written, once the registers are in canonical form. -/
theorem State.reg_setReg (s : State) (a : Nat) (v : Reg32) (h : Sparse.wf regReset s.regs = true) : (s.setReg a v).reg a = v :=
  Sparse.read_write_same regReset a v h
/-- A write of a register leaves the others alone. -/
theorem State.reg_setReg_ne (s : State) {a b : Nat} (v : Reg32) (h : b ≠ a) : (s.setReg a v).reg b = s.reg b :=
  Sparse.read_write_ne regReset s.regs v h

/-! ### Reads of other parts -/

@[simp] theorem State.tile_of_setBrick (s : State) (k : Fin 52) (b : Brick) (i : Fin 208) : (s.setBrick k b).tile i = s.tile i := rfl
@[simp] theorem State.course_of_setBrick (s : State) (k : Fin 52) (b : Brick) (i : Fin 13) : (s.setBrick k b).course i = s.course i := rfl
@[simp] theorem State.mailbox_of_setBrick (s : State) (k : Fin 52) (b : Brick) (i : Fin 32) : (s.setBrick k b).mailbox i = s.mailbox i := rfl
@[simp] theorem State.ring_of_setBrick (s : State) (k : Fin 52) (b : Brick) (i : Fin 64) : (s.setBrick k b).ring i = s.ring i := rfl
@[simp] theorem State.reg_of_setBrick (s : State) (k : Fin 52) (b : Brick) (i : Nat) : (s.setBrick k b).reg i = s.reg i := rfl
@[simp] theorem State.can_of_setBrick (s : State) (k : Fin 52) (b : Brick) (i : Fin 8) : (s.setBrick k b).can i = s.can i := rfl
@[simp] theorem State.port_of_setBrick (s : State) (k : Fin 52) (b : Brick) (i : PortCode) : (s.setBrick k b).port i = s.port i := rfl
@[simp] theorem State.fc_of_setBrick (s : State) (k : Fin 52) (b : Brick) (i : Fin 256) : (s.setBrick k b).fc i = s.fc i := rfl
@[simp] theorem State.brick_of_setTile (s : State) (k : Fin 208) (x : Tile) (i : Fin 52) : (s.setTile k x).brick i = s.brick i := rfl
@[simp] theorem State.course_of_setTile (s : State) (k : Fin 208) (x : Tile) (i : Fin 13) : (s.setTile k x).course i = s.course i := rfl
@[simp] theorem State.mailbox_of_setTile (s : State) (k : Fin 208) (x : Tile) (i : Fin 32) : (s.setTile k x).mailbox i = s.mailbox i := rfl
@[simp] theorem State.ring_of_setTile (s : State) (k : Fin 208) (x : Tile) (i : Fin 64) : (s.setTile k x).ring i = s.ring i := rfl
@[simp] theorem State.reg_of_setTile (s : State) (k : Fin 208) (x : Tile) (i : Nat) : (s.setTile k x).reg i = s.reg i := rfl
@[simp] theorem State.can_of_setTile (s : State) (k : Fin 208) (x : Tile) (i : Fin 8) : (s.setTile k x).can i = s.can i := rfl
@[simp] theorem State.port_of_setTile (s : State) (k : Fin 208) (x : Tile) (i : PortCode) : (s.setTile k x).port i = s.port i := rfl
@[simp] theorem State.fc_of_setTile (s : State) (k : Fin 208) (x : Tile) (i : Fin 256) : (s.setTile k x).fc i = s.fc i := rfl
@[simp] theorem State.brick_of_setCourse (s : State) (c : Fin 13) (x : Course) (i : Fin 52) : (s.setCourse c x).brick i = s.brick i := rfl
@[simp] theorem State.tile_of_setCourse (s : State) (c : Fin 13) (x : Course) (i : Fin 208) : (s.setCourse c x).tile i = s.tile i := rfl
@[simp] theorem State.mailbox_of_setCourse (s : State) (c : Fin 13) (x : Course) (i : Fin 32) : (s.setCourse c x).mailbox i = s.mailbox i := rfl
@[simp] theorem State.ring_of_setCourse (s : State) (c : Fin 13) (x : Course) (i : Fin 64) : (s.setCourse c x).ring i = s.ring i := rfl
@[simp] theorem State.reg_of_setCourse (s : State) (c : Fin 13) (x : Course) (i : Nat) : (s.setCourse c x).reg i = s.reg i := rfl
@[simp] theorem State.can_of_setCourse (s : State) (c : Fin 13) (x : Course) (i : Fin 8) : (s.setCourse c x).can i = s.can i := rfl
@[simp] theorem State.port_of_setCourse (s : State) (c : Fin 13) (x : Course) (i : PortCode) : (s.setCourse c x).port i = s.port i := rfl
@[simp] theorem State.fc_of_setCourse (s : State) (c : Fin 13) (x : Course) (i : Fin 256) : (s.setCourse c x).fc i = s.fc i := rfl
@[simp] theorem State.brick_of_setMailbox (s : State) (j : Fin 32) (m : Mailbox) (i : Fin 52) : (s.setMailbox j m).brick i = s.brick i := rfl
@[simp] theorem State.tile_of_setMailbox (s : State) (j : Fin 32) (m : Mailbox) (i : Fin 208) : (s.setMailbox j m).tile i = s.tile i := rfl
@[simp] theorem State.course_of_setMailbox (s : State) (j : Fin 32) (m : Mailbox) (i : Fin 13) : (s.setMailbox j m).course i = s.course i := rfl
@[simp] theorem State.ring_of_setMailbox (s : State) (j : Fin 32) (m : Mailbox) (i : Fin 64) : (s.setMailbox j m).ring i = s.ring i := rfl
@[simp] theorem State.reg_of_setMailbox (s : State) (j : Fin 32) (m : Mailbox) (i : Nat) : (s.setMailbox j m).reg i = s.reg i := rfl
@[simp] theorem State.can_of_setMailbox (s : State) (j : Fin 32) (m : Mailbox) (i : Fin 8) : (s.setMailbox j m).can i = s.can i := rfl
@[simp] theorem State.port_of_setMailbox (s : State) (j : Fin 32) (m : Mailbox) (i : PortCode) : (s.setMailbox j m).port i = s.port i := rfl
@[simp] theorem State.fc_of_setMailbox (s : State) (j : Fin 32) (m : Mailbox) (i : Fin 256) : (s.setMailbox j m).fc i = s.fc i := rfl
@[simp] theorem State.brick_of_setRing (s : State) (n : Fin 64) (r : Ring) (i : Fin 52) : (s.setRing n r).brick i = s.brick i := rfl
@[simp] theorem State.tile_of_setRing (s : State) (n : Fin 64) (r : Ring) (i : Fin 208) : (s.setRing n r).tile i = s.tile i := rfl
@[simp] theorem State.course_of_setRing (s : State) (n : Fin 64) (r : Ring) (i : Fin 13) : (s.setRing n r).course i = s.course i := rfl
@[simp] theorem State.mailbox_of_setRing (s : State) (n : Fin 64) (r : Ring) (i : Fin 32) : (s.setRing n r).mailbox i = s.mailbox i := rfl
@[simp] theorem State.reg_of_setRing (s : State) (n : Fin 64) (r : Ring) (i : Nat) : (s.setRing n r).reg i = s.reg i := rfl
@[simp] theorem State.can_of_setRing (s : State) (n : Fin 64) (r : Ring) (i : Fin 8) : (s.setRing n r).can i = s.can i := rfl
@[simp] theorem State.port_of_setRing (s : State) (n : Fin 64) (r : Ring) (i : PortCode) : (s.setRing n r).port i = s.port i := rfl
@[simp] theorem State.fc_of_setRing (s : State) (n : Fin 64) (r : Ring) (i : Fin 256) : (s.setRing n r).fc i = s.fc i := rfl
@[simp] theorem State.brick_of_setReg (s : State) (a : Nat) (v : Reg32) (i : Fin 52) : (s.setReg a v).brick i = s.brick i := rfl
@[simp] theorem State.tile_of_setReg (s : State) (a : Nat) (v : Reg32) (i : Fin 208) : (s.setReg a v).tile i = s.tile i := rfl
@[simp] theorem State.course_of_setReg (s : State) (a : Nat) (v : Reg32) (i : Fin 13) : (s.setReg a v).course i = s.course i := rfl
@[simp] theorem State.mailbox_of_setReg (s : State) (a : Nat) (v : Reg32) (i : Fin 32) : (s.setReg a v).mailbox i = s.mailbox i := rfl
@[simp] theorem State.ring_of_setReg (s : State) (a : Nat) (v : Reg32) (i : Fin 64) : (s.setReg a v).ring i = s.ring i := rfl
@[simp] theorem State.can_of_setReg (s : State) (a : Nat) (v : Reg32) (i : Fin 8) : (s.setReg a v).can i = s.can i := rfl
@[simp] theorem State.port_of_setReg (s : State) (a : Nat) (v : Reg32) (i : PortCode) : (s.setReg a v).port i = s.port i := rfl
@[simp] theorem State.fc_of_setReg (s : State) (a : Nat) (v : Reg32) (i : Fin 256) : (s.setReg a v).fc i = s.fc i := rfl
@[simp] theorem State.brick_of_setCan (s : State) (n : Fin 8) (c : Can) (i : Fin 52) : (s.setCan n c).brick i = s.brick i := rfl
@[simp] theorem State.tile_of_setCan (s : State) (n : Fin 8) (c : Can) (i : Fin 208) : (s.setCan n c).tile i = s.tile i := rfl
@[simp] theorem State.course_of_setCan (s : State) (n : Fin 8) (c : Can) (i : Fin 13) : (s.setCan n c).course i = s.course i := rfl
@[simp] theorem State.mailbox_of_setCan (s : State) (n : Fin 8) (c : Can) (i : Fin 32) : (s.setCan n c).mailbox i = s.mailbox i := rfl
@[simp] theorem State.ring_of_setCan (s : State) (n : Fin 8) (c : Can) (i : Fin 64) : (s.setCan n c).ring i = s.ring i := rfl
@[simp] theorem State.reg_of_setCan (s : State) (n : Fin 8) (c : Can) (i : Nat) : (s.setCan n c).reg i = s.reg i := rfl
@[simp] theorem State.port_of_setCan (s : State) (n : Fin 8) (c : Can) (i : PortCode) : (s.setCan n c).port i = s.port i := rfl
@[simp] theorem State.fc_of_setCan (s : State) (n : Fin 8) (c : Can) (i : Fin 256) : (s.setCan n c).fc i = s.fc i := rfl
@[simp] theorem State.brick_of_setField (s : State) (x : FieldIo) (i : Fin 52) : (s.setField x).brick i = s.brick i := rfl
@[simp] theorem State.tile_of_setField (s : State) (x : FieldIo) (i : Fin 208) : (s.setField x).tile i = s.tile i := rfl
@[simp] theorem State.course_of_setField (s : State) (x : FieldIo) (i : Fin 13) : (s.setField x).course i = s.course i := rfl
@[simp] theorem State.mailbox_of_setField (s : State) (x : FieldIo) (i : Fin 32) : (s.setField x).mailbox i = s.mailbox i := rfl
@[simp] theorem State.ring_of_setField (s : State) (x : FieldIo) (i : Fin 64) : (s.setField x).ring i = s.ring i := rfl
@[simp] theorem State.reg_of_setField (s : State) (x : FieldIo) (i : Nat) : (s.setField x).reg i = s.reg i := rfl
@[simp] theorem State.can_of_setField (s : State) (x : FieldIo) (i : Fin 8) : (s.setField x).can i = s.can i := rfl
@[simp] theorem State.port_of_setField (s : State) (x : FieldIo) (i : PortCode) : (s.setField x).port i = s.port i := rfl
@[simp] theorem State.fc_of_setField (s : State) (x : FieldIo) (i : Fin 256) : (s.setField x).fc i = s.fc i := rfl
@[simp] theorem State.brick_of_setFc (s : State) (f : Fin 256) (x : FlowCtx) (i : Fin 52) : (s.setFc f x).brick i = s.brick i := rfl
@[simp] theorem State.tile_of_setFc (s : State) (f : Fin 256) (x : FlowCtx) (i : Fin 208) : (s.setFc f x).tile i = s.tile i := rfl
@[simp] theorem State.course_of_setFc (s : State) (f : Fin 256) (x : FlowCtx) (i : Fin 13) : (s.setFc f x).course i = s.course i := rfl
@[simp] theorem State.mailbox_of_setFc (s : State) (f : Fin 256) (x : FlowCtx) (i : Fin 32) : (s.setFc f x).mailbox i = s.mailbox i := rfl
@[simp] theorem State.ring_of_setFc (s : State) (f : Fin 256) (x : FlowCtx) (i : Fin 64) : (s.setFc f x).ring i = s.ring i := rfl
@[simp] theorem State.reg_of_setFc (s : State) (f : Fin 256) (x : FlowCtx) (i : Nat) : (s.setFc f x).reg i = s.reg i := rfl
@[simp] theorem State.can_of_setFc (s : State) (f : Fin 256) (x : FlowCtx) (i : Fin 8) : (s.setFc f x).can i = s.can i := rfl
@[simp] theorem State.port_of_setFc (s : State) (f : Fin 256) (x : FlowCtx) (i : PortCode) : (s.setFc f x).port i = s.port i := rfl
@[simp] theorem State.brick_of_setPort (s : State) (q : PortCode) (p : Port) (i : Fin 52) : (s.setPort q p).brick i = s.brick i := rfl
@[simp] theorem State.tile_of_setPort (s : State) (q : PortCode) (p : Port) (i : Fin 208) : (s.setPort q p).tile i = s.tile i := rfl
@[simp] theorem State.course_of_setPort (s : State) (q : PortCode) (p : Port) (i : Fin 13) : (s.setPort q p).course i = s.course i := rfl
@[simp] theorem State.mailbox_of_setPort (s : State) (q : PortCode) (p : Port) (i : Fin 32) : (s.setPort q p).mailbox i = s.mailbox i := rfl
@[simp] theorem State.ring_of_setPort (s : State) (q : PortCode) (p : Port) (i : Fin 64) : (s.setPort q p).ring i = s.ring i := rfl
@[simp] theorem State.reg_of_setPort (s : State) (q : PortCode) (p : Port) (i : Nat) : (s.setPort q p).reg i = s.reg i := rfl
@[simp] theorem State.can_of_setPort (s : State) (q : PortCode) (p : Port) (i : Fin 8) : (s.setPort q p).can i = s.can i := rfl
@[simp] theorem State.fc_of_setPort (s : State) (q : PortCode) (p : Port) (i : Fin 256) : (s.setPort q p).fc i = s.fc i := rfl
@[simp] theorem State.brick_of_setDom (s : State) (d : Fin 2) (x : Domain) (i : Fin 52) : (s.setDom d x).brick i = s.brick i := rfl
@[simp] theorem State.tile_of_setDom (s : State) (d : Fin 2) (x : Domain) (i : Fin 208) : (s.setDom d x).tile i = s.tile i := rfl
@[simp] theorem State.course_of_setDom (s : State) (d : Fin 2) (x : Domain) (i : Fin 13) : (s.setDom d x).course i = s.course i := rfl
@[simp] theorem State.mailbox_of_setDom (s : State) (d : Fin 2) (x : Domain) (i : Fin 32) : (s.setDom d x).mailbox i = s.mailbox i := rfl
@[simp] theorem State.ring_of_setDom (s : State) (d : Fin 2) (x : Domain) (i : Fin 64) : (s.setDom d x).ring i = s.ring i := rfl
@[simp] theorem State.reg_of_setDom (s : State) (d : Fin 2) (x : Domain) (i : Nat) : (s.setDom d x).reg i = s.reg i := rfl
@[simp] theorem State.can_of_setDom (s : State) (d : Fin 2) (x : Domain) (i : Fin 8) : (s.setDom d x).can i = s.can i := rfl
@[simp] theorem State.port_of_setDom (s : State) (d : Fin 2) (x : Domain) (i : PortCode) : (s.setDom d x).port i = s.port i := rfl
@[simp] theorem State.fc_of_setDom (s : State) (d : Fin 2) (x : Domain) (i : Fin 256) : (s.setDom d x).fc i = s.fc i := rfl
@[simp] theorem State.brick_of_setTto (s : State) (n : Fin 32) (x : Tto) (i : Fin 52) : (s.setTto n x).brick i = s.brick i := rfl
@[simp] theorem State.tile_of_setTto (s : State) (n : Fin 32) (x : Tto) (i : Fin 208) : (s.setTto n x).tile i = s.tile i := rfl
@[simp] theorem State.course_of_setTto (s : State) (n : Fin 32) (x : Tto) (i : Fin 13) : (s.setTto n x).course i = s.course i := rfl
@[simp] theorem State.mailbox_of_setTto (s : State) (n : Fin 32) (x : Tto) (i : Fin 32) : (s.setTto n x).mailbox i = s.mailbox i := rfl
@[simp] theorem State.ring_of_setTto (s : State) (n : Fin 32) (x : Tto) (i : Fin 64) : (s.setTto n x).ring i = s.ring i := rfl
@[simp] theorem State.reg_of_setTto (s : State) (n : Fin 32) (x : Tto) (i : Nat) : (s.setTto n x).reg i = s.reg i := rfl
@[simp] theorem State.can_of_setTto (s : State) (n : Fin 32) (x : Tto) (i : Fin 8) : (s.setTto n x).can i = s.can i := rfl
@[simp] theorem State.port_of_setTto (s : State) (n : Fin 32) (x : Tto) (i : PortCode) : (s.setTto n x).port i = s.port i := rfl
@[simp] theorem State.fc_of_setTto (s : State) (n : Fin 32) (x : Tto) (i : Fin 256) : (s.setTto n x).fc i = s.fc i := rfl
@[simp] theorem State.brick_of_setQuad (s : State) (a : Nat) (q : BitVec 96) (i : Fin 52) : (s.setQuad a q).brick i = s.brick i := rfl
@[simp] theorem State.tile_of_setQuad (s : State) (a : Nat) (q : BitVec 96) (i : Fin 208) : (s.setQuad a q).tile i = s.tile i := rfl
@[simp] theorem State.course_of_setQuad (s : State) (a : Nat) (q : BitVec 96) (i : Fin 13) : (s.setQuad a q).course i = s.course i := rfl
@[simp] theorem State.mailbox_of_setQuad (s : State) (a : Nat) (q : BitVec 96) (i : Fin 32) : (s.setQuad a q).mailbox i = s.mailbox i := rfl
@[simp] theorem State.ring_of_setQuad (s : State) (a : Nat) (q : BitVec 96) (i : Fin 64) : (s.setQuad a q).ring i = s.ring i := rfl
@[simp] theorem State.reg_of_setQuad (s : State) (a : Nat) (q : BitVec 96) (i : Nat) : (s.setQuad a q).reg i = s.reg i := rfl
@[simp] theorem State.can_of_setQuad (s : State) (a : Nat) (q : BitVec 96) (i : Fin 8) : (s.setQuad a q).can i = s.can i := rfl
@[simp] theorem State.port_of_setQuad (s : State) (a : Nat) (q : BitVec 96) (i : PortCode) : (s.setQuad a q).port i = s.port i := rfl
@[simp] theorem State.fc_of_setQuad (s : State) (a : Nat) (q : BitVec 96) (i : Fin 256) : (s.setQuad a q).fc i = s.fc i := rfl
@[simp] theorem State.brick_of_setLatch (s : State) (a : Nat) (k : BitVec 8) (q : BitVec 96) (i : Fin 52) : (s.setLatch a k q).brick i = s.brick i := rfl
@[simp] theorem State.tile_of_setLatch (s : State) (a : Nat) (k : BitVec 8) (q : BitVec 96) (i : Fin 208) : (s.setLatch a k q).tile i = s.tile i := rfl
@[simp] theorem State.course_of_setLatch (s : State) (a : Nat) (k : BitVec 8) (q : BitVec 96) (i : Fin 13) : (s.setLatch a k q).course i = s.course i := rfl
@[simp] theorem State.mailbox_of_setLatch (s : State) (a : Nat) (k : BitVec 8) (q : BitVec 96) (i : Fin 32) : (s.setLatch a k q).mailbox i = s.mailbox i := rfl
@[simp] theorem State.ring_of_setLatch (s : State) (a : Nat) (k : BitVec 8) (q : BitVec 96) (i : Fin 64) : (s.setLatch a k q).ring i = s.ring i := rfl
@[simp] theorem State.reg_of_setLatch (s : State) (a : Nat) (k : BitVec 8) (q : BitVec 96) (i : Nat) : (s.setLatch a k q).reg i = s.reg i := rfl
@[simp] theorem State.can_of_setLatch (s : State) (a : Nat) (k : BitVec 8) (q : BitVec 96) (i : Fin 8) : (s.setLatch a k q).can i = s.can i := rfl
@[simp] theorem State.port_of_setLatch (s : State) (a : Nat) (k : BitVec 8) (q : BitVec 96) (i : PortCode) : (s.setLatch a k q).port i = s.port i := rfl
@[simp] theorem State.fc_of_setLatch (s : State) (a : Nat) (k : BitVec 8) (q : BitVec 96) (i : Fin 256) : (s.setLatch a k q).fc i = s.fc i := rfl
@[simp] theorem State.brick_of_modPower (s : State) (f : Power → Power) (i : Fin 52) : (s.modPower f).brick i = s.brick i := rfl
@[simp] theorem State.tile_of_modPower (s : State) (f : Power → Power) (i : Fin 208) : (s.modPower f).tile i = s.tile i := rfl
@[simp] theorem State.course_of_modPower (s : State) (f : Power → Power) (i : Fin 13) : (s.modPower f).course i = s.course i := rfl
@[simp] theorem State.mailbox_of_modPower (s : State) (f : Power → Power) (i : Fin 32) : (s.modPower f).mailbox i = s.mailbox i := rfl
@[simp] theorem State.ring_of_modPower (s : State) (f : Power → Power) (i : Fin 64) : (s.modPower f).ring i = s.ring i := rfl
@[simp] theorem State.reg_of_modPower (s : State) (f : Power → Power) (i : Nat) : (s.modPower f).reg i = s.reg i := rfl
@[simp] theorem State.can_of_modPower (s : State) (f : Power → Power) (i : Fin 8) : (s.modPower f).can i = s.can i := rfl
@[simp] theorem State.port_of_modPower (s : State) (f : Power → Power) (i : PortCode) : (s.modPower f).port i = s.port i := rfl
@[simp] theorem State.fc_of_modPower (s : State) (f : Power → Power) (i : Fin 256) : (s.modPower f).fc i = s.fc i := rfl
@[simp] theorem State.brick_of_modRec (s : State) (f : Recorder → Recorder) (i : Fin 52) : (s.modRec f).brick i = s.brick i := rfl
@[simp] theorem State.tile_of_modRec (s : State) (f : Recorder → Recorder) (i : Fin 208) : (s.modRec f).tile i = s.tile i := rfl
@[simp] theorem State.course_of_modRec (s : State) (f : Recorder → Recorder) (i : Fin 13) : (s.modRec f).course i = s.course i := rfl
@[simp] theorem State.mailbox_of_modRec (s : State) (f : Recorder → Recorder) (i : Fin 32) : (s.modRec f).mailbox i = s.mailbox i := rfl
@[simp] theorem State.ring_of_modRec (s : State) (f : Recorder → Recorder) (i : Fin 64) : (s.modRec f).ring i = s.ring i := rfl
@[simp] theorem State.reg_of_modRec (s : State) (f : Recorder → Recorder) (i : Nat) : (s.modRec f).reg i = s.reg i := rfl
@[simp] theorem State.can_of_modRec (s : State) (f : Recorder → Recorder) (i : Fin 8) : (s.modRec f).can i = s.can i := rfl
@[simp] theorem State.port_of_modRec (s : State) (f : Recorder → Recorder) (i : PortCode) : (s.modRec f).port i = s.port i := rfl
@[simp] theorem State.fc_of_modRec (s : State) (f : Recorder → Recorder) (i : Fin 256) : (s.modRec f).fc i = s.fc i := rfl
@[simp] theorem State.brick_of_modKeystone (s : State) (f : Keystone → Keystone) (i : Fin 52) : (s.modKeystone f).brick i = s.brick i := rfl
@[simp] theorem State.tile_of_modKeystone (s : State) (f : Keystone → Keystone) (i : Fin 208) : (s.modKeystone f).tile i = s.tile i := rfl
@[simp] theorem State.course_of_modKeystone (s : State) (f : Keystone → Keystone) (i : Fin 13) : (s.modKeystone f).course i = s.course i := rfl
@[simp] theorem State.mailbox_of_modKeystone (s : State) (f : Keystone → Keystone) (i : Fin 32) : (s.modKeystone f).mailbox i = s.mailbox i := rfl
@[simp] theorem State.ring_of_modKeystone (s : State) (f : Keystone → Keystone) (i : Fin 64) : (s.modKeystone f).ring i = s.ring i := rfl
@[simp] theorem State.reg_of_modKeystone (s : State) (f : Keystone → Keystone) (i : Nat) : (s.modKeystone f).reg i = s.reg i := rfl
@[simp] theorem State.can_of_modKeystone (s : State) (f : Keystone → Keystone) (i : Fin 8) : (s.modKeystone f).can i = s.can i := rfl
@[simp] theorem State.port_of_modKeystone (s : State) (f : Keystone → Keystone) (i : PortCode) : (s.modKeystone f).port i = s.port i := rfl
@[simp] theorem State.fc_of_modKeystone (s : State) (f : Keystone → Keystone) (i : Fin 256) : (s.modKeystone f).fc i = s.fc i := rfl
@[simp] theorem State.brick_of_modJournal (s : State) (f : Journal → Journal) (i : Fin 52) : (s.modJournal f).brick i = s.brick i := rfl
@[simp] theorem State.tile_of_modJournal (s : State) (f : Journal → Journal) (i : Fin 208) : (s.modJournal f).tile i = s.tile i := rfl
@[simp] theorem State.course_of_modJournal (s : State) (f : Journal → Journal) (i : Fin 13) : (s.modJournal f).course i = s.course i := rfl
@[simp] theorem State.mailbox_of_modJournal (s : State) (f : Journal → Journal) (i : Fin 32) : (s.modJournal f).mailbox i = s.mailbox i := rfl
@[simp] theorem State.ring_of_modJournal (s : State) (f : Journal → Journal) (i : Fin 64) : (s.modJournal f).ring i = s.ring i := rfl
@[simp] theorem State.reg_of_modJournal (s : State) (f : Journal → Journal) (i : Nat) : (s.modJournal f).reg i = s.reg i := rfl
@[simp] theorem State.can_of_modJournal (s : State) (f : Journal → Journal) (i : Fin 8) : (s.modJournal f).can i = s.can i := rfl
@[simp] theorem State.port_of_modJournal (s : State) (f : Journal → Journal) (i : PortCode) : (s.modJournal f).port i = s.port i := rfl
@[simp] theorem State.fc_of_modJournal (s : State) (f : Journal → Journal) (i : Fin 256) : (s.modJournal f).fc i = s.fc i := rfl
@[simp] theorem State.brick_of_modReplay (s : State) (f : Replay → Replay) (i : Fin 52) : (s.modReplay f).brick i = s.brick i := rfl
@[simp] theorem State.tile_of_modReplay (s : State) (f : Replay → Replay) (i : Fin 208) : (s.modReplay f).tile i = s.tile i := rfl
@[simp] theorem State.course_of_modReplay (s : State) (f : Replay → Replay) (i : Fin 13) : (s.modReplay f).course i = s.course i := rfl
@[simp] theorem State.mailbox_of_modReplay (s : State) (f : Replay → Replay) (i : Fin 32) : (s.modReplay f).mailbox i = s.mailbox i := rfl
@[simp] theorem State.ring_of_modReplay (s : State) (f : Replay → Replay) (i : Fin 64) : (s.modReplay f).ring i = s.ring i := rfl
@[simp] theorem State.reg_of_modReplay (s : State) (f : Replay → Replay) (i : Nat) : (s.modReplay f).reg i = s.reg i := rfl
@[simp] theorem State.can_of_modReplay (s : State) (f : Replay → Replay) (i : Fin 8) : (s.modReplay f).can i = s.can i := rfl
@[simp] theorem State.port_of_modReplay (s : State) (f : Replay → Replay) (i : PortCode) : (s.modReplay f).port i = s.port i := rfl
@[simp] theorem State.fc_of_modReplay (s : State) (f : Replay → Replay) (i : Fin 256) : (s.modReplay f).fc i = s.fc i := rfl
@[simp] theorem State.brick_of_modUrral (s : State) (f : Urral → Urral) (i : Fin 52) : (s.modUrral f).brick i = s.brick i := rfl
@[simp] theorem State.tile_of_modUrral (s : State) (f : Urral → Urral) (i : Fin 208) : (s.modUrral f).tile i = s.tile i := rfl
@[simp] theorem State.course_of_modUrral (s : State) (f : Urral → Urral) (i : Fin 13) : (s.modUrral f).course i = s.course i := rfl
@[simp] theorem State.mailbox_of_modUrral (s : State) (f : Urral → Urral) (i : Fin 32) : (s.modUrral f).mailbox i = s.mailbox i := rfl
@[simp] theorem State.ring_of_modUrral (s : State) (f : Urral → Urral) (i : Fin 64) : (s.modUrral f).ring i = s.ring i := rfl
@[simp] theorem State.reg_of_modUrral (s : State) (f : Urral → Urral) (i : Nat) : (s.modUrral f).reg i = s.reg i := rfl
@[simp] theorem State.can_of_modUrral (s : State) (f : Urral → Urral) (i : Fin 8) : (s.modUrral f).can i = s.can i := rfl
@[simp] theorem State.port_of_modUrral (s : State) (f : Urral → Urral) (i : PortCode) : (s.modUrral f).port i = s.port i := rfl
@[simp] theorem State.fc_of_modUrral (s : State) (f : Urral → Urral) (i : Fin 256) : (s.modUrral f).fc i = s.fc i := rfl
@[simp] theorem State.brick_of_at (s : State) (t : Nat) (i : Fin 52) : (s.at_ t).brick i = s.brick i := rfl
@[simp] theorem State.tile_of_at (s : State) (t : Nat) (i : Fin 208) : (s.at_ t).tile i = s.tile i := rfl
@[simp] theorem State.course_of_at (s : State) (t : Nat) (i : Fin 13) : (s.at_ t).course i = s.course i := rfl
@[simp] theorem State.mailbox_of_at (s : State) (t : Nat) (i : Fin 32) : (s.at_ t).mailbox i = s.mailbox i := rfl
@[simp] theorem State.ring_of_at (s : State) (t : Nat) (i : Fin 64) : (s.at_ t).ring i = s.ring i := rfl
@[simp] theorem State.reg_of_at (s : State) (t : Nat) (i : Nat) : (s.at_ t).reg i = s.reg i := rfl
@[simp] theorem State.can_of_at (s : State) (t : Nat) (i : Fin 8) : (s.at_ t).can i = s.can i := rfl
@[simp] theorem State.port_of_at (s : State) (t : Nat) (i : PortCode) : (s.at_ t).port i = s.port i := rfl
@[simp] theorem State.fc_of_at (s : State) (t : Nat) (i : Fin 256) : (s.at_ t).fc i = s.fc i := rfl
@[simp] theorem State.brick_of_chainSend (s : State) (o : UrrOut) (i : Fin 52) : (s.chainSend o).brick i = s.brick i := rfl
@[simp] theorem State.tile_of_chainSend (s : State) (o : UrrOut) (i : Fin 208) : (s.chainSend o).tile i = s.tile i := rfl
@[simp] theorem State.course_of_chainSend (s : State) (o : UrrOut) (i : Fin 13) : (s.chainSend o).course i = s.course i := rfl
@[simp] theorem State.mailbox_of_chainSend (s : State) (o : UrrOut) (i : Fin 32) : (s.chainSend o).mailbox i = s.mailbox i := rfl
@[simp] theorem State.ring_of_chainSend (s : State) (o : UrrOut) (i : Fin 64) : (s.chainSend o).ring i = s.ring i := rfl
@[simp] theorem State.reg_of_chainSend (s : State) (o : UrrOut) (i : Nat) : (s.chainSend o).reg i = s.reg i := rfl
@[simp] theorem State.can_of_chainSend (s : State) (o : UrrOut) (i : Fin 8) : (s.chainSend o).can i = s.can i := rfl
@[simp] theorem State.port_of_chainSend (s : State) (o : UrrOut) (i : PortCode) : (s.chainSend o).port i = s.port i := rfl
@[simp] theorem State.fc_of_chainSend (s : State) (o : UrrOut) (i : Fin 256) : (s.chainSend o).fc i = s.fc i := rfl

end Sys2Proof.Machine
end

