-- ==== Sys2Proof/Laws/Ops.lean ====
section
/-! SUPPORT. What each shared operation can do, said once: commands that hold back, events, causes and vectors, journal records,
mailboxes and replies. -/

namespace Sys2Proof.Machine

/-! ### Commands under a condition -/

theorem State.when_of_true (s : State) {c : Bool} (f : State → State) (h : c = true) : s.when_ c f = .next (f s) := by
  simp [State.when_, h]

theorem State.when_of_false (s : State) {c : Bool} (f : State → State) (h : c = false) : s.when_ c f = .next s := by
  simp [State.when_, h]

/-- A step of a fold that relates every state to the next relates the first to the last. -/
theorem foldl_rel {β : Type} (R : State → State → Prop) (refl : ∀ s, R s s) (trans : ∀ s t u, R s t → R t u → R s u) (f : State → β → State)
    (h : ∀ s b, R s (f s b)) (l : List β) (s : State) : R s (l.foldl f s) := by
  induction l generalizing s with
  | nil => exact refl s
  | cons b l ih => exact trans _ _ _ (h s b) (ih (f s b))

/-! ### Events -/

theorem Logs.refl (s : State) : Logs s s := rfl

theorem Logs.trans {s t u : State} (h1 : Logs s t) (h2 : Logs t u) : Logs s u := by
  refine Eq.trans h2 ?_
  rw [show t = _ from h1]

theorem Logs.setHostFn (s : State) (f : Bool) (h : HostFn) : Logs s (s.setHostFn f h) := by cases f <;> rfl

theorem Logs.fireVector (s : State) (f : Bool) (v : Nat) : Logs s (s.fireVector f v) := by
  unfold State.fireVector
  split
  · dsimp only
    split
    · exact Logs.setHostFn s f _
    · rfl
  · rfl

theorem Logs.msgManager (s : State) (c : Nat) (w : List Reg32) : Logs s (s.msgManager c w) := by
  unfold State.msgManager
  split <;> rfl

theorem Logs.raiseIn (s : State) (f : Bool) (m : Reg32) : Logs s (s.raiseIn f m) := by
  unfold State.raiseIn
  dsimp only
  split
  · exact Logs.setHostFn s f _
  · exact (Logs.setHostFn s f _).trans (Logs.fireVector _ f 96)

theorem Logs.raiseCause (s : State) (f : Bool) (m : Reg32) : Logs s (s.raiseCause f m) := by
  unfold State.raiseCause
  dsimp only
  split
  · exact Logs.raiseIn s f m
  · exact (Logs.raiseIn s f m).trans (Logs.msgManager _ 1 _)

theorem Logs.journalTrig (s : State) : Logs s s.journalTrig := by
  unfold State.journalTrig
  split <;> rfl

theorem Logs.ite {s t u : State} {p : Prop} [Decidable p] (h1 : Logs s t) (h2 : Logs s u) : Logs s (if p then t else u) := by
  split
  · exact h1
  · exact h2

/-- A recorder event writes the recorder, the host causes with their vectors, the trigger of the journal and MSGs to the manager. -/
theorem Logs.recordEvent (s : State) (e : Event) : Logs s (s.recordEvent e) := by
  unfold State.recordEvent
  dsimp only
  generalize (if e.mgmt then s.plumb.tickTd0 else s.tdValue 0 s.now) = td
  have h1 : Logs s { s with recorder := (s.recorder.take e s.tick td).1 } := rfl
  have h2 := Logs.ite (p := bits s.recorder.cfg 1 0 ≤ e.sev.toNat)
    ((h1.trans (Logs.raiseCause _ false 0x200)).trans (Logs.raiseCause _ true 0x200)) h1
  have h3 := Logs.ite (p := bit s.recorder.cfg 6 = true ∧ bits s.recorder.cfg 5 4 ≤ e.sev.toNat)
    (h2.trans (Logs.msgManager _ 4 (e.entry s.recorder.next s.tick td).words)) h2
  exact Logs.ite (Logs.ite (h3.trans (Logs.journalTrig _)) h3) h1

theorem Logs.event (s : State) (k : EvKind) (m : Bool) (p : BitVec 8) (a : List Nat) : Logs s (s.event k m p a) := Logs.recordEvent s _

theorem Logs.refused (s : State) (p : Party) (o v : Nat) : Logs s (s.refused p o v) := Logs.recordEvent s _

/-- A journal record changes the journal alone. -/
theorem State.jrec_eq (s : State) (c : Fin 13) (r : JRec) : s.jrec c r = { s with journal := (s.jrec c r).journal } := by
  unfold State.jrec
  split <;> rfl

/-- A free value advances the counter alone. -/
theorem State.fresh_eq (s : State) : s.fresh.2 = { s with freeCtr := s.freeCtr + 1 } := rfl

end Sys2Proof.Machine
end

