-- ==== Sys2Proof/Laws/Mailbox.lean ====
section
/-! SUPPORT. What the mailbox operations can do: every one of them keeps to `MailLeaves`. -/

namespace Sys2Proof.Machine

theorem MailLeaves.refl (s : State) : MailLeaves s s := ⟨rfl, fun _ => rfl, fun _ => rfl, fun _ => rfl, fun _ => rfl⟩

theorem MailLeaves.trans {s t u : State} (h1 : MailLeaves s t) (h2 : MailLeaves t u) : MailLeaves s u := by
  obtain ⟨a1, b1, c1, d1, e1⟩ := h1
  obtain ⟨a2, b2, c2, d2, e2⟩ := h2
  refine ⟨a2.trans ?_, fun c => (b2 c).trans ?_, fun k => (c2 k).trans ?_, fun x => (d2 x).trans ?_, fun q => (e2 q).trans ?_⟩
  · rw [a1]
  · rw [b1 c]
  · rw [c1 k]
  · rw [d1 x]
  · rw [e1 q]

theorem MailLeaves.ite {s t u : State} {p : Prop} [Decidable p] (h1 : MailLeaves s t) (h2 : MailLeaves s u) : MailLeaves s (if p then t else u) := by
  split
  · exact h1
  · exact h2

/-- A change of mailboxes, replies, the journal or what the hosts and the chain see is within bounds. -/
theorem MailLeaves.of_eq {s t : State}
    (h : t = { s with mailboxes := t.mailboxes, journal := t.journal, pf0 := t.pf0, pf1 := t.pf1, hostMem := t.hostMem, chainOut := t.chainOut,
                      keystone := { s.keystone with replies := t.keystone.replies } }) : MailLeaves s t := by
  have hb : t.bricks = s.bricks := by rw [h]
  have ht : t.tiles = s.tiles := by rw [h]
  have hc : t.courses = s.courses := by rw [h]
  have hp : t.ports = s.ports := by rw [h]
  refine ⟨?_, fun c => ?_, fun k => ?_, fun x => ?_, fun q => ?_⟩
  · rw [hb, ht, hc, hp]; exact h
  · have e : t.course c = s.course c := by unfold State.course; rw [hc]
    rw [e]
  · have e : t.brick k = s.brick k := by unfold State.brick; rw [hb]
    rw [e]
  · have e : t.tile x = s.tile x := by unfold State.tile; rw [ht]
    rw [e]
  · have e : t.port q = s.port q := by unfold State.port; rw [hp]
    rw [e]

theorem MailLeaves.jrec (s : State) (c : Fin 13) (r : JRec) : MailLeaves s (s.jrec c r) := by
  apply MailLeaves.of_eq
  rw [State.jrec_eq]

theorem MailLeaves.setMailbox (s : State) (j : Fin 32) (m : Mailbox) : MailLeaves s (s.setMailbox j m) := MailLeaves.of_eq rfl

theorem MailLeaves.setHostFn (s : State) (f : Bool) (h : HostFn) : MailLeaves s (s.setHostFn f h) := by
  cases f <;> exact MailLeaves.of_eq rfl

theorem MailLeaves.fireVector (s : State) (f : Bool) (v : Nat) : MailLeaves s (s.fireVector f v) := by
  unfold State.fireVector
  dsimp only
  split
  · split
    · exact MailLeaves.setHostFn s f _
    · exact MailLeaves.of_eq rfl
  · exact MailLeaves.refl s

theorem MailLeaves.mbNotice (s : State) (p n : Nat) (j : Fin 32) : MailLeaves s (s.mbNotice p n j) := by
  unfold State.mbNotice
  split <;> exact MailLeaves.of_eq rfl

theorem MailLeaves.recross (s : State) : MailLeaves s s.recross := MailLeaves.of_eq rfl

/-- One brick changes in its times and its event latches. -/
theorem MailLeaves.setBrick (s : State) (k : Fin 52) (b : Brick)
    (h : b = { s.brick k with ready := b.ready, feAt := b.feAt, wd := { (s.brick k).wd with since := b.wd.since }, io := { (s.brick k).io with events := b.io.events } }) :
    MailLeaves s (s.setBrick k b) := by
  refine ⟨rfl, fun _ => rfl, fun i => ?_, fun _ => rfl, fun _ => rfl⟩
  by_cases hk : i = k
  · subst hk; rw [State.brick_setBrick]; exact h
  · rw [State.brick_setBrick_ne s b hk]

theorem MailLeaves.setTile (s : State) (k : Fin 208) (x : Tile) (h : x = { s.tile k with edge := x.edge }) : MailLeaves s (s.setTile k x) := by
  refine ⟨rfl, fun _ => rfl, fun _ => rfl, fun i => ?_, fun _ => rfl⟩
  by_cases hk : i = k
  · subst hk; rw [State.tile_setTile]; exact h
  · rw [State.tile_setTile_ne s x hk]

theorem MailLeaves.setCourse (s : State) (c : Fin 13) (x : Course) (h : x = { s.course c with base := x.base, gatedAt := x.gatedAt }) :
    MailLeaves s (s.setCourse c x) := by
  refine ⟨rfl, fun i => ?_, fun _ => rfl, fun _ => rfl, fun _ => rfl⟩
  by_cases hk : i = c
  · subst hk; rw [State.course_setCourse]; exact h
  · rw [State.course_setCourse_ne s x hk]

theorem MailLeaves.endGateHold (s : State) (q : PortCode) : MailLeaves s (s.endGateHold q) := by
  unfold State.endGateHold
  dsimp only
  split
  · refine ⟨rfl, fun _ => rfl, fun _ => rfl, fun _ => rfl, fun i => ?_⟩
    by_cases hk : i = q
    · subst hk; simp [State.port]
    · have h1 : q.val ≠ i.val := fun e => hk (Fin.ext e.symm)
      simp [State.port, h1]
  · exact MailLeaves.refl s

theorem MailLeaves.latchLine (s : State) (bk : Fin 52) (l : Nat) : MailLeaves s (s.latchLine bk l) := by
  unfold State.latchLine
  exact (MailLeaves.setBrick s bk _ rfl).trans (MailLeaves.jrec _ _ _)

/-- A gated course wakes. -/
theorem MailLeaves.ungateCourse (s : State) (c : Fin 13) (cause : BitVec 4) : MailLeaves s (s.ungateCourse c cause) := by
  unfold State.ungateCourse
  dsimp only
  split
  · exact MailLeaves.refl s
  · refine MailLeaves.trans ?_ (MailLeaves.jrec _ _ _)
    refine MailLeaves.trans ?_ (MailLeaves.endGateHold _ _)
    refine MailLeaves.trans ?_ (foldl_rel MailLeaves MailLeaves.refl (fun _ _ _ => MailLeaves.trans) _ (fun s i => ?_) _ _)
    · refine MailLeaves.trans ?_ (foldl_rel MailLeaves MailLeaves.refl (fun _ _ _ => MailLeaves.trans) _ (fun s b => ?_) _ _)
      · exact MailLeaves.setCourse s c _ rfl
      · exact MailLeaves.setBrick s _ _ rfl
    · exact MailLeaves.setTile s _ _ rfl

theorem MailLeaves.wakeEvent (s : State) (r : Nat) (j : Fin 32) : MailLeaves s (s.wakeEvent r j) := by
  unfold State.wakeEvent
  refine MailLeaves.ite (MailLeaves.fireVector _ _ _) (MailLeaves.ite (MailLeaves.fireVector _ _ _) ?_)
  split
  · exact MailLeaves.ungateCourse _ _ _
  · exact MailLeaves.refl s

theorem MailLeaves.emptyEvent (s : State) (p : Nat) (j : Fin 32) : MailLeaves s (s.emptyEvent p j) := by
  unfold State.emptyEvent
  refine MailLeaves.ite (MailLeaves.fireVector _ _ _) (MailLeaves.ite (MailLeaves.fireVector _ _ _) ?_)
  split
  · exact MailLeaves.latchLine _ _ _
  · exact MailLeaves.mbNotice _ _ _ _

/-- A post (R439, R445). -/
theorem MailLeaves.postAs (s : State) (p : Nat) (ep : BitVec 4) (j : Fin 32) (n : Nat) : MailLeaves s (s.postAs p ep j n) := by
  unfold State.postAs
  dsimp only
  have h1 : ∀ (x : State) (m : Mailbox) (r : Nat), MailLeaves s x → MailLeaves s ((x.setMailbox j m).wakeEvent r j) :=
    fun x m r h => (h.trans (MailLeaves.setMailbox x j m)).trans (MailLeaves.wakeEvent _ r j)
  have h0 : MailLeaves s (if (s.mailboxes.toList.any fun y => y.crosses p (s.mailbox j).recv.toNat) = true then
      { s with mailboxes := s.mailboxes.map (fun y => if y.crosses p (s.mailbox j).recv.toNat then { y with crossed := true } else y) } else s) :=
    MailLeaves.ite (MailLeaves.of_eq rfl) (MailLeaves.refl s)
  exact MailLeaves.ite ((h1 _ _ _ h0).trans (MailLeaves.wakeEvent _ p j)) (h1 _ _ _ h0)

/-- The oldest reply that waits for the mailbox is posted (R457). -/
theorem MailLeaves.postReply (s : State) (j : Fin 32) : MailLeaves s (s.postReply j) := by
  unfold State.postReply
  split
  · refine MailLeaves.ite ?_ (MailLeaves.refl s)
    exact ((MailLeaves.of_eq rfl).trans (MailLeaves.setMailbox _ j _)).trans (MailLeaves.postAs _ _ _ j 8)
  · exact MailLeaves.refl s

/-- A message is taken (R439). -/
theorem MailLeaves.takeMail (s : State) (p : Nat) (j : Fin 32) : MailLeaves s (s.takeMail p j) := by
  unfold State.takeMail
  dsimp only
  refine MailLeaves.ite ?_ (MailLeaves.refl s)
  exact (((MailLeaves.setMailbox s j _).trans (MailLeaves.recross _)).trans (MailLeaves.emptyEvent _ _ j)).trans (MailLeaves.postReply _ j)

/-- A lock is given up (R438). -/
theorem MailLeaves.unlockMail (s : State) (p : Nat) (j : Fin 32) : MailLeaves s (s.unlockMail p j) := by
  unfold State.unlockMail
  dsimp only
  split
  · exact MailLeaves.ite ((MailLeaves.setMailbox s j _).trans (MailLeaves.postReply _ j)) (MailLeaves.refl s)
  · exact MailLeaves.refl s

/-- A reset of a receiver empties its mailbox (R442). -/
theorem MailLeaves.discardMail (s : State) (r : Nat) (j : Fin 32) : MailLeaves s (s.discardMail r j) := by
  unfold State.discardMail
  dsimp only
  refine MailLeaves.ite ?_ (MailLeaves.refl s)
  split
  · refine MailLeaves.trans ?_ (MailLeaves.postReply _ j)
    exact MailLeaves.ite (((MailLeaves.setMailbox s j _).trans (MailLeaves.recross _)).trans (MailLeaves.mbNotice _ _ _ j))
      (((MailLeaves.setMailbox s j _).trans (MailLeaves.recross _)).trans (MailLeaves.emptyEvent _ _ j))
  · exact MailLeaves.setMailbox s j _

/-- A reply of the keystone: an event, and at most a mailbox operation (R457, R460). -/
theorem State.svcReply_leaves (s : State) (code : Nat) (r : SvcReq) (status : Nat) (l : List Reg32) :
    ∃ x : State, Logs s x ∧ MailLeaves x (s.svcReply code r status l) := by
  refine ⟨s.event .service true (BitVec.ofNat 8 r.caller.num) [code, r.tag.toNat, status], Logs.event _ _ _ _ _, ?_⟩
  unfold State.svcReply
  exact MailLeaves.ite (MailLeaves.refl _) ((MailLeaves.of_eq rfl).trans (MailLeaves.postReply _ _))

end Sys2Proof.Machine
end

