-- ==== Sys2Proof/WellFormed.lean ====
section
/-! DEFINITION. The commands whose operands the spec admits: what the types of the operands leave open. -/

namespace Sys2Proof

/-- A CAN frame as ISO 11898-1 shapes it (R350): an 11-bit identifier without IDE, the bytes that DLC names, no remote FD frame,
BRS and ESI in FD frames only. -/
def CanFrame.wellFormed (f : CanFrame) : Bool :=
  let d := f.dlc.toNat
  let n := if d ≤ 8 then d else if f.fdf = false then 8 else if d ≤ 12 then 12 + 4 * (d - 9) else 32 + 16 * (d - 13)
  (f.ide || decide (f.id.toNat < 2 ^ 11)) && (decide (f.data.length = if f.remote then 0 else n) &&
    (!(f.remote && f.fdf) && (f.fdf || (!f.brs && !f.esi))))

/-- A multiple of 4 (R404). -/
def Offset.aligned (off : Offset) : Bool := decide (off.toNat % 4 = 0)

/-- An ACCESS of n words stays inside BAR0 (R404). -/
def Offset.fits (off : Offset) (n : Nat) : Bool := decide (off.toNat + 4 * n ≤ 2 ^ 26)

/-- A wake input (R372, R373). -/
def CanWake.wellFormed : CanWake → Bool
  | .dominant => true
  | .frame f => f.wellFormed

/-- The operands of a command are admitted: register offsets are multiples of 4 and an access has 1 to 16 words (R404); a bit field
ends inside the word (R111); a MSG has at most 8 words, a mailbox post 1 to 8 and a record 8 (R410, R439, R475); a frame has bytes;
the rivals of a lock read are others (R408, R438); the blocks of a brick and of a controller are read by word. -/
def Instr.wellFormed : Instr → Bool
  | .registerWrite _ off _ | .rcRead _ _ off | .dbgAccess off _ => off.aligned
  | .securePageAccess _ off _ => decide (off.toNat % 4 = 0)
  | .timeQuadRead _ _ off => decide (off.toNat % 16 = 0)
  | .accessRead _ _ _ count off => off.aligned && off.fits (count.val + 1)
  | .accessWrite _ _ off data => off.aligned && (off.fits data.length && decide (1 ≤ data.length ∧ data.length ≤ 16))
  | .accessResponse _ _ status data => decide (data.length ≤ 16) && decide (status.toNat ≤ 4)
  | .accessLock src rivals => !rivals.contains src
  | .mailboxLock p _ _ rivals => !rivals.contains p
  | .msgMailboxPost _ _ _ words _ => decide (1 ≤ words.length ∧ words.length ≤ 8)
  | .msgRecorderEvent _ words _ => decide (words.length = 8)
  | .frameReceive _ bytes _ _ => decide (bytes ≠ [])
  | .urralFrameReceive _ bytes => decide (bytes ≠ [])
  | .ckpt _ data _ => decide (data.length ≤ 4 * 2 ^ 20)
  | .canFrameReceive _ f => f.wellFormed
  | .canRxdWake _ w | .canSleepWake _ w => w.wellFormed
  | .extu _ _ _ p wm1 | .exts _ _ _ p wm1 | .ins _ _ _ p wm1 => decide (p.toNat + (wm1.toNat + 1) ≤ 16)
  | .dbgRegWrite _ _ off _ => decide (off.toNat % 4 = 0)
  | .canConfigWrite _ _ off _ => decide (off.toNat % 4 = 0)
  | .objBar0Write _ _ _ off _ => decide (off.toNat % 4 = 0)
  | _ => true

end Sys2Proof
end

section
/-! SUPPORT. One rule for each path of a register access: the bus lock, the reach of the party, the region of the map, the row of the
register (R7, R9, R21, R408, R423). -/

namespace Sys2Proof.Machine

/-! ### Commands that issue an access -/

section
variable {s : State} {p : Party} {tag : BitVec 10} {off : Offset} {v : Reg32}

theorem exec_registerWrite_eq : exec (.registerWrite p off v) s = s.when_ s.alive (fun s => s.issueWrite p off v) := rfl
theorem exec_rcRead_eq : exec (.rcRead p tag off) s = s.when_ s.alive (fun s => s.issueRead p tag off) := rfl

theorem exec_registerWrite_of_alive (ha : s.alive = true) : exec (.registerWrite p off v) s = .next (s.issueWrite p off v) :=
  exec_registerWrite_eq.trans (State.when_of_true s _ ha)

theorem exec_rcRead_of_alive (ha : s.alive = true) : exec (.rcRead p tag off) s = .next (s.issueRead p tag off) :=
  exec_rcRead_eq.trans (State.when_of_true s _ ha)

theorem exec_registerWrite_of_dead (ha : s.alive = false) : exec (.registerWrite p off v) s = .next s :=
  exec_registerWrite_eq.trans (State.when_of_false s _ ha)

theorem exec_rcRead_of_dead (ha : s.alive = false) : exec (.rcRead p tag off) s = .next s :=
  exec_rcRead_eq.trans (State.when_of_false s _ ha)

theorem State.issueWrite_of_held (hp : s.holdsBack p = true) : s.issueWrite p off v = s.hold (.write p off v) := if_pos hp

theorem State.issueRead_of_held (hp : s.holdsBack p = true) : s.issueRead p tag off = s.hold (.read p tag off) := if_pos hp

/-- Under a bus lock every party waits but the keystone and the bricks (R408). -/
theorem State.holdsBack_of_locked (hl : s.urral.lock.isSome = true) (hk : p ≠ .keystone) (hb : ∀ k, p ≠ .brick k) :
    s.holdsBack p = true := by
  cases p with
  | keystone => exact absurd rfl hk
  | brick k => exact absurd rfl (hb k)
  | pf1 | pf0 | chain | tap => simp [State.holdsBack, hl]

theorem State.holdsBack_of_free (hl : s.urral.lock = none ∨ p = .keystone) : s.holdsBack p = false := by
  rcases hl with hl | rfl
  · simp [State.holdsBack, hl]
  · simp [State.holdsBack]

theorem State.issueWrite_of_free (hl : s.urral.lock = none ∨ p = .keystone) : s.issueWrite p off v = s.barWrite p off v := by
  simp [State.issueWrite, State.holdsBack_of_free hl]

theorem State.issueRead_of_free (hl : s.urral.lock = none ∨ p = .keystone) : s.issueRead p tag off = s.readDone p tag off := by
  simp [State.issueRead, State.holdsBack_of_free hl]

theorem exec_registerWrite_of_free (ha : s.alive = true) (hl : s.urral.lock = none ∨ p = .keystone) :
    exec (.registerWrite p off v) s = .next (s.barWrite p off v) := by
  rw [exec_registerWrite_of_alive ha, State.issueWrite_of_free hl]

theorem exec_rcRead_of_free (ha : s.alive = true) (hl : s.urral.lock = none ∨ p = .keystone) :
    exec (.rcRead p tag off) s = .next (s.readDone p tag off) := by
  rw [exec_rcRead_of_alive ha, State.issueRead_of_free hl]

end

/-! ### Reach (R422, R423) -/

section
variable {s : State} {p : Party} {a : Nat} {off : Offset} {v : Reg32}

theorem State.reaches_pf0 (ha : s.alive = true) (hf : s.power.phase ≠ .footing) : s.reaches .pf0 a = true := by
  simp [State.reaches, ha, hf]

theorem State.reaches_pf1 (ha : s.alive = true) (hf : s.power.phase ≠ .footing) : s.reaches .pf1 a = true := by
  simp [State.reaches, ha, hf]

theorem State.reaches_tap (ha : s.alive = true) (hf : s.power.phase ≠ .footing) : s.reaches .tap a = true := by
  simp [State.reaches, ha, hf]

/-- What footing mode leaves open is PF1's in every phase. -/
theorem State.reaches_pf1_of_footingOpen (ha : s.alive = true) (ho : footingOpen a = true) : s.reaches .pf1 a = true := by
  simp [State.reaches, ha, ho]

theorem State.reaches_pf1_footing_iff (ha : s.alive = true) (hf : s.power.phase = .footing) :
    s.reaches .pf1 a = true ↔ (a < 0x100000 ∨ (0x180000 ≤ a ∧ a < 0x200000) ∨ (0x500000 ≤ a ∧ a < 0x510000) ∨ (0x580000 ≤ a ∧ a < 0x600000)) := by
  simp [State.reaches, footingOpen, ha, hf]

theorem State.not_reaches_of_footing (hf : s.power.phase = .footing) :
    s.reaches .pf0 a = false ∧ ∀ d, s.reaches (.chain d) a = false := by
  simp [State.reaches, State.blocksUp, hf]

/-! ### Writes -/

/-- A write that the party does not reach, or that comes after STBY_READY, is ignored (R9, R73). -/
theorem State.barWrite_unreached (h : s.reaches p (off.toNat / 4 * 4) = false ∨ s.power.stbyReady = true) : s.barWrite p off v = s := by
  rcases h with h | h <;> simp [State.barWrite, h]

theorem State.barWrite_reached (hr : s.reaches p (off.toNat / 4 * 4) = true) (hs : s.power.stbyReady = false) :
    s.barWrite p off v = s.mapWrite p (off.toNat / 4 * 4) v := by
  simp [State.barWrite, hr, hs]

/-- A write that the register ignores is ignored, whoever reaches it. -/
theorem State.barWrite_of_ignored (h : s.mapWrite p (off.toNat / 4 * 4) v = s) : s.barWrite p off v = s := by
  unfold State.barWrite
  dsimp only
  split
  · exact h
  · rfl

theorem State.mapWrite_global (ha : a < 0x100000) : s.mapWrite p a v = s.globalWrite p a v := if_pos ha

/-- A write that is carried out in the global region. -/
theorem exec_registerWrite_global (ha : s.alive = true) (hl : s.urral.lock = none ∨ p = .keystone) (ho : off.toNat / 4 * 4 = a)
    (hg : a < 0x100000) (hr : s.reaches p a = true) (hs : s.power.stbyReady = false) :
    exec (.registerWrite p off v) s = .next (s.globalWrite p a v) := by
  subst ho
  rw [exec_registerWrite_of_free ha hl, State.barWrite_reached hr hs, State.mapWrite_global hg]

/-- A write that the global region ignores. -/
theorem exec_registerWrite_global_ignored (ha : s.alive = true) (hl : s.urral.lock = none ∨ p = .keystone) (ho : off.toNat / 4 * 4 = a)
    (hg : a < 0x100000) (hi : s.globalWrite p a v = s) : exec (.registerWrite p off v) s = .next s := by
  subst ho
  rw [exec_registerWrite_of_free ha hl, State.barWrite_of_ignored ((State.mapWrite_global hg).trans hi)]

/-! ### The rows of the global region -/

theorem State.globalWrite_courseRole : s.globalWrite p 0x40 v = s.courseRoleWrite p v := rfl
theorem State.globalWrite_bypCtrl : s.globalWrite p 0x60 v = if s.pf1OrMgr p then (s.setReg 0x60 (v &&& 3)).bypDrop else s := rfl
theorem State.globalWrite_pwrCtrl : s.globalWrite p 0x80 v = s.pwrCtrlWrite p v := rfl
theorem State.globalWrite_dozeCfg : s.globalWrite p 0x88 v = if s.pf1OrMgr p then s.setReg 0x88 (v &&& 0x1FFFFF) else s := rfl
theorem State.globalWrite_dozePorts : s.globalWrite p 0x8C v = if s.pf1OrMgr p then s.setReg 0x8C v else s := rfl
theorem State.globalWrite_dozeTimer : s.globalWrite p 0x90 v = if s.pf1OrMgr p then s.setReg 0x90 v else s := rfl
theorem State.globalWrite_wakeSrc : s.globalWrite p 0xA4 v =
    if p.isPf1 then s.modPower (fun x => { x with wakeSrc := x.wakeSrc &&& ~~~ (v &&& 0xFFFF0001) }) else s := rfl
theorem State.globalWrite_rstCtrl : s.globalWrite p 0xB0 v = s.rstCtrlWrite p v := rfl
theorem State.globalWrite_hostCause : s.globalWrite p 0x200 v = if isHostFn p then s.causeWrite (hostCopy p) v else s := rfl

/-- A register stored in `regs`: its value, and that nothing else changes. -/
theorem State.setReg_stores (w : Reg32) (hw : Sparse.wf regReset s.regs = true) :
    s.setReg a w = { s with regs := (s.setReg a w).regs } ∧ (s.setReg a w).reg a = w ∧ ∀ b, b ≠ a → (s.setReg a w).reg b = s.reg b :=
  ⟨rfl, State.reg_setReg s a w hw, fun _ hb => State.reg_setReg_ne s w hb⟩

/-- A write that stores into `regs` and changes nothing else. -/
theorem exec_registerWrite_stores {w : Reg32} (ha : s.alive = true) (hl : s.urral.lock = none ∨ p = .keystone) (ho : off.toNat / 4 * 4 = a)
    (hg : a < 0x100000) (hr : s.reaches p a = true) (hs : s.power.stbyReady = false) (hw : Sparse.wf regReset s.regs = true)
    (hv : s.globalWrite p a v = s.setReg a w) :
    ∃ t, exec (.registerWrite p off v) s = .next t ∧ t = { s with regs := t.regs } ∧ t.reg a = w ∧ ∀ b, b ≠ a → t.reg b = s.reg b :=
  ⟨_, (exec_registerWrite_global ha hl ho hg hr hs).trans (congrArg _ hv), State.setReg_stores w hw⟩

end

/-! ### Reads -/

section
variable {s : State} {p : Party} {tag : BitVec 10} {off : Offset} {v : Reg32}

/-- A read gives the value to the reader, and may leave a record in ORPH_PF (R435). -/
theorem State.readDone_eq : s.readDone p tag off =
    { (s.barRead p tag.toNat off).2 with readValue := (s.barRead p tag.toNat off).1, orphPf := (s.readDone p tag off).orphPf } := by
  unfold State.readDone
  dsimp only
  split
  · rfl
  · cases p <;> rfl

theorem State.barRead_unreached (hr : s.reaches p (off.toNat / 4 * 4) = false) : s.barRead p tag.toNat off = (0, s) := by
  simp [State.barRead, hr]

theorem State.barRead_reached (hr : s.reaches p (off.toNat / 4 * 4) = true) :
    s.barRead p tag.toNat off = s.mapRead p tag.toNat (off.toNat / 4 * 4) := by
  simp [State.barRead, hr]

/-- A read that the bus carries out: the value, and the state after it. -/
theorem exec_rcRead_yields {u : State} (ha : s.alive = true) (hl : s.urral.lock = none ∨ p = .keystone)
    (hb : s.barRead p tag.toNat off = (v, u)) :
    ∃ t, exec (.rcRead p tag off) s = .next t ∧ t = { u with readValue := v, orphPf := t.orphPf } := by
  refine ⟨_, exec_rcRead_of_free ha hl, ?_⟩
  conv_lhs => rw [State.readDone_eq, hb]

/-- A read that the map carries out. -/
theorem exec_rcRead_mapped {a : Nat} {u : State} (ha : s.alive = true) (hl : s.urral.lock = none ∨ p = .keystone)
    (hr : s.reaches p a = true) (ho : off.toNat / 4 * 4 = a) (hm : s.mapRead p tag.toNat a = (v, u)) :
    ∃ t, exec (.rcRead p tag off) s = .next t ∧ t = { u with readValue := v, orphPf := t.orphPf } := by
  subst ho
  exact exec_rcRead_yields ha hl ((State.barRead_reached hr).trans hm)

theorem State.mapRead_global {a n : Nat} (ha : a < 0x100000) : s.mapRead p n a = (s.globalRead p a, s) := if_pos ha

/-- A read in the global region changes nothing but what every read changes. -/
theorem exec_rcRead_global {a : Nat} (ha : s.alive = true) (hl : s.urral.lock = none ∨ p = .keystone) (hr : s.reaches p a = true)
    (ho : off.toNat / 4 * 4 = a) (hg : a < 0x100000) (hv : s.globalRead p a = v) :
    ∃ t, exec (.rcRead p tag off) s = .next t ∧ t = { s with readValue := v, orphPf := t.orphPf } :=
  exec_rcRead_mapped ha hl hr ho (by rw [State.mapRead_global hg, hv])

end

end Sys2Proof.Machine
end

section
/-! SUPPORT. The writes of the global region that are commands of their own (R14, R15, R65, R66, R82, R422). -/

namespace Sys2Proof.Machine

/-! ### Writes that act as a command of their own (log 49) -/

section
variable {s : State} {p : Party} {v : Reg32}

theorem bits_op (v : Reg32) : bits v 1 0 = v.toNat % 4 := by simp [bits]

theorem bits_scope (v : Reg32) : bits v 23 22 = v.toNat / 2 ^ 22 % 4 := by
  simp [bits, BitVec.extractLsb'_toNat, Nat.shiftRight_eq_div_pow]

theorem bits_key_iff (v : Reg32) : bits v 15 8 = 0xC3 ↔ v.extractLsb' 8 8 = 0xC3 := by
  rw [← BitVec.toNat_inj]; rfl

theorem exec_bypCtrlWrite_eq :
    exec (.bypCtrlWrite p v) s = s.when_ (s.alive && s.pf1OrMgr p) (fun s => (s.setReg 0x60 (v &&& 3)).bypDrop) := rfl
theorem exec_dozeRequest_eq : exec (.dozeRequest p) s = s.when_ (s.pwrOpen p) (fun s => s.dozeRequest) := rfl
theorem exec_pwrWake_eq : exec (.pwrWake p) s = s.when_ (s.pwrOpen p) (fun s => s.wakeAll 3) := rfl
theorem exec_standbyPrepare_eq (key : BitVec 8) : exec (.standbyPrepare p key) s = s.when_ (s.pwrOpen p)
    (fun s => if key = 0xC3 then s.standbyBegin else s.event .standbyKey false (BitVec.ofNat 8 p.num) [key.toNat]) := rfl
theorem exec_rstCtrlDevice_eq (key : BitVec 8) :
    exec (.rstCtrlDevice p key) s = s.when_ (s.alive && rstKey p key) (fun s => s.restart 4) := rfl
theorem exec_rstCtrlCourse_eq (key : BitVec 8) (i : BitVec 6) : exec (.rstCtrlCourse p key i) s =
    s.when_ (s.blocksUp && rstKey p key) (fun s => if h : i.toNat < 13 then s.courseResetAct ⟨i.toNat, h⟩ else s) := rfl
theorem exec_rstCtrlPort_eq (key : BitVec 8) (i : BitVec 6) : exec (.rstCtrlPort p key i) s =
    s.when_ (s.blocksUp && rstKey p key) (fun s => if h : i.toNat < 32 then s.portResetAct ⟨i.toNat, by omega⟩ else s) := rfl
theorem exec_rstCtrlCanctl_eq (key : BitVec 8) (i : BitVec 6) : exec (.rstCtrlCanctl p key i) s =
    s.when_ (s.blocksUp && rstKey p key) (fun s => if h : i.toNat < 8 then s.canResetAct ⟨i.toNat, h⟩ else s) := rfl

theorem exec_bypCtrlWrite_eq_globalWrite (ha : s.alive = true) : exec (.bypCtrlWrite p v) s = .next (s.globalWrite p 0x60 v) := by
  rw [exec_bypCtrlWrite_eq, State.globalWrite_bypCtrl, State.when_, ha, Bool.true_and]

theorem State.pwrCtrlWrite_none (h : v.toNat % 4 = 0) : s.pwrCtrlWrite p v = s := by
  simp [State.pwrCtrlWrite, bits_op, h]

theorem exec_dozeRequest_eq_pwrCtrlWrite (h : v.toNat % 4 = 1) : exec (.dozeRequest p) s = .next (s.pwrCtrlWrite p v) := by
  rw [exec_dozeRequest_eq]
  cases ho : s.pwrOpen p <;> simp [State.when_, State.pwrCtrlWrite, bits_op, h, ho]

theorem exec_pwrWake_eq_pwrCtrlWrite (h : v.toNat % 4 = 2) : exec (.pwrWake p) s = .next (s.pwrCtrlWrite p v) := by
  rw [exec_pwrWake_eq]
  cases ho : s.pwrOpen p <;> simp [State.when_, State.pwrCtrlWrite, bits_op, h, ho]

theorem exec_standbyPrepare_eq_pwrCtrlWrite (h : v.toNat % 4 = 3) :
    exec (.standbyPrepare p (v.extractLsb' 8 8)) s = .next (s.pwrCtrlWrite p v) := by
  rw [exec_standbyPrepare_eq]
  cases ho : s.pwrOpen p
  · simp [State.when_, State.pwrCtrlWrite, ho]
  · simp only [State.when_, State.pwrCtrlWrite, bits_op, bits_key_iff, h, ho]
    rfl

theorem exec_rstCtrlDevice_eq_rstCtrlWrite (ha : s.alive = true) (h : bits v 23 22 = 0) :
    exec (.rstCtrlDevice p (v.extractLsb' 24 8)) s = .next (s.rstCtrlWrite p v) := by
  rw [exec_rstCtrlDevice_eq]
  cases hk : rstKey p (v.extractLsb' 24 8) <;> simp [State.when_, State.rstCtrlWrite, h, ha, hk]

/-- A scope other than DEVICE needs the key and the blocks at work. -/
theorem State.rstCtrlWrite_scoped (h : bits v 23 22 ≠ 0) : s.rstCtrlWrite p v =
    if s.blocksUp && rstKey p (v.extractLsb' 24 8) then
      if bits v 23 22 = 1 then (if h : (v.extractLsb' 0 6).toNat < 13 then s.courseResetAct ⟨(v.extractLsb' 0 6).toNat, h⟩ else s)
      else if bits v 23 22 = 2 then (if h : (v.extractLsb' 0 6).toNat < 32 then s.portResetAct ⟨(v.extractLsb' 0 6).toNat, by omega⟩ else s)
      else if h : (v.extractLsb' 0 6).toNat < 8 then s.canResetAct ⟨(v.extractLsb' 0 6).toNat, h⟩ else s
    else s := by
  unfold State.rstCtrlWrite
  cases rstKey p (v.extractLsb' 24 8) <;> cases s.blocksUp <;> simp only [h, if_false] <;> rfl

theorem exec_rstCtrlCourse_eq_rstCtrlWrite (h : bits v 23 22 = 1) :
    exec (.rstCtrlCourse p (v.extractLsb' 24 8) (v.extractLsb' 0 6)) s = .next (s.rstCtrlWrite p v) := by
  simp [exec_rstCtrlCourse_eq, State.when_, State.rstCtrlWrite_scoped, h]

theorem exec_rstCtrlPort_eq_rstCtrlWrite (h : bits v 23 22 = 2) :
    exec (.rstCtrlPort p (v.extractLsb' 24 8) (v.extractLsb' 0 6)) s = .next (s.rstCtrlWrite p v) := by
  simp [exec_rstCtrlPort_eq, State.when_, State.rstCtrlWrite_scoped, h]

theorem exec_rstCtrlCanctl_eq_rstCtrlWrite (h : bits v 23 22 = 3) :
    exec (.rstCtrlCanctl p (v.extractLsb' 24 8) (v.extractLsb' 0 6)) s = .next (s.rstCtrlWrite p v) := by
  simp [exec_rstCtrlCanctl_eq, State.when_, State.rstCtrlWrite_scoped, h]

end

/-! ### COURSE_ROLE (R14, R15) -/

section
variable {s : State} {p : Party} {v : Reg32}

theorem bits_role (v : Reg32) : bits v 3 0 = v.toNat % 16 := by simp [bits]

theorem toNat_roleMask_mod (v : Reg32) : (v &&& 0x8000000F).toNat % 16 = v.toNat % 16 := by
  rw [BitVec.toNat_and, Nat.and_mod_two_pow (n := 4)]
  exact Nat.and_two_pow_sub_one_of_lt_two_pow (n := 4) (Nat.mod_lt _ (by decide))

/-- Number k names a course without an image. -/
def State.courseFree (s : State) (k : Nat) : Bool :=
  match s.courses[k]? with
  | some x => x.image.isNone
  | none => false

theorem State.courseFree_val (s : State) (c : Fin 13) : s.courseFree c.val = (s.course c).image.isNone := by
  simp [State.courseFree, State.course]

theorem State.courseFree_out (s : State) {k : Nat} (hk : 13 ≤ k) : s.courseFree k = false := by
  have hn : s.courses[k]? = none := Vector.getElem?_eq_none hk
  simp [State.courseFree, hn]

theorem State.courseRoleWrite_eq : s.courseRoleWrite p v =
    if p.isPf1 && (s.courseFree (v.toNat % 16) && s.courseFree ((s.reg 0x40).toNat % 16)) then s.setReg 0x40 (v &&& 0x8000000F) else s := by
  rw [← toNat_roleMask_mod v, ← bits_role, ← bits_role]
  rfl

/-- PF1 moves the role when neither course has an image. -/
theorem State.courseRoleWrite_taken (hp : p.isPf1 = true) (hv : v.toNat % 16 < 13) (hr : (s.reg 0x40).toNat % 16 < 13)
    (hi : ∀ c : Fin 13, c.val = v.toNat % 16 ∨ c.val = (s.reg 0x40).toNat % 16 → (s.course c).image = none) :
    s.courseRoleWrite p v = s.setReg 0x40 (v &&& 0x8000000F) := by
  have h1 : s.courseFree (v.toNat % 16) = true := by simp [s.courseFree_val ⟨_, hv⟩, hi ⟨_, hv⟩ (.inl rfl)]
  have h2 : s.courseFree ((s.reg 0x40).toNat % 16) = true := by simp [s.courseFree_val ⟨_, hr⟩, hi ⟨_, hr⟩ (.inr rfl)]
  simp [State.courseRoleWrite_eq, hp, h1, h2]

/-- Any other party, a role that names no course, and a course with an image leave the register as it is. -/
theorem State.courseRoleWrite_ignored (h : p.isPf1 = false ∨ 13 ≤ v.toNat % 16 ∨
      ∃ c : Fin 13, (c.val = v.toNat % 16 ∨ c.val = (s.reg 0x40).toNat % 16) ∧ (s.course c).image.isSome = true) :
    s.courseRoleWrite p v = s := by
  rw [State.courseRoleWrite_eq]
  rcases h with hp | hv | ⟨c, hc, hi⟩
  · simp [hp]
  · simp [s.courseFree_out hv]
  · have hf : s.courseFree c.val = false := by rw [s.courseFree_val, Option.isNone_eq_false_iff, hi]
    rcases hc with hc | hc <;> simp [← hc, hf]

theorem exec_courseRoleWrite_eq : exec (.courseRoleWrite p v) s = exec (.registerWrite p 0x40 v) s := rfl

end

end Sys2Proof.Machine
end

section
/-! SUPPORT. What a read records in ORPH_PF, and that no read elsewhere touches it (R435, R438). -/

namespace Sys2Proof.Machine

/-! ### Reads by a function, and the lock of a mailbox (R435, R438) -/

section
variable {s : State} {p : Party} {tag : BitVec 10} {off : Offset} {v : Reg32}

/-- A read outside the orphan arrays, by a party that has BAR0, is returned with its record. -/
theorem State.readDone_returned (ho : inOrphans off = false) (hf : p = .pf0 → s.power.phase ≠ .footing) :
    s.readDone p tag off = (s.barRead p tag.toNat off).2.returnRead p tag.toNat off.toNat (s.barRead p tag.toNat off).1 := by
  have hn : ¬ (p = .pf0 ∧ s.power.phase = .footing) := fun h => hf h.1 h.2
  simp [State.readDone, ho, hn]

theorem State.returnRead_pf0_orphPf : (s.returnRead .pf0 tag.toNat off.toNat v).orphPf =
    Sparse.write (fun _ => Orphan.reset) s.orphPf tag.toNat ⟨true, Party.pf0.code, off, v⟩ := by
  simp [State.returnRead, State.notePfRead]

/-- The record that a read of PF0 leaves (R435). -/
theorem State.returnRead_pf0_record (hw : Sparse.wf (fun _ => Orphan.reset) s.orphPf = true) :
    Sparse.read (fun _ => Orphan.reset) (s.returnRead .pf0 tag.toNat off.toNat v).orphPf tag.toNat =
      { valid := true, req := Party.pf0.code, off := off, data := v } := by
  rw [State.returnRead_pf0_orphPf]
  exact Sparse.read_write_same _ _ _ hw

/-- A mailbox block lies inside the two mailbox regions of the map. -/
theorem mbBase_bounds (j : Fin 32) : 0x100000 ≤ mbBase j ∧ mbBase j + 0x100 ≤ 0x181000 ∧ mbBase j % 0x100 = 0 := by
  unfold mbBase
  split <;> omega

theorem mailboxAt_mbBase (j : Fin 32) {o : Nat} (ho : o < 0x100) : mailboxAt (mbBase j + o) = some j := by
  unfold mailboxAt mbBase
  by_cases hj : j.val < 16
  · rw [if_pos hj, dif_pos (by omega)]
    exact congrArg some (Fin.ext (by dsimp only; omega))
  · rw [if_neg hj, dif_neg (by omega), dif_pos (by omega)]
    exact congrArg some (Fin.ext (by dsimp only; omega))

theorem State.mapRead_mail {a tag : Nat} (h1 : 0x100000 ≤ a) (h2 : a < 0x200000) (hp : secureShut p = false) :
    s.mapRead p tag a = s.mailRead p a := by
  rw [State.mapRead, if_neg (by omega), if_pos h2, hp, Bool.and_false]
  rfl

theorem State.mailRead_lock (j : Fin 32) (ho : s.mbOpen p j (mbReaches p j) = true) :
    s.mailRead p (mbBase j + 0x24) = (BitVec.ofNat 32 (s.lockRead p.num j []).1, (s.lockRead p.num j []).2) := by
  have hm : (mbBase j + 0x24) % 0x100 = 0x24 := by have := mbBase_bounds j; omega
  simp [State.mailRead, mailboxAt_mbBase j (show 0x24 < 0x100 by decide), hm, ho]

theorem exec_mailboxLock_pf1 (j : Fin 32) (ho : s.mbOpen .pf1 j true = true) : exec (.mailboxLock .pf1 tag j []) s =
    .next ((s.lockRead Party.pf1.num j []).2.returnRead .pf1 tag.toNat (mbBase j + 0x24) (BitVec.ofNat 32 (s.lockRead Party.pf1.num j []).1)) := by
  change execMailboxLock .pf1 tag j [] s = _
  have ho' : s.mbOpen .pf1 j (mbReaches .pf1 j) = true := ho
  rw [execMailboxLock, if_pos ho']
  rfl

/-- A read of MB_LOCK is the lock of the mailbox. -/
theorem exec_rcRead_mbLock (j : Fin 32) (ha : s.alive = true) (hl : s.urral.lock = none) (hr : s.reaches .pf1 (mbBase j + 0x24) = true)
    (ho : s.mbOpen .pf1 j true = true) :
    exec (.rcRead .pf1 tag (BitVec.ofNat 26 (mbBase j + 0x24))) s = exec (.mailboxLock .pf1 tag j []) s := by
  obtain ⟨hlo, hhi, hmod⟩ := mbBase_bounds j
  have hn : (BitVec.ofNat 26 (mbBase j + 0x24)).toNat = mbBase j + 0x24 := by
    rw [BitVec.toNat_ofNat]; omega
  have hq : (BitVec.ofNat 26 (mbBase j + 0x24)).toNat / 4 * 4 = mbBase j + 0x24 := by omega
  have hi : inOrphans (BitVec.ofNat 26 (mbBase j + 0x24)) = false := by
    simp only [inOrphans, hn, decide_eq_false_iff_not]; omega
  have hb : s.barRead .pf1 tag.toNat (BitVec.ofNat 26 (mbBase j + 0x24)) =
      (BitVec.ofNat 32 (s.lockRead Party.pf1.num j []).1, (s.lockRead Party.pf1.num j []).2) := by
    rw [State.barRead_reached (by rwa [hq]), hq, State.mapRead_mail (by omega) (by omega) rfl, State.mailRead_lock j ho]
  rw [exec_rcRead_of_free ha (.inl hl), State.readDone_returned hi (by simp), hb, hn, exec_mailboxLock_pf1 j ho]

end

/-! ### Reads leave ORPH_PF alone outside its own array (R435) -/

section
variable {s : State} {p : Party}

theorem orphPf_ite {c : Prop} [Decidable c] (x y : Reg32 × State) :
    (if c then x else y).2.orphPf = if c then x.2.orphPf else y.2.orphPf := by split <;> rfl

theorem orphPf_dite {c : Prop} [Decidable c] (x : c → Reg32 × State) (y : ¬ c → Reg32 × State) :
    (if h : c then x h else y h).2.orphPf = if h : c then (x h).2.orphPf else (y h).2.orphPf := by split <;> rfl

theorem orphPf_of_ite {c : Prop} [Decidable c] {x y : Reg32 × State} {m : List (Nat × Orphan)} (hx : x.2.orphPf = m) (hy : y.2.orphPf = m) :
    (if c then x else y).2.orphPf = m := by split <;> assumption

theorem State.refused_orphPf (o v : Nat) : (s.refused p o v).orphPf = s.orphPf := by
  rw [Logs.refused s p o v]

theorem State.lockRead_orphPf (n : Nat) (j : Fin 32) (l : List Nat) : (s.lockRead n j l).2.orphPf = s.orphPf := by
  unfold State.lockRead
  dsimp only
  repeat' split
  all_goals rfl

theorem State.mailRead_orphPf (a : Nat) : (s.mailRead p a).2.orphPf = s.orphPf := by
  unfold State.mailRead
  split
  · rfl
  · simp [orphPf_ite, orphPf_dite, State.lockRead_orphPf]

theorem State.readQuad_orphPf (code : BitVec 8) (a : Nat) (q : BitVec 96) : (s.readQuad code a q).2.orphPf = s.orphPf := rfl

theorem State.ptimeRead_orphPf (q : Fin 36) (o : Nat) : (s.ptimeRead q o).2.orphPf = s.orphPf := by
  simp [State.ptimeRead, orphPf_ite]

theorem State.tdRead_orphPf (d : Fin 2) (o : Nat) : (s.tdRead d o).2.orphPf = s.orphPf := by
  simp [State.tdRead, orphPf_ite]

theorem State.tcapPop_orphPf (n : Fin 16) : (s.tcapPop n).orphPf = s.orphPf := by
  unfold State.tcapPop
  dsimp only
  split <;> rfl

theorem State.readCapture_orphPf (code : BitVec 8) (n : Fin 16) (o : Nat) : (s.readCapture code n o).2.orphPf = s.orphPf := by
  simp [State.readCapture, orphPf_ite, State.tcapPop_orphPf]

/-- The offset inside a capture block is named before its branches are compared: the kernel would evaluate the subtraction. -/
theorem State.plumbRead_orphPf (code : BitVec 8) (a : Nat) : (s.plumbRead code a).2.orphPf = s.orphPf := by
  unfold State.plumbRead
  cases s.quadAt a with
  | some q => exact State.readQuad_orphPf code a q
  | none =>
    refine orphPf_of_ite rfl ?_
    split
    · rw [State.ptimeRead_orphPf]
    split
    · rfl
    split
    · generalize (a - 0x200000) % 0x40 = o
      simp only [orphPf_ite, State.readCapture_orphPf, ite_self]
    · simp only [orphPf_ite, State.tdRead_orphPf, ite_self]

theorem State.canRead_orphPf (code : BitVec 8) (n : Fin 8) (o : Nat) : (s.canRead code n o).2.orphPf = s.orphPf := by
  simp [State.canRead, orphPf_ite, orphPf_dite, State.readQuad_orphPf]

theorem State.fieldRead_orphPf (code : BitVec 8) (o : Nat) : (s.fieldRead code o).2.orphPf = s.orphPf := by
  simp [State.fieldRead, orphPf_ite, State.readQuad_orphPf]

theorem State.recRegion_orphPf (a : Nat) : (s.recRegion a).2.orphPf = s.orphPf := by
  simp [State.recRegion, State.recRead, orphPf_ite]

theorem State.urralRead_orphPf (o : Nat) : (s.urralRead o).2.orphPf = s.orphPf := by
  simp [State.urralRead, State.modUrrPort, orphPf_ite, orphPf_dite]

/-- Below the orphan arrays and above them, the Urral region has no record of a read. -/
theorem State.urralRegion_orphPf {a : Nat} (ha : a < 0x608000 ∨ 0x618000 ≤ a) : (s.urralRegion p a).2.orphPf = s.orphPf := by
  rcases ha with ha | ha
  · rw [State.urralRegion, if_pos ha]
    exact State.urralRead_orphPf _
  · rw [State.urralRegion, if_neg (by omega), if_neg (by omega), if_neg (by omega)]

theorem State.ringRead_orphPf (n : Fin 64) (o : Nat) : (s.ringRead p n o).2.orphPf = s.orphPf := by
  simp [State.ringRead, orphPf_ite]

theorem State.portRead_orphPf (tag : Nat) (q : PortCode) (o : Nat) : (s.portRead p tag q o).2.orphPf = s.orphPf := by
  simp [State.portRead, State.cntRead, State.queueRead, State.modQ, orphPf_ite]

theorem State.mortarRegion_orphPf (tag a : Nat) : (s.mortarRegion p tag a).2.orphPf = s.orphPf := by
  unfold State.mortarRegion
  cases portOfCode ((a - 0x800000) / 0x4000) <;> simp [orphPf_ite, orphPf_dite, State.portRead_orphPf]

theorem State.courseRead_orphPf (c : Fin 13) (o : Nat) : (s.courseRead p c o).2.orphPf = s.orphPf := by
  simp [State.courseRead, State.imageRead, State.brickBlockRead, orphPf_ite, orphPf_dite, State.refused_orphPf]

theorem State.mapRead_orphPf (tag : Nat) {a : Nat} (ha : a < 0x608000 ∨ 0x618000 ≤ a) : (s.mapRead p tag a).2.orphPf = s.orphPf := by
  simp [State.mapRead, orphPf_ite, orphPf_dite, State.refused_orphPf, State.mailRead_orphPf, State.plumbRead_orphPf, State.canRead_orphPf,
    State.fieldRead_orphPf, State.recRegion_orphPf, State.urralRegion_orphPf ha, State.ringRead_orphPf, State.mortarRegion_orphPf,
    State.courseRead_orphPf]

end

end Sys2Proof.Machine
end

section
/-! SUPPORT. The accesses with rights of their own: course memories, the secure page, the TAP; and counters cleared by a read. -/

namespace Sys2Proof.Machine

/-! ### The windows of a course (R23, R522) -/

section
variable {s : State} {p : Party} {c : Fin 13} {k : BitVec 16} {v : Reg32}

theorem State.mapWrite_course {o : Nat} (ho : o < 0x100000) : s.mapWrite p (courseBase c + o) v = s.courseWrite p c o v := by
  have hlo : 0x1000000 ≤ courseBase c + o := by unfold courseBase; omega
  have hhi : courseBase c + o < 0x1D00000 := by unfold courseBase; omega
  have hc : (courseBase c + o - 0x1000000) / 0x100000 = c.val := by unfold courseBase; omega
  have hr : (courseBase c + o) % 0x100000 = o := by unfold courseBase; omega
  have hn : ∀ n, n ≤ 0x1000000 → ¬ courseBase c + o < n := fun n hn => by omega
  simp [State.mapWrite, hn, hhi, hc, hr]

theorem State.courseWrite_image {o : Nat} (ho : o < 0x30000) : s.courseWrite p c o v = s.imageWrite p c o v := if_pos ho

theorem State.courseWrite_gap {o : Nat} (h1 : 0x30000 ≤ o) (h2 : o < 0x40000) : s.courseWrite p c o v = s := by
  have hn : ∀ n, 0x40000 ≤ n → ¬ n ≤ o := fun n hn => by omega
  have he : ∀ n, 0x40000 ≤ n → o ≠ n := fun n hn => by omega
  simp [State.courseWrite, Nat.not_lt.mpr h1, hn, he]

/-- The offset of 32-bit word k of the bank image. -/
theorem imageOffset_word (c : Fin 13) (k : BitVec 16) :
    (BitVec.ofNat 26 (courseBase c + 4 * k.toNat)).toNat / 4 * 4 = courseBase c + 4 * k.toNat := by
  have hk := k.isLt
  rw [BitVec.toNat_ofNat]
  unfold courseBase
  omega

theorem exec_bankImageWrite_of_free (ha : s.alive = true) (hl : s.urral.lock = none ∨ p = .keystone) :
    exec (.bankImageWrite p c k v) s = .next (s.barWrite p (BitVec.ofNat 26 (courseBase c + 4 * k.toNat)) v) := by
  rw [← State.issueWrite_of_free hl]
  exact State.when_of_true s (fun s => s.issueWrite p (BitVec.ofNat 26 (courseBase c + 4 * k.toNat)) v) ha

theorem State.mapWrite_imageOffset : s.mapWrite p ((BitVec.ofNat 26 (courseBase c + 4 * k.toNat)).toNat / 4 * 4) v =
    s.courseWrite p c (4 * k.toNat) v := by
  have hk := k.isLt
  rw [imageOffset_word, State.mapWrite_course (by omega)]

/-- A write of the bank image or an instruction memory that reaches the debug port. -/
theorem exec_bankImageWrite_image (ha : s.alive = true) (hl : s.urral.lock = none ∨ p = .keystone)
    (hr : s.reaches p (courseBase c + 4 * k.toNat) = true) (hs : s.power.stbyReady = false) (hk : k.toNat < 0xC000) :
    exec (.bankImageWrite p c k v) s = .next (s.imageWrite p c (4 * k.toNat) v) := by
  rw [exec_bankImageWrite_of_free ha hl, State.barWrite_reached (by rwa [imageOffset_word]) hs, State.mapWrite_imageOffset,
    State.courseWrite_image (by omega)]

/-- Words 0xC000 on lie between the memories and the brick blocks: no register. -/
theorem exec_bankImageWrite_gap (ha : s.alive = true) (hl : s.urral.lock = none ∨ p = .keystone) (hk : 0xC000 ≤ k.toNat) :
    exec (.bankImageWrite p c k v) s = .next s := by
  have hlt := k.isLt
  rw [exec_bankImageWrite_of_free ha hl, State.barWrite_of_ignored]
  rw [State.mapWrite_imageOffset, State.courseWrite_gap (by omega) (by omega)]

/-! ### Rights over the memories of a course (R228, R468, R522) -/

theorem State.mayPoke_eq :
    s.mayPoke p c = if (s.course c).image.isSome ∨ (s.course c).mode = 2 then s.brickDebug p else s.pf1MgrKey p := by
  simp [State.mayPoke, State.loaded]

theorem State.mayPoke_of (h1 : (s.course c).image = none → (s.course c).mode ≠ 2 → s.pf1MgrKey p = true)
    (h2 : (s.course c).image.isSome = true ∨ (s.course c).mode = 2 → s.brickDebug p = true) : s.mayPoke p c = true := by
  rw [State.mayPoke_eq]
  split
  · next h => exact h2 h
  · next h =>
    rw [not_or, Option.not_isSome_iff_eq_none] at h
    exact h1 h.1 h.2

theorem decide_imem_word : decide (0x20000 ≤ 4 * k.toNat) = decide (0x8000 ≤ k.toNat) := by
  rw [decide_eq_decide]
  omega

/-- The port is shut, or the party has no right: the write is refused (R23, R228, R468, R522). -/
theorem State.imageWrite_refused (h : s.gated c = true ∨ (s.course c).testing (decide (0x8000 ≤ k.toNat)) = true ∨
      (if (s.course c).image.isSome ∨ (s.course c).mode = 2 then s.brickDebug p = false else s.pf1MgrKey p = false)) :
    s.imageWrite p c (4 * k.toNat) v = s.refused p (courseBase c + 4 * k.toNat) v.toNat := by
  have hm : (if (s.course c).image.isSome ∨ (s.course c).mode = 2 then s.brickDebug p = false else s.pf1MgrKey p = false) ↔
      s.mayPoke p c = false := by
    rw [State.mayPoke_eq]
    split <;> rfl
  rw [hm] at h
  refine if_pos ?_
  rw [decide_imem_word]
  rcases h with h | h | h <;> simp [State.portShut, h]

/-- The two 16-bit words of the debug port are written, low half first. -/
theorem State.imageWrite_pokes (hg : s.gated c = false) (ht : (s.course c).testing (decide (0x8000 ≤ k.toNat)) = false)
    (hm : s.mayPoke p c = true) {b : Option (Fin 4)} {w : Nat}
    (hb : (if h : 0x20000 ≤ 4 * k.toNat ∧ 4 * k.toNat < 0x30000 then some ⟨(4 * k.toNat - 0x20000) / 0x4000, by omega⟩ else none) = b)
    (hw : (if 4 * k.toNat < 0x20000 then 4 * k.toNat / 2 else 4 * k.toNat % 0x4000 / 2) = w) :
    s.imageWrite p c (4 * k.toNat) v = (s.poke c b w (v.extractLsb' 0 16)).poke c b (w + 1) (v.extractLsb' 16 16) := by
  subst hb hw
  refine if_neg ?_
  rw [decide_imem_word]
  simp [State.portShut, hg, ht, hm]

end

/-! ### A word through the debug port (R19, R487) -/

section
variable {s : State} {c : Fin 13} {w : Nat} {v : Word}

theorem State.poke_bank_eq : s.poke c none w v =
    { s.setCourse c { s.course c with bank := (s.course c).bank.setWord w v } with journal := (s.poke c none w v).journal } := by
  conv_lhs => unfold State.poke
  dsimp only
  rw [State.jrec_eq]
  rfl

theorem State.course_poke_bank :
    (s.poke c none w v).course c = { s.course c with bank := (s.course c).bank.setWord w v } := by
  rw [State.poke_bank_eq]
  exact State.course_setCourse s c _

theorem State.course_poke_bank_ne {d : Fin 13} (hd : d ≠ c) : (s.poke c none w v).course d = s.course d := by
  rw [State.poke_bank_eq]
  exact State.course_setCourse_ne s _ hd

theorem State.poke_bank_frame : s.poke c none w v = { s with courses := (s.poke c none w v).courses, journal := (s.poke c none w v).journal } := by
  conv_lhs => rw [State.poke_bank_eq]
  rw [State.poke_bank_eq]
  rfl

theorem State.poke_imem_eq (b : Fin 4) : s.poke c (some b) w v =
    { s.setBrick (brickOf c b) { s.brick (brickOf c b) with imem := (s.brick (brickOf c b)).imem.setWord w v } with
      journal := (s.poke c (some b) w v).journal } := by
  conv_lhs => unfold State.poke
  dsimp only
  rw [State.jrec_eq]
  rfl

theorem State.brick_poke_imem (b : Fin 4) : (s.poke c (some b) w v).brick (brickOf c b) =
    { s.brick (brickOf c b) with imem := (s.brick (brickOf c b)).imem.setWord w v } := by
  rw [State.poke_imem_eq]
  exact State.brick_setBrick s (brickOf c b) _

theorem State.brick_poke_imem_ne (b : Fin 4) {x : Fin 52} (hx : x ≠ brickOf c b) : (s.poke c (some b) w v).brick x = s.brick x := by
  rw [State.poke_imem_eq]
  exact State.brick_setBrick_ne s _ hx

theorem State.poke_imem_frame (b : Fin 4) :
    s.poke c (some b) w v = { s with bricks := (s.poke c (some b) w v).bricks, journal := (s.poke c (some b) w v).journal } := by
  conv_lhs => rw [State.poke_imem_eq]
  rw [State.poke_imem_eq]
  rfl

end

section
variable {s : State} {p : Party} {c : Fin 13} {k : BitVec 16} {v : Reg32}

theorem coursesFrame_trans {s t u : State} (h1 : t = { s with courses := t.courses, journal := t.journal })
    (h2 : u = { t with courses := u.courses, journal := u.journal }) : u = { s with courses := u.courses, journal := u.journal } := by
  refine h2.trans ?_
  rw [h1]

theorem bricksFrame_trans {s t u : State} (h1 : t = { s with bricks := t.bricks, journal := t.journal })
    (h2 : u = { t with bricks := u.bricks, journal := u.journal }) : u = { s with bricks := u.bricks, journal := u.journal } := by
  refine h2.trans ?_
  rw [h1]

/-- A 32-bit word of the bank: both halves, no other course, and the journal (R23, R487). -/
theorem State.imageWrite_bank (hk : k.toNat < 0x8000) (hg : s.gated c = false) (ht : (s.course c).testing false = false)
    (hm : s.mayPoke p c = true) :
    ∃ t, s.imageWrite p c (4 * k.toNat) v = t ∧ t = { s with courses := t.courses, journal := t.journal } ∧
      t.course c = { s.course c with
        bank := ((s.course c).bank.setWord (2 * k.toNat) (v.extractLsb' 0 16)).setWord (2 * k.toNat + 1) (v.extractLsb' 16 16) } ∧
      ∀ d, d ≠ c → t.course d = s.course d := by
  have hd : decide (0x8000 ≤ k.toNat) = false := decide_eq_false (by omega)
  have hp : s.imageWrite p c (4 * k.toNat) v =
      (s.poke c none (2 * k.toNat) (v.extractLsb' 0 16)).poke c none (2 * k.toNat + 1) (v.extractLsb' 16 16) :=
    State.imageWrite_pokes hg (by rwa [hd]) hm (dif_neg (by omega)) (by rw [if_pos (by omega)]; omega)
  refine ⟨_, hp, coursesFrame_trans State.poke_bank_frame State.poke_bank_frame, ?_, fun d hd => ?_⟩
  · rw [State.course_poke_bank, State.course_poke_bank]
  · rw [State.course_poke_bank_ne hd, State.course_poke_bank_ne hd]

/-- A 32-bit word of an instruction memory, likewise. -/
theorem State.imageWrite_imem {b : Fin 4} (hk : k.toNat / 0x1000 = 8 + b.val) (hg : s.gated c = false)
    (ht : (s.course c).testing true = false) (hm : s.mayPoke p c = true) :
    ∃ t, s.imageWrite p c (4 * k.toNat) v = t ∧ t = { s with bricks := t.bricks, journal := t.journal } ∧
      t.brick (brickOf c b) = { s.brick (brickOf c b) with
        imem := ((s.brick (brickOf c b)).imem.setWord (2 * (k.toNat % 0x1000)) (v.extractLsb' 0 16)).setWord
          (2 * (k.toNat % 0x1000) + 1) (v.extractLsb' 16 16) } ∧
      ∀ x, x ≠ brickOf c b → t.brick x = s.brick x := by
  have hd : decide (0x8000 ≤ k.toNat) = true := decide_eq_true (by omega)
  have hb : (4 * k.toNat - 0x20000) / 0x4000 = b.val := by omega
  have hp : s.imageWrite p c (4 * k.toNat) v =
      (s.poke c (some b) (2 * (k.toNat % 0x1000)) (v.extractLsb' 0 16)).poke c (some b) (2 * (k.toNat % 0x1000) + 1) (v.extractLsb' 16 16) :=
    State.imageWrite_pokes hg (by rwa [hd]) hm ((dif_pos (by omega)).trans (congrArg some (Fin.ext hb)))
      (by rw [if_neg (by omega)]; omega)
  refine ⟨_, hp, bricksFrame_trans (State.poke_imem_frame b) (State.poke_imem_frame b), ?_, fun x hx => ?_⟩
  · rw [State.brick_poke_imem, State.brick_poke_imem]
  · rw [State.brick_poke_imem_ne b hx, State.brick_poke_imem_ne b hx]

end

/-! ### The secure mailbox page (R24) -/

section
variable {s : State} {p : Party} {v : Reg32}

theorem inSecure_iff {a : Nat} : inSecure a = true ↔ 0x180000 ≤ a ∧ a < 0x200000 := decide_eq_true_iff

theorem State.mapWrite_secure {a : Nat} (ha : inSecure a = true) (hp : secureShut p = true) : s.mapWrite p a v = s.refused p a v.toNat := by
  obtain ⟨hlo, hhi⟩ := inSecure_iff.mp ha
  rw [State.mapWrite, if_neg (by omega), if_pos hhi, ha, hp]
  rfl

theorem State.mapRead_secure {a tag : Nat} (ha : inSecure a = true) (hp : secureShut p = true) :
    s.mapRead p tag a = (0, s.refused p a 0) := by
  obtain ⟨hlo, hhi⟩ := inSecure_iff.mp ha
  rw [State.mapRead, if_neg (by omega), if_pos hhi, ha, hp]
  rfl

theorem secureOffset_word (off : BitVec 19) :
    (BitVec.ofNat 26 (0x180000 + off.toNat)).toNat / 4 * 4 = (0x180000 + off.toNat) / 4 * 4 := by
  have ho := off.isLt
  rw [BitVec.toNat_ofNat]
  omega

theorem inSecure_secureOffset (off : BitVec 19) : inSecure ((0x180000 + off.toNat) / 4 * 4) = true := by
  have ho := off.isLt
  rw [inSecure_iff]
  omega

theorem exec_securePageAccess_write_eq (tag : BitVec 10) (off : BitVec 19) : exec (.securePageAccess tag off (some v)) s =
    s.when_ (s.alive && decide (s.power.phase ≠ .footing)) (fun s => s.issueWrite .pf0 (BitVec.ofNat 26 (0x180000 + off.toNat)) v) := rfl

theorem exec_securePageAccess_read_eq (tag : BitVec 10) (off : BitVec 19) : exec (.securePageAccess tag off none) s =
    s.when_ (s.alive && decide (s.power.phase ≠ .footing)) (fun s => s.issueRead .pf0 tag (BitVec.ofNat 26 (0x180000 + off.toNat))) := rfl

theorem exec_securePageAccess_write (tag : BitVec 10) (off : BitVec 19) (ha : s.alive = true) (hl : s.urral.lock = none)
    (hf : s.power.phase ≠ .footing) (hs : s.power.stbyReady = false) :
    exec (.securePageAccess tag off (some v)) s = .next (s.refused .pf0 ((0x180000 + off.toNat) / 4 * 4) v.toNat) := by
  rw [exec_securePageAccess_write_eq, State.when_of_true _ _ (by simp [ha, hf]), State.issueWrite_of_free (.inl hl),
    State.barWrite_reached (State.reaches_pf0 ha hf) hs, secureOffset_word, State.mapWrite_secure (inSecure_secureOffset off) rfl]

theorem exec_securePageAccess_read (tag : BitVec 10) (off : BitVec 19) (ha : s.alive = true) (hl : s.urral.lock = none)
    (hf : s.power.phase ≠ .footing) : ∃ t, exec (.securePageAccess tag off none) s = .next t ∧
      t = { s.refused .pf0 ((0x180000 + off.toNat) / 4 * 4) 0 with readValue := 0, orphPf := t.orphPf } := by
  have he : exec (.securePageAccess tag off none) s = exec (.rcRead .pf0 tag (BitVec.ofNat 26 (0x180000 + off.toNat))) s := by
    rw [exec_securePageAccess_read_eq, State.when_of_true _ _ (by simp [ha, hf]), exec_rcRead_of_alive ha]
  rw [he]
  refine exec_rcRead_yields ha (.inl hl) ?_
  rw [State.barRead_reached (State.reaches_pf0 ha hf), secureOffset_word, State.mapRead_secure (inSecure_secureOffset off) rfl]

theorem exec_securePageAccess_idle (tag : BitVec 10) (off : BitVec 19) (o : Option Reg32) (h : s.alive = false ∨ s.power.phase = .footing) :
    exec (.securePageAccess tag off o) s = .next s := by
  have hc : (s.alive && decide (s.power.phase ≠ .footing)) = false := by rcases h with h | h <;> simp [h]
  cases o with
  | some v => rw [exec_securePageAccess_write_eq, State.when_of_false _ _ hc]
  | none => rw [exec_securePageAccess_read_eq, State.when_of_false _ _ hc]

end

/-! ### DBG_ACCESS (R466) -/

section
variable {s : State} {off : Offset} {v : Reg32}

theorem exec_dbgAccess_write_eq : exec (.dbgAccess off (some v)) s =
    s.when_ (s.alive && (decide (s.power.tap = .dbgAccess) && s.tapAllowed .dbgAccess)) (fun s => s.issueWrite .tap off v) := rfl

theorem exec_dbgAccess_read_eq : exec (.dbgAccess off none) s =
    s.when_ (s.alive && (decide (s.power.tap = .dbgAccess) && s.tapAllowed .dbgAccess)) (fun s => s.issueRead .tap 0 off) := rfl

theorem exec_dbgAccess_write (ht : s.power.tap = .dbgAccess) (hd : s.tapAllowed .dbgAccess = true) :
    exec (.dbgAccess off (some v)) s = exec (.registerWrite .tap off v) s := by
  rw [exec_dbgAccess_write_eq, exec_registerWrite_eq]
  simp [ht, hd]

theorem exec_dbgAccess_read (ht : s.power.tap = .dbgAccess) (hd : s.tapAllowed .dbgAccess = true) :
    exec (.dbgAccess off none) s = exec (.rcRead .tap 0 off) s := by
  rw [exec_dbgAccess_read_eq, exec_rcRead_eq]
  simp [ht, hd]

theorem exec_dbgAccess_idle (o : Option Reg32) (h : s.power.tap ≠ .dbgAccess ∨ s.tapAllowed .dbgAccess = false) :
    exec (.dbgAccess off o) s = .next s := by
  have hc : (s.alive && (decide (s.power.tap = .dbgAccess) && s.tapAllowed .dbgAccess)) = false := by
    rcases h with h | h <;> simp [h]
  cases o with
  | some v => rw [exec_dbgAccess_write_eq, State.when_of_false _ _ hc]
  | none => rw [exec_dbgAccess_read_eq, State.when_of_false _ _ hc]

theorem State.tapAllowed_dbgAccess_iff :
    s.tapAllowed .dbgAccess = true ↔ (s.debugLevel = 2 ∨ (s.debugLevel = 1 ∧ s.debugScope.getLsbD 1 = true)) := by
  simp [State.tapAllowed, bit]

end

/-! ### Counters cleared by a read (R7) -/

section
variable {s : State} {p : Party}

theorem State.mapRead_recLost (tag : Nat) : s.mapRead p tag 0x500014 =
    (s.recorder.lost, { s with recorder := { s.recorder with lost := 0, lostShadow := s.recorder.lost } }) := rfl

/-- A read of the CRC error count clears it into its shadow. -/
def UrrPort.readCrc (q : UrrPort) : UrrPort := { q with crc := 0, crcShadow := q.crc }

theorem State.mapRead_urrCrc0 (tag : Nat) : s.mapRead p tag 0x600118 = ((s.urrPort 0).crc, s.modUrrPort 0 UrrPort.readCrc) := rfl

theorem State.urrPort_modUrrPort (k : Fin 4) (f : UrrPort → UrrPort) : (s.modUrrPort k f).urrPort k = f (s.urrPort k) := by
  simp [State.modUrrPort, State.modUrral, State.urrPort]

theorem State.urrPort_modUrrPort_ne {j k : Fin 4} (f : UrrPort → UrrPort) (h : j ≠ k) : (s.modUrrPort k f).urrPort j = s.urrPort j := by
  have hv : k.val ≠ j.val := fun e => h (Fin.ext e.symm)
  simp [State.modUrrPort, State.modUrral, State.urrPort, hv]

end

end Sys2Proof.Machine
end

section
/-! SUPPORT. What the blocks do at a management tick (R11, R323, R334, R394, R401, R420, R422). -/

namespace Sys2Proof.Machine

/-! ### Plumb -/

theorem clampInt_natAbs_le (x : Int) : (clampInt x 1000).natAbs ≤ 1000 := by
  unfold clampInt
  split
  · decide
  · split <;> omega

theorem State.roundFree_eq (s : State) (n d : Int) : (s.roundFree n d).2 = { s with freeCtr := (s.roundFree n d).2.freeCtr } := by
  unfold State.roundFree
  dsimp only
  split <;> rfl

/-- The target of the pull costs at most a free value. -/
theorem State.pullTarget_eq (s : State) : ∃ p n, s.pullTarget = (p, { s with freeCtr := n }) := by
  cases hs : s.plumb.source with
  | refclk | holdover =>
    simp only [State.pullTarget, hs]
    exact ⟨_, s.freeCtr, rfl⟩
  | carrier =>
    simp only [State.pullTarget, hs]
    exact ⟨_, s.freeCtr + 1, rfl⟩
  | domain =>
    simp only [State.pullTarget, hs]
    exact ⟨_, _, Prod.ext rfl (State.roundFree_eq s _ _)⟩

/-- The state t is s but for the path delays and the free values drawn. -/
def DelaysFollow (s t : State) : Prop := ∃ n r, t = { s with freeCtr := n, plumb := { s.plumb with ports := r } }

theorem DelaysFollow.refl (s : State) : DelaysFollow s s := ⟨s.freeCtr, s.plumb.ports, rfl⟩

theorem DelaysFollow.trans {s t u : State} (h1 : DelaysFollow s t) (h2 : DelaysFollow t u) : DelaysFollow s u := by
  obtain ⟨n1, r1, rfl⟩ := h1
  obtain ⟨n2, r2, rfl⟩ := h2
  exact ⟨n2, r2, rfl⟩

theorem State.trackDelays_follows (s : State) (q : PortCode) : DelaysFollow s (s.trackDelays q) := by
  unfold State.trackDelays
  split
  · exact ⟨s.freeCtr + 1 + 1, _, rfl⟩
  · exact DelaysFollow.refl s

theorem foldl_trackDelays_follows (l : List (Fin 36)) (s : State) :
    DelaysFollow s (l.foldl (fun s k => s.trackDelays ⟨k.val, by omega⟩) s) :=
  foldl_rel DelaysFollow DelaysFollow.refl (fun _ _ _ => DelaysFollow.trans) _ (fun t k => t.trackDelays_follows ⟨k.val, by omega⟩) l s

/-- At a tick the pull moves by at most 1 ppm, TD0 is noted, and the path delays follow the temperature. -/
theorem State.plumbTick_eq (s : State) : ∃ n d r, d.natAbs ≤ 1000 ∧
    s.plumbTick = { s with freeCtr := n, plumb := { s.plumb with pull := s.plumb.pull + d, tickTd0 := s.tdValue 0 s.now, ports := r } } := by
  obtain ⟨p, n, hp⟩ := s.pullTarget_eq
  unfold State.plumbTick
  rw [hp]
  dsimp only
  split
  · exact ⟨_, _, _, clampInt_natAbs_le _, rfl⟩
  · obtain ⟨m, r, hf⟩ := foldl_trackDelays_follows (List.finRange 36) { s with
      freeCtr := n, plumb := { s.plumb with pull := s.plumb.pull + clampInt (p - s.plumb.pull) 1000, tickTd0 := s.tdValue 0 s.now } }
    exact ⟨m, _, r, clampInt_natAbs_le _, hf⟩

/-! ### The mortar -/

theorem State.bufferTick_logs (s : State) : ∃ m, Logs { s with mortar := m } s.bufferTick := by
  unfold State.bufferTick
  dsimp only
  split
  · exact ⟨s.mortar, rfl⟩
  · exact ⟨_, Logs.event _ _ _ _ _⟩

/-! ### The Urral link -/

/-- Sends that depend on nothing sent before reach the chain in order. -/
theorem foldl_chainSend {β : Type} (c : State → β → Bool) (o : State → β → UrrOut)
    (hc : ∀ (s : State) l k, c { s with chainOut := l } k = c s k) (ho : ∀ (s : State) l k, o { s with chainOut := l } k = o s k)
    (l : List β) (s : State) : l.foldl (fun s k => if c s k then s.chainSend (o s k) else s) s =
      { s with chainOut := s.chainOut ++ (l.filter (c s)).map (o s) } := by
  induction l generalizing s with
  | nil => simp
  | cons k l ih =>
    rw [List.foldl_cons, ih]
    cases hk : c s k with
    | false => simp [hk]
    | true =>
      have h1 : c (s.chainSend (o s k)) = c s := funext (hc s _)
      have h2 : o (s.chainSend (o s k)) = o s := funext (ho s _)
      simp [hk, h1, h2]

/-- The errors of the tick are counted afresh. -/
def State.clearErrs (s : State) : State := s.modUrral (fun u => { u with ports := u.ports.map (fun p => { p with errs := 0 }) })

theorem State.urrPort_clearErrs (s : State) (k : Fin 4) : s.clearErrs.urrPort k = { s.urrPort k with errs := 0 } := by
  simp [State.clearErrs, State.modUrral, State.urrPort]

/-- A device that may claim starts its claim (R401). -/
def State.startClaim (s : State) : State :=
  if s.mayClaim then s.modUrral (fun u => { u with
    claim := some ({ src := u.devnum, leaseHeld := false, mepoch := u.mepoch, prio := u.prio, uid := s.uid }, s.tick) })
  else s

/-- A claim that is being sent stands. -/
theorem State.startClaim_eq (s : State) : ∃ cl, s.startClaim = { s with urral := { s.urral with claim := cl } } ∧
    ∀ x, s.urral.claim = some x → cl = some x := by
  unfold State.startClaim
  split
  · next h =>
    simp only [State.mayClaim, Bool.and_eq_true, Option.isNone_iff_eq_none] at h
    obtain ⟨_, _, _, hn, _⟩ := h
    exact ⟨_, rfl, fun x hx => by rw [hn] at hx; exact nomatch hx⟩
  · exact ⟨s.urral.claim, rfl, fun _ hx => hx⟩

/-- The HELLO of port k (R394). -/
def State.helloOf (s : State) (k : Fin 4) : UrrOut := .hello k s.uid s.urral.cap s.urral.prio (s.urrPort k).endRole

/-- What the device sends at a tick: a HELLO at each enabled port, then its claim at each end port (R394, R401). -/
def State.tickSends (s : State) (l : List UrrOut) : State :=
  let s1 := { s with chainOut := s.chainOut ++ l }
  match s.urral.claim with
  | some (c, _) => { s1 with chainOut := s1.chainOut ++ s.endPorts.map (fun k => .claim k c) }
  | none => s1

theorem State.urralTick_eq_sends (s : State) : s.urralTick =
    s.clearErrs.startClaim.tickSends (((List.finRange 4).filter s.clearErrs.startClaim.urrEn).map s.clearErrs.startClaim.helloOf) := by
  have hc : ∀ (u : State) (c : Claim) (l : List (Fin 4)), l.foldl (fun s k => s.chainSend (.claim k c)) u =
      { u with chainOut := u.chainOut ++ l.map (fun k => .claim k c) } :=
    fun u c l => by simpa using foldl_chainSend (fun _ _ => true) (fun _ k => .claim k c) (fun _ _ _ => rfl) (fun _ _ _ => rfl) l u
  unfold State.urralTick
  extract_lets s0 s1 s2
  have hh : s2 = { s.clearErrs.startClaim with chainOut := s.clearErrs.startClaim.chainOut ++
      ((List.finRange 4).filter s.clearErrs.startClaim.urrEn).map s.clearErrs.startClaim.helloOf } :=
    foldl_chainSend State.urrEn State.helloOf (fun _ _ _ => rfl) (fun _ _ _ => rfl) _ _
  rw [hh]
  unfold State.tickSends
  dsimp only
  cases s.clearErrs.startClaim.urral.claim with
  | none => rfl
  | some x => exact hc _ _ _

theorem State.tickSends_eq (s : State) (l : List UrrOut) : ∃ out, s.tickSends l = { s with chainOut := out } ∧ (∀ o ∈ l, o ∈ out) ∧
    ∀ c n, s.urral.claim = some (c, n) → ∀ k, k ∈ s.endPorts → UrrOut.claim k c ∈ out := by
  unfold State.tickSends
  cases hc : s.urral.claim with
  | none => exact ⟨_, rfl, fun o ho => List.mem_append_right _ ho, fun c n h => nomatch h⟩
  | some x =>
    refine ⟨_, rfl, fun o ho => List.mem_append_left _ (List.mem_append_right _ ho), fun c n h k hk => ?_⟩
    obtain rfl := Option.some.inj h
    exact List.mem_append_right _ (List.mem_map_of_mem hk)

/-- At a tick the errors are counted afresh and the link hears a HELLO at each enabled port, and the claim at the end ports. -/
theorem State.urralTick_eq (s : State) : ∃ cl out,
    s.urralTick = { s with urral := { s.clearErrs.urral with claim := cl }, chainOut := out } ∧
    (∀ k, s.urrEn k = true → UrrOut.hello k s.uid s.urral.cap s.urral.prio (s.urrPort k).endRole ∈ out) ∧
    ∀ c n, s.urral.claim = some (c, n) → ∀ k, k ∈ s.endPorts → UrrOut.claim k c ∈ out := by
  obtain ⟨cl, hu, hcl⟩ := s.clearErrs.startClaim_eq
  have hp : ∀ k, s.clearErrs.startClaim.urrPort k = { s.urrPort k with errs := 0 } := fun k => by
    rw [hu, ← State.urrPort_clearErrs]
    rfl
  have hen : s.clearErrs.startClaim.urrEn = s.urrEn := by rw [hu]; rfl
  have hhello : s.clearErrs.startClaim.helloOf = s.helloOf := funext fun k => by
    rw [State.helloOf, hp, hu]
    rfl
  have hend : s.clearErrs.startClaim.endPorts = s.endPorts := by simp only [State.endPorts, hen, hp]
  obtain ⟨out, ho, hello, hclaim⟩ :=
    s.clearErrs.startClaim.tickSends_eq (((List.finRange 4).filter s.clearErrs.startClaim.urrEn).map s.clearErrs.startClaim.helloOf)
  refine ⟨cl, out, ?_, fun k hk => hello _ ?_, fun c n hc k hk => hclaim c n ?_ k (by rwa [hend])⟩
  · rw [State.urralTick_eq_sends, ho, hu]
    rfl
  · rw [hen, hhello]
    exact List.mem_map_of_mem (List.mem_filter.mpr ⟨List.mem_finRange k, hk⟩)
  · rw [hu]
    exact hcl _ hc

/-! ### Bypass (R422) -/

/-- What keeps a bypass down reads these parts of the state, and of the Urral ports their state and role. -/
theorem State.bypCause_congr {s t : State} (hc : t.courses = s.courses) (hr : t.replay = s.replay) (hp : t.power = s.power)
    (hg : t.regs = s.regs) (hn : t.pins = s.pins) (ht : t.tick = s.tick) (hu : ∀ k, t.urrPort k = { s.urrPort k with errs := 0 }) (b : Bool) :
    t.bypCause b = s.bypCause b := by
  have hpair : t.pairHealthy b = s.pairHealthy b := by
    simp only [State.pairHealthy, hu, UrrPort.up]
  have hgated : t.gatedCourses = s.gatedCourses := by
    simp only [State.gatedCourses, State.gated, State.course, hc, hr]
  have hact : t.active = s.active := by
    simp only [State.active, State.dozing, hgated, hp]
  simp only [State.bypCause, hpair, hact, State.reg, hp, hg, hn, ht]
  rfl

/-! ### What an event sends -/

theorem State.setHostFn_chainOut (s : State) (f : Bool) (h : HostFn) : (s.setHostFn f h).chainOut = s.chainOut := by
  cases f <;> rfl

theorem State.fireVector_chainOut (s : State) (f : Bool) (v : Nat) : (s.fireVector f v).chainOut = s.chainOut := by
  unfold State.fireVector
  dsimp only
  split
  · split
    · exact State.setHostFn_chainOut s f _
    · rfl
  · rfl

theorem State.raiseIn_chainOut (s : State) (f : Bool) (m : Reg32) : (s.raiseIn f m).chainOut = s.chainOut := by
  unfold State.raiseIn
  dsimp only
  split
  · exact State.setHostFn_chainOut s f _
  · rw [State.fireVector_chainOut, State.setHostFn_chainOut]

theorem State.journalTrig_chainOut (s : State) : s.journalTrig.chainOut = s.chainOut := by
  unfold State.journalTrig
  split <;> rfl

theorem State.chainOut_subset_msgManager (s : State) (c : Nat) (w : List Reg32) : s.chainOut ⊆ (s.msgManager c w).chainOut := by
  unfold State.msgManager
  split
  · exact List.Subset.refl _
  · exact List.subset_append_left _ _

theorem State.chainOut_subset_raiseCause (s : State) (f : Bool) (m : Reg32) : s.chainOut ⊆ (s.raiseCause f m).chainOut := by
  unfold State.raiseCause
  dsimp only
  rw [← s.raiseIn_chainOut f m]
  split
  · exact List.Subset.refl _
  · exact State.chainOut_subset_msgManager _ _ _

theorem chainOut_subset_ite {s t u : State} {p : Prop} [Decidable p] (ht : s.chainOut ⊆ t.chainOut) (hu : s.chainOut ⊆ u.chainOut) :
    s.chainOut ⊆ (if p then t else u).chainOut := by
  split
  · exact ht
  · exact hu

/-- An event takes back nothing that was sent. -/
theorem State.chainOut_subset_recordEvent (s : State) (e : Event) : s.chainOut ⊆ (s.recordEvent e).chainOut := by
  unfold State.recordEvent
  dsimp only
  generalize (if e.mgmt then s.plumb.tickTd0 else s.tdValue 0 s.now) = td
  have h1 : s.chainOut ⊆ ({ s with recorder := (s.recorder.take e s.tick td).1 } : State).chainOut := List.Subset.refl _
  have h2 := chainOut_subset_ite (p := bits s.recorder.cfg 1 0 ≤ e.sev.toNat)
    (List.Subset.trans (List.Subset.trans h1 (State.chainOut_subset_raiseCause _ false 0x200)) (State.chainOut_subset_raiseCause _ true 0x200)) h1
  have h3 := chainOut_subset_ite (p := bit s.recorder.cfg 6 = true ∧ bits s.recorder.cfg 5 4 ≤ e.sev.toNat)
    (List.Subset.trans h2 (State.chainOut_subset_msgManager _ 4 (e.entry s.recorder.next s.tick td).words)) h2
  exact chainOut_subset_ite (chainOut_subset_ite (by rwa [State.journalTrig_chainOut]) h3) h1

theorem State.chainOut_subset_event (s : State) (k : EvKind) (m : Bool) (p : BitVec 8) (a : List Nat) :
    s.chainOut ⊆ (s.event k m p a).chainOut := State.chainOut_subset_recordEvent s _

/-! ### The temperature sensor -/

/-- Above 125 °C the tick of the first such reading is kept (R517). -/
def Power.sensed (p : Power) (x : BitVec 16) (tick : Nat) : Power :=
  { p with hotFrom := if 2000 < x.toInt then (match p.hotFrom with | some n => some n | none => some tick) else none }

theorem State.senseTick_logs (s : State) (x : BitVec 16) :
    Logs { s with power := s.power.sensed x s.tick } (s.senseTick x) ∧ s.chainOut ⊆ (s.senseTick x).chainOut := by
  have hm : s.senseTick x = if 1840 < x.toInt then
      ({ s with power := s.power.sensed x s.tick } : State).event .overTemperature true 0 [x.toNat]
      else { s with power := s.power.sensed x s.tick } := by
    simp only [State.senseTick, Power.sensed, decide_eq_true_eq]
    rfl
  rw [hm]
  exact ⟨Logs.ite (Logs.event _ _ _ _ _) (Logs.refl _), chainOut_subset_ite (s := s)
    (State.chainOut_subset_event { s with power := s.power.sensed x s.tick } _ _ _ _) (List.Subset.refl _)⟩

/-! ### The tick (R11) -/

/-- The state t is s but for what the blocks change at a tick. -/
def TickLeaves (s t : State) : Prop :=
  t = { s with freeCtr := t.freeCtr, plumb := t.plumb, mortar := t.mortar, recorder := t.recorder, journal := t.journal, pf0 := t.pf0,
               pf1 := t.pf1, hostMem := t.hostMem, urral := t.urral, chainOut := t.chainOut, pins := t.pins }

/-- What each block does at a tick, in the state s before it and t after it. -/
structure BlocksTicked (s t : State) : Prop where
  leaves : TickLeaves s t
  pins : t.pins = { s.pins with bypA := s.pins.bypA || decide (s.bypCause false = 0), bypB := s.pins.bypB || decide (s.bypCause true = 0) }
  td0 : t.plumb.tickTd0 = s.tdValue 0 s.now
  pull : (t.plumb.pull - s.plumb.pull).natAbs ≤ 1000
  ports : ∀ k, t.urrPort k = { s.urrPort k with errs := 0 }
  hello : ∀ k, s.urrEn k = true → UrrOut.hello k s.uid s.urral.cap s.urral.prio (s.urrPort k).endRole ∈ t.chainOut
  claim : ∀ c n, s.urral.claim = some (c, n) → ∀ k, k ∈ s.endPorts → UrrOut.claim k c ∈ t.chainOut

theorem Logs.exists_eq {s t : State} (h : Logs s t) : ∃ r j f0 f1 m l,
    t = { s with recorder := r, journal := j, pf0 := f0, pf1 := f1, hostMem := m, chainOut := l } := ⟨_, _, _, _, _, _, h⟩

/-- The work of plumb and of the mortar's buffers, with the event that it may record. -/
theorem State.bufferTick_plumbTick_eq (s : State) : ∃ n d ds mo r j f0 f1 m l, d.natAbs ≤ 1000 ∧ s.plumbTick.bufferTick =
    { s with freeCtr := n, mortar := mo, recorder := r, journal := j, pf0 := f0, pf1 := f1, hostMem := m, chainOut := l,
             plumb := { s.plumb with pull := s.plumb.pull + d, tickTd0 := s.tdValue 0 s.now, ports := ds } } := by
  obtain ⟨n, d, ds, hd, hp⟩ := s.plumbTick_eq
  obtain ⟨mo, hm⟩ := s.plumbTick.bufferTick_logs
  obtain ⟨r, j, f0, f1, m, l, hb⟩ := hm.exists_eq
  rw [hp] at hb ⊢
  exact ⟨n, d, ds, mo, r, j, f0, f1, m, l, hd, hb⟩

theorem State.blocksTick (s : State) : BlocksTicked s s.plumbTick.bufferTick.urralTick.bypRaise := by
  obtain ⟨n, d, ds, mo, r, j, f0, f1, m, l, hd, hb⟩ := s.bufferTick_plumbTick_eq
  generalize s.plumbTick.bufferTick = b at hb ⊢
  obtain ⟨cl, out, hu, hello, hclaim⟩ := b.urralTick_eq
  generalize b.urralTick = u at hu ⊢
  subst hb
  have hport : ∀ k, u.urrPort k = { s.urrPort k with errs := 0 } := by
    subst hu
    exact s.urrPort_clearErrs
  have hcause : ∀ x, u.bypCause x = s.bypCause x := by
    subst hu
    exact State.bypCause_congr rfl rfl rfl rfl rfl rfl hport
  have hpins : u.bypRaise.pins =
      { u.pins with bypA := u.pins.bypA || decide (u.bypCause false = 0), bypB := u.pins.bypB || decide (u.bypCause true = 0) } := rfl
  rw [hcause, hcause] at hpins
  subst hu
  refine ⟨rfl, hpins, rfl, ?_, hport, hello, hclaim⟩
  change (s.plumb.pull + d - s.plumb.pull).natAbs ≤ 1000
  rwa [add_sub_cancel_left]

/-- The state at the beginning of the next tick. -/
def State.ticked (s : State) : State := { s with now := max s.now ((s.tick + 1) * 5000000), tick := s.tick + 1 }

/-- The state once the blocks that work have had their tick. -/
def State.blocksTicked (s : State) : State :=
  if s.blocksUp then s.ticked.plumbTick.bufferTick.urralTick.bypRaise else s.ticked

theorem State.blocksTicked_of_down {s : State} (h : s.blocksUp = false) : s.blocksTicked = s.ticked := by
  simp [State.blocksTicked, h]

theorem State.blocksTicked_of_up {s : State} (h : s.blocksUp = true) : BlocksTicked s.ticked s.blocksTicked := by
  rw [State.blocksTicked, if_pos h]
  exact s.ticked.blocksTick

theorem State.blocksTicked_leaves (s : State) : TickLeaves s.ticked s.blocksTicked := by
  cases h : s.blocksUp with
  | false => rw [State.blocksTicked_of_down h]; rfl
  | true => exact (State.blocksTicked_of_up h).leaves

theorem exec_managementTick_eq (s : State) (x : BitVec 16) :
    exec (.managementTick x) s = s.when_ s.alive (fun s => s.blocksTicked.senseTick x) := rfl

/-- The whole frame of a management tick. -/
theorem State.managementTick_frame (s : State) (x : BitVec 16) : s.blocksTicked.senseTick x =
    { s with now := max s.now ((s.tick + 1) * 5000000), tick := s.tick + 1, power := s.power.sensed x (s.tick + 1),
             freeCtr := s.blocksTicked.freeCtr, plumb := s.blocksTicked.plumb, mortar := s.blocksTicked.mortar,
             urral := s.blocksTicked.urral, pins := s.blocksTicked.pins, recorder := (s.blocksTicked.senseTick x).recorder,
             journal := (s.blocksTicked.senseTick x).journal, pf0 := (s.blocksTicked.senseTick x).pf0,
             pf1 := (s.blocksTicked.senseTick x).pf1, hostMem := (s.blocksTicked.senseTick x).hostMem,
             chainOut := (s.blocksTicked.senseTick x).chainOut } := by
  refine Eq.trans (s.blocksTicked.senseTick_logs x).1 ?_
  have h := s.blocksTicked_leaves
  generalize s.blocksTicked.senseTick x = t
  generalize s.blocksTicked = b at h ⊢
  rw [show b = _ from h]
  rfl

end Sys2Proof.Machine
end

section
/-! Settles O57: the management tick and the register accesses. -/

namespace Sys2Proof.Machine

/-- Settles O57, clause by clause: the tick from the blocks' own ticks, an access from the bus lock, the reach and its region. -/
theorem registerAccessesFollowTheirRights : Obligations.RegisterAccessesFollowTheirRights := by
  unfold Obligations.RegisterAccessesFollowTheirRights
  refine ⟨fun s x ha => ?tick, fun s x ha => (exec_managementTick_eq s x).trans (State.when_of_false s _ ha),
    fun s p off v ha hl hk hb => ?heldWrite, fun s p tag off ha hl hk hb => ?heldRead, fun s p off v ha hl h => ?lostWrite,
    fun s p tag off ha hl h => exec_rcRead_yields ha hl (State.barRead_unreached h),
    fun s p off v tag ha => ⟨exec_registerWrite_of_dead ha, exec_rcRead_of_dead ha⟩,
    fun s a => ⟨fun ha hf => ⟨State.reaches_pf0 ha hf, State.reaches_pf1 ha hf, State.reaches_tap ha hf⟩, State.not_reaches_of_footing,
      State.reaches_pf1_footing_iff, rfl, fun _ => rfl⟩,
    fun s p v ha hl hr hs hp hw => ?dozeCfg, fun s p v ha hl hr hs hp hw => ?dozePorts, fun s p v ha hl hr hs hp hw => ?dozeTimer,
    fun s p v ha hl hr hp => ?dozeRefused, fun s p v ha hl hr hs hp => ?wakeSrc, fun s v => ⟨fun ha hl hf hs => ?cause0, fun ha hl hs => ?cause1⟩,
    fun s p v ha hl hr hs => ?bypCtrl, fun s p v ha hl hr hs => ?pwrCtrl, fun s p v ha hl hr hs => ?rstCtrl,
    fun s tag j ha hl hr ho => exec_rcRead_mbLock j ha hl hr ho, fun s p v => exec_courseRoleWrite_eq,
    fun s p v ha hl hr hs hp hv hi hn hw => ?roleTaken, fun s p v ha hl h => ?roleIgnored,
    fun s p tag ha hl hr => exec_rcRead_global ha hl hr rfl (by decide) rfl, fun s p tag ha hl hr => exec_rcRead_global ha hl hr rfl (by decide) rfl,
    fun s p tag ha hl hr => exec_rcRead_global ha hl hr rfl (by decide) rfl, fun s p tag ha hl hr => exec_rcRead_global ha hl hr rfl (by decide) rfl,
    fun s p tag ha hl hr => exec_rcRead_global ha hl hr rfl (by decide) rfl, fun s p tag ha hl hr => exec_rcRead_global ha hl hr rfl (by decide) rfl,
    fun s p tag ha hl hr => exec_rcRead_global ha hl hr rfl (by decide) rfl, fun s p tag ha hl hr => exec_rcRead_global ha hl hr rfl (by decide) rfl,
    fun s p tag ha hl hr => exec_rcRead_global ha hl hr rfl (by decide) rfl, fun s p tag ha hl hr => exec_rcRead_global ha hl hr rfl (by decide) rfl,
    fun s p tag ha hl hr => ?recLost, fun s p tag ha hl hr => ?urrCrc, fun s tag off ha hl hf ho => ?record,
    fun s p c k v ha hl hr hs hk hg ht h1 h2 => ?bank, fun s p c k v b ha hl hr hs hk hg ht h1 h2 => ?imem,
    fun s p c k v ha hl hr hs hk h => ?imageRefused, fun s p c k v ha hl hk => exec_bankImageWrite_gap ha hl hk,
    fun s tag off v ha hl hf hs => exec_securePageAccess_write tag off ha hl hf hs,
    fun s tag off ha hl hf => exec_securePageAccess_read tag off ha hl hf, fun s tag off o h => exec_securePageAccess_idle tag off o h,
    fun s off v ht hd => exec_dbgAccess_write ht hd, fun s off ht hd => exec_dbgAccess_read ht hd,
    fun s off o h => exec_dbgAccess_idle o h, fun s => State.tapAllowed_dbgAccess_iff⟩
  case tick =>
    have hf := s.managementTick_frame x
    have hsent := (s.blocksTicked.senseTick_logs x).2
    refine ⟨_, (exec_managementTick_eq s x).trans (State.when_of_true s _ ha), ?_⟩
    generalize s.blocksTicked.senseTick x = t at hf hsent ⊢
    refine ⟨by rw [hf], by rw [hf], by rw [hf]; rfl, by rw [hf], by rw [hf], by rw [hf], by rw [hf], by rw [hf], by rw [hf], by rw [hf],
      by rw [hf], by rw [hf], by rw [hf], by rw [hf], by rw [hf], fun hd => ?_, fun hu => ?_⟩
    · have hb := State.blocksTicked_of_down hd
      exact ⟨by rw [hf, hb]; rfl, by rw [hf, hb]; rfl, by rw [hf, hb]; rfl⟩
    · have hb := State.blocksTicked_of_up hu
      exact ⟨by rw [hf]; exact hb.pins, by rw [hf]; exact hb.td0, by rw [hf]; exact hb.pull, fun k => by rw [hf]; exact hb.ports k,
        fun k hk => hsent (hb.hello k hk), fun c n hc k hk => hsent (hb.claim c n hc k hk)⟩
  case heldWrite =>
    rw [exec_registerWrite_of_alive ha, State.issueWrite_of_held (State.holdsBack_of_locked hl hk hb)]
    rfl
  case heldRead =>
    rw [exec_rcRead_of_alive ha, State.issueRead_of_held (State.holdsBack_of_locked hl hk hb)]
    rfl
  case lostWrite => rw [exec_registerWrite_of_free ha hl, State.barWrite_unreached h]
  case dozeCfg => exact exec_registerWrite_stores ha hl rfl (by decide) hr hs hw (by rw [State.globalWrite_dozeCfg, if_pos hp])
  case dozePorts => exact exec_registerWrite_stores ha hl rfl (by decide) hr hs hw (by rw [State.globalWrite_dozePorts, if_pos hp])
  case dozeTimer => exact exec_registerWrite_stores ha hl rfl (by decide) hr hs hw (by rw [State.globalWrite_dozeTimer, if_pos hp])
  case dozeRefused =>
    exact ⟨exec_registerWrite_global_ignored ha hl rfl (by decide) (by simp [State.globalWrite_dozeCfg, hp]),
      exec_registerWrite_global_ignored ha hl rfl (by decide) (by simp [State.globalWrite_dozePorts, hp]),
      exec_registerWrite_global_ignored ha hl rfl (by decide) (by simp [State.globalWrite_dozeTimer, hp])⟩
  case wakeSrc =>
    rw [exec_registerWrite_global (off := 0xA4) (a := 0xA4) ha hl rfl (by decide) hr hs, State.globalWrite_wakeSrc, if_pos hp]
    rfl
  case cause0 =>
    rw [exec_registerWrite_global (off := 0x200) (a := 0x200) ha (.inl hl) rfl (by decide) (State.reaches_pf0 ha hf) hs, State.globalWrite_hostCause]
    rfl
  case cause1 =>
    rw [exec_registerWrite_global (off := 0x200) (a := 0x200) ha (.inl hl) rfl (by decide) (State.reaches_pf1_of_footingOpen ha rfl) hs,
      State.globalWrite_hostCause]
    rfl
  case bypCtrl => rw [exec_registerWrite_global (off := 0x60) (a := 0x60) ha hl rfl (by decide) hr hs, exec_bypCtrlWrite_eq_globalWrite ha]
  case pwrCtrl =>
    rw [exec_registerWrite_global (off := 0x80) (a := 0x80) ha hl rfl (by decide) hr hs, State.globalWrite_pwrCtrl]
    exact ⟨fun h => congrArg _ (State.pwrCtrlWrite_none h), fun h => (exec_dozeRequest_eq_pwrCtrlWrite h).symm,
      fun h => (exec_pwrWake_eq_pwrCtrlWrite h).symm, fun h => (exec_standbyPrepare_eq_pwrCtrlWrite h).symm⟩
  case rstCtrl =>
    rw [exec_registerWrite_global (off := 0xB0) (a := 0xB0) ha hl rfl (by decide) hr hs, State.globalWrite_rstCtrl, ← bits_scope]
    exact ⟨fun h => (exec_rstCtrlDevice_eq_rstCtrlWrite ha h).symm, fun h => (exec_rstCtrlCourse_eq_rstCtrlWrite h).symm,
      fun h => (exec_rstCtrlPort_eq_rstCtrlWrite h).symm, fun h => (exec_rstCtrlCanctl_eq_rstCtrlWrite h).symm⟩
  case roleTaken =>
    exact exec_registerWrite_stores ha hl rfl (by decide) hr hs hw (by rw [State.globalWrite_courseRole, State.courseRoleWrite_taken hp hv hn hi])
  case roleIgnored =>
    exact exec_registerWrite_global_ignored (a := 0x40) ha hl rfl (by decide) (by rw [State.globalWrite_courseRole, State.courseRoleWrite_ignored h])
  case recLost => exact exec_rcRead_mapped ha hl hr rfl (State.mapRead_recLost _)
  case urrCrc =>
    obtain ⟨t, he, ht⟩ := exec_rcRead_mapped (off := 0x600118) ha hl hr rfl (State.mapRead_urrCrc0 _)
    refine ⟨t, he, by rw [ht]; rfl, ?_, fun k hk => ?_⟩
    · rw [ht]
      exact State.urrPort_modUrrPort 0 UrrPort.readCrc
    · rw [ht]
      exact State.urrPort_modUrrPort_ne UrrPort.readCrc hk
  case record =>
    have hi : inOrphans off = false := decide_eq_false (by omega)
    refine ⟨_, (exec_rcRead_of_free ha (.inl hl)).trans (congrArg _ (State.readDone_returned hi fun _ => hf)),
      fun hw => State.returnRead_pf0_record ?_⟩
    rwa [State.barRead_reached (State.reaches_pf0 ha hf), State.mapRead_orphPf _ (by omega)]
  case bank =>
    obtain ⟨t, ht, hframe, hc, hne⟩ := State.imageWrite_bank (v := v) hk hg ht (State.mayPoke_of h1 h2)
    exact ⟨t, (exec_bankImageWrite_image ha hl hr hs (by omega)).trans (congrArg _ ht), hframe, hc, hne⟩
  case imem =>
    obtain ⟨t, ht, hframe, hx, hne⟩ := State.imageWrite_imem (v := v) hk hg ht (State.mayPoke_of h1 h2)
    exact ⟨t, (exec_bankImageWrite_image ha hl hr hs (by omega)).trans (congrArg _ ht), hframe, hx, hne⟩
  case imageRefused => rw [exec_bankImageWrite_image ha hl hr hs hk, State.imageWrite_refused h]

end Sys2Proof.Machine
end

section
/-! SUPPORT. The device in its first DEVICE reset: each unit of each block, the reset value of each register region, and that the
state is well formed (R43, R51, R66, R269, R391; logs 3 and 4). -/

namespace Sys2Proof.Machine

/-! ### The units of the blocks -/

@[simp] theorem State.brick_reset (k : Fin 52) : State.reset.brick k = .reset := Vector.getElem_replicate k.isLt
@[simp] theorem State.tile_reset (k : Fin 208) : State.reset.tile k = .reset := Vector.getElem_replicate k.isLt
@[simp] theorem State.course_reset (c : Fin 13) : State.reset.course c = .reset := Vector.getElem_replicate c.isLt
@[simp] theorem State.mailbox_reset (j : Fin 32) : State.reset.mailbox j = .reset j.val := Vector.getElem_ofFn j.isLt
@[simp] theorem State.ring_reset (n : Fin 64) : State.reset.ring n = .reset := Vector.getElem_replicate n.isLt
@[simp] theorem State.port_reset (q : PortCode) : State.reset.port q = .reset := Vector.getElem_replicate q.isLt
@[simp] theorem State.can_reset (n : Fin 8) : State.reset.can n = .reset := Vector.getElem_replicate n.isLt
@[simp] theorem State.reg_reset (a : Nat) : State.reset.reg a = regReset a := rfl

/-! ### Regions of the register map -/

section
variable {a : Nat}

/-- The map of the courses to their ports (R269). -/
theorem regReset_courseMap (h : 0x8F8000 ≤ a ∧ a < 0x8F8034) : regReset a = BitVec.ofNat 32 ((a - 0x8F8000) / 4) := by
  unfold regReset
  repeat rw [if_neg (by omega)]
  exact if_pos h

/-- The blocks of P0 to P31 (R261). -/
theorem regReset_portP (h : 0x800000 ≤ a ∧ a < 0x880000) : regReset a = portRegReset true (a % 0x4000) := by
  unfold regReset
  repeat rw [if_neg (by omega)]
  rw [if_pos (by omega), decide_eq_true h.2]

/-- DI_CFG and DO_CFG (R391). -/
theorem regReset_field (h : 0x400100 ≤ a ∧ a < 0x4001C0) : regReset a = fieldRegReset (a - 0x400000) := by
  unfold regReset
  repeat rw [if_neg (by omega)]
  exact if_pos h

/-- CAN_CFG heads the block of each controller (R356). -/
theorem regReset_canBlock (h : 0x300000 ≤ a ∧ a < 0x380000 ∧ a % 0x10000 = 0) : regReset a = 0x60008000 := by
  unfold regReset
  repeat rw [if_neg (by omega)]
  exact if_pos h

end

/-- Each course port leads to the course of its own number (R269). -/
theorem regReset_cpmap (c : Fin 13) : regReset (0x8F8000 + 4 * c.val) = BitVec.ofNat 32 c.val := by
  rw [regReset_courseMap (by omega)]
  congr 1
  omega

/-- PORT_CFG of a P port (R262). -/
theorem regReset_portCfg {q : PortCode} (hq : q.val < 32) : regReset (portBase q) = 0x2B0005F2 := by
  have hc : q.code = q.val := if_pos (by omega)
  have hb : portBase q = 0x800000 + q.val * 0x4000 := by rw [portBase, hc]
  rw [hb, regReset_portP (by omega), show (0x800000 + q.val * 0x4000) % 0x4000 = 0 by omega]
  rfl

theorem regReset_canCfg (n : Fin 8) : regReset (canBase n) = 0x60008000 := by
  unfold canBase
  exact regReset_canBlock (by omega)

theorem regReset_diCfg (n : Fin 32) : regReset (0x400100 + 4 * n.val) = 0x000A0003 :=
  (regReset_field (by omega)).trans (if_pos (by omega))

theorem regReset_doCfg (m : Fin 16) : regReset (0x400180 + 4 * m.val) = 2 :=
  (regReset_field (by omega)).trans (if_neg (by omega))

/-! ### Doze, bypasses and outputs -/

section
variable {s : State}

theorem State.gatedCourses_of_not_gated (h : ∀ c, s.gated c = false) : s.gatedCourses = 0 := by
  have hf : (fun c => s.gated c && !(s.replay.starving && decide (s.replay.course = c))) = fun _ => false := by
    funext c
    rw [h c, Bool.false_and]
  rw [State.gatedCourses, hf]
  rfl

/-- In ACTIVE, before phase RUNNING, a bypass pin waits for the start (R48, R51). -/
theorem State.bypCause_of_starting (ha : s.active = true) (hp : s.power.phase ≠ .running) (b : Bool) : s.bypCause b = 2 := by
  simp [State.bypCause, ha, hp]

/-- RST_N holds the blocks (R43). -/
theorem State.blocksUp_of_rstLow (h : s.power.rstLow = true) : s.blocksUp = false := by
  simp [State.blocksUp, State.alive, h]

/-- While the field block is held, no output is on (R389). -/
theorem State.doOut_of_blocks_down (h : s.blocksUp = false) : s.doOut = 0 := by
  simp [State.doOut, State.fieldUp, h]

end

theorem State.gatedCourses_reset : State.reset.gatedCourses = 0 :=
  State.gatedCourses_of_not_gated fun c => by rw [State.gated, State.course_reset]; rfl

theorem State.dozing_reset : State.reset.dozing = false := by
  rw [State.dozing, State.gatedCourses_reset]
  rfl

theorem State.active_reset : State.reset.active = true := by
  rw [State.active, State.dozing_reset]
  rfl

theorem State.pwrStatus_reset : State.reset.pwrStatus = 0 := by
  rw [State.pwrStatus, State.dozing_reset, State.gatedCourses_reset]
  rfl

/-- Both pins are low for cause 2, and neither FORCE is set (R51). -/
theorem State.bypCtrl_reset : State.reset.bypCtrl = 0x00220000 := by
  have hcause : ∀ b, State.reset.bypCause b = 2 := State.bypCause_of_starting State.active_reset (by decide)
  simp only [State.bypCtrl, hcause, State.reg_reset]
  rfl

theorem State.doOut_reset : State.reset.doOut = 0 := State.doOut_of_blocks_down (State.blocksUp_of_rstLow rfl)

/-! ### The invariant -/

theorem State.memoriesWf_reset : State.reset.memoriesWf :=
  ⟨rfl, rfl, rfl, rfl, fun c => by rw [State.course_reset]; rfl, fun k => by rw [State.brick_reset]; rfl⟩

theorem State.tablesWf_reset : State.reset.tablesWf := ⟨rfl, rfl, rfl, rfl, rfl, rfl, rfl⟩

theorem State.keyframesWf_reset : State.reset.keyframesWf :=
  ⟨fun _ he => absurd he List.not_mem_nil, fun _ hr => absurd hr List.not_mem_nil⟩

theorem State.bounded_reset : State.reset.bounded := ⟨Nat.zero_le _, Nat.zero_le _, Nat.zero_le _⟩

theorem State.inv_reset : State.reset.Inv :=
  ⟨State.memoriesWf_reset, State.tablesWf_reset, State.keyframesWf_reset, State.bounded_reset⟩

end Sys2Proof.Machine
end

section
/-! Settles O60: the state at reset. -/

namespace Sys2Proof.Machine

/-- Settles O60, block by block: the invariant, power and pins, the host functions, courses with bricks and tiles, mailboxes, rings,
ports, controllers, field channels, and the fixed registers. RST_N low at reset rests on log 3, tick 0 on log 4, FAULT_N low in
reset on log 39. -/
theorem resetStateHoldsTheSpecsValues : Obligations.ResetStateHoldsTheSpecsValues := by
  unfold Obligations.ResetStateHoldsTheSpecsValues
  refine ⟨State.inv_reset, rfl, rfl, rfl, rfl, rfl, rfl, rfl, State.bypCtrl_reset, rfl, rfl, rfl, State.pwrStatus_reset, rfl,
    ⟨rfl, rfl, rfl, rfl⟩, fun c => ?course, fun k => ?brick, fun k => ?tile, fun j => ?mailbox, fun n => ?ring, fun q hq => ?port,
    fun n => ?can, regReset_diCfg, regReset_doCfg, State.doOut_reset, ?registers⟩
  case course => exact ⟨by rw [State.course_reset]; rfl, regReset_cpmap c⟩
  case brick => rw [State.brick_reset]; exact ⟨rfl, rfl, rfl, rfl⟩
  case tile => rw [State.tile_reset]; exact ⟨rfl, rfl⟩
  case mailbox => rw [State.mailbox_reset]; exact ⟨rfl, rfl, rfl⟩
  case ring => rw [State.ring_reset]; exact ⟨rfl, rfl, rfl, rfl⟩
  case port => exact ⟨regReset_portCfg hq, by rw [State.port_reset]; rfl⟩
  case can => exact ⟨regReset_canCfg n, by rw [State.can_reset]; rfl⟩
  case registers => exact ⟨rfl, rfl, rfl, rfl, rfl, rfl, rfl, rfl, rfl, rfl, rfl, rfl, rfl⟩

end Sys2Proof.Machine
end

section
/-! SUPPORT. Which outcome each command has: but for the release of RST_N, a next state, whatever the state (R47, R84; log 20). -/

namespace Sys2Proof.Machine

theorem goesOn_next (t : State) : goesOn (.next t) := ⟨t, rfl⟩

theorem goesOn_when (s : State) (c : Bool) (f : State → State) : goesOn (s.when_ c f) := ⟨_, rfl⟩

/-- A command on an object of a controller, by a brick or through BAR0 (R356). -/
theorem goesOn_objCmdBy (s : State) (p : Party) (n : Fin 8) (m : Fin 64) (v : Nat) : goesOn (s.objCmdBy p n m v) := by
  unfold State.objCmdBy
  split
  · split
    · exact ⟨_, rfl⟩
    · exact goesOn_next s
  · exact goesOn_when s _ _

/-- A SUBMIT under an ACTION (R464). -/
theorem goesOn_submitRow (s : State) (act : Nat) (r : SvcReq) (f : State → State) : goesOn (s.submitRow act r f) := by
  unfold State.submitRow
  split
  · exact ⟨_, rfl⟩
  · exact goesOn_next s

theorem goesOn_illegalOpcode (bk : Fin 52) (s : State) : goesOn (execIllegalOpcode bk s) := by
  unfold execIllegalOpcode
  dsimp only
  split
  · split
    · exact goesOn_next _
    · split <;> exact goesOn_next _
  · exact goesOn_next s

theorem goesOn_mailboxLock (p : Party) (tag : BitVec 10) (j : Fin 32) (rivals : List Party) (s : State) :
    goesOn (execMailboxLock p tag j rivals s) := by
  unfold execMailboxLock
  split
  · exact goesOn_next _
  · split <;> exact goesOn_next _

theorem goesOn_pulseTestEnd (v : Bool) (s : State) : goesOn (execPulseTestEnd v s) := by
  unfold execPulseTestEnd
  split
  · split
    · exact goesOn_when s _ _
    · exact goesOn_next s
  · exact goesOn_next s

/-- A command that acts on what waits in the state (a deadline, an instruction in progress, a request, a claim) leaves the state where
nothing waits (log 20); a command of several parties or counts has a next state for each. -/
theorem exec_goesOn (c : Instr) (s : State) (h : ∀ b, c ≠ .rstNRelease b) : goesOn (exec c s) := by
  cases c
  case rstNRelease b => exact absurd rfl (h b)
  case flushComplete | canRxdWake | pcieBootWaitExpiry | overTemperatureFault | dozeTimerExpiry | timeCompareMatch | waitpComplete |
      holdComplete | shfBit | blockedGetPutComplete | tileResetHoldEnd | tileInjectionTake | courseRelease | handoverCommit | rePoint |
      portHoldExpiry | timeQuadRead | activeDomainSwitch | timeSourceTimeout | timedCommandApply | groupLimit | claimWin | swapFail |
      busLockExpiry | debugSessionExpiry | lockoutEnd | freezeTimeout =>
    simp only [exec, execFlushComplete, execCanRxdWake, execPcieBootWaitExpiry, execOverTemperatureFault, execDozeTimerExpiry,
      execTimeCompareMatch, execWaitpComplete, execHoldComplete, execShfBit, execBlockedGetPutComplete, execTileResetHoldEnd,
      execTileInjectionTake, execCourseRelease, execHandoverCommit, execRePoint, execPortHoldExpiry, execTimeQuadRead,
      execActiveDomainSwitch, execTimeSourceTimeout, execTimedCommandApply, execGroupLimit, execClaimWin, execSwapFail,
      execBusLockExpiry, execDebugSessionExpiry, execLockoutEnd, execFreezeTimeout]
    split <;> exact ⟨_, rfl⟩
  case hold | shf | tileProgWrite | gridAligned | edgePop | doCmdWrite | timedCommandArm | pulseTest =>
    simp only [exec, execHold, execShf, execTileProgWrite, execGridAligned, execEdgePop, execDoCmdWrite, execTimedCommandArm, execPulseTest]
    split <;> exact ⟨_, rfl⟩
  case objSend | objAbort | objResume => exact goesOn_objCmdBy s _ _ _ _
  case provision | debugAuth | deploy | returnAuth | retire | rotate | svnCommit => exact goesOn_submitRow s _ _ _
  case illegalOpcode => exact goesOn_illegalOpcode _ s
  case mailboxLock => exact goesOn_mailboxLock _ _ _ _ s
  case pulseTestEnd => exact goesOn_pulseTestEnd _ s
  -- every other meaning is a next state, or one under a condition
  all_goals exact ⟨_, rfl⟩

/-- The start that the release of RST_N begins, or the reset that an EXTEST-class instruction still holds (R47, R62, R84). -/
def State.rstReleased (s : State) (b : BitVec 2) : State :=
  { s with power := { s.power with supply := .on, rstLow := false, bootSel := b, fault := false, cause := s.power.releaseCause },
           pins := { s.pins with vhold := true } }

section
variable {s : State} {b : BitVec 2}

theorem exec_rstNRelease_idle (h : s.power.rstLow = false ∨ s.power.supply = .off) : exec (.rstNRelease b) s = .next s := if_pos h

theorem exec_rstNRelease_test (h : ¬ (s.power.rstLow = false ∨ s.power.supply = .off))
    (ht : b = 3 ∧ (s.lifecycle = .manufacture ∨ s.lifecycle = .returned)) : exec (.rstNRelease b) s = .fault .manufacturingTest :=
  (if_neg h).trans (if_pos ht)

theorem exec_rstNRelease_start (h : ¬ (s.power.rstLow = false ∨ s.power.supply = .off))
    (ht : ¬ (b = 3 ∧ (s.lifecycle = .manufacture ∨ s.lifecycle = .returned))) :
    exec (.rstNRelease b) s = .next (if (s.rstReleased b).alive then (s.rstReleased b).startRom else s.rstReleased b) :=
  (if_neg h).trans (if_neg ht)

end

end Sys2Proof.Machine
end

section
/-! Settles O2: every command has a next state, but for manufacturing test. -/

namespace Sys2Proof.Machine

/-- Settles O2: the release of RST_N by its three cases, every other command by its own meaning. That a command which cannot happen
leaves the state rests on log 20. -/
theorem everyCommandIsCarriedOut : Obligations.EveryCommandIsCarriedOut := by
  unfold Obligations.EveryCommandIsCarriedOut
  intro c s
  by_cases hc : ∃ b, c = .rstNRelease b
  · obtain ⟨b, rfl⟩ := hc
    by_cases hi : s.power.rstLow = false ∨ s.power.supply = .off
    · exact .inl ⟨s, exec_rstNRelease_idle hi⟩
    by_cases ht : b = 3 ∧ (s.lifecycle = .manufacture ∨ s.lifecycle = .returned)
    · have hf := exec_rstNRelease_test hi ht
      obtain ⟨hlow, hon⟩ := not_or.mp hi
      obtain ⟨rfl, hl⟩ := ht
      exact .inr ⟨rfl, Bool.eq_true_of_not_eq_false hlow, hon, hl, hf⟩
    · exact .inl ⟨_, exec_rstNRelease_start hi ht⟩
  · exact .inl (exec_goesOn c s fun b hb => hc ⟨b, hb⟩)

end Sys2Proof.Machine
end

section
/-! SUPPORT. Folds whose steps each change one member of a block: what the whole fold does to that member, and to the others. -/

namespace Sys2Proof.Machine

section
variable {β γ : Type} {f : State → β → State} {g : State → β → γ}

/-- A member that no step names is as it was. -/
theorem foldl_member_of_not_mem (other : ∀ s b c, c ≠ b → g (f s b) c = g s c) {l : List β} {c : β} (hc : c ∉ l) (s : State) :
    g (l.foldl f s) c = g s c := by
  induction l generalizing s with
  | nil => rfl
  | cons b l ih =>
    rw [List.mem_cons, not_or] at hc
    rw [List.foldl_cons, ih hc.2, other s b c hc.1]

/-- A member that one step names is as that step makes it, of a state in which it is still as it was. `R` is what every step keeps to. -/
theorem foldl_member {R : State → State → Prop} (refl : ∀ s, R s s) (trans : ∀ s t u, R s t → R t u → R s u) (step : ∀ s b, R s (f s b))
    (other : ∀ s b c, c ≠ b → g (f s b) c = g s c) {l : List β} (hl : l.Nodup) {c : β} (hc : c ∈ l) (s : State) :
    ∃ u, R s u ∧ g u c = g s c ∧ g (l.foldl f s) c = g (f u c) c := by
  induction l generalizing s with
  | nil => exact absurd hc List.not_mem_nil
  | cons b l ih =>
    obtain ⟨hb, hl⟩ := List.nodup_cons.mp hl
    rw [List.foldl_cons]
    rcases List.mem_cons.mp hc with rfl | hc
    · exact ⟨s, refl s, rfl, foldl_member_of_not_mem other hb _⟩
    · obtain ⟨u, hu, hg, he⟩ := ih hl hc (f s b)
      have hne : c ≠ b := fun h => hb (h ▸ hc)
      exact ⟨u, trans _ _ _ (step s b) hu, hg.trans (other s b c hne), he⟩

/-- A part of the state that no step changes. -/
theorem foldl_part {α : Type} (part : State → α) (h : ∀ s b, part (f s b) = part s) (l : List β) (s : State) : part (l.foldl f s) = part s :=
  foldl_rel (fun s t => part t = part s) (fun _ => rfl) (fun _ _ _ h1 h2 => h2.trans h1) f h l s

end

theorem Logs.foldl {β : Type} {f : State → β → State} (h : ∀ s b, Logs s (f s b)) (l : List β) (s : State) : Logs s (l.foldl f s) :=
  foldl_rel Logs Logs.refl (fun _ _ _ => Logs.trans) f h l s

/-! ### What recorder events leave alone -/

section
variable {s t : State}

theorem Logs.now (h : Logs s t) : t.now = s.now := Eq.trans (congrArg State.now h) rfl
theorem Logs.tick (h : Logs s t) : t.tick = s.tick := Eq.trans (congrArg State.tick h) rfl
theorem Logs.regs (h : Logs s t) : t.regs = s.regs := Eq.trans (congrArg State.regs h) rfl
theorem Logs.flash (h : Logs s t) : t.flash = s.flash := Eq.trans (congrArg State.flash h) rfl
theorem Logs.otp (h : Logs s t) : t.otp = s.otp := Eq.trans (congrArg State.otp h) rfl
theorem Logs.pins (h : Logs s t) : t.pins = s.pins := Eq.trans (congrArg State.pins h) rfl
theorem Logs.power (h : Logs s t) : t.power = s.power := Eq.trans (congrArg State.power h) rfl
theorem Logs.bricks (h : Logs s t) : t.bricks = s.bricks := Eq.trans (congrArg State.bricks h) rfl
theorem Logs.tiles (h : Logs s t) : t.tiles = s.tiles := Eq.trans (congrArg State.tiles h) rfl
theorem Logs.courses (h : Logs s t) : t.courses = s.courses := Eq.trans (congrArg State.courses h) rfl
theorem Logs.mailboxes (h : Logs s t) : t.mailboxes = s.mailboxes := Eq.trans (congrArg State.mailboxes h) rfl
theorem Logs.epochs (h : Logs s t) : t.epochs = s.epochs := Eq.trans (congrArg State.epochs h) rfl
theorem Logs.keystone (h : Logs s t) : t.keystone = s.keystone := Eq.trans (congrArg State.keystone h) rfl
theorem Logs.replay (h : Logs s t) : t.replay = s.replay := Eq.trans (congrArg State.replay h) rfl
theorem Logs.rings (h : Logs s t) : t.rings = s.rings := Eq.trans (congrArg State.rings h) rfl
theorem Logs.ringLast (h : Logs s t) : t.ringLast = s.ringLast := Eq.trans (congrArg State.ringLast h) rfl
theorem Logs.ports (h : Logs s t) : t.ports = s.ports := Eq.trans (congrArg State.ports h) rfl
theorem Logs.mortar (h : Logs s t) : t.mortar = s.mortar := Eq.trans (congrArg State.mortar h) rfl
theorem Logs.cans (h : Logs s t) : t.cans = s.cans := Eq.trans (congrArg State.cans h) rfl
theorem Logs.field (h : Logs s t) : t.field = s.field := Eq.trans (congrArg State.field h) rfl

theorem Logs.course (h : Logs s t) (c : Fin 13) : t.course c = s.course c := Eq.trans (congrArg (State.course · c) h) rfl
theorem Logs.brick (h : Logs s t) (k : Fin 52) : t.brick k = s.brick k := Eq.trans (congrArg (State.brick · k) h) rfl
theorem Logs.tile (h : Logs s t) (k : Fin 208) : t.tile k = s.tile k := Eq.trans (congrArg (State.tile · k) h) rfl
theorem Logs.port (h : Logs s t) (q : PortCode) : t.port q = s.port q := Eq.trans (congrArg (State.port · q) h) rfl
theorem Logs.can (h : Logs s t) (n : Fin 8) : t.can n = s.can n := Eq.trans (congrArg (State.can · n) h) rfl
theorem Logs.mailbox (h : Logs s t) (j : Fin 32) : t.mailbox j = s.mailbox j := Eq.trans (congrArg (State.mailbox · j) h) rfl
theorem Logs.reg (h : Logs s t) (a : Nat) : t.reg a = s.reg a := Eq.trans (congrArg (State.reg · a) h) rfl

end

/-! ### Memories, and single bits of a word -/

@[simp] theorem getLsbD_setBit {w : Nat} (v : BitVec w) (n i : Nat) (b : Bool) :
    (setBit v n b).getLsbD i = if i = n ∧ i < w then b else v.getLsbD i := by
  by_cases hn : i = n <;> by_cases hw : i < w <;> cases b <;> simp_all [setBit, eq_comm]

theorem not_bit {w : Nat} {v : BitVec w} {n : Nat} (h : v.getLsbD n = false) : ¬ bit v n = true := by
  rw [bit, h]
  exact Bool.false_ne_true

theorem SameMemories.refl (s : State) : SameMemories s s := ⟨fun _ => ⟨rfl, rfl⟩, fun _ => rfl⟩

theorem SameMemories.trans {s t u : State} (h1 : SameMemories s t) (h2 : SameMemories t u) : SameMemories s u :=
  ⟨fun c => ⟨(h2.1 c).1.trans (h1.1 c).1, (h2.1 c).2.trans (h1.1 c).2⟩, fun k => (h2.2 k).trans (h1.2 k)⟩

theorem SameMemories.of_eq {s t : State} (hc : t.courses = s.courses) (hb : t.bricks = s.bricks) : SameMemories s t :=
  ⟨fun c => by simp only [State.course, hc, and_self], fun k => by simp only [State.brick, hb]⟩

theorem Logs.sameMemories {s t : State} (h : Logs s t) : SameMemories s t := .of_eq h.courses h.bricks

theorem MailLeaves.sameMemories {s t : State} (h : MailLeaves s t) : SameMemories s t :=
  ⟨fun c => by rw [h.2.1 c]; exact ⟨rfl, rfl⟩, fun k => by rw [h.2.2.1 k]⟩

end Sys2Proof.Machine
end

section
/-! SUPPORT. The bypasses, flushes, the wake pins and the conditions of power states, each said once (R48, R49, R54 to R58, R65, R75). -/

namespace Sys2Proof.Machine

/-! ### The bypasses (R48, R49) -/

section
variable {s : State}

theorem State.dozing_eq_false_iff : s.dozing = false ↔ s.gatedCourses = 0 ∧ s.power.doze.cans = 0 ∧ s.power.doze.ports = 0 := by
  simp [State.dozing]

theorem State.active_iff : s.active = true ↔ (s.power.supply = .on ∧ s.gatedCourses = 0 ∧ s.power.doze.cans = 0 ∧ s.power.doze.ports = 0 ∧
    s.power.stbySeq = false ∧ s.power.stbyReady = false) := by
  simp [State.active, State.dozing_eq_false_iff, and_assoc]

/-- The causes 1 to 7 in order; without one a pin may be high. -/
theorem State.bypCause_eq_zero_iff (b : Bool) : s.bypCause b = 0 ↔ (s.active = true ∧ s.power.phase = .running ∧ s.pairHealthy b = true ∧
    (s.reg 0x60).getLsbD (b2n b) = false ∧ s.power.tap.extestClass = false ∧ s.power.fault = false ∧
    (if b then s.pins.bypBLow else s.pins.bypALow) ≤ s.tick) := by
  unfold State.bypCause bit
  generalize (if b then s.pins.bypBLow else s.pins.bypALow) = low
  constructor
  · intro h
    repeat' split at h
    all_goals simp_all
  · rintro ⟨ha, hp, hh, hr, ht, hf, hl⟩
    simp [ha, hp, hh, hr, ht, hf, hl]

theorem State.bypDrop_drops (s : State) : BypassesDrop s s.bypDrop := by
  refine ⟨rfl, ?_, ?_, ?_, ?_⟩
  · cases h : s.pins.bypA <;> simp [State.bypDrop, h]
  · cases h : s.pins.bypB <;> simp [State.bypDrop, h]
  · simp [State.bypDrop]
  · simp [State.bypDrop]

/-- A drop of the bypasses changes the pins alone. -/
theorem State.bypDrop_eq (s : State) : s.bypDrop = { s with pins := s.bypDrop.pins } := rfl

/-- While the device is not ACTIVE no bypass is on. -/
theorem State.bypDrop_of_not_active (h : s.active = false) : s.bypDrop.pins.bypA = false ∧ s.bypDrop.pins.bypB = false := by
  have hc : ∀ b, s.bypCause b ≠ 0 := fun b hb => by
    have := (State.bypCause_eq_zero_iff b).mp hb
    simp [h] at this
  simp [State.bypDrop, hc]

end

/-! ### Flushes (R54, R56, R57, R483) -/

section
variable {s : State}

/-- The records that a flush at s would write. -/
theorem Recorder.dirty_iff_unflushed : s.recorder.dirty = true ↔ s.unflushed := by
  simp only [Recorder.dirty, Recorder.dirtyOnes, State.unflushed, decide_eq_true_eq, ne_eq, List.filter_eq_nil_iff, List.mem_append,
    List.mem_reverse, not_forall, not_not, exists_prop, or_and_right, exists_or]

/-- A flush that starts: an event, and the block that holds what is not flushed. -/
theorem State.flushStart_of_idle (cause : Nat) (hf : s.recorder.flushing = none) (hv : s.pins.vhold = true) :
    ∃ x, Logs s x ∧ s.flushStart cause = { x with recorder := { x.recorder with flushState := 1, flushing := some { cause := cause, starts := s.power.startRec.number, recs := (x.recorder.recs.reverse ++ x.recorder.side).filter (fun (y : RecEntry) => y.dirty), ended := false, reported := false } } } :=
  ⟨s.recEvent .flushStart, Logs.event _ _ _ _ _, if_neg (by simp [hf, hv])⟩

/-- One that runs, or a flush domain without power, stands. -/
theorem State.flushStart_of_busy (cause : Nat) (h : s.recorder.flushing.isSome = true ∨ s.pins.vhold = false) : s.flushStart cause = s := by
  refine if_pos ?_
  rcases h with h | h <;> simp [h]

theorem Logs.flushStart (s : State) (cause : Nat) : Logs s (s.flushStart cause) := by
  by_cases h : s.recorder.flushing.isSome = true ∨ s.pins.vhold = false
  · rw [State.flushStart_of_busy cause h]
    exact Logs.refl s
  · rw [not_or, Option.not_isSome_iff_eq_none, Bool.not_eq_false] at h
    obtain ⟨x, hx, he⟩ := State.flushStart_of_idle cause h.1 h.2
    rw [he]
    exact hx.trans rfl

/-- With VHOLD present a flush runs afterwards. -/
theorem State.flushing_flushStart (cause : Nat) (hv : s.pins.vhold = true) : (s.flushStart cause).recorder.flushing.isSome = true := by
  cases hf : s.recorder.flushing with
  | none =>
    obtain ⟨x, -, he⟩ := State.flushStart_of_idle cause hf hv
    rw [he]
    rfl
  | some b =>
    rw [State.flushStart_of_busy cause (.inl (by rw [hf]; rfl)), hf]
    rfl

/-- The newest block stays in the flush region whenever it fits. -/
theorem keepBlocks_head {room : Nat} {b : FlushBlock} (bs : List FlushBlock) (h : b.size ≤ room) : (keepBlocks room (b :: bs)).head? = some b := by
  simp [keepBlocks, h]

end

/-! ### The wake pins (R58, R59, R75, R373) -/

section
variable {s : State}

theorem State.wakeOpen_iff : s.wakeOpen = true ↔ (s.power.stbyReady = true ∨ (s.power.supply = .standby ∧ s.power.wakeSrc.getLsbD 15 = true)) := by
  simp [State.wakeOpen, bit]

theorem WakeCfg.hits_iff (c : WakeCfg) (f : CanFrame) : c.hits f = true ↔ (f.fdf = false ∧ f.ide = c.ide ∧ f.id &&& c.mask = c.id &&& c.mask) := by
  simp [WakeCfg.hits]

/-- Controller n's wake input takes w: any level in mode 0, a frame that matches in mode 1 (R373). -/
def WakeCfg.takes (c : WakeCfg) (w : CanWake) : Bool :=
  match w with
  | .dominant => !c.frame
  | .frame f => !c.frame || c.hits f

theorem WakeCfg.takes_of_edge {c : WakeCfg} (w : CanWake) (h : c.frame = false) : c.takes w = true := by
  cases w <;> simp [WakeCfg.takes, h]

theorem WakeCfg.takes_of_frame {c : WakeCfg} {w : CanWake} (h : c.frame = true) : c.takes w = true ↔
    ∃ f, w = .frame f ∧ f.fdf = false ∧ f.ide = c.ide ∧ f.id &&& c.mask = c.id &&& c.mask := by
  cases w with
  | dominant => simp [WakeCfg.takes, h]
  | frame f => simp [WakeCfg.takes, h, WakeCfg.hits_iff]

theorem exec_canRxdWake_none {n : Fin 8} (w : CanWake) (h : s.power.wakeCfg[n.val]? = none) : exec (.canRxdWake n w) s = .next s := by
  simp only [exec, execCanRxdWake, h]

theorem exec_canRxdWake_some {n : Fin 8} (w : CanWake) {c : WakeCfg} (h : s.power.wakeCfg[n.val]? = some c) : exec (.canRxdWake n w) s =
    s.when_ (s.wakeOpen && (c.en && c.takes w)) (fun s => { s with power := { s.power with wakeSrc := setBit s.power.wakeSrc (if c.frame then 24 + n.val else 16 + n.val) true } }) := by
  simp only [exec, execCanRxdWake, h]
  cases hf : c.frame <;> cases w <;> simp [WakeCfg.takes, hf] <;> rfl

end

/-! ### Who may change the power state (R65, R66) -/

section
variable {s : State} {p : Party}

theorem State.pwrOpen_of (hu : s.blocksUp = true) (hp : s.pf1OrMgr p = true) (hq : s.power.stbySeq = false) : s.pwrOpen p = true := by
  simp [State.pwrOpen, hu, hp, hq]

theorem State.not_pwrOpen_of (h : s.blocksUp = false ∨ s.pf1OrMgr p = false ∨ s.power.stbySeq = true) : s.pwrOpen p = false := by
  rcases h with h | h | h <;> simp [State.pwrOpen, h]

theorem State.supply_of_alive (h : s.alive = true) : s.power.supply = .on := by
  simp only [State.alive, Bool.and_eq_true, decide_eq_true_eq] at h
  exact h.1

theorem State.alive_of_blocksUp (h : s.blocksUp = true) : s.alive = true := by
  simp only [State.blocksUp, Bool.and_eq_true] at h
  exact h.1

end

end Sys2Proof.Machine
end

section
/-! SUPPORT. What a hold of a port and the fall of a link can do (R69, R259, R283). -/

namespace Sys2Proof.Machine

/-- The state t is s but for port q, copies toward it, what it has sent, and a recorder event (R259, R283). -/
def PortLeaves (s t : State) (q : PortCode) : Prop :=
  t = { s with ports := t.ports, mortar := t.mortar, lineOut := t.lineOut, recorder := t.recorder, journal := t.journal, pf0 := t.pf0, pf1 := t.pf1, hostMem := t.hostMem, chainOut := t.chainOut } ∧
    OtherPorts s t q ∧ KeepsQueues s t q

theorem PortLeaves.refl (s : State) (q : PortCode) : PortLeaves s s q := ⟨rfl, fun _ _ => rfl, rfl, rfl⟩

theorem PortLeaves.trans {s t u : State} {q : PortCode} (h1 : PortLeaves s t q) (h2 : PortLeaves t u q) : PortLeaves s u q := by
  obtain ⟨e1, o1, k1, a1⟩ := h1
  obtain ⟨e2, o2, k2, a2⟩ := h2
  refine ⟨e2.trans ?_, fun o ho => (o2 o ho).trans (o1 o ho), k2.trans k1, a2.trans a1⟩
  rw [e1]

theorem PortLeaves.setPort (s : State) (q : PortCode) (p : Port) : PortLeaves s (s.setPort q p) q :=
  ⟨rfl, fun _ ho => State.port_setPort_ne s p ho, rfl, rfl⟩

theorem PortLeaves.of_logs {s t : State} (q : PortCode) (h : Logs s t) : PortLeaves s t q := by
  refine ⟨?_, fun o _ => h.port o, ?_, ?_⟩
  · have hp := h.ports
    have hm := h.mortar
    have hl : t.lineOut = s.lineOut := Eq.trans (congrArg State.lineOut h) rfl
    rw [hp, hm, hl]
    exact h
  · rw [h.mortar]
  · rw [h.mortar]

section
variable {s : State} {q : PortCode}

@[simp] theorem State.port_modPort (s : State) (q : PortCode) (f : Port → Port) : (s.modPort q f).port q = f (s.port q) := State.port_setPort s q _

theorem State.port_modPort_ne (s : State) {o q : PortCode} (f : Port → Port) (h : o ≠ q) : (s.modPort q f).port o = s.port o :=
  State.port_setPort_ne s _ h

theorem PortLeaves.countPort (s : State) (q : PortCode) (k : Fin 32) (n : Nat) : PortLeaves s (s.countPort q k n) q := PortLeaves.setPort s q _

/-- The copies that wait for port q are discarded and counted (R283). -/
theorem PortLeaves.dropQueued (s : State) (q : PortCode) : PortLeaves s (s.dropQueued q) q := by
  refine PortLeaves.trans ?_ (foldl_rel (PortLeaves · · q) (PortLeaves.refl · q) (fun _ _ _ => PortLeaves.trans) _
    (fun s c => PortLeaves.countPort s q _ _) _ _)
  exact ⟨rfl, fun _ _ => rfl, by simp [List.filter_filter], rfl⟩

theorem PortLeaves.holdExpire (s : State) (q : PortCode) : PortLeaves s (s.holdExpire q) q :=
  ((PortLeaves.dropQueued s q).trans (PortLeaves.setPort _ q _)).trans (PortLeaves.of_logs q (Logs.event _ _ _ _ _))

theorem bits_hold (v : Reg32) : bits v 15 0 = v.toNat % 2 ^ 16 := by simp [bits]

theorem State.holdStart_eq (s : State) (q : PortCode) : s.holdStart q =
    if s.holdTime q = 0 then (s.modPort q (fun p => { p with holdEnd := some (s.now + s.holdTime q), dropping := false })).holdExpire q
    else s.modPort q (fun p => { p with holdEnd := some (s.now + s.holdTime q), dropping := false }) := by
  unfold State.holdStart State.holdTime
  rw [bits_hold]
  simp [microsecond]

/-- A hold of some length leaves the queues alone. -/
theorem State.holdStart_of_hold (h : s.holdTime q ≠ 0) :
    s.holdStart q = s.modPort q (fun p => { p with holdEnd := some (s.now + s.holdTime q), dropping := false }) := by
  rw [State.holdStart_eq, if_neg h]

theorem PortLeaves.holdStart (s : State) (q : PortCode) : PortLeaves s (s.holdStart q) q := by
  rw [State.holdStart_eq]
  split
  · exact (PortLeaves.setPort s q _).trans (PortLeaves.holdExpire _ q)
  · exact PortLeaves.setPort s q _

end

section
variable {s t : State} {q : PortCode}

theorem PortLeaves.power (h : PortLeaves s t q) : t.power = s.power := (congrArg State.power h.1).trans rfl
theorem PortLeaves.pins (h : PortLeaves s t q) : t.pins = s.pins := (congrArg State.pins h.1).trans rfl
theorem PortLeaves.now (h : PortLeaves s t q) : t.now = s.now := (congrArg State.now h.1).trans rfl
theorem PortLeaves.regs (h : PortLeaves s t q) : t.regs = s.regs := (congrArg State.regs h.1).trans rfl
theorem PortLeaves.courses (h : PortLeaves s t q) : t.courses = s.courses := (congrArg State.courses h.1).trans rfl
theorem PortLeaves.bricks (h : PortLeaves s t q) : t.bricks = s.bricks := (congrArg State.bricks h.1).trans rfl
theorem PortLeaves.tiles (h : PortLeaves s t q) : t.tiles = s.tiles := (congrArg State.tiles h.1).trans rfl
theorem PortLeaves.cans (h : PortLeaves s t q) : t.cans = s.cans := (congrArg State.cans h.1).trans rfl
theorem PortLeaves.sameMemories (h : PortLeaves s t q) : SameMemories s t := .of_eq h.courses h.bricks

end

end Sys2Proof.Machine
end

section
/-! SUPPORT. DOZE requests (R65, R67, R69). -/

namespace Sys2Proof.Machine

/-- Field port k of a request for the ports in `p` is gated, and its hold starts (R67, R69). -/
def State.gatePort (p : Reg32) (s : State) (k : Fin 32) : State :=
  if bit p k.val ∧ bit s.power.doze.ports k.val = false then
    let s1 := s.modDoze (fun d => { d with ports := setBit d.ports k.val true })
    if (s1.port ⟨k.val, by omega⟩).up then s1.holdStart ⟨k.val, by omega⟩ else s1
  else s

/-- The port of field port k. -/
def fieldPort (k : Fin 32) : PortCode := ⟨k.val, by omega⟩

/-- What waits to be gated after a request, and when its timer ends. -/
def State.dozeAsked (s : State) : State :=
  s.modDoze (fun d => { d with waitCourses := (s.reg 0x88).extractLsb' 0 13 &&& ~~~ s.gatedCourses, waitCans := (s.reg 0x88).extractLsb' 13 8 &&& ~~~ d.cans, since := s.now, timerEnd := if s.reg 0x90 = 0 then none else some (s.now + (s.reg 0x90).toNat * 8) })

theorem State.dozeRequest_none {s : State} (h : s.reg 0x88 &&& 0x1FFFFF = 0) (hp : s.reg 0x8C = 0) : s.dozeRequest = s := if_pos ⟨h, hp⟩

theorem State.dozeRequest_some {s : State} (h : ¬ (s.reg 0x88 &&& 0x1FFFFF = 0 ∧ s.reg 0x8C = 0)) :
    s.dozeRequest = ((List.finRange 32).foldl (State.gatePort (s.reg 0x8C)) s.dozeAsked).bypDrop := by
  have ht : (if (s.reg 0x90).toNat = 0 then none else some (s.now + (s.reg 0x90).toNat * timeCycle)) =
      if s.reg 0x90 = 0 then none else some (s.now + (s.reg 0x90).toNat * 8) := by
    simp only [← BitVec.toNat_inj]
    rfl
  unfold State.dozeRequest State.dozeAsked
  rw [← ht]
  exact if_neg h

/-- What gating field ports leaves alone: all but the ports, what waits for them, and DOZE's list of gated ports. -/
def GatesPorts (s t : State) : Prop :=
  t = { s with power := { s.power with doze := { s.power.doze with ports := t.power.doze.ports } }, ports := t.ports, mortar := t.mortar, lineOut := t.lineOut, recorder := t.recorder, journal := t.journal, pf0 := t.pf0, pf1 := t.pf1, hostMem := t.hostMem, chainOut := t.chainOut }

theorem GatesPorts.refl (s : State) : GatesPorts s s := rfl

theorem GatesPorts.trans {s t u : State} (h1 : GatesPorts s t) (h2 : GatesPorts t u) : GatesPorts s u := by
  refine Eq.trans h2 ?_
  rw [show t = _ from h1]

section
variable (p : Reg32) (s : State) (k : Fin 32)

/-- DOZE lists port k as gated. -/
def State.portListed : State := s.modDoze (fun d => { d with ports := setBit d.ports k.val true })

theorem State.gatePort_eq : s.gatePort p k =
    if bit p k.val ∧ bit s.power.doze.ports k.val = false then (if (s.port (fieldPort k)).up then (s.portListed k).holdStart (fieldPort k) else s.portListed k)
    else s := rfl

theorem State.gatePort_leaves : GatesPorts s (s.gatePort p k) := by
  rw [State.gatePort_eq]
  have h1 : GatesPorts s (s.portListed k) := rfl
  split
  · split
    · refine h1.trans ?_
      have h := PortLeaves.holdStart (s.portListed k) (fieldPort k)
      unfold GatesPorts
      rw [h.power]
      exact h.1
    · exact h1
  · exact GatesPorts.refl s

/-- What the request says of one port: whether it is listed as gated, and the port itself. -/
def State.gateOf (s : State) (k : Fin 32) : Bool × Port := (s.power.doze.ports.getLsbD k.val, s.port (fieldPort k))

theorem fieldPort_inj {j k : Fin 32} (h : j ≠ k) : fieldPort j ≠ fieldPort k := fun e => h (Fin.ext (congrArg (Fin.val (n := 50)) e))

theorem State.gateOf_portListed : (s.portListed k).gateOf k = (true, s.port (fieldPort k)) := by
  have h : (setBit s.power.doze.ports k.val true).getLsbD k.val = true := by simp
  exact Prod.ext h rfl

theorem State.gateOf_portListed_ne {j : Fin 32} (h : j ≠ k) : (s.portListed k).gateOf j = s.gateOf j := by
  have hv : j.val ≠ k.val := fun e => h (Fin.ext e)
  have hb : (setBit s.power.doze.ports k.val true).getLsbD j.val = s.power.doze.ports.getLsbD j.val := by
    rw [getLsbD_setBit, if_neg fun h => hv h.1]
  exact Prod.ext hb rfl

theorem State.gateOf_gatePort_ne {j : Fin 32} (h : j ≠ k) : (s.gatePort p k).gateOf j = s.gateOf j := by
  rw [State.gatePort_eq]
  split
  · split
    · have hl := PortLeaves.holdStart (s.portListed k) (fieldPort k)
      rw [← State.gateOf_portListed_ne s k h]
      exact Prod.ext (by simp only [State.gateOf, hl.power]) (hl.2.1 _ (fieldPort_inj h))
    · exact State.gateOf_portListed_ne s k h
  · rfl

theorem State.listed_gatePort : ((s.gatePort p k).gateOf k).1 = ((s.gateOf k).1 || p.getLsbD k.val) := by
  rw [State.gatePort_eq]
  split
  · next h =>
    have hl : ((s.portListed k).gateOf k).1 = true := by rw [State.gateOf_portListed]
    have hp : p.getLsbD k.val = true := h.1
    rw [hp, Bool.or_true, ← hl]
    split
    · simp only [State.gateOf, (PortLeaves.holdStart (s.portListed k) (fieldPort k)).power]
    · rfl
  · next h =>
    rw [not_and, Bool.not_eq_false] at h
    cases hp : p.getLsbD k.val
    · rw [Bool.or_false]
    · rw [Bool.or_true]
      exact h hp

/-- A port that is selected, up and not yet gated begins its hold. -/
theorem State.port_gatePort_held (hp : p.getLsbD k.val = true) (hg : (s.gateOf k).1 = false) (hu : (s.port (fieldPort k)).up = true)
    (ht : s.holdTime (fieldPort k) ≠ 0) :
    (s.gatePort p k).port (fieldPort k) = { s.port (fieldPort k) with holdEnd := some (s.now + s.holdTime (fieldPort k)), dropping := false } := by
  have ht' : (s.portListed k).holdTime (fieldPort k) ≠ 0 := ht
  rw [State.gatePort_eq, if_pos ⟨hp, hg⟩, if_pos hu, State.holdStart_of_hold ht', State.port_modPort]
  rfl

/-- Any other is as it was. -/
theorem State.port_gatePort_kept (h : ¬ (p.getLsbD k.val = true ∧ (s.gateOf k).1 = false ∧ (s.port (fieldPort k)).up = true)) :
    (s.gatePort p k).port (fieldPort k) = s.port (fieldPort k) := by
  rw [State.gatePort_eq]
  split
  · next hk =>
    rw [if_neg fun hu => h ⟨hk.1, hk.2, hu⟩]
    rfl
  · rfl

end

section
variable {p : Reg32} {s : State}

/-- A request gates each of the 32 ports in its turn. -/
theorem foldl_gatePort (p : Reg32) (s : State) (k : Fin 32) : ∃ u, GatesPorts s u ∧ u.gateOf k = s.gateOf k ∧
    ((List.finRange 32).foldl (State.gatePort p) s).gateOf k = (u.gatePort p k).gateOf k :=
  foldl_member GatesPorts.refl (fun _ _ _ => GatesPorts.trans) (State.gatePort_leaves p) (fun s b _ hc => State.gateOf_gatePort_ne p s b hc)
    (List.nodup_finRange 32) (List.mem_finRange k) s

theorem foldl_gatePort_leaves (p : Reg32) (s : State) : GatesPorts s ((List.finRange 32).foldl (State.gatePort p) s) :=
  foldl_rel GatesPorts GatesPorts.refl (fun _ _ _ => GatesPorts.trans) _ (State.gatePort_leaves p) _ s

theorem foldl_gatePort_listed (p : Reg32) (s : State) :
    ((List.finRange 32).foldl (State.gatePort p) s).power.doze.ports = s.power.doze.ports ||| p := by
  refine BitVec.eq_of_getLsbD_eq fun i hi => ?_
  obtain ⟨u, -, hg, he⟩ := foldl_gatePort p s ⟨i, hi⟩
  have h := (congrArg Prod.fst he).trans (State.listed_gatePort p u ⟨i, hi⟩)
  rw [hg] at h
  rw [BitVec.getLsbD_or]
  exact h

theorem GatesPorts.holdTime {s t : State} (h : GatesPorts s t) (q : PortCode) : t.holdTime q = s.holdTime q :=
  Eq.trans (congrArg (State.holdTime · q) h) rfl

theorem GatesPorts.now {s t : State} (h : GatesPorts s t) : t.now = s.now := Eq.trans (congrArg State.now h) rfl

theorem foldl_gatePort_held {q : PortCode} (hq : q.val < 32) (hs : p.getLsbD q.val = true ∧ s.power.doze.ports.getLsbD q.val = false ∧ (s.port q).up = true)
    (ht : s.holdTime q ≠ 0) : ((List.finRange 32).foldl (State.gatePort p) s).port q =
      { s.port q with holdEnd := some (s.now + s.holdTime q), dropping := false } := by
  obtain ⟨hp, hl, hu⟩ := hs
  obtain ⟨u, hR, hg, he⟩ := foldl_gatePort p s ⟨q.val, hq⟩
  have hport : u.port q = s.port q := congrArg Prod.snd hg
  have h := (congrArg Prod.snd he).trans (State.port_gatePort_held p u ⟨q.val, hq⟩ hp ((congrArg Prod.fst hg).trans hl)
    ((congrArg Port.up hport).trans hu) (by rw [hR.holdTime]; exact ht))
  refine h.trans ?_
  rw [hR.now, hR.holdTime]
  exact congrArg (fun x : Port => { x with holdEnd := some (s.now + s.holdTime q), dropping := false }) hport

/-- A port outside the field ports, and one that the request does not gate, stay as they were. -/
theorem foldl_gatePort_kept {q : PortCode}
    (hs : ¬ (q.val < 32 ∧ p.getLsbD q.val = true ∧ s.power.doze.ports.getLsbD q.val = false ∧ (s.port q).up = true)) :
    ((List.finRange 32).foldl (State.gatePort p) s).port q = s.port q := by
  by_cases hq : q.val < 32
  · obtain ⟨u, -, hg, he⟩ := foldl_gatePort p s ⟨q.val, hq⟩
    have hport : u.port q = s.port q := congrArg Prod.snd hg
    refine ((congrArg Prod.snd he).trans (State.port_gatePort_kept p u ⟨q.val, hq⟩ fun h => hs ?_)).trans hport
    exact ⟨hq, h.1, (congrArg Prod.fst hg).symm.trans h.2.1, (congrArg Port.up hport).symm.trans h.2.2⟩
  · refine foldl_part (State.port · q) (fun s k => ?_) _ s
    rw [State.gatePort_eq]
    have hne : q ≠ fieldPort k := fun e => hq (e ▸ k.isLt)
    split
    · split
      · exact ((PortLeaves.holdStart (s.portListed k) (fieldPort k)).2.1 q hne).trans rfl
      · rfl
    · rfl

end

end Sys2Proof.Machine
end

section
/-! SUPPORT. The bricks of a course, one after the other; and a course that wakes (R6, R69 to R71, R121). -/

namespace Sys2Proof.Machine

/-! ### Bricks by course -/

theorem courseOf_brickOf (c : Fin 13) (b : Fin 4) : courseOf (brickOf c b) = c := Fin.ext (by simp only [courseOf, brickOf]; omega)

theorem brickOf_courseOf (k : Fin 52) : brickOf (courseOf k) (localOf k) = k :=
  Fin.ext (by simp only [brickOf, courseOf, localOf]; omega)

theorem brickOf_ne {c : Fin 13} {a b : Fin 4} (h : a ≠ b) : brickOf c a ≠ brickOf c b := fun e => h (Fin.ext (by
  have := congrArg (Fin.val (n := 52)) e
  simp only [brickOf] at this
  omega))

theorem brickOf_ne_of_courseOf {k : Fin 52} {c : Fin 13} (h : courseOf k ≠ c) (b : Fin 4) : k ≠ brickOf c b := fun e =>
  h (e ▸ courseOf_brickOf c b)

section
variable {s : State}

@[simp] theorem State.brick_modBrick (s : State) (k : Fin 52) (f : Brick → Brick) : (s.modBrick k f).brick k = f (s.brick k) := State.brick_setBrick s k _

theorem State.brick_modBrick_ne (s : State) {j k : Fin 52} (f : Brick → Brick) (h : j ≠ k) : (s.modBrick k f).brick j = s.brick j :=
  State.brick_setBrick_ne s _ h

@[simp] theorem State.course_modCourse (s : State) (c : Fin 13) (f : Course → Course) : (s.modCourse c f).course c = f (s.course c) :=
  State.course_setCourse s c _

theorem State.course_modCourse_ne (s : State) {c d : Fin 13} (f : Course → Course) (h : d ≠ c) : (s.modCourse c f).course d = s.course d :=
  State.course_setCourse_ne s _ h

end

/-- Nothing but bricks of course c differs. -/
def BricksOf (c : Fin 13) (s t : State) : Prop := t = { s with bricks := t.bricks } ∧ ∀ k, courseOf k ≠ c → t.brick k = s.brick k

theorem BricksOf.refl (c : Fin 13) (s : State) : BricksOf c s s := ⟨rfl, fun _ _ => rfl⟩

theorem BricksOf.trans {c : Fin 13} {s t u : State} (h1 : BricksOf c s t) (h2 : BricksOf c t u) : BricksOf c s u :=
  ⟨h2.1.trans (by rw [h1.1]), fun k hk => (h2.2 k hk).trans (h1.2 k hk)⟩

theorem BricksOf.modBrick (s : State) (c : Fin 13) (b : Fin 4) (f : Brick → Brick) : BricksOf c s (s.modBrick (brickOf c b) f) :=
  ⟨rfl, fun _ hk => State.brick_modBrick_ne s f (brickOf_ne_of_courseOf hk b)⟩

/-- Each brick of course c is changed by its own function. -/
theorem BricksOf.foldl (c : Fin 13) (f : Fin 4 → Brick → Brick) (s : State) :
    BricksOf c s ((List.finRange 4).foldl (fun s b => s.modBrick (brickOf c b) (f b)) s) :=
  foldl_rel (BricksOf c) (BricksOf.refl c) (fun _ _ _ => BricksOf.trans) _ (fun s b => BricksOf.modBrick s c b _) _ s

theorem brick_foldl_modBrick (c : Fin 13) (f : Fin 4 → Brick → Brick) (s : State) (b : Fin 4) :
    ((List.finRange 4).foldl (fun s b => s.modBrick (brickOf c b) (f b)) s).brick (brickOf c b) = f b (s.brick (brickOf c b)) := by
  obtain ⟨u, -, hu, he⟩ := foldl_member (R := BricksOf c) (g := fun s b => s.brick (brickOf c b)) (f := fun s b => s.modBrick (brickOf c b) (f b))
    (BricksOf.refl c) (fun _ _ _ => BricksOf.trans) (fun s b => BricksOf.modBrick s c b _)
    (fun s a b h => State.brick_modBrick_ne s _ (brickOf_ne h)) (List.nodup_finRange 4) (List.mem_finRange b) s
  rw [he, State.brick_modBrick, hu]

/-! ### A course wakes -/

/-- What a wake of course c leaves alone: the other courses, and every port but CPc. -/
structure WakeLeaves (c : Fin 13) (s t : State) : Prop where
  frame : t = { s with bricks := t.bricks, tiles := t.tiles, courses := t.courses, ports := t.ports, journal := t.journal }
  courses : ∀ d, d ≠ c → t.course d = s.course d
  ports : OtherPorts s t (portCp c)

section
variable {s t u : State} {c : Fin 13}

theorem WakeLeaves.refl (c : Fin 13) (s : State) : WakeLeaves c s s := ⟨rfl, fun _ _ => rfl, fun _ _ => rfl⟩

theorem WakeLeaves.trans (h1 : WakeLeaves c s t) (h2 : WakeLeaves c t u) : WakeLeaves c s u :=
  ⟨h2.frame.trans (by rw [h1.frame]), fun d hd => (h2.courses d hd).trans (h1.courses d hd), fun o ho => (h2.ports o ho).trans (h1.ports o ho)⟩

theorem WakeLeaves.setCourse (s : State) (c : Fin 13) (x : Course) : WakeLeaves c s (s.setCourse c x) :=
  ⟨rfl, fun _ hd => State.course_setCourse_ne s x hd, fun _ _ => rfl⟩

theorem WakeLeaves.modBrick (s : State) (c : Fin 13) (k : Fin 52) (f : Brick → Brick) : WakeLeaves c s (s.modBrick k f) :=
  ⟨rfl, fun _ _ => rfl, fun _ _ => rfl⟩

theorem WakeLeaves.modTile (s : State) (c : Fin 13) (k : Fin 208) (f : Tile → Tile) : WakeLeaves c s (s.modTile k f) :=
  ⟨rfl, fun _ _ => rfl, fun _ _ => rfl⟩

theorem WakeLeaves.jrec (s : State) (c : Fin 13) (r : JRec) : WakeLeaves c s (s.jrec c r) := by
  rw [State.jrec_eq]
  exact ⟨rfl, fun _ _ => rfl, fun _ _ => rfl⟩

theorem State.endGateHold_eq (s : State) (q : PortCode) : s.endGateHold q =
    if (s.port q).up then s.setPort q { s.port q with holdEnd := none, dropping := false } else s := rfl

theorem State.port_endGateHold_up {q : PortCode} (h : (s.port q).up = true) :
    (s.endGateHold q).port q = { s.port q with holdEnd := none, dropping := false } := by
  rw [State.endGateHold_eq, if_pos h, State.port_setPort]

theorem State.endGateHold_otherPorts (s : State) (q : PortCode) : OtherPorts s (s.endGateHold q) q := fun o ho => by
  rw [State.endGateHold_eq]
  split
  · exact State.port_setPort_ne s _ ho
  · rfl

theorem State.endGateHold_frame (s : State) (q : PortCode) : s.endGateHold q = { s with ports := (s.endGateHold q).ports } := by
  rw [State.endGateHold_eq]
  split <;> rfl

@[simp] theorem State.course_endGateHold (s : State) (q : PortCode) (c : Fin 13) : (s.endGateHold q).course c = s.course c := by
  rw [State.endGateHold_frame]
  rfl

@[simp] theorem State.course_jrec (s : State) (c d : Fin 13) (r : JRec) : (s.jrec c r).course d = s.course d := by
  rw [State.jrec_eq]
  rfl

theorem WakeLeaves.endGateHold (s : State) (c : Fin 13) : WakeLeaves c s (s.endGateHold (portCp c)) := by
  have ho := State.endGateHold_otherPorts s (portCp c)
  rw [State.endGateHold_frame] at ho ⊢
  exact ⟨rfl, fun _ _ => rfl, ho⟩

/-- The course as its wake leaves it: its cycle counter goes on from where it stopped. -/
def Course.woken (x : Course) (now g : Nat) : Course := { x with gatedAt := none, base := x.base + (edgeFrom 4 now - g) / 4 * 4 }

/-- The tiles and bricks shift by the time that the course has stood; its port's hold ends; the journal takes the wake. -/
theorem State.ungateCourse_shape (cause : BitVec 4) {g : Nat} (h : (s.course c).gatedAt = some g) : ∃ (f : Brick → Brick) (k : Tile → Tile) (r : JRec),
    s.ungateCourse c cause = ((((List.finRange 16).foldl (fun s i => s.modTile (tileOfCourse c i) k)
      ((List.finRange 4).foldl (fun s b => s.modBrick (brickOf c b) f) (s.setCourse c ((s.course c).woken s.now g)))).endGateHold (portCp c)).jrec c r) := by
  simp only [State.ungateCourse, h]
  exact ⟨_, _, _, rfl⟩

theorem State.ungateCourse_none (cause : BitVec 4) (h : (s.course c).gatedAt = none) : s.ungateCourse c cause = s := by
  simp only [State.ungateCourse, h]

theorem WakeLeaves.ungateCourse (s : State) (c : Fin 13) (cause : BitVec 4) : WakeLeaves c s (s.ungateCourse c cause) := by
  cases h : (s.course c).gatedAt with
  | none => rw [State.ungateCourse_none cause h]; exact .refl c s
  | some g =>
    obtain ⟨f, k, r, he⟩ := State.ungateCourse_shape cause h
    rw [he]
    refine .trans (.trans ?_ (.endGateHold _ c)) (.jrec _ c r)
    refine .trans ?_ (foldl_rel (WakeLeaves c) (.refl c) (fun _ _ _ => .trans) _ (fun s i => .modTile s c _ k) _ _)
    exact .trans (.setCourse s c _) (foldl_rel (WakeLeaves c) (.refl c) (fun _ _ _ => .trans) _ (fun s b => .modBrick s c _ f) _ _)

theorem State.course_ungateCourse (cause : BitVec 4) {g : Nat} (h : (s.course c).gatedAt = some g) :
    (s.ungateCourse c cause).course c = (s.course c).woken s.now g := by
  obtain ⟨f, k, r, he⟩ := State.ungateCourse_shape cause h
  rw [he, State.course_jrec, State.course_endGateHold]
  refine (foldl_part (State.course · c) ?_ _ _).trans ((foldl_part (State.course · c) ?_ _ _).trans (State.course_setCourse s c _))
  · exact fun _ _ => rfl
  · exact fun _ _ => rfl

end

/-! ### The wake of everything gated (R70) -/

/-- What a wake from DOZE changes. -/
def DozeWakeLeaves (s t : State) : Prop :=
  t = { s with bricks := t.bricks, tiles := t.tiles, courses := t.courses, ports := t.ports, journal := t.journal, cans := t.cans, power := t.power }

section
variable {s t u : State}

theorem DozeWakeLeaves.refl (s : State) : DozeWakeLeaves s s := rfl

theorem DozeWakeLeaves.trans (h1 : DozeWakeLeaves s t) (h2 : DozeWakeLeaves t u) : DozeWakeLeaves s u := by
  refine Eq.trans h2 ?_
  rw [show t = _ from h1]

/-- A course that is listed in g wakes. -/
def State.wakeListed (g : BitVec 13) (cause : BitVec 4) (s : State) (c : Fin 13) : State := if bit g c.val then s.ungateCourse c cause else s

/-- A controller that is listed in d integrates onto its bus again. -/
def State.integListed (d : BitVec 8) (s : State) (n : Fin 8) : State :=
  if bit d n.val then s.modCan n (fun c => { c with integ := c.integ || decide (c.st = .on) }) else s

/-- The hold of a field port that is listed in d ends. -/
def State.unholdListed (d : BitVec 32) (s : State) (k : Fin 32) : State := if bit d k.val then s.endGateHold (fieldPort k) else s

theorem State.wakeAll_eq (s : State) (cause : BitVec 4) : s.wakeAll cause =
    (List.finRange 32).foldl (State.unholdListed s.power.doze.ports)
      (((List.finRange 8).foldl (State.integListed s.power.doze.cans) ((List.finRange 13).foldl (State.wakeListed s.gatedCourses cause) s)).modDoze
        (fun d => { d with cans := 0, ports := 0, timerEnd := none })) := rfl

end

/-- The courses in their turn change neither power, controllers nor field ports. -/
structure CoursesWake (s t : State) : Prop where
  frame : t = { s with bricks := t.bricks, tiles := t.tiles, courses := t.courses, ports := t.ports, journal := t.journal }
  memories : SameMemories s t
  ports : ∀ q : PortCode, q.val < 32 → t.port q = s.port q

theorem CoursesWake.refl (s : State) : CoursesWake s s := ⟨rfl, .refl s, fun _ _ => rfl⟩

theorem CoursesWake.trans {s t u : State} (h1 : CoursesWake s t) (h2 : CoursesWake t u) : CoursesWake s u :=
  ⟨h2.frame.trans (by rw [h1.frame]), h1.memories.trans h2.memories, fun q hq => (h2.ports q hq).trans (h1.ports q hq)⟩

section
variable (g : BitVec 13) (cause : BitVec 4) (s : State)

theorem State.wakeListed_wakes (c : Fin 13) : CoursesWake s (s.wakeListed g cause c) := by
  unfold State.wakeListed
  split
  · have h := WakeLeaves.ungateCourse s c cause
    refine ⟨h.frame, (MailLeaves.ungateCourse s c cause).sameMemories, fun q hq => h.ports q fun e => ?_⟩
    rw [e] at hq
    simp only [portCp] at hq
    omega
  · exact .refl s

theorem State.course_wakeListed_ne {c d : Fin 13} (h : d ≠ c) : (s.wakeListed g cause c).course d = s.course d := by
  unfold State.wakeListed
  split
  · exact (WakeLeaves.ungateCourse s c cause).courses d h
  · rfl

theorem foldl_wakeListed_wakes : CoursesWake s ((List.finRange 13).foldl (State.wakeListed g cause) s) :=
  foldl_rel CoursesWake .refl (fun _ _ _ => .trans) _ (State.wakeListed_wakes g cause) _ s

theorem course_foldl_wakeListed (c : Fin 13) : ∃ u, CoursesWake s u ∧ u.course c = s.course c ∧
    ((List.finRange 13).foldl (State.wakeListed g cause) s).course c = (u.wakeListed g cause c).course c :=
  foldl_member (g := State.course) .refl (fun _ _ _ => .trans) (State.wakeListed_wakes g cause)
    (fun s _ _ h => State.course_wakeListed_ne g cause s h) (List.nodup_finRange 13) (List.mem_finRange c) s

variable {g s}

theorem course_foldl_wakeListed_gated {c : Fin 13} {n : Nat} (hg : g.getLsbD c.val = true) (h : (s.course c).gatedAt = some n) :
    ((List.finRange 13).foldl (State.wakeListed g cause) s).course c = (s.course c).woken s.now n := by
  obtain ⟨u, hu, hc, he⟩ := course_foldl_wakeListed g cause s c
  have hn : u.now = s.now := (congrArg State.now hu.frame).trans rfl
  rw [he, State.wakeListed, if_pos (show bit g c.val = true from hg), State.course_ungateCourse cause (hc ▸ h), hc, hn]

theorem course_foldl_wakeListed_awake {c : Fin 13} (hg : g.getLsbD c.val = false) :
    ((List.finRange 13).foldl (State.wakeListed g cause) s).course c = s.course c := by
  obtain ⟨u, -, hc, he⟩ := course_foldl_wakeListed g cause s c
  rw [he, State.wakeListed, if_neg (not_bit hg), hc]

end

section
variable (s : State) (d : BitVec 8)

theorem foldl_integListed_frame : (List.finRange 8).foldl (State.integListed d) s = { s with cans := ((List.finRange 8).foldl (State.integListed d) s).cans } :=
  foldl_rel (fun s t => t = { s with cans := t.cans }) (fun _ => rfl) (fun _ _ _ h1 h2 => h2.trans (by rw [h1])) _
    (fun s n => by unfold State.integListed; split <;> rfl) _ s

theorem can_foldl_integListed (n : Fin 8) : ((List.finRange 8).foldl (State.integListed d) s).can n =
    if d.getLsbD n.val then { s.can n with integ := (s.can n).integ || decide ((s.can n).st = .on) } else s.can n := by
  obtain ⟨u, -, hc, he⟩ := foldl_member (R := fun _ _ => True) (g := State.can) (f := State.integListed d) (fun _ => trivial) (fun _ _ _ _ _ => trivial)
    (fun _ _ => trivial) (fun s b c h => by unfold State.integListed; split; exacts [State.can_setCan_ne s _ h, rfl])
    (List.nodup_finRange 8) (List.mem_finRange n) s
  rw [he, State.integListed, ← hc]
  change (if d.getLsbD n.val = true then _ else _ : State).can n = _
  split
  · exact State.can_setCan u n _
  · rfl

end

section
variable (s : State) (d : BitVec 32)

theorem foldl_unholdListed_frame : (List.finRange 32).foldl (State.unholdListed d) s = { s with ports := ((List.finRange 32).foldl (State.unholdListed d) s).ports } :=
  foldl_rel (fun s t => t = { s with ports := t.ports }) (fun _ => rfl) (fun _ _ _ h1 h2 => h2.trans (by rw [h1])) _
    (fun s k => by unfold State.unholdListed; split; exacts [State.endGateHold_frame s _, rfl]) _ s

theorem port_foldl_unholdListed (k : Fin 32) : ∃ u : State, u.port (fieldPort k) = s.port (fieldPort k) ∧
    ((List.finRange 32).foldl (State.unholdListed d) s).port (fieldPort k) = (u.unholdListed d k).port (fieldPort k) := by
  obtain ⟨u, -, hp, he⟩ := foldl_member (R := fun _ _ => True) (g := fun s k => s.port (fieldPort k)) (f := State.unholdListed d) (fun _ => trivial)
    (fun _ _ _ _ _ => trivial) (fun _ _ => trivial)
    (fun s b c h => by unfold State.unholdListed; split; exacts [State.endGateHold_otherPorts s _ _ (fieldPort_inj h), rfl])
    (List.nodup_finRange 32) (List.mem_finRange k) s
  exact ⟨u, hp, he⟩

variable {s d}

theorem port_foldl_unholdListed_held {q : PortCode} (hq : q.val < 32) (hd : d.getLsbD q.val = true) (hu : (s.port q).up = true) :
    ((List.finRange 32).foldl (State.unholdListed d) s).port q = { s.port q with holdEnd := none, dropping := false } := by
  obtain ⟨u, hp, he⟩ := port_foldl_unholdListed s d ⟨q.val, hq⟩
  have hp' : u.port q = s.port q := hp
  have hstep : (u.unholdListed d ⟨q.val, hq⟩).port q = { u.port q with holdEnd := none, dropping := false } := by
    rw [State.unholdListed, if_pos (show bit d q.val = true from hd)]
    exact State.port_endGateHold_up (hp'.symm ▸ hu)
  exact (he.trans hstep).trans (by rw [hp'])

theorem port_foldl_unholdListed_kept {q : PortCode} (hq : q.val < 32) (hd : d.getLsbD q.val = false) :
    ((List.finRange 32).foldl (State.unholdListed d) s).port q = s.port q := by
  obtain ⟨u, hp, he⟩ := port_foldl_unholdListed s d ⟨q.val, hq⟩
  have hstep : (u.unholdListed d ⟨q.val, hq⟩) = u := if_neg (not_bit hd)
  exact he.trans (by rw [hstep]; exact hp)

end

/-- A wake from DOZE (R70): courses, controllers and field ports in this order. -/
theorem State.wakeAll_woken (s : State) (cause : BitVec 4) : Woken s (s.wakeAll cause) := by
  rw [State.wakeAll_eq]
  have h1 := foldl_wakeListed_wakes s.gatedCourses cause s
  have hgated := fun c n => course_foldl_wakeListed_gated (s := s) (g := s.gatedCourses) cause (c := c) (n := n)
  have hawake := fun c => course_foldl_wakeListed_awake (s := s) (g := s.gatedCourses) cause (c := c)
  generalize (List.finRange 13).foldl (State.wakeListed s.gatedCourses cause) s = t1 at h1 hgated hawake ⊢
  have h2 := foldl_integListed_frame t1 s.power.doze.cans
  have hcan := can_foldl_integListed t1 s.power.doze.cans
  generalize (List.finRange 8).foldl (State.integListed s.power.doze.cans) t1 = t2 at h2 hcan ⊢
  have h3 := foldl_unholdListed_frame (t2.modDoze fun d => { d with cans := 0, ports := 0, timerEnd := none }) s.power.doze.ports
  have hheld := fun q => port_foldl_unholdListed_held (s := t2.modDoze fun d => { d with cans := 0, ports := 0, timerEnd := none })
    (d := s.power.doze.ports) (q := q)
  have hkept := fun q => port_foldl_unholdListed_kept (s := t2.modDoze fun d => { d with cans := 0, ports := 0, timerEnd := none })
    (d := s.power.doze.ports) (q := q)
  generalize (List.finRange 32).foldl (State.unholdListed s.power.doze.ports) (t2.modDoze fun d => { d with cans := 0, ports := 0, timerEnd := none }) = t
    at h3 hheld hkept ⊢
  have hports : ∀ q : PortCode, q.val < 32 → t2.port q = s.port q := fun q hq => by rw [h2]; exact h1.ports q hq
  have hcourse : ∀ c, t.course c = t1.course c := fun c => by rw [h3, h2]; rfl
  have hcans : ∀ n, t.can n = t2.can n := fun n => by rw [h3]; rfl
  have hone : ∀ n, t1.can n = s.can n := fun n => by rw [h1.frame]; rfl
  refine ⟨?_, fun c g hg h => (hcourse c).trans (hgated c g hg h), fun c hg => (hcourse c).trans (hawake c hg), fun n hn => ?_, fun n hn => ?_,
    fun q hq hd hu => ?_, fun q hq hd => (hkept q hq hd).trans (hports q hq), ?_, ?_⟩
  · rw [h3, h2, h1.frame]
    rfl
  · rw [hcans, hcan, if_pos hn, hone]
  · rw [hcans, hcan, if_neg (ne_of_eq_of_ne hn Bool.false_ne_true), hone]
  · have hp := hports q hq
    have hup : t2.port q = s.port q → (t2.port q).up = true := fun h => by rw [h]; exact hu
    exact (hheld q hq hd (hup hp)).trans (congrArg (fun x : Port => { x with holdEnd := none, dropping := false }) hp)
  · rw [h3, h2, h1.frame]
    rfl
  · exact h1.memories.trans (.of_eq (by rw [h3, h2]; rfl) (by rw [h3, h2]; rfl))

end Sys2Proof.Machine
end

section
/-! SUPPORT. The gating of courses and controllers, and its limit (R67 to R69, R71). -/

namespace Sys2Proof.Machine

section
variable {s : State} {c : Fin 13}

/-- The gating condition of a course, spelled out (R67). -/
theorem State.gateable_iff : s.gateable c = true ↔ ((∀ b, ((s.brick (brickOf c b)).counts && (s.brick (brickOf c b)).inRep) = false) ∧
    (∀ f, f ∈ (s.course c).fmRx → f.written = 0) ∧ (∀ f, f ∈ (s.course c).fmTx → f.got = []) ∧ ∀ i, (s.tile (tileOfCourse c i)).cur = none) := by
  simp only [State.gateable, Bool.and_eq_true, List.all_eq_true, List.mem_finRange, forall_const, Bool.not_eq_true', decide_eq_true_eq,
    Option.isNone_iff_eq_none]

/-- The guard of COURSE_GATE (R67, R68). -/
theorem State.mayGate_iff : (s.blocksUp && (bit s.power.doze.waitCourses c.val && (decide (s.now ≤ s.power.doze.since + gateLimit) && (!s.gated c && s.gateable c)))) = true ↔
    (s.blocksUp = true ∧ s.power.doze.waitCourses.getLsbD c.val = true ∧ s.now ≤ s.power.doze.since + 50000 ∧ s.gated c = false ∧ s.gateable c = true) := by
  simp only [Bool.and_eq_true, decide_eq_true_eq, Bool.not_eq_true']
  rfl

theorem le_foldl_max (l : List Nat) (n : Nat) : n ≤ l.foldl max n := by
  induction l generalizing n with
  | nil => exact Nat.le_refl n
  | cons x l ih => exact Nat.le_trans (Nat.le_max_left n x) (ih (max n x))

theorem Course.le_edgeAt (x : Course) (t : Nat) : t ≤ x.edgeAt t := by
  simp only [Course.edgeAt, edgeFrom, brickCycle]
  omega

/-- The edge at which course c stops: once its bricks have reached their boundaries. -/
def State.gateTime (s : State) (c : Fin 13) : Nat :=
  (s.course c).edgeAt (((List.finRange 4).map (fun b => if (s.brick (brickOf c b)).counts then (s.brick (brickOf c b)).ready else 0)).foldl max s.now)

theorem State.now_le_gateTime (s : State) (c : Fin 13) : s.now ≤ s.gateTime c := Nat.le_trans (le_foldl_max _ _) (Course.le_edgeAt _ _)

/-- The course stopped at time g, before its port holds its frames. -/
def State.stopCourse (s : State) (c : Fin 13) (g : Nat) : State :=
  let s3 := ((List.finRange 4).foldl (fun s b => s.modBrick (brickOf c b) (fun x => { x with ready := max x.ready g }))
    ((s.at_ g).modDoze (fun d => { d with waitCourses := setBit d.waitCourses c.val false }))).modCourse c (fun x => { x with gatedAt := some g })
  s3.jrec c (.mode (s3.course c).mode true 0 ((s3.course c).cycleAt g))

theorem State.gateCourse_eq (s : State) (c : Fin 13) : s.gateCourse c =
    (if ((s.stopCourse c (s.gateTime c)).port (portCp c)).up then (s.stopCourse c (s.gateTime c)).holdStart (portCp c)
      else s.stopCourse c (s.gateTime c)).bypDrop := rfl

/-- What the stop of a course changes. -/
theorem State.stopCourse_frame (s : State) (c : Fin 13) (g : Nat) : s.stopCourse c g =
    { s with now := max s.now g, power := { s.power with doze := { s.power.doze with waitCourses := setBit s.power.doze.waitCourses c.val false } },
             bricks := (s.stopCourse c g).bricks, courses := (s.stopCourse c g).courses, journal := (s.stopCourse c g).journal } := by
  unfold State.stopCourse
  dsimp only
  rw [State.jrec_eq, (BricksOf.foldl c (fun _ x => { x with ready := max x.ready g }) _).1]
  rfl

theorem State.course_stopCourse (s : State) (c : Fin 13) (g : Nat) : (s.stopCourse c g).course c = { s.course c with gatedAt := some g } := by
  unfold State.stopCourse
  rw [State.course_jrec, State.course_modCourse, (BricksOf.foldl c (fun _ x => { x with ready := max x.ready g }) _).1]
  rfl

theorem State.course_stopCourse_ne (s : State) {c d : Fin 13} (g : Nat) (h : d ≠ c) : (s.stopCourse c g).course d = s.course d := by
  unfold State.stopCourse
  rw [State.course_jrec, State.course_modCourse_ne _ _ h, (BricksOf.foldl c (fun _ x => { x with ready := max x.ready g }) _).1]
  rfl

@[simp] theorem State.brick_jrec (s : State) (c : Fin 13) (r : JRec) (k : Fin 52) : (s.jrec c r).brick k = s.brick k := by
  rw [State.jrec_eq]
  rfl

theorem State.brick_stopCourse (s : State) (c : Fin 13) (g : Nat) (b : Fin 4) :
    (s.stopCourse c g).brick (brickOf c b) = { s.brick (brickOf c b) with ready := max (s.brick (brickOf c b)).ready g } := by
  unfold State.stopCourse
  rw [State.brick_jrec]
  exact brick_foldl_modBrick c (fun _ x => { x with ready := max x.ready g }) _ b

theorem State.brick_stopCourse_ne (s : State) {c : Fin 13} (g : Nat) {k : Fin 52} (h : courseOf k ≠ c) : (s.stopCourse c g).brick k = s.brick k := by
  unfold State.stopCourse
  rw [State.brick_jrec]
  exact (BricksOf.foldl c (fun _ x => { x with ready := max x.ready g }) _).2 k h

/-- CPc holds its frames while its link is up. -/
def State.heldCp (s : State) (c : Fin 13) : State := if (s.port (portCp c)).up then s.holdStart (portCp c) else s

theorem PortLeaves.heldCp (s : State) (c : Fin 13) : PortLeaves s (s.heldCp c) (portCp c) := by
  unfold State.heldCp
  split
  · exact PortLeaves.holdStart s _
  · exact .refl s _

theorem State.port_heldCp (hu : (s.port (portCp c)).up = true) (ht : s.holdTime (portCp c) ≠ 0) :
    ((s.heldCp c).port (portCp c)).holdEnd = some (s.now + s.holdTime (portCp c)) := by
  rw [State.heldCp, if_pos hu, State.holdStart_of_hold ht, State.port_modPort]

/-- COURSE_GATE: what it does to the course, its bricks and its port, and what it leaves alone. -/
theorem exec_courseGate (h : (s.blocksUp && (bit s.power.doze.waitCourses c.val && (decide (s.now ≤ s.power.doze.since + gateLimit) && (!s.gated c && s.gateable c)))) = true) :
    exec (.courseGate c) s = .next (((s.stopCourse c (s.gateTime c)).heldCp c).bypDrop) := State.when_of_true s (fun s => s.gateCourse c) h

theorem exec_courseGate_idle (h : (s.blocksUp && (bit s.power.doze.waitCourses c.val && (decide (s.now ≤ s.power.doze.since + gateLimit) && (!s.gated c && s.gateable c)))) = false) :
    exec (.courseGate c) s = .next s := State.when_of_false s (fun s => s.gateCourse c) h

end

/-! ### Controllers, and the limit of a request (R67, R68) -/

section
variable {s : State} {n : Fin 8}

theorem Can.quiet_iff (x : Can) : x.quiet = true ↔ ∀ y, x.tx = some y → y.start = none := by
  unfold Can.quiet
  cases x.tx <;> simp

theorem State.mayGateCan_iff : (s.blocksUp && (bit s.power.doze.waitCans n.val && (decide (s.now ≤ s.power.doze.since + gateLimit) && (decide ((s.can n).st = .busOff) || (s.can n).quiet)))) = true ↔
    (s.blocksUp = true ∧ s.power.doze.waitCans.getLsbD n.val = true ∧ s.now ≤ s.power.doze.since + 50000 ∧
      ((s.can n).st = .busOff ∨ ∀ x, (s.can n).tx = some x → x.start = none)) := by
  simp only [Bool.and_eq_true, Bool.or_eq_true, decide_eq_true_eq, Can.quiet_iff]
  rfl

theorem exec_canGate (h : (s.blocksUp && (bit s.power.doze.waitCans n.val && (decide (s.now ≤ s.power.doze.since + gateLimit) && (decide ((s.can n).st = .busOff) || (s.can n).quiet)))) = true) :
    exec (.canGate n) s = .next (s.modDoze (fun d => { d with waitCans := setBit d.waitCans n.val false, cans := setBit d.cans n.val true })).bypDrop :=
  State.when_of_true s (fun s => (s.modDoze (fun d => { d with waitCans := setBit d.waitCans n.val false, cans := setBit d.cans n.val true })).bypDrop) h

theorem exec_canGate_idle (h : (s.blocksUp && (bit s.power.doze.waitCans n.val && (decide (s.now ≤ s.power.doze.since + gateLimit) && (decide ((s.can n).st = .busOff) || (s.can n).quiet)))) = false) :
    exec (.canGate n) s = .next s :=
  State.when_of_false s (fun s => (s.modDoze (fun d => { d with waitCans := setBit d.waitCans n.val false, cans := setBit d.cans n.val true })).bypDrop) h

/-- The request d ends: nothing waits any more, and an event names each block that stayed ungated. -/
def State.gateLimitReached (d : Doze) (s : State) : State :=
  (List.finRange 8).foldl (fun s n => if bit d.waitCans n.val then s.event .dozeUngated true 0 [1, n.val] else s)
    ((List.finRange 13).foldl (fun s c => if bit d.waitCourses c.val then s.event .dozeUngated true 0 [0, c.val] else s)
      ((s.at_ (d.since + gateLimit)).modDoze (fun d => { d with waitCourses := 0, waitCans := 0 })))

theorem State.gateLimitReached_logs (d : Doze) (s : State) :
    Logs { s with now := max s.now (d.since + 50000), power := { s.power with doze := { s.power.doze with waitCourses := 0, waitCans := 0 } } } (s.gateLimitReached d) := by
  refine Logs.trans (t := ?mid) ?_ ?_
  case mid =>
    exact (List.finRange 13).foldl (fun s c => if bit d.waitCourses c.val then s.event .dozeUngated true 0 [0, c.val] else s)
      ((s.at_ (d.since + gateLimit)).modDoze (fun d => { d with waitCourses := 0, waitCans := 0 }))
  · exact Logs.foldl (fun s c => Logs.ite (Logs.event _ _ _ _ _) (Logs.refl s)) _ _
  · exact Logs.foldl (fun s n => Logs.ite (Logs.event _ _ _ _ _) (Logs.refl s)) _ _

theorem exec_dozeGateTimeout_eq : exec .dozeGateTimeout s =
    s.when_ (s.blocksUp && (decide (s.power.doze.waitCourses ≠ 0) || decide (s.power.doze.waitCans ≠ 0))) (State.gateLimitReached s.power.doze) := rfl

end

end Sys2Proof.Machine
end

section
/-! SUPPORT. The end of a debug session, and the wake settings copied at STBY_READY (R72, R373, R467, R469). -/

namespace Sys2Proof.Machine

/-- What the end of a session with its secrets wiped leaves alone. -/
def WipeLeaves (s t : State) : Prop :=
  t = { s with keystone := { s.keystone with challenge := t.keystone.challenge, window := t.keystone.window, session := t.keystone.session }, bricks := t.bricks, tiles := t.tiles, recorder := t.recorder, journal := t.journal, pf0 := t.pf0, pf1 := t.pf1, hostMem := t.hostMem, chainOut := t.chainOut }

section
variable {s t : State}

theorem WipeLeaves.trans {u : State} (h1 : WipeLeaves s t) (h2 : WipeLeaves t u) : WipeLeaves s u := by
  refine Eq.trans h2 ?_
  rw [show t = _ from h1]

theorem WipeLeaves.of_logs (h : Logs s t) : WipeLeaves s t := by
  unfold WipeLeaves
  rw [h.keystone, h.bricks, h.tiles]
  exact h

theorem WipeLeaves.power (h : WipeLeaves s t) : t.power = s.power := Eq.trans (congrArg State.power h) rfl
theorem WipeLeaves.courses (h : WipeLeaves s t) : t.courses = s.courses := Eq.trans (congrArg State.courses h) rfl
theorem WipeLeaves.regs (h : WipeLeaves s t) : t.regs = s.regs := Eq.trans (congrArg State.regs h) rfl

/-- The authorisation window zeroised: irreducible, since no proof looks into it. -/
@[irreducible] def wipedWindow (m : Memory) : Memory := (List.range 32).foldl (fun m a => Sparse.write hostBlank m a 0) m

/-- The session's secrets are zeroised (R469). -/
def State.wiped (s : State) : State := s.modKeystone (fun k => { k with challenge := false, window := wipedWindow k.window })

/-- The session itself is gone, with the debug bits of bricks and tiles. -/
def State.unsessioned (s : State) : State :=
  { s.modKeystone (fun k => { k with session := none }) with
    bricks := s.bricks.map (fun (b : Brick) => b.endSession), tiles := s.tiles.map (fun (t : Tile) => t.endSession) }

/-- The numbers of the bricks that stay halted. -/
def State.haltedBricks (s : State) : List Nat :=
  ((List.finRange 52).filter (fun (k : Fin 52) => decide ((s.brick k).run = BrickRun.halted))).map (fun (k : Fin 52) => k.val)

/-- The end of a session is recorded, with the bricks that it leaves halted. -/
def State.sessionRecorded (s : State) : State :=
  if s.haltedBricks = [] then s.event .session true 0 [0] else (s.event .session true 0 [0]).event .sessionHalted true 0 s.haltedBricks

/-- A session that exists ends. -/
def State.sessionOver (s : State) : State :=
  match s.keystone.session with
  | none => s
  | some _ => s.unsessioned.sessionRecorded

theorem State.endSession_eq (s : State) : s.endSession true = s.wiped.sessionOver := by
  unfold State.endSession State.wiped wipedWindow
  rw [if_pos rfl]
  rfl

theorem State.endSession_none (s : State) (h : s.keystone.session = none) : s.endSession true = s.wiped := by
  have h1 : s.wiped.keystone.session = none := h
  rw [State.endSession_eq, State.sessionOver, h1]

theorem State.endSession_some (s : State) (h : s.keystone.session.isSome = true) : Logs s.wiped.unsessioned (s.endSession true) := by
  obtain ⟨x, hx⟩ := Option.isSome_iff_exists.mp h
  have h1 : s.wiped.keystone.session = some x := hx
  rw [State.endSession_eq, State.sessionOver, h1]
  exact Logs.ite (Logs.event _ _ _ _ _) ((Logs.event _ _ _ _ _).trans (Logs.event _ _ _ _ _))

theorem State.brick_unsessioned (s : State) (k : Fin 52) : s.unsessioned.brick k = (s.brick k).endSession := Vector.getElem_map _ _

/-- A session that ends with its secrets wiped (R467, R469). -/
theorem State.endSession_spec (s : State) : WipeLeaves s (s.endSession true) ∧ SessionEnded s (s.endSession true) ∧
    (s.endSession true).keystone.challenge = false ∧ SameMemories s (s.endSession true) := by
  by_cases h : s.keystone.session.isSome = true
  · have hl := State.endSession_some s h
    have hb : ∀ k, (s.endSession true).brick k = (s.brick k).endSession := fun k => (hl.brick k).trans (State.brick_unsessioned s.wiped k)
    refine ⟨WipeLeaves.trans (t := s.wiped.unsessioned) rfl (.of_logs hl), ⟨by rw [hl.keystone]; rfl, fun _ k => ?_⟩, by rw [hl.keystone]; rfl,
      fun c => ?_, fun k => ?_⟩
    · rw [hb]
      cases hi : (s.brick k).inj.busy <;> simp [Brick.endSession, hi]
    · rw [hl.course]
      exact ⟨rfl, rfl⟩
    · rw [hb]
      rfl
  · have hn := Option.not_isSome_iff_eq_none.mp h
    rw [State.endSession_none s hn]
    exact ⟨rfl, ⟨hn, fun h' => absurd h' h⟩, rfl, .refl s⟩

end

section
variable {s : State}

theorem bits_wakeObj (v : Reg32) : bits v 25 20 = v.toNat / 2 ^ 20 % 64 := by
  simp [bits, BitVec.extractLsb'_toNat, Nat.shiftRight_eq_div_pow]

/-- The settings that the wake domain keeps for controller n (R373). -/
theorem State.wakeSettings_eq (s : State) (n : Fin 8) : s.wakeSettings n =
    { en := (s.canCfg n).getLsbD 27, frame := (s.canCfg n).getLsbD 26,
      ide := ((s.can n).obj ⟨(s.canCfg n).toNat / 2 ^ 20 % 64, Nat.mod_lt _ (Nat.succ_pos 63)⟩).cfg.getLsbD 29,
      id := ((s.can n).obj ⟨(s.canCfg n).toNat / 2 ^ 20 % 64, Nat.mod_lt _ (Nat.succ_pos 63)⟩).cfg.extractLsb' 0 29,
      mask := (s.reg (canBase n + 0x24)).extractLsb' 0 29 } := by
  simp only [State.wakeSettings, bits_wakeObj, Nat.mod_mod, bit]

theorem getElem?_wakeSettings (s : State) (n : Fin 8) : ((List.finRange 8).map s.wakeSettings)[n.val]? = some (s.wakeSettings n) := by
  simp

end

end Sys2Proof.Machine
end

section
/-! SUPPORT. What the answers to services, the end of a live reload and what goes with them leave alone (R83, R252, R255, R457). -/

namespace Sys2Proof.Machine

/-- The bounds of an answer: mailboxes and their wakes, records, steering registers, the keystone's own books, and of a course only its
time, its pending release and its egress in a reload. -/
structure ServiceLeaves (s t : State) : Prop where
  frame : t = { s with regs := t.regs, recorder := t.recorder, journal := t.journal, replay := t.replay, pf0 := t.pf0, pf1 := t.pf1, hostMem := t.hostMem, chainOut := t.chainOut, mailboxes := t.mailboxes, bricks := t.bricks, tiles := t.tiles, courses := t.courses, ports := t.ports, keystone := t.keystone }
  course : ∀ c, t.course c = { s.course c with base := (t.course c).base, gatedAt := (t.course c).gatedAt, release := (t.course c).release, egressOnly := (t.course c).egressOnly }
  brick : ∀ k, t.brick k = { s.brick k with ready := (t.brick k).ready, feAt := (t.brick k).feAt, wd := { (s.brick k).wd with since := (t.brick k).wd.since }, io := { (s.brick k).io with events := (t.brick k).io.events } }
  port : ∀ q, t.port q = { s.port q with holdEnd := (t.port q).holdEnd, dropping := (t.port q).dropping }

namespace ServiceLeaves

section
variable {s t u : State}

theorem refl (s : State) : ServiceLeaves s s := ⟨rfl, fun _ => rfl, fun _ => rfl, fun _ => rfl⟩

theorem trans (h1 : ServiceLeaves s t) (h2 : ServiceLeaves t u) : ServiceLeaves s u :=
  ⟨h2.frame.trans (by rw [h1.frame]), fun c => (h2.course c).trans (by rw [h1.course c]), fun k => (h2.brick k).trans (by rw [h1.brick k]),
    fun q => (h2.port q).trans (by rw [h1.port q])⟩

/-- Courses, bricks and ports as they were. -/
theorem of_frame (h : t = { s with regs := t.regs, recorder := t.recorder, journal := t.journal, replay := t.replay, pf0 := t.pf0, pf1 := t.pf1, hostMem := t.hostMem, chainOut := t.chainOut, mailboxes := t.mailboxes, tiles := t.tiles, keystone := t.keystone }) :
    ServiceLeaves s t := by
  have hc : t.courses = s.courses := by rw [h]
  have hb : t.bricks = s.bricks := by rw [h]
  have hp : t.ports = s.ports := by rw [h]
  refine ⟨by rw [hc, hb, hp]; exact h, fun c => ?_, fun k => ?_, fun q => ?_⟩
  · rw [show t.course c = s.course c by unfold State.course; rw [hc]]
  · rw [show t.brick k = s.brick k by unfold State.brick; rw [hb]]
  · rw [show t.port q = s.port q by unfold State.port; rw [hp]]

theorem of_logs (h : Logs s t) : ServiceLeaves s t := by
  refine of_frame ?_
  rw [h.regs, h.replay, h.mailboxes, h.tiles, h.keystone]
  exact h

theorem of_mail (h : MailLeaves s t) : ServiceLeaves s t := by
  obtain ⟨hf, hc, hb, -, hp⟩ := h
  refine ⟨?_, fun c => ?_, hb, hp⟩
  · have hr : t.regs = s.regs := by rw [hf]
    have hrec : t.recorder = s.recorder := by rw [hf]
    have hrep : t.replay = s.replay := by rw [hf]
    have hk : t.keystone = { s.keystone with replies := t.keystone.replies } := by conv_lhs => rw [hf]
    rw [hr, hrec, hrep, hk]
    exact hf
  · rw [hc c]

theorem svcReply (s : State) (code : Nat) (r : SvcReq) (status : Nat) (l : List Reg32) : ServiceLeaves s (s.svcReply code r status l) := by
  obtain ⟨x, hx, hm⟩ := s.svcReply_leaves code r status l
  exact (of_logs hx).trans (of_mail hm)

theorem modCourse (s : State) (c : Fin 13) (f : Course → Course)
    (hf : ∀ x, f x = { x with base := (f x).base, gatedAt := (f x).gatedAt, release := (f x).release, egressOnly := (f x).egressOnly }) :
    ServiceLeaves s (s.modCourse c f) := by
  refine ⟨rfl, fun d => ?_, fun _ => rfl, fun _ => rfl⟩
  by_cases hd : d = c
  · subst hd
    rw [State.course_modCourse]
    exact hf _
  · rw [State.course_modCourse_ne s f hd]

theorem foldl {β : Type} {f : State → β → State} (h : ∀ s b, ServiceLeaves s (f s b)) (l : List β) (s : State) : ServiceLeaves s (l.foldl f s) :=
  foldl_rel ServiceLeaves refl (fun _ _ _ => trans) f h l s

theorem remap (s : State) (c : Fin 13) (v : Reg32) : ServiceLeaves s (s.remap c v) := by
  have h : ∀ (x : State) (n : Fin 13), ServiceLeaves x (if s.cpTarget n = c then x.setReg (0x8F8000 + 4 * n.val) v else x) := fun x n => by
    split
    · exact of_frame rfl
    · exact refl x
  exact foldl h _ s

theorem power (h : ServiceLeaves s t) : t.power = s.power := (congrArg State.power h.frame).trans rfl
theorem pins (h : ServiceLeaves s t) : t.pins = s.pins := (congrArg State.pins h.frame).trans rfl
theorem flash (h : ServiceLeaves s t) : t.flash = s.flash := (congrArg State.flash h.frame).trans rfl
theorem otp (h : ServiceLeaves s t) : t.otp = s.otp := (congrArg State.otp h.frame).trans rfl

theorem sameMemories (h : ServiceLeaves s t) : SameMemories s t :=
  ⟨fun c => by rw [h.course c]; exact ⟨rfl, rfl⟩, fun k => by rw [h.brick k]⟩

end

end ServiceLeaves

section
variable {s : State}

/-- A reply leaves the keystone's books but the replies that wait. -/
theorem State.keystone_svcReply (s : State) (code : Nat) (r : SvcReq) (status : Nat) (l : List Reg32) :
    (s.svcReply code r status l).keystone = { s.keystone with replies := (s.svcReply code r status l).keystone.replies } := by
  obtain ⟨x, hx, hm⟩ := s.svcReply_leaves code r status l
  conv_lhs => rw [hm.1]
  rw [hx.keystone]

theorem State.handover_svcReply (s : State) (code : Nat) (r : SvcReq) (status : Nat) (l : List Reg32) :
    (s.svcReply code r status l).keystone.handover = s.keystone.handover := by rw [State.keystone_svcReply]

theorem State.remap_keystone (s : State) (c : Fin 13) (v : Reg32) : (s.remap c v).keystone = s.keystone :=
  foldl_part State.keystone (fun x n => by split <;> rfl) _ s

/-- The end of a live reload (R83, R252, R255). -/
theorem ServiceLeaves.endHandover (s : State) (status : Nat) : ServiceLeaves s (s.endHandover status) := by
  unfold State.endHandover
  split
  · refine .trans ?_ (.svcReply _ _ _ _ _)
    refine .trans ?_ (.of_logs (Logs.event _ _ _ _ _))
    refine .trans ?_ (.modCourse _ _ _ fun _ => rfl)
    refine .trans ?_ (.modCourse _ _ _ fun _ => rfl)
    exact .trans (.of_frame rfl) (.remap _ _ _)
  · exact .refl s

theorem Logs.handoverEvent (s : State) (h : Handover) (w : Nat) : Logs s (s.handoverEvent h w) := Logs.event _ _ _ _ _

/-- No live reload is in progress after it. -/
theorem State.handover_endHandover (s : State) (status : Nat) : (s.endHandover status).keystone.handover = none := by
  unfold State.endHandover
  split
  · next h _ =>
    dsimp only
    rw [State.handover_svcReply, (Logs.handoverEvent _ h 9).keystone]
    change (State.remap _ _ _).keystone.handover = none
    rw [State.remap_keystone]
    rfl
  · next h => exact h

end

end Sys2Proof.Machine
end

section
/-! SUPPORT. What a write of CAN_CTRL can do (R352, R362, R371). -/

namespace Sys2Proof.Machine

/-- The bounds of a command to controller n: the controller, an event latch of the brick that owns it, and host causes. -/
structure CanCtrlLeaves (n : Fin 8) (s t : State) : Prop where
  frame : t = { s with cans := t.cans, bricks := t.bricks, recorder := t.recorder, journal := t.journal, pf0 := t.pf0, pf1 := t.pf1, hostMem := t.hostMem, chainOut := t.chainOut }
  can : ∀ m, m ≠ n → t.can m = s.can m
  brick : ∀ k, t.brick k = { s.brick k with io := { (s.brick k).io with events := (t.brick k).io.events } }

namespace CanCtrlLeaves

section
variable {n : Fin 8} {s t u : State}

theorem refl (n : Fin 8) (s : State) : CanCtrlLeaves n s s := ⟨rfl, fun _ _ => rfl, fun _ => rfl⟩

theorem trans (h1 : CanCtrlLeaves n s t) (h2 : CanCtrlLeaves n t u) : CanCtrlLeaves n s u :=
  ⟨h2.frame.trans (by rw [h1.frame]), fun m hm => (h2.can m hm).trans (h1.can m hm), fun k => (h2.brick k).trans (by rw [h1.brick k])⟩

theorem ite {p : Prop} [Decidable p] (h1 : CanCtrlLeaves n s t) (h2 : CanCtrlLeaves n s u) : CanCtrlLeaves n s (if p then t else u) := by
  split
  · exact h1
  · exact h2

theorem setCan (s : State) (n : Fin 8) (c : Can) : CanCtrlLeaves n s (s.setCan n c) := ⟨rfl, fun _ hm => State.can_setCan_ne s c hm, fun _ => rfl⟩

theorem modCan (s : State) (n : Fin 8) (f : Can → Can) : CanCtrlLeaves n s (s.modCan n f) := setCan s n _

theorem of_logs (n : Fin 8) (h : Logs s t) : CanCtrlLeaves n s t := by
  refine ⟨?_, fun m _ => h.can m, fun k => by rw [h.brick k]⟩
  rw [h.cans, h.bricks]
  exact h

theorem setBrick (s : State) (n : Fin 8) (k : Fin 52) (b : Brick) (h : b = { s.brick k with io := { (s.brick k).io with events := b.io.events } }) :
    CanCtrlLeaves n s (s.setBrick k b) := by
  refine ⟨rfl, fun _ _ => rfl, fun i => ?_⟩
  by_cases hi : i = k
  · subst hi
    rw [State.brick_setBrick]
    exact h
  · rw [State.brick_setBrick_ne s b hi]

theorem jrec (s : State) (n : Fin 8) (c : Fin 13) (w : JRec) : CanCtrlLeaves n s (s.jrec c w) := by
  rw [State.jrec_eq]
  exact ⟨rfl, fun _ _ => rfl, fun _ => rfl⟩

theorem latchLine (s : State) (n : Fin 8) (bk : Fin 52) (l : Nat) : CanCtrlLeaves n s (s.latchLine bk l) := by
  unfold State.latchLine
  exact (setBrick s n bk _ rfl).trans (jrec _ n _ _)

theorem canEvent (s : State) (n : Fin 8) (b : Nat) : CanCtrlLeaves n s (s.canEvent n b) := by
  unfold State.canEvent
  dsimp only
  refine ite ?_ (modCan s n _)
  split
  · exact (modCan s n _).trans (latchLine _ n _ _)
  · exact (modCan s n _).trans (of_logs n ((Logs.raiseCause _ _ _).trans (Logs.raiseCause _ _ _)))

theorem ttRaise (s : State) (n : Fin 8) (l : BitVec 2) : CanCtrlLeaves n s (s.ttRaise n l) :=
  ite ((modCan s n _).trans (canEvent _ n _)) (refl n s)

theorem canTurnOn (s : State) (n : Fin 8) : CanCtrlLeaves n s (s.canTurnOn n) :=
  ite (setCan s n _) (ite ((setCan s n _).trans (ttRaise _ n _)) (setCan s n _))

theorem canSettle (s : State) (n : Fin 8) : CanCtrlLeaves n s (s.canSettle n) := ite (refl n s) (ite (setCan s n _) (ite (setCan s n _) (refl n s)))

end

end CanCtrlLeaves

section
variable {n : Fin 8} {s t : State} {v : Reg32}

@[simp] theorem State.can_modCan (s : State) (n : Fin 8) (f : Can → Can) : (s.modCan n f).can n = f (s.can n) := State.can_setCan s n _

/-- A write with SLEEP set: ON and the rest are taken first, then the controller goes to SLEEP or waits for the end of its frame. -/
theorem State.canCtrlWrite_sleep (s : State) (n : Fin 8) (h : bit v 2 = true) : ∃ x, CanCtrlLeaves n s x ∧ s.canCtrlWrite n v =
    if (x.can n).st = .sleep then x else (x.modCan n (fun c => { c with sleep := true, sleepReq := true })).canSettle n := by
  unfold State.canCtrlWrite
  dsimp only
  rw [if_pos h]
  have h1 : CanCtrlLeaves n s (if (s.can n).st = .busOff ∧ bit v 1 = true then s.modCan n (fun c => { c with recovering := true }) else s) :=
    .ite (.modCan s n _) (.refl n s)
  generalize (if (s.can n).st = .busOff ∧ bit v 1 = true then s.modCan n (fun c => { c with recovering := true }) else s) = s1 at h1
  refine ⟨_, h1.trans (.ite ?_ ?_), rfl⟩
  · exact .ite (.canTurnOn s1 n) (.modCan s1 n _)
  · exact .ite (.modCan s1 n _) (.trans (.modCan s1 n _) (.canSettle _ n))

/-- A controller whose SLEEP is set keeps it set while it settles. -/
theorem State.sleep_canSettle (h : (s.can n).sleep = true) : ((s.canSettle n).can n).sleep = true := by
  have hset : ∀ c : Can, c.sleep = (s.can n).sleep → ((s.setCan n c).can n).sleep = true := fun c hc => by rw [State.can_setCan, hc, h]
  unfold State.canSettle
  dsimp only
  split
  · exact h
  · split
    · exact hset _ rfl
    · split
      · exact hset _ rfl
      · exact h

theorem CanCtrlLeaves.canCtrlWrite_sleep (s : State) (n : Fin 8) (h : bit v 2 = true) : CanCtrlLeaves n s (s.canCtrlWrite n v) := by
  obtain ⟨x, hx, he⟩ := s.canCtrlWrite_sleep n h
  rw [he]
  exact .ite hx (hx.trans (.trans (.modCan x n _) (.canSettle _ n)))

/-- Afterwards the controller sleeps, or is to sleep. -/
theorem State.asleep_canCtrlWrite (s : State) (n : Fin 8) (h : bit v 2 = true) :
    ((s.canCtrlWrite n v).can n).sleep = true ∨ ((s.canCtrlWrite n v).can n).st = .sleep := by
  obtain ⟨x, -, he⟩ := s.canCtrlWrite_sleep n h
  rw [he]
  split
  · next hs => exact .inr hs
  · exact .inl (State.sleep_canSettle (by rw [State.can_modCan]))

end

end Sys2Proof.Machine
end

section
/-! SUPPORT. The steps of STANDBY_PREPARE with its key, one by one, and STBY_READY (R65, R72, R373). -/

namespace Sys2Proof.Machine

/-! ### Every brick is asked to halt, and every tile stops -/

/-- The halt of every brick that runs or waits. -/
def State.haltAll (s : State) : State := (List.finRange 52).foldl (fun s k => s.haltBrick k) s

/-- Only bricks change. -/
def OnlyBricks (s t : State) : Prop := t = { s with bricks := t.bricks }

theorem OnlyBricks.trans {s t u : State} (h1 : OnlyBricks s t) (h2 : OnlyBricks t u) : OnlyBricks s u := by
  refine Eq.trans h2 ?_
  rw [show t = _ from h1]

section
variable {s : State}

theorem State.haltBrick_only (s : State) (k : Fin 52) : OnlyBricks s (s.haltBrick k) := rfl

theorem State.haltAll_only (s : State) : OnlyBricks s s.haltAll :=
  foldl_rel OnlyBricks (fun _ => rfl) (fun _ _ _ => OnlyBricks.trans) _ State.haltBrick_only _ s

theorem State.brick_haltBrick (s : State) (k : Fin 52) :
    (s.haltBrick k).brick k = { s.brick k with haltReq := (s.brick k).haltReq || (s.brick k).counts } := State.brick_modBrick s k _

theorem State.brick_haltBrick_ne (s : State) (k j : Fin 52) (h : j ≠ k) : (s.haltBrick k).brick j = s.brick j := State.brick_modBrick_ne s _ h

theorem State.brick_haltAll (s : State) (k : Fin 52) :
    s.haltAll.brick k = { s.brick k with haltReq := (s.brick k).haltReq || (s.brick k).counts } := by
  obtain ⟨u, -, hg, he⟩ := foldl_member (g := State.brick) (R := fun _ _ => True) (fun _ => trivial) (fun _ _ _ _ _ => trivial)
    (fun _ _ => trivial) State.brick_haltBrick_ne (List.nodup_finRange 52) (List.mem_finRange k) s
  refine Eq.trans he ?_
  rw [State.brick_haltBrick, hg]

theorem Tile.runBit_setRun_false (x : Tile) (n : Nat) : (x.setRun false n).runBit = false := by
  unfold Tile.setRun
  simp only [Bool.false_eq_true, if_false]
  split <;> rfl

/-- RUN of every tile is cleared. -/
def State.stopTiles (s : State) : State := { s with tiles := s.tiles.map (fun (t : Tile) => t.setRun false s.now) }

theorem State.runBit_stopTiles (s : State) (k : Fin 208) : (s.stopTiles.tile k).runBit = false := by
  rw [show s.stopTiles.tile k = (s.tile k).setRun false s.now from Vector.getElem_map _ _]
  exact Tile.runBit_setRun_false _ _

end

/-! ### Every port closes -/

/-- One port drops what waits for it and takes nothing more. -/
def State.closePort (s : State) (q : PortCode) : State := (s.dropQueued q).modPort q (fun p => { p with dropping := true, gates := 0 })

def State.closePorts (s : State) : State := (List.finRange 50).foldl State.closePort s

/-- Only ports and what waits at the mortar change. -/
def OnlyPorts (s t : State) : Prop := t = { s with ports := t.ports, mortar := t.mortar }

theorem OnlyPorts.trans {s t u : State} (h1 : OnlyPorts s t) (h2 : OnlyPorts t u) : OnlyPorts s u := by
  refine Eq.trans h2 ?_
  rw [show t = _ from h1]

section
variable {s : State} {q : PortCode}

theorem State.countPort_only (s : State) (q : PortCode) (k : Fin 32) (n : Nat) : OnlyPorts s (s.countPort q k n) := rfl

theorem State.mortar_countPort (s : State) (q : PortCode) (k : Fin 32) (n : Nat) : (s.countPort q k n).mortar = s.mortar := rfl

theorem State.mortar_modPort (s : State) (q : PortCode) (f : Port → Port) : (s.modPort q f).mortar = s.mortar := rfl

theorem State.modPort_only (s : State) (q : PortCode) (f : Port → Port) : OnlyPorts s (s.modPort q f) := rfl

theorem State.dropQueued_only (s : State) (q : PortCode) : OnlyPorts s (s.dropQueued q) :=
  OnlyPorts.trans (t := { s with mortar := { s.mortar with queue := s.mortar.queue.filter (fun e => decide (e.out ≠ q)) } }) rfl
    (foldl_rel OnlyPorts (fun _ => rfl) (fun _ _ _ => OnlyPorts.trans) _ (fun s _ => s.countPort_only q _ _) _ _)

theorem State.mortar_dropQueued (s : State) (q : PortCode) :
    (s.dropQueued q).mortar = { s.mortar with queue := s.mortar.queue.filter (fun e => decide (e.out ≠ q)) } :=
  foldl_part (f := fun s c => s.countPort q (holdDrop c) _) State.mortar (fun s _ => s.mortar_countPort q _ _) _ _

theorem State.mortar_closePort (s : State) (q : PortCode) :
    (s.closePort q).mortar = { s.mortar with queue := s.mortar.queue.filter (fun e => decide (e.out ≠ q)) } := by
  rw [State.closePort, State.mortar_modPort, State.mortar_dropQueued]

theorem State.closePort_only (s : State) (q : PortCode) : OnlyPorts s (s.closePort q) := by
  unfold State.closePort
  exact (s.dropQueued_only q).trans (State.modPort_only _ q _)

theorem State.closePorts_only (s : State) : OnlyPorts s s.closePorts :=
  foldl_rel OnlyPorts (fun _ => rfl) (fun _ _ _ => OnlyPorts.trans) _ State.closePort_only _ s

theorem State.port_closePort_ne {o : PortCode} (h : o ≠ q) : (s.closePort q).port o = s.port o :=
  (State.port_modPort_ne _ _ h).trans ((PortLeaves.dropQueued s q).2.1 o h)

theorem State.port_closePorts (s : State) (q : PortCode) : (s.closePorts.port q).dropping = true ∧ (s.closePorts.port q).gates = 0 := by
  obtain ⟨u, -, -, he⟩ := foldl_member (g := State.port) (R := fun _ _ => True) (fun _ => trivial) (fun _ _ _ _ _ => trivial)
    (fun _ _ => trivial) (fun s b c h => State.port_closePort_ne h) (List.nodup_finRange 50) (List.mem_finRange q) s
  have h : s.closePorts.port q = { (u.dropQueued q).port q with dropping := true, gates := 0 } := he.trans (State.port_modPort _ _ _)
  rw [h]
  exact ⟨rfl, rfl⟩

/-- What still waits after some ports have closed is for none of them. -/
theorem out_not_mem_of_foldl_closePort (l : List PortCode) (s : State) :
    ∀ e ∈ (l.foldl State.closePort s).mortar.queue, e ∈ s.mortar.queue ∧ e.out ∉ l := by
  induction l generalizing s with
  | nil => exact fun e he => ⟨he, List.not_mem_nil⟩
  | cons q l ih =>
    intro e he
    rw [List.foldl_cons] at he
    obtain ⟨hq, hl⟩ := ih (s.closePort q) e he
    rw [State.mortar_closePort, List.mem_filter, decide_eq_true_eq] at hq
    exact ⟨hq.1, by rw [List.mem_cons, not_or]; exact ⟨hq.2, hl⟩⟩

theorem State.queue_closePorts (s : State) : s.closePorts.mortar.queue = [] :=
  List.eq_nil_iff_forall_not_mem.mpr fun e he => (out_not_mem_of_foldl_closePort _ s e he).2 (List.mem_finRange e.out)

end

/-! ### Every controller goes to sleep -/

/-- SLEEP is written to every controller. -/
def State.sleepCans (s : State) : State := (List.finRange 8).foldl (fun s n => s.canCtrlWrite n (setBit (s.can n).ctrl 2 true)) s

/-- The bounds of commands to controllers. -/
structure CansLeave (s t : State) : Prop where
  frame : t = { s with cans := t.cans, bricks := t.bricks, recorder := t.recorder, journal := t.journal, pf0 := t.pf0, pf1 := t.pf1, hostMem := t.hostMem, chainOut := t.chainOut }
  brick : ∀ k, t.brick k = { s.brick k with io := { (s.brick k).io with events := (t.brick k).io.events } }

theorem CansLeave.trans {s t u : State} (h1 : CansLeave s t) (h2 : CansLeave t u) : CansLeave s u :=
  ⟨h2.frame.trans (by rw [h1.frame]), fun k => (h2.brick k).trans (by rw [h1.brick k])⟩

theorem bit_setBit_true (v : Reg32) : bit (setBit v 2 true) 2 = true := by
  rw [bit, getLsbD_setBit, if_pos ⟨rfl, by decide⟩]

section
variable {s : State} {n : Fin 8}

theorem State.sleepCan_leaves (s : State) (n : Fin 8) : CanCtrlLeaves n s (s.canCtrlWrite n (setBit (s.can n).ctrl 2 true)) :=
  .canCtrlWrite_sleep s n (bit_setBit_true _)

theorem State.sleepCans_leaves (s : State) : CansLeave s s.sleepCans :=
  foldl_rel CansLeave (fun _ => ⟨rfl, fun _ => rfl⟩) (fun _ _ _ => CansLeave.trans) _
    (fun s n => ⟨(s.sleepCan_leaves n).frame, (s.sleepCan_leaves n).brick⟩) _ s

theorem State.asleep_sleepCans (s : State) (n : Fin 8) : (s.sleepCans.can n).sleep = true ∨ (s.sleepCans.can n).st = .sleep := by
  obtain ⟨u, -, -, he⟩ := foldl_member (g := State.can) (R := fun _ _ => True) (fun _ => trivial) (fun _ _ _ _ _ => trivial)
    (fun _ _ => trivial) (fun s b c h => (s.sleepCan_leaves b).can c h) (List.nodup_finRange 8) (List.mem_finRange n) s
  rw [State.sleepCans, he]
  exact State.asleep_canCtrlWrite u n (bit_setBit_true _)

end

/-! ### The outputs of the field die -/

theorem FieldIo.out_command (x : FieldIo) (v cool : Word) : (x.command v cool).out = v := by
  unfold FieldIo.command
  dsimp only
  split
  · split <;> rfl
  · rfl

theorem State.fieldCommand_frame (s : State) (v : Word) : s.fieldCommand v = { s with freeCtr := s.freeCtr + 1, field := (s.fieldCommand v).field } := rfl

/-! ### The whole of STANDBY_PREPARE -/

section
variable {s : State} {p : Party}

/-- The device leaves ACTIVE, with its bypasses. -/
def State.standbyBegun (s : State) : State := (s.modPower (fun p => { p with stbySeq := true })).bypDrop

theorem State.standbyBegin_eq (s : State) : s.standbyBegin =
    (((s.standbyBegun.endHandover 12).haltAll.stopTiles.closePorts.sleepCans).fieldCommand 0).flushStart 2 := rfl

theorem State.bypasses_standbyBegun (s : State) : s.standbyBegun.pins.bypA = false ∧ s.standbyBegun.pins.bypB = false :=
  State.bypDrop_of_not_active (by simp [State.active])

theorem State.vhold_standbyBegun (s : State) : s.standbyBegun.pins.vhold = s.pins.vhold := rfl

theorem State.sameMemories_standbyBegun (s : State) : SameMemories s s.standbyBegun := .of_eq rfl rfl

/-- The parts of the device that none of the later steps changes. -/
def State.standing (s : State) : Power × Pins × Memory × List (Nat × Reg32) := (s.power, s.pins, s.flash, s.otp)

theorem Logs.standing {s t : State} (h : Logs s t) : t.standing = s.standing := by simp only [State.standing, h.power, h.pins, h.flash, h.otp]
theorem ServiceLeaves.standing {s t : State} (h : ServiceLeaves s t) : t.standing = s.standing := by
  simp only [State.standing, h.power, h.pins, h.flash, h.otp]
theorem OnlyBricks.standing {s t : State} (h : OnlyBricks s t) : t.standing = s.standing := (congrArg State.standing h).trans rfl
theorem OnlyPorts.standing {s t : State} (h : OnlyPorts s t) : t.standing = s.standing := (congrArg State.standing h).trans rfl
theorem CansLeave.standing {s t : State} (h : CansLeave s t) : t.standing = s.standing := (congrArg State.standing h.frame).trans rfl

/-- What the steps from the halt of the bricks to the flush leave in each block, from the state s at their begin. -/
structure Quiesced (s t : State) : Prop where
  standing : t.standing = s.standing
  keystone : t.keystone = s.keystone
  courses : t.courses = s.courses
  brick : ∀ k, t.brick k = { s.brick k with haltReq := (s.brick k).haltReq || (s.brick k).counts, io := { (s.brick k).io with events := (t.brick k).io.events } }
  tile : ∀ k, (t.tile k).runBit = false
  port : ∀ q, (t.port q).dropping = true ∧ (t.port q).gates = 0
  queue : t.mortar.queue = []
  can : ∀ n, (t.can n).sleep = true ∨ (t.can n).st = .sleep
  out : t.field.out = 0
  flushing : s.pins.vhold = true → t.recorder.flushing.isSome = true

theorem Quiesced.of_steps {s s1 s2 s3 t : State} (hb : OnlyBricks s s1)
    (hbk : ∀ k, s1.brick k = { s.brick k with haltReq := (s.brick k).haltReq || (s.brick k).counts })
    (hp : OnlyPorts s1.stopTiles s2) (hpq : ∀ q, (s2.port q).dropping = true ∧ (s2.port q).gates = 0) (hq : s2.mortar.queue = [])
    (hc : CansLeave s2 s3) (hcn : ∀ n, (s3.can n).sleep = true ∨ (s3.can n).st = .sleep)
    (hl : Logs (s3.fieldCommand 0) t) (hv : (s3.fieldCommand 0).pins.vhold = true → t.recorder.flushing.isSome = true) : Quiesced s t := by
  have h1 : s1.standing = s.standing := hb.standing
  have h2 : s2.standing = s1.standing := hp.standing
  have h3 : (s3.fieldCommand 0).standing = s2.standing := hc.standing
  have hst : (s3.fieldCommand 0).standing = s.standing := h3.trans (h2.trans h1)
  refine ⟨hl.standing.trans hst, ?_, ?_, fun k => ?_, fun k => ?_, fun q => ?_, ?_, fun n => ?_, ?_, fun h => hv ?_⟩
  · rw [hl.keystone]
    change s3.keystone = _
    rw [hc.frame, hp, hb]
    rfl
  · rw [hl.courses]
    change s3.courses = _
    rw [hc.frame, hp, hb]
    rfl
  · rw [hl.brick]
    change s3.brick k = _
    rw [hc.brick k, show s2.brick k = s1.brick k from (congrArg (State.brick · k) hp).trans rfl, hbk k]
    rfl
  · rw [hl.tile]
    change (s3.tile k).runBit = false
    rw [hc.frame, hp]
    exact s1.runBit_stopTiles k
  · rw [hl.port]
    change (s3.port q).dropping = true ∧ (s3.port q).gates = 0
    rw [hc.frame]
    exact hpq q
  · rw [hl.mortar]
    change s3.mortar.queue = []
    rw [hc.frame]
    exact hq
  · rw [hl.can]
    exact hcn n
  · rw [hl.field]
    exact FieldIo.out_command _ _ _
  · exact (congrArg (fun x => x.2.1.vhold) hst).trans h

theorem State.quiesced (s : State) : Quiesced s (((s.haltAll.stopTiles.closePorts.sleepCans).fieldCommand 0).flushStart 2) :=
  .of_steps s.haltAll_only s.brick_haltAll s.haltAll.stopTiles.closePorts_only s.haltAll.stopTiles.port_closePorts
    s.haltAll.stopTiles.queue_closePorts (State.sleepCans_leaves _) (State.asleep_sleepCans _) (Logs.flushStart _ 2) (State.flushing_flushStart 2)

/-- STANDBY_PREPARE with its key (R72, R83). -/
theorem State.standbyBegin_quiesces (s : State) : ∃ x, ServiceLeaves s.standbyBegun x ∧ x.keystone.handover = none ∧ Quiesced x s.standbyBegin :=
  ⟨s.standbyBegun.endHandover 12, .endHandover _ _, State.handover_endHandover _ _, by rw [s.standbyBegin_eq]; exact State.quiesced _⟩

/-! ### STBY_READY -/

theorem exec_stbyReady_eq : exec .stbyReady s = s.when_ (s.blocksUp && (s.power.stbySeq && s.recorder.flushing.isNone)) (fun s =>
    ((s.modPower (fun p => { p with wakeCfg := (List.finRange 8).map s.wakeSettings, wakeSrc := 0 })).endSession true).modPower
      (fun p => { p with stbyReady := true })) := rfl

theorem exec_dozeTimerExpiry_eq : exec .dozeTimerExpiry s = match s.power.doze.timerEnd with
    | some n => s.when_ (s.blocksUp && !s.power.stbySeq) (fun s => (s.at_ n).wakeAll 2)
    | none => .next s := rfl

end

end Sys2Proof.Machine
end

section
/-! PROOF. O56: the bypasses, PFAIL_N, the wake pins, DOZE and STANDBY (R48 to R75). -/

namespace Sys2Proof.Machine

section
variable {s : State} {p : Party}

/-! ### The bypasses, PFAIL_N and VHOLD -/

theorem exec_bypCtrlWrite_drops (v : Reg32) (ha : s.alive = true) (hp : s.pf1OrMgr p = true) : ∃ t, exec (.bypCtrlWrite p v) s = .next t ∧
    BypassesDrop { s with regs := Sparse.write regReset s.regs 0x60 (v &&& 3) } t ∧
    (Sparse.wf regReset s.regs = true → t.reg 0x60 = v &&& 3) ∧ ∀ a, a ≠ 0x60 → t.reg a = s.reg a := by
  refine ⟨(s.setReg 0x60 (v &&& 3)).bypDrop, ?_, State.bypDrop_drops _, State.reg_setReg s _ _, fun a h => State.reg_setReg_ne s _ h⟩
  rw [exec_bypCtrlWrite_eq, State.when_of_true s _ (by rw [ha, hp]; rfl)]

theorem exec_bypCtrlWrite_refused (v : Reg32) (h : s.alive = false ∨ s.pf1OrMgr p = false) : exec (.bypCtrlWrite p v) s = .next s := by
  rw [exec_bypCtrlWrite_eq, State.when_of_false s _ (by rcases h with h | h <;> simp [h])]

theorem exec_pfailNFall_eq : exec .pfailNFall s = s.when_ (decide (s.power.supply = .on) && !s.pins.pfailLow) (fun s =>
    if s.recorder.dirty then ({ s with pins := { s.pins with pfailLow := true } } : State).flushStart 0
    else { s with pins := { s.pins with pfailLow := true } }) := rfl

theorem exec_pfailNFall_flushes (ho : s.power.supply = .on) (hp : s.pins.pfailLow = false) (hu : s.unflushed) (hf : s.recorder.flushing = none)
    (hv : s.pins.vhold = true) : ∃ x t, exec .pfailNFall s = .next t ∧ Logs { s with pins := { s.pins with pfailLow := true } } x ∧
      t = { x with recorder := { x.recorder with flushState := 1, flushing := some { cause := 0, starts := s.power.startRec.number, recs := (x.recorder.recs.reverse ++ x.recorder.side).filter (fun (y : RecEntry) => y.dirty), ended := false, reported := false } } } := by
  obtain ⟨x, hx, he⟩ := State.flushStart_of_idle (s := { s with pins := { s.pins with pfailLow := true } }) 0 hf hv
  refine ⟨x, _, ?_, hx, he⟩
  rw [exec_pfailNFall_eq, State.when_of_true s _ (by simp [ho, hp]), if_pos (Recorder.dirty_iff_unflushed.mpr hu)]

theorem exec_pfailNFall_notes (ho : s.power.supply = .on) (hp : s.pins.pfailLow = false)
    (h : ¬ s.unflushed ∨ s.recorder.flushing.isSome = true ∨ s.pins.vhold = false) :
    exec .pfailNFall s = .next { s with pins := { s.pins with pfailLow := true } } := by
  rw [exec_pfailNFall_eq, State.when_of_true s _ (by simp [ho, hp])]
  rcases h with h | h
  · rw [if_neg (fun hd => h (Recorder.dirty_iff_unflushed.mp hd))]
  · rw [State.flushStart_of_busy (s := { s with pins := { s.pins with pfailLow := true } }) 0 h, ite_self]

theorem exec_pfailNFall_idle (h : s.power.supply ≠ .on ∨ s.pins.pfailLow = true) : exec .pfailNFall s = .next s := by
  rw [exec_pfailNFall_eq, State.when_of_false s _ (by rcases h with h | h <;> simp [h])]

theorem exec_pfailNRise_eq : exec .pfailNRise s = s.when_ (decide (s.power.supply = .on) && s.pins.pfailLow) (fun s =>
    if s.recorder.flushing.isSome then ({ s with pins := { s.pins with pfailLow := false } } : State).event .pfailRise true 0 []
    else { s with pins := { s.pins with pfailLow := false } }) := rfl

theorem exec_pfailNRise_logs (ho : s.power.supply = .on) (hp : s.pins.pfailLow = true) (hf : s.recorder.flushing.isSome = true) :
    ∃ t, exec .pfailNRise s = .next t ∧ Logs { s with pins := { s.pins with pfailLow := false } } t := by
  refine ⟨_, ?_, Logs.event _ .pfailRise true 0 []⟩
  rw [exec_pfailNRise_eq, State.when_of_true s _ (by simp [ho, hp]), if_pos hf]

theorem exec_pfailNRise_notes (ho : s.power.supply = .on) (hp : s.pins.pfailLow = true) (hf : s.recorder.flushing = none) :
    exec .pfailNRise s = .next { s with pins := { s.pins with pfailLow := false } } := by
  rw [exec_pfailNRise_eq, State.when_of_true s _ (by simp [ho, hp]), if_neg (by simp [hf])]

theorem exec_pfailNRise_idle (h : s.power.supply ≠ .on ∨ s.pins.pfailLow = false) : exec .pfailNRise s = .next s := by
  rw [exec_pfailNRise_eq, State.when_of_false s _ (by rcases h with h | h <;> simp [h])]

theorem exec_vholdLoss_eq : exec .vholdLoss s = .next { s.flushCut with pins := { s.pins with vhold := false } } := rfl

theorem exec_vholdLoss_cuts {b : FlushBlock} (h : s.recorder.flushing = some b) : ∃ t, exec .vholdLoss s = .next t ∧
    t = { s with pins := { s.pins with vhold := false }, recorder := { s.recorder with flushing := none, flushState := 0, blocks := t.recorder.blocks } } ∧
    (b.size ≤ 3604480 → t.recorder.blocks.head? = some b) := by
  refine ⟨_, exec_vholdLoss_eq, ?_, ?_⟩
  · simp only [State.flushCut, h]
    rfl
  · intro hb
    simp only [State.flushCut, h]
    exact keepBlocks_head _ hb

theorem exec_vholdLoss_idle (h : s.recorder.flushing = none) : exec .vholdLoss s = .next { s with pins := { s.pins with vhold := false } } := by
  rw [exec_vholdLoss_eq]
  simp only [State.flushCut, h]

/-! ### The wake pins -/

theorem exec_wakeRisingEdge_logs (h : s.alive = true) :
    ∃ t, exec .wakeRisingEdge s = .next t ∧ Logs { s with power := { s.power with wakePin := true } } t := by
  have hs : s.power.supply = .on := State.supply_of_alive h
  refine ⟨(s.modPower (fun p => { p with wakePin := decide (p.supply ≠ .off) })).event .wakeEdge false 0 [], ?_, ?_⟩
  · simp only [exec, execWakeRisingEdge, h, if_true]
  · rw [show s.modPower (fun p => { p with wakePin := decide (p.supply ≠ .off) }) = { s with power := { s.power with wakePin := true } } by
      simp [State.modPower, hs]]
    exact Logs.event _ _ _ _ _

theorem exec_wakeRisingEdge_notes (h : s.alive = false) :
    exec .wakeRisingEdge s = .next { s with power := { s.power with wakePin := decide (s.power.supply ≠ .off) } } := by
  simp only [exec, execWakeRisingEdge, h, Bool.false_eq_true, if_false]
  rfl

theorem exec_wakeQualify_eq : exec .wakeQualify s = s.when_ (s.wakeOpen && s.power.wakePin) (fun s =>
    s.modPower (fun p => { p with wakeSrc := setBit p.wakeSrc 0 true })) := rfl

theorem exec_wakeQualify_latches (h : s.power.stbyReady = true ∨ (s.power.supply = .standby ∧ s.power.wakeSrc.getLsbD 15 = true))
    (hp : s.power.wakePin = true) : exec .wakeQualify s = .next { s with power := { s.power with wakeSrc := setBit s.power.wakeSrc 0 true } } := by
  rw [exec_wakeQualify_eq, State.when_of_true s _ (by rw [State.wakeOpen_iff.mpr h, hp]; rfl)]
  rfl

theorem exec_wakeQualify_idle (h : ¬ (s.power.stbyReady = true ∨ (s.power.supply = .standby ∧ s.power.wakeSrc.getLsbD 15 = true)) ∨ s.power.wakePin = false) :
    exec .wakeQualify s = .next s := by
  rw [exec_wakeQualify_eq, State.when_of_false s _ ?_]
  rw [← State.wakeOpen_iff, Bool.not_eq_true] at h
  rcases h with h | h <;> simp [h]

section
variable {n : Fin 8} {w : CanWake} {c : WakeCfg}

theorem exec_canRxdWake_latches (ho : s.power.stbyReady = true ∨ (s.power.supply = .standby ∧ s.power.wakeSrc.getLsbD 15 = true))
    (hc : s.power.wakeCfg[n.val]? = some c) (he : c.en = true) (ht : c.takes w = true) : exec (.canRxdWake n w) s =
      .next { s with power := { s.power with wakeSrc := setBit s.power.wakeSrc (if c.frame then 24 + n.val else 16 + n.val) true } } := by
  rw [exec_canRxdWake_some w hc, State.when_of_true s _ (by rw [State.wakeOpen_iff.mpr ho, he, ht]; rfl)]

theorem exec_canRxdWake_idle (hc : s.power.wakeCfg[n.val]? = some c)
    (h : ¬ (s.power.stbyReady = true ∨ (s.power.supply = .standby ∧ s.power.wakeSrc.getLsbD 15 = true)) ∨ c.en = false ∨ (c.frame = true ∧ ¬ (∃ f, w = .frame f ∧ f.fdf = false ∧ f.ide = c.ide ∧ f.id &&& c.mask = c.id &&& c.mask))) :
    exec (.canRxdWake n w) s = .next s := by
  rw [exec_canRxdWake_some w hc, State.when_of_false s _ ?_]
  rcases h with h | h | ⟨hf, h⟩
  · rw [← State.wakeOpen_iff, Bool.not_eq_true] at h
    rw [h, Bool.false_and]
  · rw [h, Bool.false_and, Bool.and_false]
  · rw [← WakeCfg.takes_of_frame hf, Bool.not_eq_true] at h
    rw [h, Bool.and_false, Bool.and_false]

end

/-! ### Requests for DOZE, and wakes -/

theorem exec_power_refused (key : BitVec 8) (h : s.blocksUp = false ∨ s.pf1OrMgr p = false ∨ s.power.stbySeq = true) :
    exec (.dozeRequest p) s = .next s ∧ exec (.pwrWake p) s = .next s ∧ exec (.standbyPrepare p key) s = .next s := by
  have hn := State.not_pwrOpen_of h
  rw [exec_dozeRequest_eq, exec_pwrWake_eq, exec_standbyPrepare_eq]
  exact ⟨State.when_of_false s _ hn, State.when_of_false s _ hn, State.when_of_false s _ hn⟩

theorem exec_dozeRequest_open (h : s.pwrOpen p = true) : exec (.dozeRequest p) s = .next s.dozeRequest := State.when_of_true s (fun s => s.dozeRequest) h

theorem exec_dozeRequest_gates (h : s.pwrOpen p = true) (hd : s.reg 0x88 &&& 0x1FFFFF ≠ 0 ∨ s.reg 0x8C ≠ 0) :
    ∃ u t, exec (.dozeRequest p) s = .next t ∧ BypassesDrop u t ∧ u.pins = s.pins ∧ t.regs = s.regs ∧ SameMemories s t ∧ t.courses = s.courses ∧ t.cans = s.cans ∧
      t.power = { s.power with doze := { s.power.doze with waitCourses := (s.reg 0x88).extractLsb' 0 13 &&& ~~~ s.gatedCourses, waitCans := (s.reg 0x88).extractLsb' 13 8 &&& ~~~ s.power.doze.cans, since := s.now, ports := s.power.doze.ports ||| s.reg 0x8C, timerEnd := if s.reg 0x90 = 0 then none else some (s.now + (s.reg 0x90).toNat * 8) } } ∧
      (∀ q : PortCode, q.val < 32 → (s.reg 0x8C).getLsbD q.val = true ∧ s.power.doze.ports.getLsbD q.val = false ∧ (s.port q).up = true → s.holdTime q ≠ 0 → t.port q = { s.port q with holdEnd := some (s.now + s.holdTime q), dropping := false }) ∧
      (∀ q : PortCode, ¬ (q.val < 32 ∧ (s.reg 0x8C).getLsbD q.val = true ∧ s.power.doze.ports.getLsbD q.val = false ∧ (s.port q).up = true) → t.port q = s.port q) := by
  have hg : GatesPorts s.dozeAsked _ := foldl_gatePort_leaves (s.reg 0x8C) s.dozeAsked
  have hl := foldl_gatePort_listed (s.reg 0x8C) s.dozeAsked
  have hh := fun (q : PortCode) => foldl_gatePort_held (p := s.reg 0x8C) (s := s.dozeAsked) (q := q)
  have hk := fun (q : PortCode) => foldl_gatePort_kept (p := s.reg 0x8C) (s := s.dozeAsked) (q := q)
  have he : exec (.dozeRequest p) s = .next ((List.finRange 32).foldl (State.gatePort (s.reg 0x8C)) s.dozeAsked).bypDrop := by
    rw [exec_dozeRequest_open h, State.dozeRequest_some (fun hn => hd.elim (absurd hn.1) (absurd hn.2))]
  generalize (List.finRange 32).foldl (State.gatePort (s.reg 0x8C)) s.dozeAsked = u at hg hl hh hk he
  have hreg : u.regs = s.regs := Eq.trans (congrArg State.regs hg) rfl
  have hcr : u.courses = s.courses := Eq.trans (congrArg State.courses hg) rfl
  have hbr : u.bricks = s.bricks := Eq.trans (congrArg State.bricks hg) rfl
  have hcan : u.cans = s.cans := Eq.trans (congrArg State.cans hg) rfl
  have hpw : u.power = { s.dozeAsked.power with doze := { s.dozeAsked.power.doze with ports := u.power.doze.ports } } :=
    Eq.trans (congrArg State.power hg) rfl
  rw [hl] at hpw
  exact ⟨u, u.bypDrop, he, State.bypDrop_drops u, Eq.trans (congrArg State.pins hg) rfl, hreg, .of_eq hcr hbr, hcr, hcan, hpw,
    fun q hq hs ht => hh q hq hs ht, fun q hs => hk q hs⟩

theorem exec_pwrWake_wakes (h : s.pwrOpen p = true) : ∃ t, exec (.pwrWake p) s = .next t ∧ Woken s t :=
  ⟨_, (exec_pwrWake_eq (s := s)).trans (State.when_of_true s (fun s => s.wakeAll 3) h), State.wakeAll_woken s 3⟩

theorem exec_dozeTimerExpiry_wakes {n : Nat} (hb : s.blocksUp = true) (hq : s.power.stbySeq = false) (ht : s.power.doze.timerEnd = some n) :
    ∃ t, exec .dozeTimerExpiry s = .next t ∧ Woken { s with now := max s.now n } t := by
  refine ⟨(s.at_ n).wakeAll 2, ?_, State.wakeAll_woken _ 2⟩
  rw [exec_dozeTimerExpiry_eq, ht]
  exact State.when_of_true s (fun s => (s.at_ n).wakeAll 2) (by rw [hb, hq]; rfl)

theorem exec_dozeTimerExpiry_idle (h : s.blocksUp = false ∨ s.power.stbySeq = true ∨ s.power.doze.timerEnd = none) : exec .dozeTimerExpiry s = .next s := by
  rw [exec_dozeTimerExpiry_eq]
  cases ht : s.power.doze.timerEnd with
  | none => rfl
  | some n =>
    refine State.when_of_false s (fun s => (s.at_ n).wakeAll 2) ?_
    rcases h with h | h | h
    · rw [h, Bool.false_and]
    · rw [h, Bool.not_true, Bool.and_false]
    · rw [h] at ht
      exact absurd ht nofun

/-! ### The gating of courses and controllers -/

theorem exec_courseGate_gates {c : Fin 13} (hb : s.blocksUp = true) (hw : s.power.doze.waitCourses.getLsbD c.val = true)
    (hn : s.now ≤ s.power.doze.since + 50000) (hg : s.gated c = false) (hc : s.gateable c = true) :
    ∃ u t, exec (.courseGate c) s = .next t ∧ BypassesDrop u t ∧ u.pins = s.pins ∧ s.now ≤ t.now ∧ (∃ g, t.course c = { s.course c with gatedAt := some g } ∧ s.now ≤ g) ∧ (∀ d, d ≠ c → t.course d = s.course d) ∧
      t.power = { s.power with doze := { s.power.doze with waitCourses := setBit s.power.doze.waitCourses c.val false } } ∧ (∀ k, courseOf k ≠ c → t.brick k = s.brick k) ∧ (∀ b, t.brick (brickOf c b) = { s.brick (brickOf c b) with ready := (t.brick (brickOf c b)).ready }) ∧
      OtherPorts s t (portCp c) ∧ ((s.port (portCp c)).up = true → s.holdTime (portCp c) ≠ 0 → (t.port (portCp c)).holdEnd = some (t.now + s.holdTime (portCp c))) ∧ t.tiles = s.tiles ∧ t.regs = s.regs ∧ t.cans = s.cans := by
  have he := exec_courseGate (State.mayGate_iff.mpr ⟨hb, hw, hn, hg, hc⟩)
  have hf := s.stopCourse_frame c (s.gateTime c)
  have hcc := s.course_stopCourse c (s.gateTime c)
  have hcd := fun d (hd : d ≠ c) => s.course_stopCourse_ne (s.gateTime c) hd
  have hbb := s.brick_stopCourse c (s.gateTime c)
  have hbk := fun k (hk : courseOf k ≠ c) => s.brick_stopCourse_ne (s.gateTime c) hk
  have hnow := s.now_le_gateTime c
  generalize s.stopCourse c (s.gateTime c) = x at he hf hcc hcd hbb hbk
  have hl : PortLeaves x (x.heldCp c) (portCp c) := .heldCp x c
  have hx : ∀ q, x.port q = s.port q := fun q => (congrArg (State.port · q) hf).trans rfl
  have ht : x.holdTime (portCp c) = s.holdTime (portCp c) := (congrArg (State.holdTime · (portCp c)) hf).trans rfl
  have hh := State.port_heldCp (s := x) (c := c)
  rw [hx, ht] at hh
  generalize x.heldCp c = u at he hl hh
  have hcu : ∀ d, u.course d = x.course d := fun d => by simp only [State.course, hl.courses]
  have hbu : ∀ k, u.brick k = x.brick k := fun k => by simp only [State.brick, hl.bricks]
  refine ⟨u, u.bypDrop, he, State.bypDrop_drops u, ?_, ?_, ⟨s.gateTime c, (hcu c).trans hcc, hnow⟩, fun d hd => (hcu d).trans (hcd d hd), ?_,
    fun k hk => (hbu k).trans (hbk k hk), fun b => ?_, fun o ho => (hl.2.1 o ho).trans (hx o), fun hup hht => ?_, ?_, ?_, ?_⟩
  · rw [hl.pins, hf]
  · change s.now ≤ u.now
    rw [hl.now, hf]
    exact Nat.le_max_left _ _
  · change u.power = _
    rw [hl.power, hf]
  · change u.brick (brickOf c b) = { s.brick (brickOf c b) with ready := (u.brick (brickOf c b)).ready }
    rw [hbu, hbb]
  · change (u.port (portCp c)).holdEnd = some (u.now + s.holdTime (portCp c))
    rw [hl.now]
    exact hh hup hht
  · change u.tiles = _
    rw [hl.tiles, hf]
  · change u.regs = _
    rw [hl.regs, hf]
  · change u.cans = _
    rw [hl.cans, hf]

theorem exec_courseGate_stays {c : Fin 13}
    (h : s.blocksUp = false ∨ s.power.doze.waitCourses.getLsbD c.val = false ∨ s.power.doze.since + 50000 < s.now ∨ s.gated c = true ∨ ¬ s.gateable c = true) :
    exec (.courseGate c) s = .next s := by
  refine exec_courseGate_idle (Bool.eq_false_iff.mpr fun hg => ?_)
  obtain ⟨hb, hw, hn, hd, hc⟩ := State.mayGate_iff.mp hg
  rcases h with h | h | h | h | h
  · exact Bool.false_ne_true (h.symm.trans hb)
  · exact Bool.false_ne_true (h.symm.trans hw)
  · omega
  · exact Bool.false_ne_true (hd.symm.trans h)
  · exact h hc

theorem exec_canGate_stays {n : Fin 8}
    (h : s.blocksUp = false ∨ s.power.doze.waitCans.getLsbD n.val = false ∨ s.power.doze.since + 50000 < s.now ∨ ¬ ((s.can n).st = .busOff ∨ ∀ x, (s.can n).tx = some x → x.start = none)) :
    exec (.canGate n) s = .next s := by
  refine exec_canGate_idle (Bool.eq_false_iff.mpr fun hg => ?_)
  obtain ⟨hb, hw, hn, hc⟩ := State.mayGateCan_iff.mp hg
  rcases h with h | h | h | h
  · exact Bool.false_ne_true (h.symm.trans hb)
  · exact Bool.false_ne_true (h.symm.trans hw)
  · omega
  · exact h hc

theorem exec_dozeGateTimeout_ends (hb : s.blocksUp = true) (h : s.power.doze.waitCourses ≠ 0 ∨ s.power.doze.waitCans ≠ 0) :
    ∃ t, exec .dozeGateTimeout s = .next t ∧
      Logs { s with now := max s.now (s.power.doze.since + 50000), power := { s.power with doze := { s.power.doze with waitCourses := 0, waitCans := 0 } } } t := by
  refine ⟨_, ?_, State.gateLimitReached_logs s.power.doze s⟩
  rw [exec_dozeGateTimeout_eq, State.when_of_true s _ ?_]
  rwa [hb, Bool.true_and, Bool.or_eq_true, decide_eq_true_eq, decide_eq_true_eq]

theorem exec_dozeGateTimeout_idle (h : s.blocksUp = false ∨ (s.power.doze.waitCourses = 0 ∧ s.power.doze.waitCans = 0)) :
    exec .dozeGateTimeout s = .next s := by
  rw [exec_dozeGateTimeout_eq, State.when_of_false s _ ?_]
  rcases h with h | ⟨h1, h2⟩
  · rw [h, Bool.false_and]
  · simp [h1, h2]

/-! ### STANDBY -/

theorem exec_standbyPrepare_badKey {key : BitVec 8} (h : s.pwrOpen p = true) (hk : key ≠ 0xC3) :
    ∃ t, exec (.standbyPrepare p key) s = .next t ∧ Logs s t := by
  refine ⟨_, ?_, Logs.event s .standbyKey false (BitVec.ofNat 8 p.num) [key.toNat]⟩
  rw [exec_standbyPrepare_eq, State.when_of_true s _ h, if_neg hk]

theorem exec_standbyPrepare_begins (h : s.pwrOpen p = true) : exec (.standbyPrepare p 0xC3) s = .next s.standbyBegin := by
  rw [exec_standbyPrepare_eq, State.when_of_true s _ h, if_pos rfl]

theorem exec_standbyPrepare_quiesces (h : s.pwrOpen p = true) :
    ∃ t, exec (.standbyPrepare p 0xC3) s = .next t ∧ t.power = { s.power with stbySeq := true } ∧ t.pins.bypA = false ∧ t.pins.bypB = false ∧ t.keystone.handover = none ∧
      (∀ k, (t.brick k).haltReq = ((s.brick k).haltReq || (s.brick k).counts)) ∧ (∀ k, (t.tile k).runBit = false) ∧ (∀ q, (t.port q).dropping = true ∧ (t.port q).gates = 0) ∧ t.mortar.queue = [] ∧
      (∀ n, (t.can n).sleep = true ∨ (t.can n).st = .sleep) ∧ t.field.out = 0 ∧ (s.pins.vhold = true → t.recorder.flushing.isSome = true) ∧ SameMemories s t ∧ t.flash = s.flash ∧ t.otp = s.otp := by
  obtain ⟨x, hx, hh, hq⟩ := s.standbyBegin_quiesces
  obtain ⟨ha, hb⟩ := s.bypasses_standbyBegun
  have hst : s.standbyBegin.standing = s.standbyBegun.standing := hq.standing.trans hx.standing
  have hpins : s.standbyBegin.pins = s.standbyBegun.pins := congrArg (fun x => x.2.1) hst
  have hbx : ∀ k, (x.brick k).haltReq = (s.brick k).haltReq ∧ (x.brick k).counts = (s.brick k).counts := fun k => by
    rw [hx.brick k]
    exact ⟨rfl, rfl⟩
  have hmem : SameMemories x s.standbyBegin := ⟨fun c => by simp only [State.course, hq.courses, and_self], fun k => by rw [hq.brick k]⟩
  refine ⟨_, exec_standbyPrepare_begins h, congrArg (fun x => x.1) hst, by rw [hpins, ha], by rw [hpins, hb], by rw [hq.keystone, hh], fun k => ?_,
    hq.tile, hq.port, hq.queue, hq.can, hq.out, fun hv => hq.flushing ?_, s.sameMemories_standbyBegun.trans (hx.sameMemories.trans hmem),
    congrArg (fun x => x.2.2.1) hst, congrArg (fun x => x.2.2.2) hst⟩
  · rw [hq.brick k, (hbx k).1, (hbx k).2]
  · rw [hx.pins, s.vhold_standbyBegun, hv]

theorem exec_stbyReady_arms (hb : s.blocksUp = true) (hq : s.power.stbySeq = true) (hf : s.recorder.flushing = none) :
    ∃ t, exec .stbyReady s = .next t ∧ SessionEnded s t ∧ t.keystone.challenge = false ∧ t.power = { s.power with stbyReady := true, wakeSrc := 0, wakeCfg := t.power.wakeCfg } ∧ SameMemories s t ∧ t.regs = s.regs ∧
      ∀ n : Fin 8, t.power.wakeCfg[n.val]? = some (s.wakeSettings n) := by
  obtain ⟨hw, he, hc, hm⟩ := State.endSession_spec (s.modPower (fun p => { p with wakeCfg := (List.finRange 8).map s.wakeSettings, wakeSrc := 0 }))
  have hx := (exec_stbyReady_eq (s := s)).trans (State.when_of_true s _ (by rw [hb, hq, hf]; rfl))
  generalize (s.modPower (fun p => { p with wakeCfg := (List.finRange 8).map s.wakeSettings, wakeSrc := 0 })).endSession true = x at hw he hc hm hx
  have hp := hw.power
  have hcfg : (x.modPower (fun p => { p with stbyReady := true })).power.wakeCfg = (List.finRange 8).map s.wakeSettings := by
    rw [State.modPower_power, hp]
    rfl
  refine ⟨_, hx, he, hc, ?_, hm, hw.regs, fun n => ?_⟩
  · rw [State.modPower_power, hp]
    rfl
  · rw [hcfg, getElem?_wakeSettings]

theorem exec_stbyReady_idle (h : s.blocksUp = false ∨ s.power.stbySeq = false ∨ s.recorder.flushing.isSome = true) : exec .stbyReady s = .next s := by
  refine (exec_stbyReady_eq (s := s)).trans (State.when_of_false s _ ?_)
  rcases h with h | h | h
  · rw [h, Bool.false_and]
  · rw [h, Bool.false_and, Bool.and_false]
  · rw [Option.isNone_eq_false_iff.mpr h, Bool.and_false, Bool.and_false]

end

/-- Settles O56, clause by clause: who may ask, what a request gates, and what each gating, wake and step into STANDBY leaves alone. That an
event that cannot happen leaves the state rests on log 20, the cause of a flush on log 31, the interval of the wake latch and the level of
WAKE on log 53. -/
theorem powerStatesFollowTheirConditions : Obligations.PowerStatesFollowTheirConditions := by
  unfold Obligations.PowerStatesFollowTheirConditions
  refine ⟨fun s => ⟨State.bypCause_eq_zero_iff false, State.bypCause_eq_zero_iff true⟩, fun s => State.active_iff,
    fun s p v => exec_bypCtrlWrite_drops v, fun s p v => exec_bypCtrlWrite_refused v,
    fun s => exec_pfailNFall_flushes, fun s => exec_pfailNFall_notes, fun s => exec_pfailNFall_idle,
    fun s => exec_pfailNRise_logs, fun s => exec_pfailNRise_notes, fun s => exec_pfailNRise_idle,
    fun s b => exec_vholdLoss_cuts, fun s => exec_vholdLoss_idle,
    fun s => exec_wakeRisingEdge_logs, fun s => exec_wakeRisingEdge_notes, fun s => exec_wakeQualify_latches, fun s => exec_wakeQualify_idle,
    fun s n w c ho hc he hf => ?_, fun s n w c ho hc he hf hm => ?_, fun s n w c hc => exec_canRxdWake_idle hc, fun s n w => exec_canRxdWake_none w,
    fun s p key => exec_power_refused key, fun s p hb hp hq h1 h2 => ?_,
    fun s p hb hp hq => exec_dozeRequest_gates (State.pwrOpen_of hb hp hq), fun s p hb hp hq => exec_pwrWake_wakes (State.pwrOpen_of hb hp hq),
    fun s n => exec_dozeTimerExpiry_wakes, fun s => exec_dozeTimerExpiry_idle,
    fun s c hb hw hn hg hc => exec_courseGate_gates hb hw hn hg (State.gateable_iff.mpr hc), fun s c h => exec_courseGate_stays ?_,
    fun s n hb hw hn hc => ⟨_, exec_canGate (State.mayGateCan_iff.mpr ⟨hb, hw, hn, hc⟩), State.bypDrop_drops _⟩, fun s n => exec_canGate_stays,
    fun s => exec_dozeGateTimeout_ends, fun s => exec_dozeGateTimeout_idle,
    fun s p key hb hp hq => exec_standbyPrepare_badKey (State.pwrOpen_of hb hp hq),
    fun s p hb hp hq => exec_standbyPrepare_quiesces (State.pwrOpen_of hb hp hq), fun s hb hq hf => ?_, fun s => exec_stbyReady_idle⟩
  · rw [exec_canRxdWake_latches ho hc he (WakeCfg.takes_of_edge w hf), hf]
    rfl
  · rw [exec_canRxdWake_latches ho hc he ((WakeCfg.takes_of_frame hf).mpr hm), hf]
    rfl
  · rw [exec_dozeRequest_open (State.pwrOpen_of hb hp hq), State.dozeRequest_none h1 h2]
  · rw [State.gateable_iff]
    exact h
  · simp only [← State.wakeSettings_eq]
    exact exec_stbyReady_arms hb hq hf

end Sys2Proof.Machine
end

section
/-! SUPPORT. What becomes of a course's memories when they are lost, and the DEVICE reset (R80, R230, R232, R491). -/

namespace Sys2Proof.Machine

/-! ### Memories that become undefined -/

/-- The bounds of a loss of the memories of course c. -/
structure LosesMemory (c : Fin 13) (s t : State) : Prop where
  frame : t = { s with freeCtr := t.freeCtr, courses := t.courses, bricks := t.bricks }
  course : t.course c = { s.course c with bank := (t.course c).bank }
  other : ∀ d, d ≠ c → t.course d = s.course d
  brick : ∀ k, t.brick k = { s.brick k with imem := (t.brick k).imem, pre := (t.brick k).pre }
  otherBrick : ∀ k, courseOf k ≠ c → t.brick k = s.brick k
  pre : ∀ k, (s.brick k).pre = [] → (t.brick k).pre = []

namespace LosesMemory

section
variable {c : Fin 13} {s t u : State}

theorem refl (c : Fin 13) (s : State) : LosesMemory c s s := ⟨rfl, rfl, fun _ _ => rfl, fun _ => rfl, fun _ _ => rfl, fun _ => id⟩

theorem trans (h1 : LosesMemory c s t) (h2 : LosesMemory c t u) : LosesMemory c s u :=
  ⟨h2.frame.trans (by rw [h1.frame]), h2.course.trans (by rw [h1.course]), fun d hd => (h2.other d hd).trans (h1.other d hd),
    fun k => (h2.brick k).trans (by rw [h1.brick k]), fun k hk => (h2.otherBrick k hk).trans (h1.otherBrick k hk),
    fun k hk => h2.pre k (h1.pre k hk)⟩

theorem setBank (s : State) (c : Fin 13) (m : Memory) (n : Nat) :
    LosesMemory c s (({ s with freeCtr := n } : State).modCourse c (fun x => { x with bank := m })) := by
  refine ⟨rfl, ?_, fun d hd => State.course_modCourse_ne _ _ hd, fun _ => rfl, fun _ _ => rfl, fun _ => id⟩
  rw [State.course_modCourse]
  rfl

theorem setImem (s : State) (c : Fin 13) (b : Fin 4) (m : Memory) (n : Nat) :
    LosesMemory c s (({ s with freeCtr := n } : State).modBrick (brickOf c b) (fun x => { x with imem := m, pre := [] })) := by
  refine ⟨rfl, rfl, fun _ _ => rfl, fun k => ?_, fun k hk => State.brick_modBrick_ne _ _ (brickOf_ne_of_courseOf hk b), fun k hp => ?_⟩
  · by_cases hk : k = brickOf c b
    · subst hk
      rw [State.brick_modBrick]
      rfl
    · rw [State.brick_modBrick_ne _ _ hk]
      rfl
  · by_cases hk : k = brickOf c b
    · subst hk
      rw [State.brick_modBrick]
    · rw [State.brick_modBrick_ne _ _ hk]
      exact hp

theorem loseBank (s : State) (c : Fin 13) : LosesMemory c s (s.loseBank c) := by
  unfold State.loseBank State.freeBytes
  exact setBank s c _ _

theorem loseImem (s : State) (c : Fin 13) : LosesMemory c s (s.loseImem c) := by
  unfold State.loseImem State.freeBytes
  exact foldl_rel (LosesMemory c) (refl c) (fun _ _ _ => trans) _ (fun s b => setImem s c b _ _) _ s

theorem loseMemory (s : State) (c : Fin 13) (tgt : BitVec 2) : LosesMemory c s (s.loseMemory c tgt) := by
  have h1 : LosesMemory c s (if tgt = 1 then s else s.loseBank c) := by
    split
    · exact refl c s
    · exact loseBank s c
  unfold State.loseMemory
  dsimp only
  split
  · exact h1
  · exact h1.trans (loseImem _ c)

end

end LosesMemory

/-- The bounds of a loss of what trowel runs had under test. -/
structure TestedLost (s t : State) : Prop where
  frame : t = { s with freeCtr := t.freeCtr, courses := t.courses, bricks := t.bricks }
  course : ∀ c, t.course c = { s.course c with bank := (t.course c).bank }
  bank : ∀ c, (s.course c).trowel = none → (t.course c).bank = (s.course c).bank
  imem : ∀ k, (s.course (courseOf k)).trowel = none → (t.brick k).imem = (s.brick k).imem

namespace TestedLost

theorem refl (s : State) : TestedLost s s := ⟨rfl, fun _ => rfl, fun _ _ => rfl, fun _ _ => rfl⟩

theorem trans {s t u : State} (h1 : TestedLost s t) (h2 : TestedLost t u) : TestedLost s u := by
  have ht : ∀ c, (t.course c).trowel = (s.course c).trowel := fun c => by rw [h1.course c]
  exact ⟨h2.frame.trans (by rw [h1.frame]), fun c => (h2.course c).trans (by rw [h1.course c]),
    fun c hc => (h2.bank c ((ht c).trans hc)).trans (h1.bank c hc), fun k hk => (h2.imem k ((ht _).trans hk)).trans (h1.imem k hk)⟩

theorem loseTested (s : State) (c : Fin 13) : TestedLost s (s.loseTested c) := by
  unfold State.loseTested
  split
  · next r hr =>
    have h := LosesMemory.loseMemory s c r.target
    have hne : ∀ d, (s.course d).trowel = none → d ≠ c := fun d hd e => by
      rw [e, hr] at hd
      exact absurd hd nofun
    refine ⟨h.frame, fun d => ?_, fun d hd => by rw [h.other d (hne d hd)], fun k hk => by rw [h.otherBrick k (hne _ hk)]⟩
    by_cases hd : d = c
    · subst hd
      exact h.course
    · rw [h.other d hd]
  · exact refl s

theorem foldl (s : State) : TestedLost s ((List.finRange 13).foldl State.loseTested s) := foldl_rel TestedLost refl (fun _ _ _ => trans) _ loseTested _ s

end TestedLost

/-! ### The last record of a journal that a reset cuts -/

section
variable (j : Journal) (r : JRec)

theorem Journal.st_put : (j.put r).st = j.st := by
  unfold Journal.put
  dsimp only
  split <;> rfl

theorem Journal.cfg_put : (j.put r).cfg = j.cfg := by
  unfold Journal.put
  dsimp only
  split <;> rfl

theorem Journal.st_closeGap : j.closeGap.st = j.st := by
  unfold Journal.closeGap
  split
  · exact Journal.st_put _ _
  · rfl

theorem Journal.cfg_closeGap : j.closeGap.cfg = j.cfg := by
  unfold Journal.closeGap
  split
  · exact Journal.cfg_put _ _
  · rfl

/-- A journal that wraps takes every record as its newest. -/
theorem Journal.put_of_wrap (h : bit j.cfg 30 = false) :
    (j.put r).wptr = j.wptr + r.size ∧ (j.put r).recs.getLast? = some { what := r, at_ := j.wptr, delta := r.cyc - j.lastCyc } := by
  unfold Journal.put
  simp only [h, Bool.false_eq_true, false_and, if_false]
  refine ⟨trivial, ?_⟩
  have hl : j.wptr + r.size < j.wptr + r.size + journalWords := Nat.lt_add_of_pos_right (by decide)
  simp [trimJournal, List.filter_append, hl]

end

section
variable {s : State} {c : Fin 13} {r : JRec}

theorem State.jrec_of_not_journaled (h : s.journaled c = false) : s.jrec c r = s := if_neg (by rw [h]; exact Bool.false_ne_true)

/-- A record reaches a journal that records its course through a gap's end and a SYNC, which keep state and settings. -/
theorem State.jrec_of_journaled (h : s.journaled c = true) :
    ∃ j : Journal, j.st = s.journal.st ∧ j.cfg = s.journal.cfg ∧ s.jrec c r = { s with journal := j.put r } := by
  unfold State.jrec
  rw [if_pos h]
  dsimp only
  refine ⟨_, ?_, ?_, rfl⟩
  · rw [apply_ite Journal.st, Journal.st_put, Journal.st_closeGap, ite_self]
  · rw [apply_ite Journal.cfg, Journal.cfg_put, Journal.cfg_closeGap, ite_self]

theorem bits_jrnCourse (v : Reg32) : bits v 27 24 = v.toNat / 2 ^ 24 % 16 := by
  simp [bits, BitVec.extractLsb'_toNat, Nat.shiftRight_eq_div_pow]

theorem State.jrnCourse_val (h : s.journal.cfg.toNat / 2 ^ 24 % 16 < 13) : bits s.journal.cfg 27 24 = s.jrnCourse.val := by
  rw [← bits_jrnCourse] at h
  exact (Nat.mod_eq_of_lt h).symm

theorem State.journalCut_eq (s : State) : s.journalCut = s.jrec s.jrnCourse (.fin ((s.course s.jrnCourse).cycleAt s.now) 3) := by
  unfold State.journalCut
  rfl

theorem State.journal_journalCut_idle (h : s.journal.st = .off ∨ s.journal.st = .frozen) : s.journalCut = s := by
  rw [State.journalCut_eq]
  refine State.jrec_of_not_journaled ?_
  rcases h with h | h <;> simp [State.journaled, h]

/-- Recording ends with END, cause 3, the newest record (R491). -/
theorem State.journal_journalCut_live (h : s.journal.st = .recording ∨ s.journal.st = .post) (hw : s.journal.cfg.getLsbD 30 = false)
    (hc : s.journal.cfg.toNat / 2 ^ 24 % 16 < 13) : s.journalCut.journal.wptr ≠ 0 ∧
      ∃ e, s.journalCut.journal.recs.getLast? = some e ∧ e.what = .fin ((s.course s.jrnCourse).cycleAt s.now) 3 := by
  have hj : s.journaled s.jrnCourse = true := by
    rw [State.journaled, State.jrnCourse_val hc]
    rcases h with h | h <;> simp [h]
  obtain ⟨j, -, hcfg, he⟩ := State.jrec_of_journaled (r := .fin ((s.course s.jrnCourse).cycleAt s.now) 3) hj
  obtain ⟨hptr, hlast⟩ := j.put_of_wrap (.fin ((s.course s.jrnCourse).cycleAt s.now) 3) (by rw [hcfg]; exact hw)
  rw [State.journalCut_eq, he]
  refine ⟨?_, _, hlast, rfl⟩
  rw [hptr]
  exact Nat.succ_ne_zero _

end

/-! ### What stays of journal and recorder -/

theorem Journal.kept_of_written {j : Journal} (h : j.wptr ≠ 0) : j.kept.st = .frozen ∧ j.kept.recs = j.recs ∧ j.kept.wptr = j.wptr := by
  rw [Journal.kept, if_neg h]
  exact ⟨rfl, rfl, rfl⟩

theorem Recorder.kept_of_no_side {r : Recorder} (h : r.side = []) : r.kept = { r with frozen := none, cfg := 0x32, clearPending := false } := by
  simp only [Recorder.kept, Recorder.thaw, h, List.foldl_nil]

/-- The end of a freeze keeps flushes and their blocks. -/
theorem Recorder.flush_kept (r : Recorder) : r.kept.flushing = r.flushing ∧ r.kept.blocks = r.blocks := by
  have h : ∀ (l : List RecEntry) (r : Recorder), (l.foldl (fun (r : Recorder) e => r.push e) r).flushing = r.flushing ∧
      (l.foldl (fun (r : Recorder) e => r.push e) r).blocks = r.blocks := fun l => by
    induction l with
    | nil => exact fun _ => ⟨rfl, rfl⟩
    | cons e l ih => exact fun r => ih (r.push e)
  exact h r.side { r with frozen := none, side := [] }

/-! ### The DEVICE reset -/

/-- Every block of s as the reset leaves it, once the journal has been cut and what was under test is lost. -/
def State.deviceCleared (s : State) (cause : BitVec 4) : State :=
  let p := s.power
  let left := fun (t : Nat) => t - s.tick
  { State.reset with
    pending := s.pending, freeCtr := s.freeCtr, readValue := s.readValue, fieldFitted := s.fieldFitted, flash := s.flash,
    otp := s.otp, hostMem := s.hostMem,
    pins := { Pins.reset with
      pfailLow := s.pins.pfailLow, vhold := s.pins.vhold, leaseIn := s.pins.leaseIn,
      bypALow := if s.pins.bypA then 10 else left s.pins.bypALow, bypBLow := if s.pins.bypB then 10 else left s.pins.bypBLow },
    power := { Power.reset with
      supply := p.supply, sramLost := p.sramLost, rstLow := p.rstLow, tap := p.tap, cause := cause, bootSel := p.bootSel,
      failRecorded := p.failRecorded, fault := p.fault, wakeSrc := p.wakeSrc, wakeCfg := p.wakeCfg, wakePin := p.wakePin,
      startRec := p.startRec },
    bricks := s.bricks.map (fun b => { Brick.reset with imem := b.imem }),
    tiles := s.tiles.map (fun t => { Tile.reset with prog := t.prog }),
    courses := s.courses.map (fun x => { Course.reset with bank := x.bank }),
    recorder := s.recorder.kept,
    journal := if p.sramLost then Journal.reset else s.journal.kept,
    keystone := { Keystone.reset with lockoutEnd := s.keystone.lockoutEnd.map left },
    field := { FieldIo.reset with di := s.field.di, wb := s.field.wb, fv24 := s.field.fv24 } }

theorem State.deviceReset_eq (s : State) (cause : BitVec 4) :
    s.deviceReset cause = ((List.finRange 13).foldl State.loseTested s.journalCut).deviceCleared cause := rfl

section
variable {s : State} (cause : BitVec 4)

theorem State.course_deviceCleared (c : Fin 13) : (s.deviceCleared cause).course c = { Course.reset with bank := (s.course c).bank } := Vector.getElem_map _ _
theorem State.brick_deviceCleared (k : Fin 52) : (s.deviceCleared cause).brick k = { Brick.reset with imem := (s.brick k).imem } := Vector.getElem_map _ _
theorem State.tile_deviceCleared (k : Fin 208) : (s.deviceCleared cause).tile k = { Tile.reset with prog := (s.tile k).prog } := Vector.getElem_map _ _

/-- A DEVICE reset of a state that is s but for its journal and for memories that were under test. -/
theorem State.wasReset_deviceCleared {v : State} (h : v = { s with freeCtr := v.freeCtr, courses := v.courses, bricks := v.bricks, journal := v.journal })
    (hi : (s.journal.st = .off ∨ s.journal.st = .frozen) → v.journal = s.journal)
    (hl : (s.journal.st = .recording ∨ s.journal.st = .post) → s.journal.cfg.getLsbD 30 = false → s.journal.cfg.toNat / 2 ^ 24 % 16 < 13 →
      v.journal.wptr ≠ 0 ∧ ∃ e, v.journal.recs.getLast? = some e ∧ e.what = .fin ((s.course s.jrnCourse).cycleAt s.now) 3) :
    WasReset s (v.deviceCleared cause) cause := by
  have hp : v.power = s.power := (congrArg State.power h).trans rfl
  have hpin : v.pins = s.pins := (congrArg State.pins h).trans rfl
  have hk : v.keystone = s.keystone := (congrArg State.keystone h).trans rfl
  have ht : v.tick = s.tick := (congrArg State.tick h).trans rfl
  have hf : v.field = s.field := (congrArg State.field h).trans rfl
  have hr : v.recorder = s.recorder := (congrArg State.recorder h).trans rfl
  have hj : (v.deviceCleared cause).journal = if s.power.sramLost then Journal.reset else v.journal.kept := by rw [← hp]; rfl
  refine ⟨?_, ?_, fun hb => ?_, fun hb => ?_, ?_, fun c => ?_, fun k => ?_, fun k => ?_, ?_, ?_, fun hs => ?_, ?_, ?_, fun hs => ?_, fun hs ho hw => ?_,
    fun hs ho hw hc => ?_⟩
  · have hs : (s.pending, s.readValue, s.fieldFitted, s.flash, s.otp, s.hostMem) = (v.pending, v.readValue, v.fieldFitted, v.flash, v.otp, v.hostMem) := by
      rw [h]
    simp only [Prod.mk.injEq] at hs
    obtain ⟨h1, h2, h3, h4, h5, h6⟩ := hs
    rw [h1, h2, h3, h4, h5, h6]
    rfl
  · rw [← hpin]
    rfl
  · rw [← hpin] at hb
    exact if_pos hb
  · rw [← hpin] at hb
    exact if_pos hb
  · rw [← hp]
    rfl
  · rw [State.course_deviceCleared]
  · rw [State.brick_deviceCleared]
  · rw [State.tile_deviceCleared]
  · rw [← hk, ← ht]
    rfl
  · rw [← hf]
    rfl
  · rw [← hr] at hs ⊢
    exact Recorder.kept_of_no_side hs
  · rw [← hr]
    exact (Recorder.flush_kept _).1
  · rw [← hr]
    exact (Recorder.flush_kept _).2
  · rw [hj, if_pos hs]
  · rw [hj, if_neg (ne_of_eq_of_ne hs Bool.false_ne_true), hi ho]
    exact Journal.kept_of_written hw
  · obtain ⟨hptr, hlast⟩ := hl ho hw hc
    obtain ⟨hst, hrecs, -⟩ := Journal.kept_of_written hptr
    rw [hj, if_neg (ne_of_eq_of_ne hs Bool.false_ne_true)]
    exact ⟨hst, by rw [hrecs]; exact hlast⟩

end

theorem State.journalCut_frame (s : State) : s.journalCut = { s with journal := s.journalCut.journal } := by
  rw [State.journalCut_eq]
  exact State.jrec_eq _ _ _

/-- A DEVICE reset leaves every block as reset leaves it, and keeps the contents of the memories (R80). -/
theorem State.deviceReset_resets (s : State) (cause : BitVec 4) : WasReset s (s.deviceReset cause) cause ∧ KeepsContents s (s.deviceReset cause) := by
  rw [State.deviceReset_eq]
  have hl := TestedLost.foldl s.journalCut
  generalize (List.finRange 13).foldl State.loseTested s.journalCut = v at hl
  have hjf := s.journalCut_frame
  have hcut : ∀ c, s.journalCut.course c = s.course c := fun c => (congrArg (State.course · c) hjf).trans rfl
  have hcutb : ∀ k, s.journalCut.brick k = s.brick k := fun k => (congrArg (State.brick · k) hjf).trans rfl
  have hj : v.journal = s.journalCut.journal := (congrArg State.journal hl.frame).trans rfl
  refine ⟨State.wasReset_deviceCleared cause ?_ (fun h => ?_) (fun h hw hc => ?_), fun c hc => ?_, fun k hk => ?_, fun k => ?_⟩
  · rw [hj]
    refine hl.frame.trans ?_
    conv_lhs => rw [hjf]
  · rw [hj, State.journal_journalCut_idle h]
  · rw [hj]
    exact State.journal_journalCut_live h hw hc
  · rw [State.course_deviceCleared, ← hcut c]
    exact hl.bank c (by rw [hcut]; exact hc)
  · rw [State.brick_deviceCleared, ← hcutb k]
    exact hl.imem k (by rw [hcut]; exact hk)
  · have ht : v.tile k = s.tile k := (congrArg (State.tile · k) hl.frame).trans ((congrArg (State.tile · k) hjf).trans rfl)
    rw [State.tile_deviceCleared, ht]

/-- The device is held or not as it was. -/
theorem State.alive_deviceReset (s : State) (cause : BitVec 4) : (s.deviceReset cause).alive = s.alive := by
  obtain ⟨-, -, -, -, hp, -⟩ := (s.deviceReset_resets cause).1
  simp only [State.alive, hp]

end Sys2Proof.Machine
end

section
/-! SUPPORT. What an event leaves in the recorder and the journal, phase ROM, and the failure of a start (R84 to R91, R477, R478). -/

namespace Sys2Proof.Machine

/-! ### Causes and vectors -/

/-- The bounds of host causes: cause and pending bits, host memory, and MSGs. -/
structure Raises (s t : State) : Prop where
  frame : t = { s with pf0 := t.pf0, pf1 := t.pf1, hostMem := t.hostMem, chainOut := t.chainOut }
  pf0 : t.pf0 = { s.pf0 with cause := t.pf0.cause, pba := t.pf0.pba }
  pf1 : t.pf1 = { s.pf1 with cause := t.pf1.cause, pba := t.pf1.pba }

namespace Raises

section
variable {s t u : State}

theorem refl (s : State) : Raises s s := ⟨rfl, rfl, rfl⟩

theorem trans (h1 : Raises s t) (h2 : Raises t u) : Raises s u :=
  ⟨h2.frame.trans (by rw [h1.frame]), h2.pf0.trans (by rw [h1.pf0]), h2.pf1.trans (by rw [h1.pf1])⟩

theorem ite {p : Prop} [Decidable p] (h1 : Raises s t) (h2 : Raises s u) : Raises s (if p then t else u) := by
  split
  · exact h1
  · exact h2

theorem setHostFn (s : State) (f : Bool) (c : Reg32) (b : BitVec 97) : Raises s (s.setHostFn f { s.hostFn f with cause := c, pba := b }) := by
  cases f <;> exact ⟨rfl, rfl, rfl⟩

theorem fireVector (s : State) (f : Bool) (v : Nat) : Raises s (s.fireVector f v) := by
  unfold State.fireVector
  dsimp only
  split
  · split
    · exact setHostFn s f _ _
    · exact ⟨rfl, rfl, rfl⟩
  · exact refl s

theorem raiseIn (s : State) (f : Bool) (m : Reg32) : Raises s (s.raiseIn f m) := by
  have h := setHostFn s f ((s.hostFn f).cause ||| m) (s.hostFn f).pba
  unfold State.raiseIn
  exact ite h (h.trans (fireVector _ f 96))

theorem msgManager (s : State) (c : Nat) (w : List Reg32) : Raises s (s.msgManager c w) := by
  unfold State.msgManager
  exact ite (refl s) ⟨rfl, rfl, rfl⟩

theorem raiseCause (s : State) (f : Bool) (m : Reg32) : Raises s (s.raiseCause f m) := by
  unfold State.raiseCause
  exact ite (raiseIn s f m) ((raiseIn s f m).trans (msgManager _ 1 _))

theorem recorder (h : Raises s t) : t.recorder = s.recorder := (congrArg State.recorder h.frame).trans rfl
theorem journal (h : Raises s t) : t.journal = s.journal := (congrArg State.journal h.frame).trans rfl

end

end Raises

section
variable {s : State}

theorem State.journalTrig_frame (s : State) : s.journalTrig = { s with journal := s.journalTrig.journal } := by
  unfold State.journalTrig
  split <;> rfl

theorem State.journalTrig_idle (h : s.journal.st ≠ .recording) : s.journalTrig = s := if_neg (fun hr => h hr.1)

/-- An event is taken by the recorder, tells hosts and manager, and may trigger the journal. -/
theorem State.recordEvent_shape (s : State) (e : Event) : ∃ td x, Raises { s with recorder := (s.recorder.take e s.tick td).1 } x ∧
    (s.recordEvent e = x ∨ s.recordEvent e = x.journalTrig) := by
  unfold State.recordEvent
  dsimp only
  generalize (if e.mgmt then s.plumb.tickTd0 else s.tdValue 0 s.now) = td
  refine ⟨td, ?_⟩
  generalize { s with recorder := (s.recorder.take e s.tick td).1 } = s1
  have h2 := Raises.ite (p := bits s.recorder.cfg 1 0 ≤ e.sev.toNat) ((Raises.raiseCause s1 false 0x200).trans (Raises.raiseCause _ true 0x200)) (.refl s1)
  have h3 := Raises.ite (p := bit s.recorder.cfg 6 = true ∧ bits s.recorder.cfg 5 4 ≤ e.sev.toNat)
    (h2.trans (Raises.msgManager _ 4 (e.entry s.recorder.next s.tick td).words)) h2
  split
  · split
    · exact ⟨_, h3, .inr rfl⟩
    · exact ⟨_, h3, .inl rfl⟩
  · exact ⟨s1, .refl s1, .inl rfl⟩

theorem State.recorder_recordEvent (s : State) (e : Event) : ∃ td, (s.recordEvent e).recorder = (s.recorder.take e s.tick td).1 := by
  obtain ⟨td, x, hx, he | he⟩ := s.recordEvent_shape e
  · exact ⟨td, by rw [he, hx.recorder]⟩
  · exact ⟨td, by rw [he, State.journalTrig_frame, hx.recorder]⟩

/-- A journal that does not record is not triggered. -/
theorem State.journal_recordEvent (e : Event) (h : s.journal.st ≠ .recording) : (s.recordEvent e).journal = s.journal := by
  obtain ⟨td, x, hx, he | he⟩ := s.recordEvent_shape e
  · rw [he, hx.journal]
  · rw [he, State.journalTrig_idle (by rw [hx.journal]; exact h), hx.journal]

/-- An event keeps the vectors and the enables of both functions. -/
theorem State.host_recordEvent (s : State) (e : Event) : (s.recordEvent e).pf0.msix = s.pf0.msix ∧ (s.recordEvent e).pf0.causeEn = s.pf0.causeEn ∧
    (s.recordEvent e).pf1.msix = s.pf1.msix ∧ (s.recordEvent e).pf1.causeEn = s.pf1.causeEn := by
  obtain ⟨td, x, hx, he⟩ := s.recordEvent_shape e
  have hp : (s.recordEvent e).pf0 = x.pf0 ∧ (s.recordEvent e).pf1 = x.pf1 := by
    rcases he with he | he
    · rw [he]
      exact ⟨rfl, rfl⟩
    · rw [he, State.journalTrig_frame]
      exact ⟨rfl, rfl⟩
  rw [hp.1, hp.2, hx.pf0, hx.pf1]
  exact ⟨rfl, rfl, rfl, rfl⟩

end

/-! ### The newest records -/

/-- One of the n newest records has code c and P0 v. -/
def Recorder.notes (r : Recorder) (c : BitVec 16) (v : Reg32) (n : Nat) : Prop := ∃ e, e ∈ r.recs.take n ∧ e.code = c ∧ e.p0 = v

section
variable {r : Recorder} {e : Event} {tick td : Nat} {c : BitVec 16} {v : Reg32} {n : Nat}

/-- A recorder that is not frozen folds an event into its newest record, or takes a new one. -/
theorem Recorder.recs_take (e : Event) (tick td : Nat) (hf : r.frozen = none) :
    (∃ x xs, r.recs = x :: xs ∧ e.repeats x = true ∧ (r.take e tick td).1.recs = x.again :: xs) ∨
      (r.take e tick td).1.recs = (e.entry r.next tick td :: r.recs).take 16384 := by
  unfold Recorder.take
  simp only [hf]
  split
  · next x xs h =>
    split
    · next hr => exact .inl ⟨x, xs, h, hr.2, rfl⟩
    · exact .inr rfl
  · exact .inr rfl

theorem Recorder.frozen_take : (r.take e tick td).1.frozen = r.frozen := by
  unfold Recorder.take
  repeat' split
  all_goals rfl

theorem Event.repeats_iff (e : Event) (x : RecEntry) (h : e.repeats x = true) : x.code = e.code ∧ x.p0 = e.p0 := by
  simp only [Event.repeats, Bool.and_eq_true, decide_eq_true_eq] at h
  simp [h]

/-- The event just taken is the newest record. -/
theorem Recorder.notes_take_new (hf : r.frozen = none) : (r.take e tick td).1.notes e.code e.p0 1 := by
  rcases Recorder.recs_take e tick td hf with ⟨x, xs, -, hr, h⟩ | h
  · exact ⟨x.again, by rw [h]; exact List.mem_cons_self, e.repeats_iff x hr⟩
  · exact ⟨e.entry r.next tick td, by rw [h]; exact List.mem_cons_self, rfl, rfl⟩

/-- A record goes one place down with the next event, if at all. -/
theorem Recorder.notes_take (hf : r.frozen = none) (h : r.notes c v n) (hn : n < 16384) : (r.take e tick td).1.notes c v (n + 1) := by
  obtain ⟨y, hy, hyc⟩ := h
  rcases Recorder.recs_take e tick td hf with ⟨x, xs, hx, -, hr⟩ | hr
  · cases n with
    | zero => exact absurd hy List.not_mem_nil
    | succ m =>
      rw [hx, List.take_succ_cons, List.mem_cons] at hy
      rcases hy with rfl | hy
      · exact ⟨y.again, by rw [hr]; exact List.mem_cons_self, hyc⟩
      · exact ⟨y, by rw [hr, List.take_succ_cons]; exact List.mem_cons_of_mem _ (List.take_subset_take_left xs (Nat.le_succ m) hy), hyc⟩
  · refine ⟨y, ?_, hyc⟩
    rw [hr, List.take_take, Nat.min_eq_left hn, List.take_succ_cons]
    exact List.mem_cons_of_mem _ hy

end

section
variable {s : State} {c : BitVec 16} {v : Reg32} {n : Nat}

theorem State.frozen_recordEvent (s : State) (e : Event) : (s.recordEvent e).recorder.frozen = s.recorder.frozen := by
  obtain ⟨td, h⟩ := s.recorder_recordEvent e
  rw [h, Recorder.frozen_take]

theorem State.notes_recordEvent_new (e : Event) (hf : s.recorder.frozen = none) : (s.recordEvent e).recorder.notes e.code e.p0 1 := by
  obtain ⟨td, h⟩ := s.recorder_recordEvent e
  rw [h]
  exact Recorder.notes_take_new hf

theorem State.notes_recordEvent (e : Event) (hf : s.recorder.frozen = none) (h : s.recorder.notes c v n) (hn : n < 16384) :
    (s.recordEvent e).recorder.notes c v (n + 1) := by
  obtain ⟨td, he⟩ := s.recorder_recordEvent e
  rw [he]
  exact Recorder.notes_take hf h hn

end

/-! ### Phase ROM (R84 to R90, R478) -/

section
variable (s : State)

theorem State.startRecorder_logs : Logs { s with power := { s.power with sramLost := false } } s.startRecorder := by
  unfold State.startRecorder
  refine Logs.trans ?_ (Logs.recordEvent _ _)
  split <;> rfl

theorem State.startRecorder_notes (hf : s.startRecorder.recorder.frozen = none) : s.startRecorder.recorder.notes 0x0101 s.power.startStatus 1 := by
  unfold State.startRecorder at hf ⊢
  dsimp only at hf ⊢
  rw [State.frozen_recordEvent] at hf
  refine (State.notes_recordEvent_new _ hf).imp fun e he => ⟨he.1, he.2.1, he.2.2.trans ?_⟩
  split <;> rfl

theorem State.reportFlush_logs : Logs s s.reportFlush := by
  unfold State.reportFlush
  split
  · split
    · exact Logs.trans (t := s.modRec _) rfl (Logs.recordEvent _ _)
    · exact Logs.refl s
  · exact Logs.refl s

theorem State.frozen_reportFlush : s.reportFlush.recorder.frozen = s.recorder.frozen := by
  unfold State.reportFlush
  split
  · split
    · rw [State.frozen_recordEvent]
      rfl
    · rfl
  · rfl

theorem State.reportFlush_notes {c : BitVec 16} {v : Reg32} {n : Nat} (hn : n < 16384) (hf : s.recorder.frozen = none)
    (h : s.recorder.notes c v n) : s.reportFlush.recorder.notes c v (n + 1) := by
  have hsame : s.recorder.notes c v (n + 1) := h.imp fun e he => ⟨List.take_subset_take_left _ (Nat.le_succ n) he.1, he.2⟩
  unfold State.reportFlush
  split
  · split
    · exact State.notes_recordEvent _ hf h hn
    · exact hsame
  · exact hsame

end

end Sys2Proof.Machine
end

section
/-! SUPPORT. The start that phase ROM begins, the reset that a start follows, and failed starts (R80, R84 to R91). -/

namespace Sys2Proof.Machine

section
variable (s : State)

/-- The state once phase ROM has written the start record and the start registers. -/
def State.romBegun : State :=
  let strap := decide (s.power.bootSel = 3) && decide (s.lifecycle ≠ .manufacture ∧ s.lifecycle ≠ .returned)
  let s1 := s.romRecord.modPower (fun p =>
    { p with phase := if s.toFooting then .footing else .rom, strapFault := strap, fault := p.fault || s.toFooting, lcStatus := s.lcWord })
  if s.toFooting then s1 else s1.modRecord (fun r => { r with phase := 0 })

theorem State.startRom_eq : s.startRom =
    if (decide (s.power.bootSel = 3) && decide (s.lifecycle ≠ .manufacture ∧ s.lifecycle ≠ .returned)) = true
    then s.romBegun.startRecorder.reportFlush.event .strapFault true 0 [] else s.romBegun.startRecorder.reportFlush := rfl

theorem State.romBegun_frame : s.romBegun = { s with power := s.romBegun.power } := by
  unfold State.romBegun State.romRecord
  cases s.toFooting <;> rfl

theorem State.toFooting_iff : s.toFooting = true ↔ (3 ≤ s.power.startRec.count ∨ s.lifecycle = .retired) := by
  simp [State.toFooting]

/-- The start registers after phase ROM, with footing mode or without. -/
theorem State.romBegun_registers : s.romBegun.power = { s.power with phase := s.romBegun.power.phase, startCount := BitVec.ofNat 4 s.power.startRec.count, strapFault := s.romBegun.power.strapFault, fault := s.romBegun.power.fault, failRecorded := s.romBegun.power.failRecorded, lcStatus := s.romBegun.power.lcStatus, startRec := s.romBegun.power.startRec } ∧
    s.romBegun.power.startRec.number = s.power.startRec.number + 1 ∧
    s.romBegun.power.strapFault = (decide (s.power.bootSel = 3) && decide (s.lifecycle ≠ .manufacture ∧ s.lifecycle ≠ .returned)) := by
  unfold State.romBegun State.romRecord
  cases s.toFooting <;> exact ⟨rfl, rfl, rfl⟩

theorem State.romBegun_footing (h : s.toFooting = true) : s.romBegun.power.phase = .footing ∧ s.romBegun.power.fault = true ∧
    s.romBegun.power.startRec.count = s.power.startRec.count ∧ s.romBegun.power.startRec.phase = s.power.startRec.phase := by
  unfold State.romBegun State.romRecord
  simp only [h, if_true, Bool.or_true]
  exact ⟨rfl, rfl, rfl, rfl⟩

theorem State.romBegun_rom (h : s.toFooting = false) : s.romBegun.power.phase = .rom ∧ s.romBegun.power.fault = s.power.fault ∧
    s.romBegun.power.startRec.count = s.power.startRec.count + 1 ∧ s.romBegun.power.startRec.phase = 0 := by
  unfold State.romBegun State.romRecord
  simp only [h, Bool.false_eq_true, if_false, Bool.or_false]
  exact ⟨rfl, rfl, rfl, rfl⟩

/-- The code and the parameter of the last failure: 0x0A when the last start ended without a recorded one. -/
theorem State.romBegun_code : s.romBegun.power.startRec.code = (if (decide (s.power.startRec.count ≠ 0) && !s.power.failRecorded) = true then 0x0A else s.power.startRec.code) ∧
    s.romBegun.power.startRec.param = (if (decide (s.power.startRec.count ≠ 0) && !s.power.failRecorded) = true then s.power.cause.setWidth 32 else s.power.startRec.param) := by
  unfold State.romBegun State.romRecord
  cases s.toFooting <;> exact ⟨rfl, rfl⟩

/-- The records of the start change nothing but what events change, and SRAM counts as kept. -/
theorem State.startRom_logs : Logs { s with power := { s.romBegun.power with sramLost := false } } s.startRom := by
  have h1 := s.romBegun.startRecorder_logs.trans s.romBegun.startRecorder.reportFlush_logs
  have h2 : { s.romBegun with power := { s.romBegun.power with sramLost := false } } = { s with power := { s.romBegun.power with sramLost := false } } := by
    conv_lhs => rw [s.romBegun_frame]
  rw [h2] at h1
  rw [State.startRom_eq]
  exact Logs.ite (h1.trans (Logs.event _ _ _ _ _)) h1

theorem State.power_startRom : s.startRom.power = { s.romBegun.power with sramLost := false } := s.startRom_logs.power

/-- The record of the start is among the newest three. -/
theorem State.startRom_notes (hf : s.startRom.recorder.frozen = none) : s.startRom.recorder.notes 0x0101 s.startRom.power.startStatus 3 := by
  have hp : s.startRom.power.startStatus = s.romBegun.power.startStatus := by
    rw [s.power_startRom]
    rfl
  rw [hp]
  have hbase : s.romBegun.startRecorder.reportFlush.recorder.frozen = none →
      s.romBegun.startRecorder.reportFlush.recorder.notes 0x0101 s.romBegun.power.startStatus 2 := fun h => by
    rw [State.frozen_reportFlush] at h
    exact State.reportFlush_notes _ (by decide) h (State.startRecorder_notes _ h)
  rw [State.startRom_eq] at hf ⊢
  split at hf
  · rw [if_pos ‹_›]
    have hf' := (State.frozen_recordEvent _ _).symm.trans hf
    exact State.notes_recordEvent _ hf' (hbase hf') (by decide)
  · rw [if_neg ‹_›]
    exact (hbase hf).imp fun e he => ⟨List.take_subset_take_left _ (by decide) he.1, he.2⟩

/-- Phase ROM (R86, R88 to R91, R478). -/
theorem State.startRom_begins : Begins s s.startRom := by
  obtain ⟨hregs, hnum, hstrap⟩ := s.romBegun_registers
  obtain ⟨hcode, hparam⟩ := s.romBegun_code
  have hp := s.power_startRom
  have hl := s.startRom_logs
  have hn := s.startRom_notes
  rw [← hp] at hl
  unfold Begins
  dsimp only
  refine ⟨hl, ?_, ?_, fun hfoot => ?_, fun hfoot => ?_, fun hc hr => ?_, fun h => ?_, ?_, fun hf => ?_⟩
  · rw [hp]
    conv_lhs => rw [hregs]
  · rw [hp]
    exact hnum
  · rw [hp]
    exact s.romBegun_footing (s.toFooting_iff.mpr hfoot)
  · rw [hp]
    exact s.romBegun_rom (Bool.eq_false_iff.mpr fun h => hfoot (s.toFooting_iff.mp h))
  · rw [hp]
    have hcond : (decide (s.power.startRec.count ≠ 0) && !s.power.failRecorded) = true := by simp [hc, hr]
    exact ⟨hcode.trans (if_pos hcond), hparam.trans (if_pos hcond)⟩
  · rw [hp]
    have hcond : ¬ (decide (s.power.startRec.count ≠ 0) && !s.power.failRecorded) = true := by
      rcases h with h | h <;> simp [h]
    exact ⟨hcode.trans (if_neg hcond), hparam.trans (if_neg hcond)⟩
  · rw [hp]
    change s.romBegun.power.strapFault = true ↔ _
    rw [hstrap]
    simp
  · obtain ⟨e, he, hec, hep⟩ := hn hf
    exact ⟨e, List.take_subset _ _ he, hec, hep⟩

end

/-! ### The reset that a start follows, and failures -/

section
variable {s : State}

theorem State.restart_of_alive (cause : BitVec 4) (h : s.alive = true) : s.restart cause = (s.deviceReset cause).startRom := by
  unfold State.restart
  exact if_pos (by rw [State.alive_deviceReset]; exact h)

theorem State.restart_of_held (cause : BitVec 4) (h : s.alive = false) : s.restart cause = s.deviceReset cause := by
  unfold State.restart
  exact if_neg (by rw [State.alive_deviceReset, h]; exact Bool.false_ne_true)

/-- A DEVICE reset with nothing that holds the device is followed by a start (R80, R84). -/
theorem State.restart_begins (cause : BitVec 4) (h : s.alive = true) : ResetAndBegins s (s.restart cause) cause := by
  rw [State.restart_of_alive cause h]
  obtain ⟨hw, hk⟩ := s.deviceReset_resets cause
  exact ⟨_, hw, hk, State.startRom_begins _⟩

theorem State.alive_congr {t : State} (h : t.power.supply = s.power.supply ∧ t.power.rstLow = s.power.rstLow ∧ t.power.tap = s.power.tap) :
    t.alive = s.alive := by simp only [State.alive, h]

theorem Logs.alive {t : State} (h : Logs s t) : t.alive = s.alive := State.alive_congr (by rw [h.power]; exact ⟨rfl, rfl, rfl⟩)

/-- A start that fails (R87, R91, R483). -/
theorem State.startFail_fails (code : BitVec 8) (param : Reg32) (cause : BitVec 4) (h : s.alive = true) :
    StartFails s (s.startFail code param cause) code param cause := by
  have hl : Logs { s with power := { s.power with failRecorded := true, fault := true, startRec := { s.power.startRec with code := code, param := param } } } _ :=
    (Logs.event _ .startFailed true 0 [code.toNat, param.toNat]).trans (Logs.flushStart _ 1)
  refine ⟨_, hl, State.restart_begins cause ?_⟩
  rw [hl.alive]
  exact h

theorem State.enterPhase_enters (s : State) (p : Phase) : Enters s (s.enterPhase p) p := Logs.event _ .startPhase true 0 [p.code]

theorem State.starting_alive (h : s.starting = true) : s.alive = true := by
  rw [State.starting, Bool.and_eq_true] at h
  exact h.1

theorem State.starting_of (ha : s.alive = true) {p : Phase} (hp : s.power.phase = p) (h1 : p ≠ .running) (h2 : p ≠ .footing) : s.starting = true := by
  simp [State.starting, ha, hp, h1, h2]

theorem State.fatalFault_starting (code : Reg32) (h : s.starting = true) : StartFails s (s.fatalFault code) 0x08 code 5 := by
  unfold State.fatalFault
  rw [if_pos h]
  exact State.startFail_fails 0x08 code 5 (State.starting_alive h)

/-- After RUNNING a fatal fault flushes the recorder and resets the device (R87, R483). -/
theorem State.fatalFault_running (code : Reg32) (ha : s.alive = true) (h : s.starting = false) :
    ∃ v, Logs { s with power := { s.power with fault := true } } v ∧ ResetAndBegins v (s.fatalFault code) 5 := by
  have hl : Logs { s with power := { s.power with fault := true } } _ := (Logs.event _ .fatal true 0 [code.toNat]).trans (Logs.flushStart _ 1)
  refine ⟨_, hl, ?_⟩
  unfold State.fatalFault
  rw [if_neg (by rw [h]; exact Bool.false_ne_true)]
  exact State.restart_begins 5 (by rw [hl.alive]; exact ha)

end

end Sys2Proof.Machine
end

section
/-! SUPPORT. The phases of a start from ROM to COURSE_LOAD (R84 to R88, R232, R246, R454, R498, R521). -/

namespace Sys2Proof.Machine

section
variable {s : State} {o : PhaseOutcome}

/-! ### A phase that ends -/

theorem exec_startPhaseComplete_eq : exec (.startPhaseComplete o) s = s.when_ s.starting (fun s => s.phaseEnd o) := rfl

theorem exec_startPhaseComplete_idle (h : s.starting = false) : exec (.startPhaseComplete o) s = .next s :=
  exec_startPhaseComplete_eq.trans (State.when_of_false s _ h)

theorem exec_startPhaseComplete (ha : s.alive = true) {p : Phase} (hp : s.power.phase = p) (h1 : p ≠ .running) (h2 : p ≠ .footing) :
    exec (.startPhaseComplete o) s = .next (s.phaseEnd o) :=
  exec_startPhaseComplete_eq.trans (State.when_of_true s _ (State.starting_of ha hp h1 h2))

theorem State.phaseEnd_rom (hp : s.power.phase = .rom) (hl : o.pllFail = none) :
    s.phaseEnd o = (s.modPower (fun p => { p with pcieWait := if p.bootSel = 1 then some s.tick else none })).enterPhase .keystoneLoad := by
  simp only [State.phaseEnd, hp, hl]

theorem State.phaseEnd_rom_pll (hp : s.power.phase = .rom) {k : BitVec 2} (hl : o.pllFail = some k) : s.phaseEnd o = s.pllFails k := by
  simp only [State.phaseEnd, hp, hl]

theorem State.phaseEnd_keystoneLoad (hp : s.power.phase = .keystoneLoad) : s.phaseEnd o = s.keystoneLoad o.firmware := by
  simp only [State.phaseEnd, hp]

theorem State.phaseEnd_clocks (hp : s.power.phase = .clocks) (hf : o.otpFault = none) (hl : o.pllFail = none) : s.phaseEnd o = (s.loadCal).enterPhase .trowel := by
  simp only [State.phaseEnd, hp, hf, hl]

theorem State.phaseEnd_clocks_otp (hp : s.power.phase = .clocks) {w : BitVec 10} (hf : o.otpFault = some w) :
    s.phaseEnd o = s.startFail 0x05 (w.setWidth 32) 7 := by
  simp only [State.phaseEnd, hp, hf]

theorem State.phaseEnd_clocks_pll (hp : s.power.phase = .clocks) (hf : o.otpFault = none) {k : BitVec 2} (hl : o.pllFail = some k) :
    s.phaseEnd o = s.pllFails k := by
  simp only [State.phaseEnd, hp, hf, hl]

theorem State.phaseEnd_trowel (hp : s.power.phase = .trowel) (hs : o.sharedFail = none) : s.phaseEnd o = (s.trowelEnd o.fenced).enterPhase .courseLoad := by
  simp only [State.phaseEnd, hp, hs]

theorem State.phaseEnd_trowel_shared (hp : s.power.phase = .trowel) {b : BitVec 4} {a : BitVec 28} (hs : o.sharedFail = some (b, a)) :
    s.phaseEnd o = s.startFail 0x06 (b ++ a) 7 := by
  simp only [State.phaseEnd, hp, hs]

theorem State.phaseEnd_courseLoad_ok {u : State} (hp : s.power.phase = .courseLoad) (h : s.loadManifest = .ok u) : s.phaseEnd o = u.enterPhase .ports := by
  simp only [State.phaseEnd, hp, h]

theorem State.phaseEnd_courseLoad_error {k c : Nat} (hp : s.power.phase = .courseLoad) (h : s.loadManifest = .error (k, c)) :
    s.phaseEnd o = s.startFail 0x07 (BitVec.ofNat 32 (k * 65536 + c)) 7 := by
  simp only [State.phaseEnd, hp, h]

theorem State.phaseEnd_ports (hp : s.power.phase = .ports) : s.phaseEnd o = s.enterRunning := by
  simp only [State.phaseEnd, hp]

/-! ### KEYSTONE_LOAD (R85, R91, R454) -/

section
variable {l : List Byte} {e k : Nat}

theorem State.firmwareBad_pcie_none (h : s.imageBad 1 l = none) : s.firmwareBad 1 l = none := by
  unfold State.firmwareBad
  rw [if_neg (fun hn => absurd hn.1 (by decide)), h]

theorem State.firmwareBad_pcie_some (h : s.imageBad 1 l = some (e, k)) : s.firmwareBad 1 l = some (0x01, BitVec.ofNat 32 (k * 65536 + 1)) := by
  unfold State.firmwareBad
  rw [if_neg (fun hn => absurd hn.1 (by decide)), h]

theorem State.firmwareBad_noMagic (h : l.take 4 ≠ [0x41, 0x54, 0x49, 0x52]) : s.firmwareBad 0 l = some (0x02, 0) := if_pos ⟨rfl, h⟩

theorem State.firmwareBad_flash_none (hm : l.take 4 = [0x41, 0x54, 0x49, 0x52]) (h : s.imageBad 1 l = none) : s.firmwareBad 0 l = none := by
  unfold State.firmwareBad
  rw [if_neg (fun hn => hn.2 hm), h]

theorem State.firmwareBad_flash_some (hm : l.take 4 = [0x41, 0x54, 0x49, 0x52]) (h : s.imageBad 1 l = some (e, k)) :
    s.firmwareBad 0 l = some (0x01, BitVec.ofNat 32 (k * 65536)) := by
  unfold State.firmwareBad
  rw [if_neg (fun hn => hn.2 hm), h]
  dsimp only
  rw [Nat.add_zero]

theorem State.firmwareBad_of_bad (h : l.take 4 ≠ [0x41, 0x54, 0x49, 0x52] ∨ (s.imageBad 1 l).isSome = true) : ∃ c x, s.firmwareBad 0 l = some (c, x) := by
  by_cases hm : l.take 4 = [0x41, 0x54, 0x49, 0x52]
  · obtain ⟨⟨e, k⟩, hk⟩ := Option.isSome_iff_exists.mp (h.resolve_left (fun hn => hn hm))
    exact ⟨_, _, State.firmwareBad_flash_some hm hk⟩
  · exact ⟨_, _, State.firmwareBad_noMagic hm⟩

end

/-- The firmware runs: its identity, its source, and no wait for the host any more. -/
theorem State.runFirmware_enters (s : State) (src : Nat) (l : List Byte) :
    Enters { s with keystone := { s.keystone with firmware := some (imageId l) }, power := { s.power with fwSrc := decide (src = 1), pcieWait := none } }
      (s.runFirmware src l) .clocks := State.enterPhase_enters _ _

theorem State.pcieLoad_bad {l : List Byte} {e k : Nat} (h : s.imageBad 1 l = some (e, k)) :
    s.pcieLoad (some l) = s.startFail 0x01 (BitVec.ofNat 32 (k * 65536 + 1)) 7 := by
  simp only [State.pcieLoad, State.firmwareBad_pcie_some h]

theorem State.pcieLoad_good {l : List Byte} (h : s.imageBad 1 l = none) : s.pcieLoad (some l) = s.runFirmware 1 l := by
  simp only [State.pcieLoad, State.firmwareBad_pcie_none h]

theorem State.keystoneLoad_pcie (fw : Option (List Byte)) (h : s.power.bootSel = 1 ∨ s.power.fallback = true) : s.keystoneLoad fw = s.pcieLoad fw := if_pos h

theorem State.keystoneLoad_flash (fw : Option (List Byte)) (h1 : s.power.bootSel ≠ 1) (h2 : s.power.fallback = false)
    (h : s.firmwareBad 0 (s.flashImage 0x100000 0x400000) = none) : s.keystoneLoad fw = s.runFirmware 0 (s.flashImage 0x100000 0x400000) := by
  unfold State.keystoneLoad
  dsimp only
  rw [if_neg (fun hn => hn.elim h1 (fun hf => Bool.false_ne_true (h2.symm.trans hf))), h]

theorem State.keystoneLoad_flash_bad (fw : Option (List Byte)) (h1 : s.power.bootSel ≠ 1) (h2 : s.power.fallback = false) {c : BitVec 8} {x : Reg32}
    (h : s.firmwareBad 0 (s.flashImage 0x100000 0x400000) = some (c, x)) : s.keystoneLoad fw =
      if s.power.bootSel = 2 then (s.modPower (fun p => { p with fallback := true, pcieWait := some s.tick })).pcieLoad fw else s.startFail c x 7 := by
  unfold State.keystoneLoad
  dsimp only
  rw [if_neg (fun hn => hn.elim h1 (fun hf => Bool.false_ne_true (h2.symm.trans hf))), h]

/-! ### CLOCKS (R334, R498) -/

/-- Only the plumb changes. -/
def OnlyPlumb (s t : State) : Prop := t = { s with plumb := t.plumb }

theorem OnlyPlumb.trans {s t u : State} (h1 : OnlyPlumb s t) (h2 : OnlyPlumb t u) : OnlyPlumb s u := by
  refine Eq.trans h2 ?_
  rw [show t = _ from h1]

theorem State.loadDelays_only (s : State) (q : PortCode) : OnlyPlumb s (s.loadDelays q) := by
  unfold State.loadDelays
  split <;> rfl

/-- The calibration page as CLOCKS reads it. -/
def State.calRead (s : State) : State :=
  s.modPower (fun p => { p with calPage := if s.calValid (Memory.readBytes flashBlank s.flash 0 4096) then (Memory.readBytes flashBlank s.flash 0 4096) else [],
                                calDefault := !(s.calValid (Memory.readBytes flashBlank s.flash 0 4096)) })

theorem foldl_loadDelays_only (l : List (Fin 36)) (s : State) : OnlyPlumb s (l.foldl (fun s k => s.loadDelays ⟨k.val, by omega⟩) s) :=
  foldl_rel OnlyPlumb (fun _ => rfl) (fun _ _ _ => OnlyPlumb.trans) _ (fun s k => s.loadDelays_only ⟨k.val, by omega⟩) l s

theorem State.loadCal_only (s : State) : OnlyPlumb s.calRead s.loadCal := foldl_loadDelays_only _ s.calRead

theorem State.loadCal_enters (s : State) : Enters { s with plumb := ((s.loadCal).enterPhase .trowel).plumb, power := s.calRead.power } ((s.loadCal).enterPhase .trowel) .trowel := by
  have hl := s.loadCal_only
  generalize s.loadCal = x at hl
  have he := State.enterPhase_enters x .trowel
  have hp : (x.enterPhase .trowel).plumb = x.plumb := (congrArg State.plumb he).trans rfl
  have hx : x = { s with plumb := x.plumb, power := s.calRead.power } := hl
  rw [hp, ← hx]
  exact he

/-! ### COURSE_LOAD (R246) -/

theorem State.loadManifest_none (h : s.lifecycle = .manufacture ∨ (s.flashImage 0x10000 0x10000).take 4 = [0xFF, 0xFF, 0xFF, 0xFF]) :
    s.loadManifest = .ok s := by
  unfold State.loadManifest
  exact if_pos h

theorem State.loadManifest_bad (h1 : s.lifecycle ≠ .manufacture) (h2 : (s.flashImage 0x10000 0x10000).take 4 ≠ [0xFF, 0xFF, 0xFF, 0xFF]) {e k : Nat}
    (h : s.imageBad 5 (s.flashImage 0x10000 0x10000) = some (e, k)) : s.loadManifest = .error (k, 0) := by
  unfold State.loadManifest
  dsimp only
  rw [if_neg (fun hn => hn.elim h1 h2), h]

end

end Sys2Proof.Machine
end

section
/-! SUPPORT. The march tests of a start and their outcome (R88, R226, R230, R232, R521). -/

namespace Sys2Proof.Machine

/-- What the end of the march tests changes. -/
structure Marched (s t : State) : Prop where
  frame : t = { s with freeCtr := t.freeCtr, courses := t.courses, bricks := t.bricks, journal := t.journal, power := t.power, recorder := t.recorder, pf0 := t.pf0, pf1 := t.pf1, hostMem := t.hostMem, chainOut := t.chainOut }
  power : t.power = { s.power with degraded := t.power.degraded }
  fenced : ∀ c, (s.course c).fenced = true → (t.course c).fenced = true
  degraded : s.power.degraded = true → t.power.degraded = true
  journal : s.journal.st ≠ .recording → t.journal = s.journal

namespace Marched

section
variable {s t u : State}

theorem refl (s : State) : Marched s s := ⟨rfl, rfl, fun _ => id, id, fun _ => rfl⟩

theorem trans (h1 : Marched s t) (h2 : Marched t u) : Marched s u :=
  ⟨h2.frame.trans (by rw [h1.frame]), h2.power.trans (by rw [h1.power]), fun c h => h2.fenced c (h1.fenced c h), fun h => h2.degraded (h1.degraded h),
    fun h => (h2.journal (by rw [h1.journal h]; exact h)).trans (h1.journal h)⟩

theorem event (s : State) (k : EvKind) (m : Bool) (p : BitVec 8) (a : List Nat) : Marched s (s.event k m p a) := by
  have h := Logs.event s k m p a
  refine ⟨?_, by rw [h.power], fun c hc => by rw [h.course]; exact hc, fun hd => by rw [h.power]; exact hd, fun hj => State.journal_recordEvent _ hj⟩
  have hf : (s.event k m p a).freeCtr = s.freeCtr := (congrArg State.freeCtr h).trans rfl
  rw [hf, h.courses, h.bricks, h.power]
  exact h

end

end Marched

section
variable {s : State}

/-- The record of course c and of its bricks. -/
def State.courseBlock (s : State) (c : Fin 13) : Course × (Fin 4 → Brick) := (s.course c, fun b => s.brick (brickOf c b))

/-- A course that passes. -/
def passedBlock (x : Course × (Fin 4 → Brick)) : Course × (Fin 4 → Brick) :=
  ({ x.1 with bank := [], trwStatus := 0x80000000 }, fun b => { x.2 b with imem := [], pre := [] })

/-- The bank holds its last background. -/
def State.bankPassed (s : State) (c : Fin 13) : State := s.modCourse c (fun x => { x with bank := [], trwStatus := trwResult false 0 })

/-- The instruction memories hold theirs. -/
def State.imemPassed (s : State) (c : Fin 13) : State :=
  (List.finRange 4).foldl (fun s b => s.modBrick (brickOf c b) (fun x => { x with imem := [], pre := [] })) s

theorem State.coursePasses_eq (s : State) (c : Fin 13) : s.coursePasses c = (s.bankPassed c).imemPassed c := rfl

theorem State.imemPassed_bricks (s : State) (c : Fin 13) : BricksOf c s (s.imemPassed c) := BricksOf.foldl c (fun _ x => { x with imem := [], pre := [] }) s

theorem State.brick_imemPassed (s : State) (c : Fin 13) (b : Fin 4) :
    (s.imemPassed c).brick (brickOf c b) = { s.brick (brickOf c b) with imem := [], pre := [] } :=
  brick_foldl_modBrick c (fun _ x => { x with imem := [], pre := [] }) s b

theorem State.course_imemPassed (s : State) (c d : Fin 13) : (s.imemPassed c).course d = s.course d :=
  (congrArg (State.course · d) (s.imemPassed_bricks c).1).trans rfl

theorem State.coursePasses_frame (s : State) (c : Fin 13) : s.coursePasses c = { s with courses := (s.coursePasses c).courses, bricks := (s.coursePasses c).bricks } := by
  rw [State.coursePasses_eq]
  have h := ((s.bankPassed c).imemPassed_bricks c).1
  generalize (s.bankPassed c).imemPassed c = t at h
  rw [h]
  rfl

theorem State.courseBlock_coursePasses (s : State) (c : Fin 13) : (s.coursePasses c).courseBlock c = passedBlock (s.courseBlock c) := by
  rw [State.coursePasses_eq]
  refine Prod.ext ?_ (funext fun b => (s.bankPassed c).brick_imemPassed c b)
  exact ((s.bankPassed c).course_imemPassed c c).trans (State.course_modCourse s c _)

theorem State.courseBlock_coursePasses_ne (s : State) (c d : Fin 13) (h : d ≠ c) : (s.coursePasses c).courseBlock d = s.courseBlock d := by
  rw [State.coursePasses_eq]
  refine Prod.ext ?_ (funext fun b => ((s.bankPassed c).imemPassed_bricks c).2 _ (by rw [courseOf_brickOf]; exact h))
  exact ((s.bankPassed c).course_imemPassed c d).trans (State.course_modCourse_ne s _ h)

theorem State.coursePasses_marched (s : State) (c : Fin 13) : Marched s (s.coursePasses c) := by
  have hf := s.coursePasses_frame c
  refine ⟨?_, ?_, fun d hd => ?_, fun h => by rw [hf]; exact h, fun _ => by rw [hf]⟩
  · conv_lhs => rw [hf]
    rw [hf]
  · rw [hf]
  · by_cases hdc : d = c
    · subst hdc
      have h := congrArg Prod.fst (s.courseBlock_coursePasses d)
      exact (congrArg Course.fenced h).trans hd
    · have h := congrArg Prod.fst (s.courseBlock_coursePasses_ne c d hdc)
      exact (congrArg Course.fenced h).trans hd

/-- Every course passes at first. -/
def State.marchPassed (s : State) : State := (List.finRange 13).foldl State.coursePasses s

theorem State.marchPassed_marched (s : State) : Marched s s.marchPassed :=
  foldl_rel Marched .refl (fun _ _ _ => .trans) _ State.coursePasses_marched _ s

theorem State.degraded_marchPassed (s : State) : s.marchPassed.power.degraded = s.power.degraded :=
  foldl_part (fun s => s.power.degraded) (fun s c => by rw [State.coursePasses_frame]) _ s

theorem State.courseBlock_marchPassed (s : State) (c : Fin 13) : s.marchPassed.courseBlock c = passedBlock (s.courseBlock c) := by
  obtain ⟨u, -, hg, he⟩ := foldl_member (g := State.courseBlock) (R := fun _ _ => True) (fun _ => trivial) (fun _ _ _ _ _ => trivial)
    (fun _ _ => trivial) State.courseBlock_coursePasses_ne (List.nodup_finRange 13) (List.mem_finRange c) s
  refine Eq.trans he ?_
  rw [State.courseBlock_coursePasses, hg]

/-! ### Courses that fail -/

/-- A course with the outcome f of its test. -/
def Course.fence (f : CourseFail) (x : Course) : Course :=
  { x with fenced := true, fencedMem := bit f.addr 31, trwStatus := trwResult true (if f.fails = 0 then 1 else f.fails), trwAddr := f.addr, trwData := f.data }

/-- The course of f is fenced, and the device runs degraded. -/
def State.markFenced (s : State) (f : CourseFail) : State := (s.modCourse f.course (Course.fence f)).modPower (fun p => { p with degraded := true })

theorem State.courseFails_eq (s : State) (f : CourseFail) :
    s.courseFails f = ((s.loseMemory f.course 2).markFenced f).event .courseFenced true 0 [f.course.val, f.fails.toNat] := rfl

theorem State.course_markFenced (s : State) (f : CourseFail) : (s.markFenced f).course f.course = (s.course f.course).fence f :=
  State.course_modCourse s _ _

theorem State.course_markFenced_ne (s : State) {f : CourseFail} {c : Fin 13} (h : c ≠ f.course) : (s.markFenced f).course c = s.course c :=
  State.course_modCourse_ne s _ h

theorem Marched.loseMemory (s : State) (c : Fin 13) (tgt : BitVec 2) : Marched s (s.loseMemory c tgt) := by
  have hl := LosesMemory.loseMemory s c tgt
  generalize s.loseMemory c tgt = t at hl
  have hp : t.power = s.power := (congrArg State.power hl.frame).trans rfl
  have hj : t.journal = s.journal := (congrArg State.journal hl.frame).trans rfl
  refine ⟨?_, by rw [hp], fun d hd => ?_, fun h => by rw [hp]; exact h, fun _ => hj⟩
  · rw [hp, hj]
    have hr : t.recorder = s.recorder := (congrArg State.recorder hl.frame).trans rfl
    have h0 : t.pf0 = s.pf0 := (congrArg State.pf0 hl.frame).trans rfl
    have h1 : t.pf1 = s.pf1 := (congrArg State.pf1 hl.frame).trans rfl
    have hm : t.hostMem = s.hostMem := (congrArg State.hostMem hl.frame).trans rfl
    have ho : t.chainOut = s.chainOut := (congrArg State.chainOut hl.frame).trans rfl
    rw [hr, h0, h1, hm, ho]
    exact hl.frame
  · by_cases hdc : d = c
    · subst hdc
      rw [hl.course]
      exact hd
    · rw [hl.other d hdc]
      exact hd

theorem Marched.markFenced (s : State) (f : CourseFail) : Marched s (s.markFenced f) := by
  refine ⟨rfl, rfl, fun c hc => ?_, fun _ => rfl, fun _ => rfl⟩
  by_cases hcf : c = f.course
  · subst hcf
    rw [State.course_markFenced]
    rfl
  · rw [State.course_markFenced_ne _ hcf]
    exact hc

theorem State.courseFails_marched (s : State) (f : CourseFail) : Marched s (s.courseFails f) := by
  rw [State.courseFails_eq]
  exact ((Marched.loseMemory s _ _).trans (.markFenced _ f)).trans (.event _ _ _ _ _)

theorem State.courseFails_fences (s : State) (f : CourseFail) : ((s.courseFails f).course f.course).fenced = true ∧ (s.courseFails f).power.degraded = true := by
  have h := Marched.event ((s.loseMemory f.course 2).markFenced f) .courseFenced true 0 [f.course.val, f.fails.toNat]
  rw [State.courseFails_eq]
  exact ⟨h.fenced _ (by rw [State.course_markFenced]; rfl), h.degraded rfl⟩

theorem State.courseBlock_markFenced_ne (s : State) {f : CourseFail} {c : Fin 13} (h : f.course ≠ c) : (s.markFenced f).courseBlock c = s.courseBlock c :=
  Prod.ext (State.course_markFenced_ne s h.symm) rfl

theorem LosesMemory.courseBlock_ne {t : State} {c d : Fin 13} (hl : LosesMemory c s t) (h : c ≠ d) : t.courseBlock d = s.courseBlock d :=
  Prod.ext (hl.other d h.symm) (funext fun b => hl.otherBrick _ (by rw [courseOf_brickOf]; exact h.symm))

theorem Logs.courseBlock {t : State} (hl : Logs s t) (c : Fin 13) : t.courseBlock c = s.courseBlock c :=
  Prod.ext (hl.course c) (funext fun _ => hl.brick _)

theorem State.courseBlock_courseFails_ne (s : State) {f : CourseFail} {c : Fin 13} (h : f.course ≠ c) : (s.courseFails f).courseBlock c = s.courseBlock c := by
  rw [State.courseFails_eq, (Logs.event _ _ _ _ _).courseBlock c, State.courseBlock_markFenced_ne _ h, (LosesMemory.loseMemory s f.course 2).courseBlock_ne h]

section
variable {l : List CourseFail}

theorem foldl_courseFails_marched (l : List CourseFail) (s : State) : Marched s (l.foldl State.courseFails s) :=
  foldl_rel Marched .refl (fun _ _ _ => .trans) _ State.courseFails_marched _ s

theorem foldl_courseFails_fences (l : List CourseFail) (s : State) : ∀ f ∈ l, ((l.foldl State.courseFails s).course f.course).fenced = true := by
  induction l generalizing s with
  | nil => exact fun _ h => absurd h List.not_mem_nil
  | cons g l ih =>
    intro f hf
    rw [List.foldl_cons]
    rcases List.mem_cons.mp hf with rfl | hf
    · exact (foldl_courseFails_marched l _).fenced _ (s.courseFails_fences f).1
    · exact ih _ f hf

theorem foldl_courseFails_degrades (h : l ≠ []) (s : State) : (l.foldl State.courseFails s).power.degraded = true := by
  obtain ⟨f, l, rfl⟩ := List.exists_cons_of_ne_nil h
  exact (foldl_courseFails_marched l _).degraded (s.courseFails_fences f).2

theorem courseBlock_foldl_courseFails {c : Fin 13} (h : ∀ f ∈ l, f.course ≠ c) (s : State) : (l.foldl State.courseFails s).courseBlock c = s.courseBlock c := by
  induction l generalizing s with
  | nil => rfl
  | cons f l ih =>
    rw [List.foldl_cons, ih (fun g hg => h g (List.mem_cons_of_mem _ hg)), State.courseBlock_courseFails_ne _ (h f List.mem_cons_self)]

end

/-! ### The whole phase -/

/-- The journal is tested only after power on or STANDBY (R232). -/
def State.journalMarched (s : State) : State :=
  if s.power.cause = 0 ∨ s.power.cause = 2 then { s with journal := { Journal.reset with fill := some journalFill } } else s

theorem State.trowelEnd_eq (s : State) (l : List CourseFail) : s.trowelEnd l = l.foldl State.courseFails s.journalMarched.marchPassed := rfl

theorem State.journalMarched_frame (s : State) : s.journalMarched = { s with journal := s.journalMarched.journal } := by
  unfold State.journalMarched
  split <;> rfl

/-- The end of phase TROWEL: the bounds, and what fails and passes. -/
theorem State.trowelEnd_marches (s : State) (l : List CourseFail) : Marched s.journalMarched (s.trowelEnd l) ∧
    (l ≠ [] → (s.trowelEnd l).power.degraded = true) ∧ (l = [] → (s.trowelEnd l).power.degraded = s.power.degraded) ∧
    (∀ f ∈ l, ((s.trowelEnd l).course f.course).fenced = true) ∧
    ∀ c, (∀ f ∈ l, f.course ≠ c) → (s.trowelEnd l).courseBlock c = passedBlock (s.courseBlock c) := by
  have hm := s.journalMarched.marchPassed_marched
  have hj := s.journalMarched_frame
  rw [State.trowelEnd_eq]
  refine ⟨hm.trans (foldl_courseFails_marched l _), fun h => foldl_courseFails_degrades h _, fun h => ?_, foldl_courseFails_fences l _, fun c hc => ?_⟩
  · subst h
    exact s.journalMarched.degraded_marchPassed.trans (by rw [hj])
  · rw [courseBlock_foldl_courseFails hc, State.courseBlock_marchPassed, hj]
    rfl

end

end Sys2Proof.Machine
end

section
/-! SUPPORT. The start manifest: one entry of it, and what the load of an image changes (R240, R246, R247). -/

namespace Sys2Proof.Machine

/-! ### What the assignment of balls and mailboxes leaves alone (R180, R239, R240) -/

/-- The bounds of an assignment: of the courses only their times, of the registers not COURSE_ROLE. -/
structure AssignLeaves (s t : State) : Prop where
  course : ∀ c, t.course c = { s.course c with base := (t.course c).base, gatedAt := (t.course c).gatedAt }
  flash : t.flash = s.flash
  otp : t.otp = s.otp
  role : t.reg 0x40 = s.reg 0x40

namespace AssignLeaves

section
variable {s t u : State}

theorem refl (s : State) : AssignLeaves s s := ⟨fun _ => rfl, rfl, rfl, rfl⟩

theorem trans (h1 : AssignLeaves s t) (h2 : AssignLeaves t u) : AssignLeaves s u :=
  ⟨fun c => (h2.course c).trans (by rw [h1.course c]), h2.flash.trans h1.flash, h2.otp.trans h1.otp, h2.role.trans h1.role⟩

theorem of_mail (h : MailLeaves s t) : AssignLeaves s t := by
  obtain ⟨hf, hc, -, -, -⟩ := h
  have hr : t.regs = s.regs := by rw [hf]
  exact ⟨hc, by rw [hf], by rw [hf], by rw [State.reg, hr, State.reg]⟩

theorem setOwner (s : State) (n : Nat) (v : Reg32) : AssignLeaves s (s.setReg (gpioOwnOff n) v) :=
  ⟨fun _ => rfl, rfl, rfl, State.reg_setReg_ne s v (by simp only [gpioOwnOff]; omega)⟩

theorem ownBalls (s : State) (im : LoadedImage) (c d : Fin 13) : AssignLeaves s (s.ownBalls im c d) :=
  foldl_rel AssignLeaves refl (fun _ _ _ => trans) _ (fun s _ => setOwner s _ _) _ s

theorem setRecv (s : State) (j : Fin 32) (r : BitVec 8) : AssignLeaves s (s.setRecv j r) := by
  unfold State.setRecv
  exact of_mail (.ite ((MailLeaves.setMailbox s j _).trans (MailLeaves.wakeEvent _ _ j)) (.setMailbox s j _))

theorem receivers (s : State) (c : Fin 13) (im : LoadedImage) : AssignLeaves s (s.receivers c im) := by
  refine foldl_rel AssignLeaves refl (fun _ _ _ => trans) _ (fun s k => ?_) _ s
  dsimp only
  split
  · exact setRecv s _ _
  · exact refl s

theorem assign (s : State) (c : Fin 13) (im : LoadedImage) : AssignLeaves s (s.assign c im) := by
  have h := (ownBalls s im c c).trans (receivers _ c im)
  unfold State.assign
  dsimp only
  split
  · exact h.trans ⟨fun _ => rfl, rfl, rfl, rfl⟩
  · exact h

theorem of_logs (h : Logs s t) : AssignLeaves s t := ⟨fun c => by rw [h.course c], h.flash, h.otp, h.reg 0x40⟩

end

end AssignLeaves

/-! ### The load of an image -/

section
variable {s : State} {c : Fin 13} {l : List Byte} {im : LoadedImage}

/-- What a change of COURSE_MODE changes (R212). -/
theorem State.setMode_frame (s : State) (c : Fin 13) (m : BitVec 2) :
    s.setMode c m = { s with courses := (s.setMode c m).courses, journal := (s.setMode c m).journal } := by
  unfold State.setMode
  rw [State.jrec_eq]
  rfl

theorem State.course_setMode (s : State) (c : Fin 13) (m : BitVec 2) : (s.setMode c m).course c = { s.course c with mode := m } := by
  unfold State.setMode
  rw [State.course_jrec, State.course_setCourse]

theorem State.course_setMode_ne (s : State) {c d : Fin 13} (m : BitVec 2) (h : d ≠ c) : (s.setMode c m).course d = s.course d := by
  unfold State.setMode
  rw [State.course_jrec, State.course_setCourse_ne s _ h]

/-- The course takes its bank and its image, in mode 1 and not released. -/
def State.imaged (s : State) (c : Fin 13) (l : List Byte) (im : LoadedImage) : State :=
  (s.setMode c 1).modCourse c (fun x => { x with bank := bankOf l im, rxmap := BitVec.ofNat 16 (im.resNat 0x14 2), image := some im, released := false })

/-- Only bricks and tiles change. -/
def OnlyBricksTiles (s t : State) : Prop := t = { s with bricks := t.bricks, tiles := t.tiles }

theorem OnlyBricksTiles.trans {s t u : State} (h1 : OnlyBricksTiles s t) (h2 : OnlyBricksTiles t u) : OnlyBricksTiles s u := by
  refine Eq.trans h2 ?_
  rw [show t = _ from h1]

theorem OnlyBricksTiles.modBrick (s : State) (k : Fin 52) (f : Brick → Brick) : OnlyBricksTiles s (s.modBrick k f) := rfl
theorem OnlyBricksTiles.modTile (s : State) (k : Fin 208) (f : Tile → Tile) : OnlyBricksTiles s (s.modTile k f) := rfl

theorem OnlyBricksTiles.foldl {β : Type} {f : State → β → State} (h : ∀ s b, OnlyBricksTiles s (f s b)) (l : List β) (s : State) :
    OnlyBricksTiles s (l.foldl f s) := foldl_rel OnlyBricksTiles (fun _ => rfl) (fun _ _ _ => .trans) f h l s

theorem OnlyBricksTiles.course {s t : State} (h : OnlyBricksTiles s t) (c : Fin 13) : t.course c = s.course c := (congrArg (State.course · c) h).trans rfl
theorem OnlyBricksTiles.flash {s t : State} (h : OnlyBricksTiles s t) : t.flash = s.flash := (congrArg State.flash h).trans rfl
theorem OnlyBricksTiles.otp {s t : State} (h : OnlyBricksTiles s t) : t.otp = s.otp := (congrArg State.otp h).trans rfl
theorem OnlyBricksTiles.regs {s t : State} (h : OnlyBricksTiles s t) : t.regs = s.regs := (congrArg State.regs h).trans rfl

theorem State.writeImage_only (s : State) (c : Fin 13) (l : List Byte) (im : LoadedImage) : OnlyBricksTiles (s.imaged c l im) (s.writeImage c l im) := by
  unfold State.writeImage
  refine .trans ?_ (.foldl (fun s i => .modTile s _ _) _ _)
  exact .foldl (fun s b => .modBrick s _ _) _ _

theorem State.course_imaged : (s.imaged c l im).course c = { s.course c with mode := 1, bank := bankOf l im, rxmap := BitVec.ofNat 16 (im.resNat 0x14 2), image := some im, released := false } := by
  rw [State.imaged, State.course_modCourse, State.course_setMode]

theorem State.course_imaged_ne {d : Fin 13} (h : d ≠ c) : (s.imaged c l im).course d = s.course d := by
  rw [State.imaged, State.course_modCourse_ne _ _ h, State.course_setMode_ne s _ h]

/-- A loaded image: its course, the others, and what stays (R246, R247). -/
theorem State.putImage_loads (s : State) (c : Fin 13) (l : List Byte) (im : LoadedImage) :
    ((s.putImage c l im).course c).image = some im ∧ ((s.putImage c l im).course c).mode = 1 ∧ ((s.putImage c l im).course c).released = false ∧
      (∀ x, x ≠ c → ((s.putImage c l im).course x).bank = (s.course x).bank ∧ ((s.putImage c l im).course x).image = (s.course x).image) ∧
      (s.putImage c l im).flash = s.flash ∧ (s.putImage c l im).otp = s.otp ∧ (s.putImage c l im).reg 0x40 = s.reg 0x40 := by
  have hw := s.writeImage_only c l im
  have ha : AssignLeaves (s.writeImage c l im) (s.putImage c l im) := (AssignLeaves.assign _ c im).trans (.of_logs (Logs.event _ _ _ _ _))
  have hf := (s.setMode_frame c 1)
  have hi : (s.imaged c l im).flash = s.flash ∧ (s.imaged c l im).otp = s.otp ∧ (s.imaged c l im).regs = s.regs :=
    ⟨(congrArg State.flash hf).trans rfl, (congrArg State.otp hf).trans rfl, (congrArg State.regs hf).trans rfl⟩
  refine ⟨?_, ?_, ?_, fun x hx => ?_, ?_, ?_, ?_⟩
  · rw [ha.course c, hw.course, State.course_imaged]
  · rw [ha.course c, hw.course, State.course_imaged]
  · rw [ha.course c, hw.course, State.course_imaged]
  · rw [ha.course x, hw.course, State.course_imaged_ne hx]
    exact ⟨rfl, rfl⟩
  · rw [ha.flash, hw.flash, hi.1]
  · rw [ha.otp, hw.otp, hi.2.1]
  · rw [ha.role, State.reg, hw.regs, hi.2.2, State.reg]

end

/-! ### One entry (R241, R246, R247; log 37) -/

/-- An entry of the manifest: its words, the course it names, and the image of its slot. -/
structure EntryIs (s : State) (e : List Byte) (c : Fin 13) (n : Nat) (l : List Byte) (g : List Reg32) : Prop where
  words : ∀ k, k < 32 → nth g k 0 = BitVec.ofNat 32 (imgNat e (4 * k) 4)
  length : g.length = 32
  course : imgNat e 0 4 / 2 ^ 28 % 16 = c.val
  slot : n = imgNat e 0 4 % 256
  small : n < 48
  image : l = s.slotImage n

/-- Course c takes image l of the entry, or the section that fails is reported under course n. -/
def State.placeImage (s : State) (c : Fin 13) (l : List Byte) (im : LoadedImage) (n : Nat) : Except (Nat × Nat) State :=
  match s.loadBad c c l im with
  | some (_, k) => .error (k, n)
  | none => .ok (s.putImage c l im)

section
variable {s : State} {e : List Byte} {c : Fin 13} {n : Nat} {l : List Byte} {g : List Reg32}

theorem bits_entryCourse (v : Nat) : bits (BitVec.ofNat 32 v : Reg32) 31 28 = v / 2 ^ 28 % 16 := by
  simp only [bits, BitVec.extractLsb'_toNat, BitVec.toNat_ofNat, Nat.shiftRight_eq_div_pow]
  omega

theorem bits_entrySlot (v : Nat) : bits (BitVec.ofNat 32 v : Reg32) 7 0 = v % 256 := by
  simp only [bits, BitVec.extractLsb'_toNat, BitVec.toNat_ofNat, Nat.shiftRight_eq_div_pow]
  omega

theorem EntryIs.stage (h : EntryIs s e c n l g) : (List.range 32).map (fun k => (BitVec.ofNat 32 (imgNat e (4 * k) 4) : Reg32)) = g := by
  refine List.ext_getElem (by simp [h.length]) fun k hk hg => ?_
  have hk' : k < 32 := by simpa using hk
  rw [List.getElem_map, List.getElem_range, ← h.words k hk']
  simp [nth, hg]

/-- What an entry does, by the course that it names. -/
theorem State.manifestEntry_of (h : EntryIs s e c n l g) : s.manifestEntry e =
    if (s.course c).fenced then
      match s.standby with
      | some d => if (s.course d).fenced ∨ s.loaded d then .ok s else (s.setReg 0x40 (setBit (s.reg 0x40) 31 false)).placeImage d l (loadedOf d l g 0) c.val
      | none => .ok s
    else if s.loaded c ∨ s.standby = some c then .error (0, c.val)
    else s.placeImage c l (loadedOf c l g 0) c.val := by
  have hst := h.stage
  obtain ⟨hw, -, hc, hn, hs, rfl⟩ := h
  have h0 : nth g 0 0 = BitVec.ofNat 32 (imgNat e 0 4) := hw 0 (by decide)
  have hb : bits (nth g 0 0) 31 28 = c.val := by rw [h0, bits_entryCourse, hc]
  have hsl : bits (nth g 0 0) 7 0 = n := by rw [h0, bits_entrySlot, hn]
  have hv : bits (nth g 0 0) 31 28 < 13 := by rw [hb]; exact c.isLt
  have hce : (⟨bits (nth g 0 0) 31 28, hv⟩ : Fin 13) = c := Fin.ext hb
  unfold State.manifestEntry
  rw [hst]
  dsimp only
  rw [dif_pos hv, hce, hb, hsl, if_neg (Nat.not_le.mpr hs)]
  rfl

theorem State.manifestEntry_takes (h : EntryIs s e c n l g) (hf : (s.course c).fenced = false) (hi : (s.course c).image = none) (hs : s.standby ≠ some c) :
    s.manifestEntry e = s.placeImage c l (loadedOf c l g 0) c.val := by
  rw [State.manifestEntry_of h, if_neg (by rw [hf]; exact Bool.false_ne_true), if_neg ?_]
  rintro (hl | hl)
  · rw [State.loaded, hi] at hl
    exact absurd hl nofun
  · exact hs hl

theorem State.manifestEntry_standby (h : EntryIs s e c n l g) (hc : (s.course c).fenced = true) {d : Fin 13} (hd : s.standby = some d)
    (hf : (s.course d).fenced = false) (hi : (s.course d).image = none) :
    s.manifestEntry e = (s.setReg 0x40 (setBit (s.reg 0x40) 31 false)).placeImage d l (loadedOf d l g 0) c.val := by
  rw [State.manifestEntry_of h, if_pos hc, hd]
  dsimp only
  rw [if_neg ?_]
  rw [hf, State.loaded, hi]
  simp

theorem State.manifestEntry_skipped (h : EntryIs s e c n l g) (hc : (s.course c).fenced = true)
    (hs : s.standby = none ∨ ∃ d, s.standby = some d ∧ ((s.course d).fenced = true ∨ (s.course d).image.isSome = true)) : s.manifestEntry e = .ok s := by
  rw [State.manifestEntry_of h, if_pos hc]
  rcases hs with hs | ⟨d, hs, hd⟩
  · rw [hs]
  · rw [hs]
    exact if_pos hd

theorem State.placeImage_good {im : LoadedImage} (h : s.loadBad c c l im = none) : s.placeImage c l im n = .ok (s.putImage c l im) := by
  rw [State.placeImage, h]

theorem State.placeImage_bad {im : LoadedImage} {x k : Nat} (h : s.loadBad c c l im = some (x, k)) : s.placeImage c l im n = .error (k, n) := by
  rw [State.placeImage, h]

end

end Sys2Proof.Machine
end

section
/-! SUPPORT. The release of the loaded courses as PHASE becomes RUNNING (R84, R88, R245, R247). -/

namespace Sys2Proof.Machine

/-- What fragments, ports and the release of a course do not reach. -/
def State.core (s : State) : Power × Vector Course 13 × Vector Brick 52 × Memory × List (Nat × Reg32) := (s.power, s.courses, s.bricks, s.flash, s.otp)

/-- t has the core of s. -/
def KeepsCore (s t : State) : Prop := t.core = s.core

namespace KeepsCore

section
variable {s t u : State}

theorem refl (s : State) : KeepsCore s s := rfl
theorem trans (h1 : KeepsCore s t) (h2 : KeepsCore t u) : KeepsCore s u := Eq.trans h2 h1

theorem ite {p : Prop} [Decidable p] (h1 : KeepsCore s t) (h2 : KeepsCore s u) : KeepsCore s (if p then t else u) := by
  split
  · exact h1
  · exact h2

theorem foldl {β : Type} {f : State → β → State} (h : ∀ s b, KeepsCore s (f s b)) (l : List β) (s : State) : KeepsCore s (l.foldl f s) :=
  foldl_rel KeepsCore refl (fun _ _ _ => trans) f h l s

theorem of_logs (h : Logs s t) : KeepsCore s t := by
  simp only [KeepsCore, State.core, h.power, h.courses, h.bricks, h.flash, h.otp]

theorem of_port {q : PortCode} (h : PortLeaves s t q) : KeepsCore s t := by
  have hf : t.flash = s.flash := (congrArg State.flash h.1).trans rfl
  have ho : t.otp = s.otp := (congrArg State.otp h.1).trans rfl
  simp only [KeepsCore, State.core, h.power, h.courses, h.bricks, hf, ho]

theorem of_plumb (h : OnlyPlumb s t) : KeepsCore s t := (congrArg State.core h).trans rfl

theorem setReg (s : State) (a : Nat) (v : Reg32) : KeepsCore s (s.setReg a v) := rfl
theorem modPort (s : State) (q : PortCode) (f : Port → Port) : KeepsCore s (s.modPort q f) := rfl
theorem modFc (s : State) (n : Fin 256) (f : FlowCtx → FlowCtx) : KeepsCore s (s.modFc n f) := rfl
theorem refused (s : State) (p : Party) (o v : Nat) : KeepsCore s (s.refused p o v) := of_logs (Logs.refused s p o v)

theorem power (h : KeepsCore s t) : t.power = s.power := congrArg (fun x => x.1) h
theorem courses (h : KeepsCore s t) : t.courses = s.courses := congrArg (fun x => x.2.1) h
theorem bricks (h : KeepsCore s t) : t.bricks = s.bricks := congrArg (fun x => x.2.2.1) h
theorem flash (h : KeepsCore s t) : t.flash = s.flash := congrArg (fun x => x.2.2.2.1) h
theorem otp (h : KeepsCore s t) : t.otp = s.otp := congrArg (fun x => x.2.2.2.2) h

end

end KeepsCore

/-! ### A link goes up or down (R259, R283, R515) -/

theorem PortLeaves.cutLines (s : State) (q : PortCode) (ids : List Nat) : PortLeaves s
    { s with lineOut := s.lineOut.map (fun (l : LineFrame) => if l.port = q ∧ ids.contains l.id then { l with cut := true } else l) } q :=
  ⟨rfl, fun _ _ => rfl, rfl, rfl⟩

theorem PortLeaves.portDown (s : State) (q : PortCode) : PortLeaves s (s.portDown q) q := by
  unfold State.portDown
  dsimp only
  split
  · refine .trans ?_ (.holdStart _ q)
    refine .trans ?_ (.countPort _ q _ _)
    refine .trans ?_ (.countPort _ q _ _)
    exact .trans (.setPort s q _) (.cutLines _ q _)
  · exact .refl s q

theorem KeepsCore.portUp (s : State) (q : PortCode) (r : BitVec 3) : KeepsCore s (s.portUp q r) := by
  unfold State.portUp
  cases q.isU || q.isH <;> rfl

/-! ### Fragments (R243, R245) -/

section
variable (s : State) (p : Party)

theorem KeepsCore.portEnable (q : PortCode) (was is : Bool) : KeepsCore s (s.portEnable q was is) :=
  .ite (.refl s) (.ite (.ite (.portUp s q 5) (.of_port (.holdStart s q))) (.of_port (.portDown s q)))

theorem KeepsCore.portCfgSet (q : PortCode) (v : Reg32) : KeepsCore s (s.portCfgSet p q v) := by
  have h : KeepsCore s (s.portCfgWrite p q v) := .ite (.refused _ _ _ _) ((KeepsCore.setReg s _ _).trans (.portEnable _ _ _ _))
  exact .ite h (h.trans (.of_plumb (State.loadDelays_only _ _)))

theorem KeepsCore.filterCommit (q : PortCode) (e : Nat) (v : Reg32) : KeepsCore s (s.filterCommit q e v) := by
  unfold State.filterCommit
  dsimp only
  refine .trans (KeepsCore.trans (.setReg s _ _) (.foldl (fun s x => ?_) _ _)) (.modPort _ _ _)
  split <;> rfl

theorem KeepsCore.filterStage (q : PortCode) (o : Nat) (v : Reg32) : KeepsCore s (s.filterStage q o v) := .modPort s q _

theorem KeepsCore.gclWrite (q : PortCode) (v : Reg32) : KeepsCore s (s.gclWrite q v) := by
  unfold State.gclWrite
  dsimp only
  have h := KeepsCore.setReg s (portBase q + 0x800) (v &&& 0x880001FF)
  exact .ite (.ite (h.trans (.modPort _ _ _)) (h.trans (.modPort _ _ _))) h

theorem KeepsCore.portWrite (q : PortCode) (o : Nat) (v : Reg32) : KeepsCore s (s.portWrite p q o v) := by
  unfold State.portWrite
  split
  · exact .ite (.refused s _ _ _) (.setReg s _ _)
  split
  · exact .refl s
  split
  · exact .portCfgSet s p q v
  split
  · exact .refused s _ _ _
  split
  · exact .ite (.ite (.filterCommit s q _ v) (.filterStage s q o v)) (.refl s)
  split
  · exact .gclWrite s q v
  · exact .ite (.refl s) (.setReg s _ _)

theorem KeepsCore.fcWrite (f : Fin 256) (o : Nat) (v : Reg32) : KeepsCore s (s.fcWrite p f o v) :=
  .ite (.ite (.refused _ _ _ _) rfl) (.ite (.ite (.refused _ _ _ _) (.ite rfl (.ite rfl (.ite rfl rfl)))) rfl)

/-- A fragment's offset into the plumb's block lies below that block's BAR0 base, where a write stores into a register. -/
theorem KeepsCore.plumbWrite_low {off : Nat} (h : off ≤ 0x200000) (v : Reg32) : KeepsCore s (s.plumbWrite p off v) := by
  unfold State.plumbWrite
  dsimp only
  rw [dif_neg (by omega), dif_neg (by omega), if_neg (by omega), if_neg (by omega)]
  split
  · exact .refused s _ _ _
  · rw [if_pos (by omega)]
    exact .setReg s _ _

theorem KeepsCore.fragWrite (a : Nat) (v : Reg32) : KeepsCore s (s.fragWrite a v) := by
  unfold State.fragWrite
  split
  · exact .plumbWrite_low s _ (by omega) v
  · split
    · split
      · exact .portWrite s _ _ _ v
      · exact .refl s
    · split
      · exact .fcWrite s _ _ _ v
      · exact .refl s

theorem KeepsCore.applyFrags (c : Fin 13) (im : LoadedImage) (l : List FragRec) : KeepsCore s (s.applyFrags c im l) :=
  .foldl (fun s r => by
    split
    · exact .fragWrite s _ _
    · exact .refl s) l s

end

/-! ### A course runs (R247) -/

/-- Only bricks and tiles change, and no instruction memory. -/
structure RunLeaves (s t : State) : Prop where
  only : OnlyBricksTiles s t
  imem : ∀ k, (t.brick k).imem = (s.brick k).imem

namespace RunLeaves

theorem refl (s : State) : RunLeaves s s := ⟨rfl, fun _ => rfl⟩

theorem trans {s t u : State} (h1 : RunLeaves s t) (h2 : RunLeaves t u) : RunLeaves s u :=
  ⟨h1.only.trans h2.only, fun k => (h2.imem k).trans (h1.imem k)⟩

theorem modBrick (s : State) (k : Fin 52) (f : Brick → Brick) (h : (f (s.brick k)).imem = (s.brick k).imem) : RunLeaves s (s.modBrick k f) := by
  refine ⟨rfl, fun i => ?_⟩
  by_cases hi : i = k
  · subst hi
    rw [State.brick_modBrick]
    exact h
  · rw [State.brick_modBrick_ne _ _ hi]

theorem startBrick (s : State) (k : Fin 52) : RunLeaves s (s.startBrick k) := by
  unfold State.startBrick
  exact modBrick s k _ rfl

theorem runCourse (s : State) (c : Fin 13) (im : LoadedImage) : RunLeaves s (s.runCourse c im) := by
  unfold State.runCourse
  refine .trans (foldl_rel RunLeaves refl (fun _ _ _ => trans) _ (fun s b => ?_) _ s) (foldl_rel RunLeaves refl (fun _ _ _ => trans) _ (fun s i => ?_) _ _)
  · dsimp only
    have h := modBrick s (brickOf c b) (fun x => { x with runBit := true }) rfl
    split
    · split
      · exact h.trans (startBrick _ _)
      · exact h
    · exact refl s
  · split
    · exact ⟨rfl, fun _ => rfl⟩
    · exact refl s

end RunLeaves

/-! ### The release of a course (R247) -/

/-- The bounds of releases: courses but for their release and their mode, and no memory. -/
structure ReleaseLeaves (s t : State) : Prop where
  power : t.power = s.power
  flash : t.flash = s.flash
  otp : t.otp = s.otp
  course : ∀ c, t.course c = { s.course c with released := (t.course c).released, release := (t.course c).release, mode := (t.course c).mode }
  imem : ∀ k, (t.brick k).imem = (s.brick k).imem

namespace ReleaseLeaves

section
variable {s t u : State}

theorem refl (s : State) : ReleaseLeaves s s := ⟨rfl, rfl, rfl, fun _ => rfl, fun _ => rfl⟩

theorem trans (h1 : ReleaseLeaves s t) (h2 : ReleaseLeaves t u) : ReleaseLeaves s u :=
  ⟨h2.power.trans h1.power, h2.flash.trans h1.flash, h2.otp.trans h1.otp, fun c => (h2.course c).trans (by rw [h1.course c]), fun k => (h2.imem k).trans (h1.imem k)⟩

theorem sameMemories (h : ReleaseLeaves s t) : SameMemories s t := ⟨fun c => by rw [h.course c]; exact ⟨rfl, rfl⟩, h.imem⟩

end

end ReleaseLeaves

section
variable {s : State} {c : Fin 13}

/-- A released course before its mode changes: its bricks run and its fragments are written. -/
def State.releaseBegun (s : State) (c : Fin 13) (im : LoadedImage) : State :=
  (((s.modCourse c (fun x => { x with released := true, release := none })).runCourse c im).applyFrags c im im.fragment).portUp (portCp c) 0

theorem State.releaseCourse_some {im : LoadedImage} (h : (s.course c).image = some im) : s.releaseCourse c = (s.releaseBegun c im).setMode c 0 := by
  unfold State.releaseCourse
  rw [h]
  rfl

theorem State.releaseCourse_none (h : (s.course c).image = none) : s.releaseCourse c = s := by
  unfold State.releaseCourse
  rw [h]

theorem State.releaseBegun_keeps (s : State) (c : Fin 13) (im : LoadedImage) : ∃ x, RunLeaves (s.modCourse c (fun x => { x with released := true, release := none })) x ∧
    KeepsCore x (s.releaseBegun c im) :=
  ⟨_, .runCourse _ c im, (KeepsCore.applyFrags _ c im _).trans (.portUp _ _ _)⟩

theorem State.course_releaseCourse {im : LoadedImage} (h : (s.course c).image = some im) :
    (s.releaseCourse c).course c = { s.course c with released := true, release := none, mode := 0 } := by
  obtain ⟨x, hx, hk⟩ := s.releaseBegun_keeps c im
  have hc : (s.releaseBegun c im).course c = x.course c := by simp only [State.course, hk.courses]
  rw [State.releaseCourse_some h, State.course_setMode, hc, hx.only.course, State.course_modCourse]

theorem State.course_releaseCourse_ne (s : State) (c d : Fin 13) (hd : d ≠ c) : (s.releaseCourse c).course d = s.course d := by
  cases h : (s.course c).image with
  | none => rw [State.releaseCourse_none h]
  | some im =>
    obtain ⟨x, hx, hk⟩ := s.releaseBegun_keeps c im
    have hc : (s.releaseBegun c im).course d = x.course d := by simp only [State.course, hk.courses]
    rw [State.releaseCourse_some h, State.course_setMode_ne _ _ hd, hc, hx.only.course, State.course_modCourse_ne _ _ hd]

theorem ReleaseLeaves.releaseCourse (s : State) (c : Fin 13) : ReleaseLeaves s (s.releaseCourse c) := by
  cases h : (s.course c).image with
  | none => rw [State.releaseCourse_none h]; exact .refl s
  | some im =>
    have hcc := State.course_releaseCourse h
    have hcd := s.course_releaseCourse_ne c
    obtain ⟨x, hx, hk⟩ := s.releaseBegun_keeps c im
    have hm := (s.releaseBegun c im).setMode_frame c 0
    rw [← State.releaseCourse_some h] at hm
    generalize s.releaseCourse c = t at hcc hcd hm
    have hp : t.power = (s.releaseBegun c im).power := (congrArg State.power hm).trans rfl
    have hf : t.flash = (s.releaseBegun c im).flash := (congrArg State.flash hm).trans rfl
    have ho : t.otp = (s.releaseBegun c im).otp := (congrArg State.otp hm).trans rfl
    have hb : t.bricks = (s.releaseBegun c im).bricks := (congrArg State.bricks hm).trans rfl
    refine ⟨?_, ?_, ?_, fun d => ?_, fun k => ?_⟩
    · rw [hp, hk.power, hx.only]
      rfl
    · rw [hf, hk.flash, hx.only]
      rfl
    · rw [ho, hk.otp, hx.only]
      rfl
    · by_cases hd : d = c
      · subst hd
        rw [hcc]
      · rw [hcd d hd]
    · have hbk : t.brick k = x.brick k := by simp only [State.brick, hb, hk.bricks]
      rw [hbk]
      exact hx.imem k

/-- Every loaded course is released. -/
theorem foldl_releaseCourse (s : State) (c : Fin 13) :
    (∀ im, (s.course c).image = some im → ((List.finRange 13).foldl State.releaseCourse s).course c = { s.course c with released := true, release := none, mode := 0 }) ∧
    ((s.course c).image = none → ((List.finRange 13).foldl State.releaseCourse s).course c = s.course c) := by
  obtain ⟨u, -, hg, he⟩ := foldl_member (g := State.course) (R := fun _ _ => True) (fun _ => trivial) (fun _ _ _ _ _ => trivial)
    (fun _ _ => trivial) State.course_releaseCourse_ne (List.nodup_finRange 13) (List.mem_finRange c) s
  refine ⟨fun im h => ?_, fun h => ?_⟩
  · rw [he, State.course_releaseCourse (by rw [hg]; exact h), hg]
  · rw [he, State.releaseCourse_none (by rw [hg]; exact h), hg]

/-! ### RUNNING (R84, R86, R88) -/

/-- PHASE is RUNNING and the count is cleared, before any course is released. -/
def State.runningBegun (s : State) : State :=
  (((s.urralStart).enterPhase .running).modRecord (fun r => { r with count := 0 })).modPower (fun p => { p with fault := false, failRecorded := true })

theorem State.enterRunning_eq (s : State) : s.enterRunning = (List.finRange 13).foldl State.releaseCourse s.runningBegun := rfl

theorem State.runningBegun_keeps (s : State) : ∃ x, Enters s.urralStart x .running ∧
    s.runningBegun = (x.modRecord (fun r => { r with count := 0 })).modPower (fun p => { p with fault := false, failRecorded := true }) :=
  ⟨_, State.enterPhase_enters _ _, rfl⟩

/-- The device runs: its start record, its courses, and what stays. -/
theorem State.enterRunning_runs (s : State) : s.enterRunning.power.phase = .running ∧
    s.enterRunning.power.startRec = { s.power.startRec with count := 0, phase := 6 } ∧ s.enterRunning.power.fault = false ∧
    (∀ c, (s.course c).image.isSome = true → (s.enterRunning.course c).released = true ∧ (s.enterRunning.course c).mode = 0) ∧
    (∀ c, (s.course c).image = none → (s.enterRunning.course c).released = (s.course c).released) ∧ SameMemories s s.enterRunning ∧
    s.enterRunning.flash = s.flash ∧ s.enterRunning.otp = s.otp := by
  obtain ⟨x, hx, hb⟩ := s.runningBegun_keeps
  have hr : ReleaseLeaves s.runningBegun s.enterRunning :=
    foldl_rel ReleaseLeaves .refl (fun _ _ _ => .trans) _ ReleaseLeaves.releaseCourse _ s.runningBegun
  have hf := foldl_releaseCourse s.runningBegun
  rw [← State.enterRunning_eq] at hf
  generalize s.enterRunning = t at hr hf
  generalize s.runningBegun = y at hb hr hf
  have hxp : x.power = { s.power with phase := .running, startRec := { s.power.startRec with phase := 6 } } := hx.power
  have hyp : y.power = { x.power with startRec := { x.power.startRec with count := 0 }, fault := false, failRecorded := true } := by rw [hb]; rfl
  have hyc : ∀ c, y.course c = s.course c := fun c => by
    rw [hb]
    exact hx.course c
  have hyb : ∀ k, y.brick k = s.brick k := fun k => by
    rw [hb]
    exact hx.brick k
  have hym : SameMemories s y := ⟨fun c => by rw [hyc c]; exact ⟨rfl, rfl⟩, fun k => by rw [hyb k]⟩
  have hyf : y.flash = s.flash := by
    rw [hb]
    exact hx.flash
  have hyo : y.otp = s.otp := by
    rw [hb]
    exact hx.otp
  refine ⟨by rw [hr.power, hyp, hxp], by rw [hr.power, hyp, hxp], by rw [hr.power, hyp], fun c hc => ?_, fun c hc => ?_, hym.trans hr.sameMemories,
    hr.flash.trans hyf, hr.otp.trans hyo⟩
  · obtain ⟨im, him⟩ := Option.isSome_iff_exists.mp hc
    rw [(hf c).1 im (by rw [hyc]; exact him)]
    exact ⟨rfl, rfl⟩
  · rw [(hf c).2 (by rw [hyc]; exact hc), hyc]

end

end Sys2Proof.Machine
end

section
/-! SUPPORT. The loss of rails, and the instructions of the TAP (R61, R62, R65, R74, R80, R466). -/

namespace Sys2Proof.Machine

/-! ### Rails -/

/-- The bounds of a loss of all memories. -/
structure AllLost (s t : State) : Prop where
  frame : t = { s with freeCtr := t.freeCtr, courses := t.courses, bricks := t.bricks }
  course : ∀ c, t.course c = { s.course c with bank := (t.course c).bank }
  brick : ∀ k, t.brick k = { s.brick k with imem := (t.brick k).imem, pre := (t.brick k).pre }
  pre : ∀ k, (s.brick k).pre = [] → (t.brick k).pre = []

namespace AllLost

theorem refl (s : State) : AllLost s s := ⟨rfl, fun _ => rfl, fun _ => rfl, fun _ => id⟩

theorem trans {s t u : State} (h1 : AllLost s t) (h2 : AllLost t u) : AllLost s u :=
  ⟨h2.frame.trans (by rw [h1.frame]), fun c => (h2.course c).trans (by rw [h1.course c]), fun k => (h2.brick k).trans (by rw [h1.brick k]),
    fun k h => h2.pre k (h1.pre k h)⟩

theorem loseMemory (s : State) (c : Fin 13) (tgt : BitVec 2) : AllLost s (s.loseMemory c tgt) := by
  have h := LosesMemory.loseMemory s c tgt
  refine ⟨h.frame, fun d => ?_, h.brick, h.pre⟩
  by_cases hd : d = c
  · subst hd
    exact h.course
  · rw [h.other d hd]

/-- The memories of every course. -/
theorem foldl (s : State) : AllLost s ((List.finRange 13).foldl (fun s c => s.loseMemory c 2) s) :=
  foldl_rel AllLost refl (fun _ _ _ => trans) _ (fun s c => loseMemory s c 2) _ s

end AllLost

section
variable {s : State}

theorem State.losePrograms_frame (s : State) : s.losePrograms = { s with tiles := s.losePrograms.tiles, freeCtr := s.losePrograms.freeCtr } := rfl

theorem State.tile_losePrograms (s : State) (k : Fin 208) : s.losePrograms.tile k = { s.tile k with prog := (s.losePrograms.tile k).prog } := by
  simp only [State.tile, State.losePrograms, Fin.getElem_fin, Vector.getElem_ofFn]

/-- The reset of rails that go, before the memories lose their contents. -/
def State.railsReset (s : State) : State := (s.modPower (fun p => { p with sramLost := true, rstLow := true, tap := .idcode })).deviceReset 0

theorem State.railsOff_eq (s : State) (left : Supply) : s.railsOff left =
    ((List.finRange 13).foldl (fun s c => s.loseMemory c 2) s.railsReset).losePrograms.modPower (fun p => { p with supply := left }) := rfl

/-- The rails gone, given what the loss of the memories and of the programs changes. -/
theorem RailsGone.of_lost {u v w : State} {left : Supply} (hw : WasReset { s with power := { s.power with sramLost := true, rstLow := true, tap := .idcode } } u 0)
    (hl : AllLost u v) (hp : w = { v with tiles := w.tiles, freeCtr := w.freeCtr }) (ht : ∀ k, w.tile k = { v.tile k with prog := (w.tile k).prog }) :
    RailsGone s (w.modPower (fun p => { p with supply := left })) left := by
  have hpart := hw
  obtain ⟨-, -, -, -, -, hc, hb, hut, -⟩ := hpart
  have hvt : ∀ k, v.tile k = u.tile k := fun k => (congrArg (State.tile · k) hl.frame).trans rfl
  have hwc : w.courses = v.courses := (congrArg State.courses hp).trans rfl
  have hwb : w.bricks = v.bricks := (congrArg State.bricks hp).trans rfl
  refine ⟨u, hw, fun c => ?_, fun k => ?_, fun k => ?_, ?_⟩
  · have hcc : w.course c = v.course c := by simp only [State.course, hwc]
    change w.course c = { Course.reset with bank := (w.course c).bank }
    rw [hcc]
    conv_lhs => rw [hl.course c, hc c]
  · have hbb : w.brick k = v.brick k := by simp only [State.brick, hwb]
    have hpre : (v.brick k).pre = [] := hl.pre k (by rw [hb k]; rfl)
    change w.brick k = { Brick.reset with imem := (w.brick k).imem }
    rw [hbb]
    conv_lhs => rw [hl.brick k, hb k, hpre]
    rfl
  · change w.tile k = { Tile.reset with prog := (w.tile k).prog }
    conv_lhs => rw [ht k, hvt k, hut k]
  · change w.modPower _ = { u with freeCtr := w.freeCtr, courses := w.courses, bricks := w.bricks, tiles := w.tiles, power := { u.power with supply := left } }
    rw [hwc, hwb]
    conv_lhs => rw [hp, hl.frame]
    rfl

/-- All rails but VAON, or VAON too, are gone (R74, R80). -/
theorem State.railsOff_gone (s : State) (left : Supply) : RailsGone s (s.railsOff left) left := by
  rw [State.railsOff_eq]
  exact .of_lost (State.deviceReset_resets _ 0).1 (AllLost.foldl s.railsReset) (State.losePrograms_frame _) (State.tile_losePrograms _)

/-! ### The TAP -/

theorem exec_tapInstruction_eq (i : TapInstr) : exec (.tapInstruction i) s =
    s.when_ (decide (s.power.supply = .on)) (fun s => s.tapTo (if s.tapAllowed i then i else .bypass)) := rfl

theorem exec_extestExit_eq : exec .extestExit s = s.when_ (decide (s.power.supply = .on) && s.power.tap.extestClass) (fun s => s.tapTo .idcode) := rfl

theorem exec_tapInstruction {i j : TapInstr} (ho : s.power.supply = .on) (hj : (if s.tapAllowed i then i else .bypass) = j) :
    exec (.tapInstruction i) s = .next (s.tapTo j) := by
  rw [exec_tapInstruction_eq, State.when_of_true s _ (by rw [ho]; rfl), hj]

/-- An EXTEST-class instruction is allowed at every level. -/
theorem State.tapAllowed_extest {i : TapInstr} (h : i.extestClass = true) : s.tapAllowed i = true := by
  cases i with
  | dbgAccess | keystoneHalt | keystoneTrace | internalScan => exact absurd h (by decide)
  | _ => rfl

/-- The instruction selected, with nothing else to do. -/
def State.tapSet (s : State) (i : TapInstr) : State := s.modPower (fun p => { p with tap := i })

section
variable {i : TapInstr}

theorem internalScan_ne_of_extest (h : i.extestClass = true) : i ≠ .internalScan := by
  rintro rfl
  exact absurd h (by decide)

/-- The session's secrets go with the entry of internal scan. -/
def State.tapWiped (s : State) (i : TapInstr) : State := if i = .internalScan ∧ s.power.tap ≠ .internalScan then s.endSession true else s

/-- What follows the selection of i in place of old. -/
def State.tapGo (s : State) (old i : TapInstr) : State :=
  if i.extestClass then (if old.extestClass then s else s.deviceReset 3)
  else if old.extestClass then s.restart 3
  else if old = .internalScan ∧ i ≠ .internalScan then s.restart 7
  else s

theorem State.tapTo_eq (s : State) (i : TapInstr) : s.tapTo i = ((s.tapWiped i).tapSet i).tapGo s.power.tap i := rfl

theorem State.tapTo_of_not_scan (h : i ≠ .internalScan) : s.tapTo i = (s.tapSet i).tapGo s.power.tap i := by
  rw [State.tapTo_eq, State.tapWiped, if_neg (fun hn => h hn.1)]

theorem State.tapTo_plain (hi : i.extestClass = false) (hs : i ≠ .internalScan) (he : s.power.tap.extestClass = false) (hn : s.power.tap ≠ .internalScan) :
    s.tapTo i = s.tapSet i := by
  rw [State.tapTo_of_not_scan hs, State.tapGo, if_neg (by rw [hi]; exact Bool.false_ne_true), if_neg (by rw [he]; exact Bool.false_ne_true), if_neg (fun h => hn h.1)]

theorem State.tapTo_extest (hi : i.extestClass = true) (he : s.power.tap.extestClass = false) : s.tapTo i = (s.tapSet i).deviceReset 3 := by
  rw [State.tapTo_of_not_scan (internalScan_ne_of_extest hi), State.tapGo, if_pos hi, if_neg (by rw [he]; exact Bool.false_ne_true)]

theorem State.tapTo_extest_again (hi : i.extestClass = true) (he : s.power.tap.extestClass = true) : s.tapTo i = s.tapSet i := by
  rw [State.tapTo_of_not_scan (internalScan_ne_of_extest hi), State.tapGo, if_pos hi, if_pos he]

theorem State.tapTo_leave_extest (hi : i.extestClass = false) (hs : i ≠ .internalScan) (he : s.power.tap.extestClass = true) :
    s.tapTo i = (s.tapSet i).restart 3 := by
  rw [State.tapTo_of_not_scan hs, State.tapGo, if_neg (by rw [hi]; exact Bool.false_ne_true), if_pos he]

theorem State.tapTo_leave_scan (hi : i.extestClass = false) (hs : i ≠ .internalScan) (hn : s.power.tap = .internalScan) :
    s.tapTo i = (s.tapSet i).restart 7 := by
  rw [State.tapTo_of_not_scan hs, State.tapGo, if_neg (by rw [hi]; exact Bool.false_ne_true), if_neg (by rw [hn]; decide), if_pos ⟨hn, hs⟩]

/-- The entry of internal scan wipes the session's secrets (R466). -/
theorem State.tapTo_scan (he : s.power.tap.extestClass = false) (hn : s.power.tap ≠ .internalScan) :
    s.tapTo .internalScan = (s.endSession true).tapSet .internalScan := by
  have hc : ¬ TapInstr.extestClass .internalScan = true := by decide
  rw [State.tapTo_eq, State.tapWiped, if_pos ⟨rfl, hn⟩, State.tapGo, if_neg hc, if_neg (by rw [he]; exact Bool.false_ne_true), if_neg (fun h => h.2 rfl)]

/-- The device runs again once such an instruction is left, with RST_N high. -/
theorem State.alive_tapSet (ho : s.power.supply = .on) (hr : s.power.rstLow = false) (hi : i.extestClass = false) : (s.tapSet i).alive = true := by
  change (decide (s.power.supply = .on) && (!s.power.rstLow && !i.extestClass)) = true
  simp [ho, hr, hi]

theorem State.not_alive_tapSet (hr : s.power.rstLow = true) : (s.tapSet i).alive = false := by
  change (decide (s.power.supply = .on) && (!s.power.rstLow && !i.extestClass)) = false
  simp [hr]

end

end

end Sys2Proof.Machine
end

section
/-! SUPPORT. What a reset of a party does to mailboxes, and what no mailbox operation changes: the hosts' vectors and enables, and that a
course is awake (R81, R441, R442, R443). -/

namespace Sys2Proof.Machine

/-! ### Vectors, enables, and courses that are awake -/

/-- The vectors and enables of both functions stand, and a course that is awake stays so. -/
structure MailKeeps (s t : State) : Prop where
  pf0 : t.pf0.msix = s.pf0.msix ∧ t.pf0.causeEn = s.pf0.causeEn
  pf1 : t.pf1.msix = s.pf1.msix ∧ t.pf1.causeEn = s.pf1.causeEn
  awake : ∀ c, (s.course c).gatedAt = none → (t.course c).gatedAt = none

/-- A notice to a party: such a step that touches no reply and no mailbox's state, bell or receiver. -/
structure Notifies (s t : State) : Prop extends MailKeeps s t where
  replies : t.keystone.replies = s.keystone.replies
  box : ∀ j, (t.mailbox j).st = (s.mailbox j).st ∧ (t.mailbox j).bell = (s.mailbox j).bell ∧ (t.mailbox j).recv = (s.mailbox j).recv

section
variable {s t u : State}

theorem MailKeeps.refl (s : State) : MailKeeps s s := ⟨⟨rfl, rfl⟩, ⟨rfl, rfl⟩, fun _ => id⟩

theorem MailKeeps.trans (h1 : MailKeeps s t) (h2 : MailKeeps t u) : MailKeeps s u :=
  ⟨⟨h2.pf0.1.trans h1.pf0.1, h2.pf0.2.trans h1.pf0.2⟩, ⟨h2.pf1.1.trans h1.pf1.1, h2.pf1.2.trans h1.pf1.2⟩, fun c h => h2.awake c (h1.awake c h)⟩

theorem MailKeeps.ite {p : Prop} [Decidable p] (h1 : MailKeeps s t) (h2 : MailKeeps s u) : MailKeeps s (if p then t else u) := by
  split
  · exact h1
  · exact h2

theorem MailKeeps.of_eq (h0 : t.pf0 = s.pf0) (h1 : t.pf1 = s.pf1) (hc : t.courses = s.courses) : MailKeeps s t :=
  ⟨by rw [h0]; exact ⟨rfl, rfl⟩, by rw [h1]; exact ⟨rfl, rfl⟩, fun c h => by rw [State.course, hc]; exact h⟩

theorem MailKeeps.foldl {β : Type} {f : State → β → State} (h : ∀ s b, MailKeeps s (f s b)) (l : List β) (s : State) : MailKeeps s (l.foldl f s) :=
  foldl_rel MailKeeps refl (fun _ _ _ => trans) f h l s

theorem MailKeeps.event (s : State) (k : EvKind) (m : Bool) (p : BitVec 8) (a : List Nat) : MailKeeps s (s.event k m p a) := by
  obtain ⟨h1, h2, h3, h4⟩ := s.host_recordEvent { code := k.cls ++ Config.eventCode k, sev := Config.eventSev k, inst := Config.eventInst k a, party := p, p0 := Config.eventP0 k a, p1 := Config.eventP1 k a, mgmt := m }
  exact ⟨⟨h1, h2⟩, ⟨h3, h4⟩, fun c h => by rw [(Logs.event s k m p a).course]; exact h⟩

theorem Notifies.refl (s : State) : Notifies s s := ⟨.refl s, rfl, fun _ => ⟨rfl, rfl, rfl⟩⟩

theorem Notifies.trans (h1 : Notifies s t) (h2 : Notifies t u) : Notifies s u :=
  ⟨h1.toMailKeeps.trans h2.toMailKeeps, h2.replies.trans h1.replies,
    fun j => ⟨(h2.box j).1.trans (h1.box j).1, (h2.box j).2.1.trans (h1.box j).2.1, (h2.box j).2.2.trans (h1.box j).2.2⟩⟩

theorem Notifies.ite {p : Prop} [Decidable p] (h1 : Notifies s t) (h2 : Notifies s u) : Notifies s (if p then t else u) := by
  split
  · exact h1
  · exact h2

/-- A step that keeps mailboxes and replies notifies if it keeps the rest. -/
theorem Notifies.of_keeps (h : MailKeeps s t) (hm : t.mailboxes = s.mailboxes) (hk : t.keystone = s.keystone) : Notifies s t :=
  ⟨h, by rw [hk], fun j => by rw [State.mailbox, hm]; exact ⟨rfl, rfl, rfl⟩⟩

theorem Notifies.fireVector (s : State) (f : Bool) (v : Nat) : Notifies s (s.fireVector f v) := by
  have h := Raises.fireVector s f v
  generalize s.fireVector f v = t at h
  refine .of_keeps ⟨?_, ?_, fun c hc => ?_⟩ ((congrArg State.mailboxes h.frame).trans rfl) ((congrArg State.keystone h.frame).trans rfl)
  · rw [h.pf0]
    exact ⟨rfl, rfl⟩
  · rw [h.pf1]
    exact ⟨rfl, rfl⟩
  · rw [h.frame]
    exact hc

theorem Notifies.mbNotice (s : State) (p n : Nat) (j : Fin 32) : Notifies s (s.mbNotice p n j) :=
  .ite (.of_keeps (.of_eq rfl rfl rfl) rfl rfl) (.refl s)

theorem Notifies.jrec (s : State) (c : Fin 13) (r : JRec) : Notifies s (s.jrec c r) := by
  rw [State.jrec_eq]
  exact .of_keeps (.of_eq rfl rfl rfl) rfl rfl

theorem Notifies.setBrick (s : State) (k : Fin 52) (b : Brick) : Notifies s (s.setBrick k b) := .of_keeps (.of_eq rfl rfl rfl) rfl rfl

theorem Notifies.latchLine (s : State) (k : Fin 52) (l : Nat) : Notifies s (s.latchLine k l) := by
  unfold State.latchLine
  exact (Notifies.setBrick s k _).trans (.jrec _ _ _)

theorem Notifies.ungateCourse (s : State) (c : Fin 13) (cause : BitVec 4) : Notifies s (s.ungateCourse c cause) := by
  have h := WakeLeaves.ungateCourse s c cause
  have hg : ∀ g, (s.course c).gatedAt = some g → ((s.ungateCourse c cause).course c).gatedAt = none := fun g hg => by
    rw [State.course_ungateCourse cause hg]
    rfl
  have hn : (s.course c).gatedAt = none → s.ungateCourse c cause = s := State.ungateCourse_none cause
  generalize s.ungateCourse c cause = t at h hg hn
  have h0 : t.pf0 = s.pf0 := (congrArg State.pf0 h.frame).trans rfl
  have h1 : t.pf1 = s.pf1 := (congrArg State.pf1 h.frame).trans rfl
  refine .of_keeps ⟨by rw [h0]; exact ⟨rfl, rfl⟩, by rw [h1]; exact ⟨rfl, rfl⟩, fun d hd => ?_⟩ ((congrArg State.mailboxes h.frame).trans rfl)
    ((congrArg State.keystone h.frame).trans rfl)
  by_cases hdc : d = c
  · subst hdc
    rw [hn hd, hd]
  · rw [h.courses d hdc, hd]

theorem Notifies.wakeEvent (s : State) (r : Nat) (j : Fin 32) : Notifies s (s.wakeEvent r j) := by
  unfold State.wakeEvent
  refine .ite (.fireVector _ _ _) (.ite (.fireVector _ _ _) ?_)
  split
  · exact .ungateCourse _ _ _
  · exact .refl s

theorem Notifies.emptyEvent (s : State) (p : Nat) (j : Fin 32) : Notifies s (s.emptyEvent p j) := by
  unfold State.emptyEvent
  refine .ite (.fireVector _ _ _) (.ite (.fireVector _ _ _) ?_)
  split
  · exact .latchLine _ _ _
  · exact .mbNotice _ _ _ _

theorem Notifies.recross (s : State) : Notifies s s.recross := by
  refine ⟨.of_eq rfl rfl rfl, rfl, fun j => ?_⟩
  have h : s.recross.mailbox j = { s.mailbox j with crossed := (s.recross.mailbox j).crossed } := by
    simp only [State.mailbox, State.recross, Fin.getElem_fin, Vector.getElem_map]
  rw [h]
  exact ⟨rfl, rfl, rfl⟩

/-! ### Messages posted, discarded and unlocked -/

theorem MailKeeps.setMailbox (s : State) (j : Fin 32) (m : Mailbox) : MailKeeps s (s.setMailbox j m) := .of_eq rfl rfl rfl

theorem MailKeeps.mapMailboxes (s : State) (f : Mailbox → Mailbox) : MailKeeps s { s with mailboxes := s.mailboxes.map f } := .of_eq rfl rfl rfl

theorem MailKeeps.setReplies (s : State) (l : List (Fin 32 × List Reg32)) : MailKeeps s { s with keystone := { s.keystone with replies := l } } := .of_eq rfl rfl rfl

theorem MailKeeps.bumpEpoch (s : State) (p : Nat) : MailKeeps s (s.bumpEpoch p) := .of_eq rfl rfl rfl

theorem MailKeeps.postAs (s : State) (p : Nat) (ep : BitVec 4) (j : Fin 32) (n : Nat) : MailKeeps s (s.postAs p ep j n) := by
  unfold State.postAs
  dsimp only
  have h1 : ∀ (x : State) (m : Mailbox) (r : Nat), MailKeeps s x → MailKeeps s ((x.setMailbox j m).wakeEvent r j) :=
    fun x m r h => (h.trans (.setMailbox x j m)).trans (Notifies.wakeEvent _ r j).toMailKeeps
  have h0 : MailKeeps s (if (s.mailboxes.toList.any fun y => y.crosses p (s.mailbox j).recv.toNat) = true then
      { s with mailboxes := s.mailboxes.map (fun y => if y.crosses p (s.mailbox j).recv.toNat then { y with crossed := true } else y) } else s) :=
    .ite (.mapMailboxes s _) (.refl s)
  exact .ite ((h1 _ _ _ h0).trans (Notifies.wakeEvent _ p j).toMailKeeps) (h1 _ _ _ h0)

theorem MailKeeps.postReply (s : State) (j : Fin 32) : MailKeeps s (s.postReply j) := by
  unfold State.postReply
  split
  · exact .ite ((MailKeeps.setReplies s _).trans ((MailKeeps.setMailbox _ j _).trans (.postAs _ _ _ j 8))) (.refl s)
  · exact .refl s

theorem MailKeeps.unlockMail (s : State) (p : Nat) (j : Fin 32) : MailKeeps s (s.unlockMail p j) := by
  unfold State.unlockMail
  dsimp only
  split
  · exact .ite ((MailKeeps.setMailbox s j _).trans (.postReply _ j)) (.refl s)
  · exact .refl s

theorem MailKeeps.discardMail (s : State) (r : Nat) (j : Fin 32) : MailKeeps s (s.discardMail r j) := by
  unfold State.discardMail
  dsimp only
  refine .ite ?_ (.refl s)
  split
  · refine .trans ?_ (.postReply _ j)
    have h := (MailKeeps.setMailbox s j { (s.mailbox j).emptied with bell := false, discarded := true, dcount := satInc (s.mailbox j).dcount }).trans (Notifies.recross _).toMailKeeps
    exact .ite (h.trans (Notifies.mbNotice _ _ _ j).toMailKeeps) (h.trans (Notifies.emptyEvent _ _ j).toMailKeeps)
  · exact .setMailbox s j _

theorem MailKeeps.resetParty (s : State) (p : Nat) : MailKeeps s (s.resetParty p) := by
  unfold State.resetParty
  exact ((MailKeeps.foldl (fun s j => .discardMail s p j) _ s).trans (.foldl (fun s j => .unlockMail s p j) _ _)).trans (.bumpEpoch _ p)

theorem MailKeeps.svcReply (s : State) (code : Nat) (r : SvcReq) (status : Nat) (l : List Reg32) : MailKeeps s (s.svcReply code r status l) := by
  unfold State.svcReply
  have h := MailKeeps.event s .service true (BitVec.ofNat 8 r.caller.num) [code, r.tag.toNat, status]
  exact .ite h ((h.trans (.setReplies _ _)).trans (.postReply _ _))

/-! ### The mailboxes of a party that is reset (R442) -/

/-- While no reply waits, no mailbox fills, no bell rings, and receivers stay. -/
structure Quiets (s t : State) : Prop where
  replies : s.keystone.replies = [] → t.keystone.replies = []
  box : s.keystone.replies = [] → ∀ j, ((s.mailbox j).st ≠ .full → (t.mailbox j).st ≠ .full) ∧ ((s.mailbox j).bell = false → (t.mailbox j).bell = false) ∧
    (t.mailbox j).recv = (s.mailbox j).recv

theorem Quiets.refl (s : State) : Quiets s s := ⟨id, fun _ _ => ⟨id, id, rfl⟩⟩

theorem Quiets.trans (h1 : Quiets s t) (h2 : Quiets t u) : Quiets s u := by
  refine ⟨fun h => h2.replies (h1.replies h), fun h j => ?_⟩
  obtain ⟨a1, b1, c1⟩ := h1.box h j
  obtain ⟨a2, b2, c2⟩ := h2.box (h1.replies h) j
  exact ⟨fun x => a2 (a1 x), fun x => b2 (b1 x), c2.trans c1⟩

theorem Quiets.ite {p : Prop} [Decidable p] (h1 : Quiets s t) (h2 : Quiets s u) : Quiets s (if p then t else u) := by
  split
  · exact h1
  · exact h2

theorem Quiets.of_notifies (h : Notifies s t) : Quiets s t :=
  ⟨fun hr => h.replies.trans hr, fun _ j => ⟨fun hs => by rw [(h.box j).1]; exact hs, fun hb => by rw [(h.box j).2.1]; exact hb, (h.box j).2.2⟩⟩

theorem Quiets.setMailbox (s : State) (j : Fin 32) (m : Mailbox) (hs : (s.mailbox j).st ≠ .full → m.st ≠ .full)
    (hb : (s.mailbox j).bell = false → m.bell = false) (hr : m.recv = (s.mailbox j).recv) : Quiets s (s.setMailbox j m) := by
  refine ⟨id, fun _ i => ?_⟩
  by_cases hi : i = j
  · subst hi
    rw [State.mailbox_setMailbox]
    exact ⟨hs, hb, hr⟩
  · rw [State.mailbox_setMailbox_ne s m hi]
    exact ⟨id, id, rfl⟩

theorem State.postReply_none (h : s.keystone.replies = []) (j : Fin 32) : s.postReply j = s := by
  unfold State.postReply
  rw [h]
  rfl

theorem Quiets.postReply (h : Quiets s t) (j : Fin 32) : Quiets s (t.postReply j) := by
  refine ⟨fun hr => ?_, fun hr => ?_⟩
  · rw [State.postReply_none (h.replies hr)]
    exact h.replies hr
  · rw [State.postReply_none (h.replies hr)]
    exact h.box hr

theorem Quiets.unlockMail (s : State) (p : Nat) (j : Fin 32) : Quiets s (s.unlockMail p j) := by
  unfold State.unlockMail
  dsimp only
  split
  · exact .ite (.postReply (.setMailbox s j { s.mailbox j with st := .empty, data := Vector.replicate 8 0 } (fun _ => nofun) id rfl) j) (.refl s)
  · exact .refl s

/-- Mailbox j holds nothing for party r. -/
def State.silent (s : State) (r : Nat) (j : Fin 32) : Prop := (s.mailbox j).recv.toNat = r → (s.mailbox j).st ≠ .full ∧ (s.mailbox j).bell = false

theorem Quiets.silent {r : Nat} {j : Fin 32} (h : Quiets s t) (hr : s.keystone.replies = []) (hs : s.silent r j) : t.silent r j := by
  obtain ⟨a, b, c⟩ := h.box hr j
  intro hrecv
  rw [c] at hrecv
  exact ⟨a (hs hrecv).1, b (hs hrecv).2⟩

/-- A mailbox once its receiver's reset has discarded what it held, before the notices. -/
def Mailbox.discardedOf (m : Mailbox) : Mailbox := { m.emptied with bell := false, discarded := true, dcount := satInc m.dcount }

theorem State.discardMail_full {r : Nat} {j : Fin 32} (h : (s.mailbox j).recv.toNat = r) (hs : (s.mailbox j).st = .full) :
    ∃ x, Notifies (s.setMailbox j (s.mailbox j).discardedOf) x ∧ s.discardMail r j = x.postReply j := by
  unfold State.discardMail
  dsimp only
  rw [if_pos h, hs]
  exact ⟨_, (Notifies.recross _).trans (.ite (.mbNotice _ _ _ j) (.emptyEvent _ _ j)), rfl⟩

theorem State.discardMail_rest {r : Nat} {j : Fin 32} (h : (s.mailbox j).recv.toNat = r) (hs : (s.mailbox j).st ≠ .full) :
    s.discardMail r j = s.setMailbox j { s.mailbox j with bell := false } := by
  unfold State.discardMail
  dsimp only
  rw [if_pos h]
  split
  · next hf => exact absurd hf hs
  · rfl

theorem Quiets.discardMail (s : State) (r : Nat) (j : Fin 32) : Quiets s (s.discardMail r j) := by
  by_cases h : (s.mailbox j).recv.toNat = r
  · by_cases hs : (s.mailbox j).st = .full
    · obtain ⟨x, hx, he⟩ := State.discardMail_full h hs
      rw [he]
      exact .postReply ((Quiets.setMailbox s j (s.mailbox j).discardedOf (fun _ => nofun) (fun _ => rfl) rfl).trans (.of_notifies hx)) j
    · rw [State.discardMail_rest h hs]
      exact .setMailbox s j _ id (fun _ => rfl) rfl
  · rw [show s.discardMail r j = s from if_neg h]
    exact .refl s

theorem State.silent_discardMail (r : Nat) (j : Fin 32) (hr : s.keystone.replies = []) : (s.discardMail r j).silent r j := by
  by_cases h : (s.mailbox j).recv.toNat = r
  · by_cases hs : (s.mailbox j).st = .full
    · obtain ⟨x, hx, he⟩ := State.discardMail_full h hs
      rw [he, State.postReply_none (hx.replies.trans hr)]
      intro _
      rw [(hx.box j).1, (hx.box j).2.1, State.mailbox_setMailbox]
      exact ⟨nofun, rfl⟩
    · rw [State.discardMail_rest h hs]
      intro _
      rw [State.mailbox_setMailbox]
      exact ⟨hs, rfl⟩
  · rw [show s.discardMail r j = s from if_neg h]
    exact fun hn => absurd hn h

theorem foldl_discardMail (r : Nat) (l : List (Fin 32)) (s : State) : Quiets s (l.foldl (fun s j => s.discardMail r j) s) :=
  foldl_rel Quiets .refl (fun _ _ _ => .trans) _ (fun s j => .discardMail s r j) l s

theorem silent_foldl_discardMail (r : Nat) (l : List (Fin 32)) (s : State) (hr : s.keystone.replies = []) :
    ∀ j ∈ l, (l.foldl (fun s j => s.discardMail r j) s).silent r j := by
  induction l generalizing s with
  | nil => exact fun _ h => absurd h List.not_mem_nil
  | cons i l ih =>
    have hr1 := (Quiets.discardMail s r i).replies hr
    intro j hj
    rw [List.foldl_cons]
    rcases List.mem_cons.mp hj with rfl | hj
    · exact (foldl_discardMail r l _).silent hr1 (State.silent_discardMail r j hr)
    · exact ih _ hr1 j hj

theorem foldl_unlockMail (p : Nat) (s : State) : Quiets s ((List.finRange 32).foldl (fun s j => s.releaseLock p j) s) :=
  foldl_rel Quiets .refl (fun _ _ _ => .trans) _ (fun s j => .unlockMail s p j) _ s

theorem Quiets.bumpEpoch (s : State) (p : Nat) : Quiets s (s.bumpEpoch p) := .of_notifies (.of_keeps (.of_eq rfl rfl rfl) rfl rfl)

theorem Quiets.resetParty (s : State) (p : Nat) : Quiets s (s.resetParty p) := by
  unfold State.resetParty
  exact (foldl_discardMail p _ s).trans ((foldl_unlockMail p _).trans (.bumpEpoch _ p))

/-- Nothing waits for a party that has been reset. -/
theorem State.silent_resetParty (p : Nat) (hr : s.keystone.replies = []) (j : Fin 32) : (s.resetParty p).silent p j := by
  have h := silent_foldl_discardMail p (List.finRange 32) s hr j (List.mem_finRange j)
  unfold State.resetParty
  exact ((foldl_unlockMail p _).trans (.bumpEpoch _ p)).silent ((foldl_discardMail p _ s).replies hr) h

/-! ### The rest of a party's reset -/

/-- The mailbox operations of a reset, before the epoch. -/
theorem State.resetParty_mail (s : State) (p : Nat) : ∃ x, MailLeaves s x ∧ s.resetParty p = x.bumpEpoch p := by
  refine ⟨_, ?_, rfl⟩
  exact (foldl_rel MailLeaves MailLeaves.refl (fun _ _ _ => MailLeaves.trans) _ (fun s j => MailLeaves.discardMail s p j) _ s).trans
    (foldl_rel MailLeaves MailLeaves.refl (fun _ _ _ => MailLeaves.trans) _ (fun s j => MailLeaves.unlockMail s p j) _ _)

theorem State.epoch_bumpEpoch (h : Sparse.wf (fun _ => (0 : BitVec 4)) s.epochs = true) (p : Nat) : (s.bumpEpoch p).epoch p = s.epoch p + 1 :=
  Sparse.read_write_same _ _ _ h

theorem State.epoch_bumpEpoch_ne (s : State) {p q : Nat} (h : q ≠ p) : (s.bumpEpoch p).epoch q = s.epoch q := Sparse.read_write_ne _ _ _ h

end

end Sys2Proof.Machine
end

section
/-! SUPPORT. The PCIE-scope reset (R80, R81, R85, R423, R426, R467). -/

namespace Sys2Proof.Machine

section
variable {s t x : State}

/-- An epoch that counts is no part of what mailbox operations change. -/
theorem MailLeaves.bumpEpoch (h : MailLeaves s x) (p : Nat) : MailLeaves (s.bumpEpoch p) (x.bumpEpoch p) := by
  obtain ⟨hf, hc, hb, ht, hp⟩ := h
  have he : x.epochs = s.epochs := (congrArg State.epochs hf).trans rfl
  refine ⟨?_, hc, hb, ht, hp⟩
  rw [State.bumpEpoch, State.bumpEpoch, State.epoch, State.epoch, he]
  conv_lhs => rw [hf]

/-- A reset of a party is mailbox operations, and its epoch counted. -/
theorem MailLeaves.resetParty (s : State) (p : Nat) : MailLeaves (s.bumpEpoch p) (s.resetParty p) := by
  obtain ⟨x, hx, he⟩ := s.resetParty_mail p
  rw [he]
  exact hx.bumpEpoch p

theorem MailKeeps.endSession (s : State) : MailKeeps s (s.endSession true) := by
  rw [State.endSession_eq]
  refine MailKeeps.trans (t := s.wiped) (.of_eq rfl rfl rfl) ?_
  unfold State.sessionOver
  split
  · exact .refl _
  · refine MailKeeps.trans (t := s.wiped.unsessioned) (.of_eq rfl rfl rfl) ?_
    exact .ite (.event _ _ _ _ _) ((MailKeeps.event _ _ _ _ _).trans (.event _ _ _ _ _))

/-- A session ends as well in any state whose bricks and session stand the same. -/
theorem SessionEnded.of_same (hs : x.keystone.session = s.keystone.session)
    (hb : ∀ k, (x.brick k).inj = (s.brick k).inj ∧ (x.brick k).run = (s.brick k).run ∧ (x.brick k).pc = (s.brick k).pc) (h : SessionEnded x t) : SessionEnded s t := by
  obtain ⟨hn, hk⟩ := h
  refine ⟨hn, fun hsome k => ?_⟩
  obtain ⟨h1, h2, h3, h4, h5⟩ := hk (by rw [hs]; exact hsome) k
  obtain ⟨hi, hr, hp⟩ := hb k
  rw [hi] at h3
  rw [hr] at h4
  rw [hp] at h5
  exact ⟨h1, h2, h3, h4, h5⟩

/-- Rings stopped and both functions at reset, before the parties. -/
def State.hostsReset (s : State) : State :=
  { s with rings := s.rings.map (fun (r : Ring) => { r.zeroed with st := .stopped, conds := 0 }), ringLast := 31,
           pf0 := .reset, pf1 := .reset, plumb := { s.plumb with latches := s.plumb.latches.filter (fun x => decide (2 ≤ x.1 % 256)) } }

/-- Both functions reset as parties. -/
def State.partiesReset (s : State) : State := (s.hostsReset.resetParty 2).resetParty 3

theorem State.pcieReset_eq (s : State) : s.pcieReset =
    (s.partiesReset.endSession true).modPower (fun p => { p with pcieWait := p.pcieWait.map (fun _ => (s.partiesReset.endSession true).tick) }) := rfl

theorem State.partiesReset_mail (s : State) : MailLeaves ((s.hostsReset.bumpEpoch 2).bumpEpoch 3) s.partiesReset :=
  ((MailLeaves.resetParty s.hostsReset 2).bumpEpoch 3).trans (MailLeaves.resetParty _ 3)

theorem State.partiesReset_keeps (s : State) : MailKeeps s.hostsReset s.partiesReset := (MailKeeps.resetParty _ 2).trans (.resetParty _ 3)

/-- Nothing waits for PF0 or PF1, and receivers stay. -/
theorem State.partiesReset_silent (hr : s.keystone.replies = []) (j : Fin 32) (h : (s.mailbox j).recv = 2 ∨ (s.mailbox j).recv = 3) :
    (s.partiesReset.mailbox j).st ≠ .full ∧ (s.partiesReset.mailbox j).bell = false := by
  have hr0 : s.hostsReset.keystone.replies = [] := hr
  have hq2 := Quiets.resetParty s.hostsReset 2
  have hq3 := Quiets.resetParty (s.hostsReset.resetParty 2) 3
  have hr2 := hq2.replies hr0
  have hrecv : (s.partiesReset.mailbox j).recv = (s.mailbox j).recv := (hq3.box hr2 j).2.2.trans (hq2.box hr0 j).2.2
  rcases h with h | h
  · exact hq3.silent hr2 (State.silent_resetParty 2 hr0 j) (by
      change (s.partiesReset.mailbox j).recv.toNat = 2
      rw [hrecv, h]
      rfl)
  · exact State.silent_resetParty 3 hr2 j (by
      change (s.partiesReset.mailbox j).recv.toNat = 3
      rw [hrecv, h]
      rfl)

theorem State.epochs_partiesReset (h : Sparse.wf (fun _ => (0 : BitVec 4)) s.epochs = true) :
    s.partiesReset.epoch 2 = s.epoch 2 + 1 ∧ s.partiesReset.epoch 3 = s.epoch 3 + 1 := by
  have he : s.partiesReset.epochs = ((s.hostsReset.bumpEpoch 2).bumpEpoch 3).epochs := (congrArg State.epochs s.partiesReset_mail.1).trans rfl
  have hq : ∀ q, s.partiesReset.epoch q = ((s.hostsReset.bumpEpoch 2).bumpEpoch 3).epoch q := fun q => by rw [State.epoch, he, State.epoch]
  have hw0 : Sparse.wf (fun _ => (0 : BitVec 4)) s.hostsReset.epochs = true := h
  have hw2 : Sparse.wf (fun _ => (0 : BitVec 4)) (s.hostsReset.bumpEpoch 2).epochs = true := Sparse.wf_write _ _ _ hw0
  refine ⟨?_, ?_⟩
  · rw [hq, State.epoch_bumpEpoch_ne _ (by decide), State.epoch_bumpEpoch hw0]
    rfl
  · rw [hq, State.epoch_bumpEpoch hw2, State.epoch_bumpEpoch_ne _ (by decide)]
    rfl

theorem State.ring_hostsReset (s : State) (n : Fin 64) : s.hostsReset.ring n = { s.ring n with head := 0, tail := 0, st := .stopped, conds := 0 } := by
  simp only [State.ring, State.hostsReset, Fin.getElem_fin, Vector.getElem_map, Ring.zeroed]

/-- The end of a session changes no more than debug state, tiles, the recorder, the journal and the notices sent. -/
theorem State.endSession_frame (s : State) : s.endSession true =
    { s with keystone := (s.endSession true).keystone, bricks := (s.endSession true).bricks, tiles := (s.endSession true).tiles, recorder := (s.endSession true).recorder, journal := (s.endSession true).journal, pf0 := (s.endSession true).pf0, pf1 := (s.endSession true).pf1, hostMem := (s.endSession true).hostMem, chainOut := (s.endSession true).chainOut } := by
  have hw : WipeLeaves s (s.endSession true) := s.endSession_spec.1
  generalize s.endSession true = y at hw ⊢
  have hk : y.keystone = _ := (congrArg State.keystone hw).trans rfl
  conv_lhs => rw [show y = _ from hw]
  rw [hk]

/-- Blocks that a PCIE reset does not name are the same after it. -/
theorem State.pcieReset_frame (s : State) : s.pcieReset.ringLast = 31 ∧ s.pcieReset.rings = s.hostsReset.rings ∧ s.pcieReset.mailboxes = s.partiesReset.mailboxes ∧
    s.pcieReset.epochs = s.partiesReset.epochs ∧
    s.pcieReset.power = { s.power with pcieWait := s.power.pcieWait.map (fun _ => s.tick) } ∧ s.pcieReset.regs = s.regs ∧ s.pcieReset.mortar = s.mortar ∧
    s.pcieReset.cans = s.cans ∧ s.pcieReset.field = s.field ∧ s.pcieReset.flash = s.flash ∧ s.pcieReset.otp = s.otp := by
  have hx := s.partiesReset_mail.1
  rw [State.pcieReset_eq]
  generalize s.partiesReset = x at hx ⊢
  have hy := x.endSession_frame
  generalize x.endSession true = y at hy ⊢
  have hp : y.power = s.power := (congrArg State.power hy).trans ((congrArg State.power hx).trans rfl)
  have ht : y.tick = s.tick := (congrArg State.tick hy).trans ((congrArg State.tick hx).trans rfl)
  refine ⟨?_, ?_, ?_, ?_, ?_, ?_, ?_, ?_, ?_, ?_, ?_⟩
  · exact (congrArg State.ringLast hy).trans ((congrArg State.ringLast hx).trans rfl)
  · exact (congrArg State.rings hy).trans ((congrArg State.rings hx).trans rfl)
  · exact (congrArg State.mailboxes hy).trans rfl
  · exact (congrArg State.epochs hy).trans rfl
  · rw [State.modPower_power, hp, ht]
  · exact (congrArg State.regs hy).trans ((congrArg State.regs hx).trans rfl)
  · exact (congrArg State.mortar hy).trans ((congrArg State.mortar hx).trans rfl)
  · exact (congrArg State.cans hy).trans ((congrArg State.cans hx).trans rfl)
  · exact (congrArg State.field hy).trans ((congrArg State.field hx).trans rfl)
  · exact (congrArg State.flash hy).trans ((congrArg State.flash hx).trans rfl)
  · exact (congrArg State.otp hy).trans ((congrArg State.otp hx).trans rfl)

/-- The debug session ends and the memories stay. -/
theorem State.pcieReset_session (s : State) : SessionEnded s s.pcieReset ∧ s.pcieReset.keystone.challenge = false ∧ SameMemories s s.pcieReset := by
  have hm := s.partiesReset_mail
  rw [State.pcieReset_eq]
  generalize s.partiesReset = x at hm ⊢
  obtain ⟨-, hse, hch, hsm⟩ := x.endSession_spec
  generalize x.endSession true = y at hse hch hsm ⊢
  obtain ⟨hf, hc, hb, -, -⟩ := hm
  have hmem : SameMemories s x := ⟨fun c => by rw [hc c]; exact ⟨rfl, rfl⟩, fun k => by rw [hb k]; rfl⟩
  exact ⟨SessionEnded.of_same (x := x) ((congrArg (fun y => y.keystone.session) hf).trans rfl) (fun k => by rw [hb k]; exact ⟨rfl, rfl, rfl⟩) hse, hch, hmem.trans hsm⟩

/-- Neither function has a vector or a cause enabled. -/
theorem State.pcieReset_functions (s : State) :
    s.pcieReset.pf0.msix = [] ∧ s.pcieReset.pf0.causeEn = 0 ∧ s.pcieReset.pf1.msix = [] ∧ s.pcieReset.pf1.causeEn = 0 := by
  have h := s.partiesReset_keeps.trans (MailKeeps.endSession s.partiesReset)
  rw [State.pcieReset_eq]
  generalize s.partiesReset.endSession true = y at h ⊢
  obtain ⟨h0, h1, -⟩ := h
  exact ⟨h0.1, h0.2, h1.1, h1.2⟩

/-- What a PCIE reset does to rings, functions, the session, mailboxes and epochs, and what it leaves alone. -/
theorem State.pcieReset_resets (s : State) : s.pcieReset.ringLast = 31 ∧
    (∀ n, s.pcieReset.ring n = { s.ring n with head := 0, tail := 0, st := .stopped, conds := 0 }) ∧
    (s.pcieReset.pf0.msix = [] ∧ s.pcieReset.pf0.causeEn = 0 ∧ s.pcieReset.pf1.msix = [] ∧ s.pcieReset.pf1.causeEn = 0) ∧
    SessionEnded s s.pcieReset ∧ s.pcieReset.keystone.challenge = false ∧
    (s.keystone.replies = [] → ∀ j, ((s.mailbox j).recv = 2 ∨ (s.mailbox j).recv = 3) → (s.pcieReset.mailbox j).st ≠ .full ∧ (s.pcieReset.mailbox j).bell = false) ∧
    (Sparse.wf (fun _ => (0 : BitVec 4)) s.epochs = true → s.pcieReset.epoch 2 = s.epoch 2 + 1 ∧ s.pcieReset.epoch 3 = s.epoch 3 + 1) ∧
    s.pcieReset.power = { s.power with pcieWait := s.power.pcieWait.map (fun _ => s.tick) } ∧ SameMemories s s.pcieReset ∧ s.pcieReset.regs = s.regs ∧
    s.pcieReset.mortar = s.mortar ∧ s.pcieReset.cans = s.cans ∧ s.pcieReset.field = s.field ∧ s.pcieReset.flash = s.flash ∧ s.pcieReset.otp = s.otp := by
  obtain ⟨hlast, hrings, hmb, hep, hp, hregs, hmo, hca, hfi, hfl, hot⟩ := s.pcieReset_frame
  obtain ⟨hse, hch, hsm⟩ := s.pcieReset_session
  refine ⟨hlast, fun n => ?_, s.pcieReset_functions, hse, hch, fun hr j hj => ?_, fun h => ?_, hp, hsm, hregs, hmo, hca, hfi, hfl, hot⟩
  · rw [← s.ring_hostsReset n]
    exact congrArg (fun (v : Vector Ring 64) => v[n]) hrings
  · have hbox : s.pcieReset.mailbox j = s.partiesReset.mailbox j := by rw [State.mailbox, hmb, State.mailbox]
    rw [hbox]
    exact State.partiesReset_silent hr j hj
  · have he : ∀ q, s.pcieReset.epoch q = s.partiesReset.epoch q := fun q => by rw [State.epoch, hep, State.epoch]
    rw [he, he]
    exact State.epochs_partiesReset h

end

end Sys2Proof.Machine
end

section
/-! SUPPORT. The COURSE-scope reset (R80 to R83, R208, R230, R252). -/

namespace Sys2Proof.Machine

/-- What every step of a COURSE reset of course c leaves alone. -/
structure CourseKeeps (c : Fin 13) (s t : State) : Prop where
  power : t.power = s.power
  flash : t.flash = s.flash
  otp : t.otp = s.otp
  replay : t.replay = s.replay
  handover : t.keystone.handover = s.keystone.handover
  own : (t.course c).bank = (s.course c).bank ∧ (t.course c).fenced = (s.course c).fenced
  other : ∀ d, d ≠ c → (t.course d).bank = (s.course d).bank ∧ (t.course d).image = (s.course d).image
  imem : ∀ k, (t.brick k).imem = (s.brick k).imem

/-- The pending release of course c ends with status COURSE. -/
def State.dropRelease (s : State) (c : Fin 13) : State :=
  match (s.course c).release with
  | some (_, r) => (s.modCourse c (fun x => { x with release := none })).svcReply 0x0101 r 12 []
  | none => s

/-- What waits at a boundary for course c. -/
def Deferred.waitsFor (c : Fin 13) (d : Deferred) : Bool := decide (d.act = .patch c) || decide (d.act = .test c)

theorem State.dropServices_eq (s : State) (c : Fin 13) : s.dropServices c =
    ((s.dropRelease c).keystone.deferred.filter (Deferred.waitsFor c)).foldl (fun s d => s.svcReply d.act.code d.req 12 [])
      ((s.dropRelease c).modKeystone (fun k => { k with deferred := k.deferred.filter (fun d => !Deferred.waitsFor c d) })) := rfl

namespace CourseKeeps

section
variable {c : Fin 13} {s t u : State}

theorem refl (c : Fin 13) (s : State) : CourseKeeps c s s := ⟨rfl, rfl, rfl, rfl, rfl, ⟨rfl, rfl⟩, fun _ _ => ⟨rfl, rfl⟩, fun _ => rfl⟩

theorem trans (h1 : CourseKeeps c s t) (h2 : CourseKeeps c t u) : CourseKeeps c s u where
  power := h2.power.trans h1.power
  flash := h2.flash.trans h1.flash
  otp := h2.otp.trans h1.otp
  replay := h2.replay.trans h1.replay
  handover := h2.handover.trans h1.handover
  own := ⟨h2.own.1.trans h1.own.1, h2.own.2.trans h1.own.2⟩
  other := fun d hd => ⟨(h2.other d hd).1.trans (h1.other d hd).1, (h2.other d hd).2.trans (h1.other d hd).2⟩
  imem := fun k => (h2.imem k).trans (h1.imem k)

theorem ite {p : Prop} [Decidable p] (h1 : CourseKeeps c s t) (h2 : CourseKeeps c s u) : CourseKeeps c s (if p then t else u) := by
  split
  · exact h1
  · exact h2

theorem foldl {β : Type} {f : State → β → State} (h : ∀ s b, CourseKeeps c s (f s b)) (l : List β) (s : State) : CourseKeeps c s (l.foldl f s) :=
  foldl_rel (CourseKeeps c) (refl c) (fun _ _ _ => trans) f h l s

/-- A change elsewhere. -/
theorem of_eq (hp : t.power = s.power) (hf : t.flash = s.flash) (ho : t.otp = s.otp) (hr : t.replay = s.replay)
    (hh : t.keystone.handover = s.keystone.handover) (hc : t.courses = s.courses) (hb : t.bricks = s.bricks) : CourseKeeps c s t where
  power := hp
  flash := hf
  otp := ho
  replay := hr
  handover := hh
  own := by simp only [State.course, hc, and_self]
  other := fun d _ => by simp only [State.course, hc, and_self]
  imem := fun k => by simp only [State.brick, hb]

theorem of_logs (h : Logs s t) : CourseKeeps c s t :=
  of_eq h.power h.flash h.otp h.replay (congrArg Keystone.handover h.keystone) h.courses h.bricks

theorem of_service (h : ServiceLeaves s t) (hr : t.replay = s.replay) (hh : t.keystone.handover = s.keystone.handover) : CourseKeeps c s t where
  power := h.power
  flash := h.flash
  otp := h.otp
  replay := hr
  handover := hh
  own := by rw [h.course c]; exact ⟨rfl, rfl⟩
  other := fun d _ => by rw [h.course d]; exact ⟨rfl, rfl⟩
  imem := fun k => by rw [h.brick k]

theorem of_mail (h : MailLeaves s t) : CourseKeeps c s t :=
  of_service (.of_mail h) ((congrArg State.replay h.1).trans rfl) ((congrArg (fun x => x.keystone.handover) h.1).trans rfl)

theorem svcReply (s : State) (code : Nat) (r : SvcReq) (status : Nat) (l : List Reg32) : CourseKeeps c s (s.svcReply code r status l) := by
  obtain ⟨x, hx, hm⟩ := s.svcReply_leaves code r status l
  exact (of_logs hx).trans (of_mail hm)

theorem event (s : State) (k : EvKind) (b : Bool) (v : BitVec 8) (l : List Nat) : CourseKeeps c s (s.event k b v l) := of_logs (Logs.event _ _ _ _ _)

theorem jrec (s : State) (d : Fin 13) (r : JRec) : CourseKeeps c s (s.jrec d r) := of_mail (.jrec s d r)

theorem modCourse (s : State) (f : Course → Course) (hb : ∀ x, (f x).bank = x.bank) (hf : ∀ x, (f x).fenced = x.fenced) :
    CourseKeeps c s (s.modCourse c f) where
  power := rfl
  flash := rfl
  otp := rfl
  replay := rfl
  handover := rfl
  own := by rw [State.course_modCourse]; exact ⟨hb _, hf _⟩
  other := fun d hd => by rw [State.course_modCourse_ne s f hd]; exact ⟨rfl, rfl⟩
  imem := fun _ => rfl

theorem modBrick (s : State) (k : Fin 52) (f : Brick → Brick) (hf : ∀ x, (f x).imem = x.imem) : CourseKeeps c s (s.modBrick k f) where
  power := rfl
  flash := rfl
  otp := rfl
  replay := rfl
  handover := rfl
  own := ⟨rfl, rfl⟩
  other := fun _ _ => ⟨rfl, rfl⟩
  imem := fun j => by
    by_cases hj : j = k
    · subst hj
      rw [State.brick_modBrick]
      exact hf _
    · rw [State.brick_modBrick_ne s f hj]

theorem modTile (s : State) (k : Fin 208) (f : Tile → Tile) : CourseKeeps c s (s.modTile k f) := of_eq rfl rfl rfl rfl rfl rfl rfl

theorem setReg (s : State) (a : Nat) (v : Reg32) : CourseKeeps c s (s.setReg a v) := of_eq rfl rfl rfl rfl rfl rfl rfl

theorem bumpEpoch (s : State) (p : Nat) : CourseKeeps c s (s.bumpEpoch p) := of_eq rfl rfl rfl rfl rfl rfl rfl

theorem modJournal (s : State) (f : Journal → Journal) : CourseKeeps c s (s.modJournal f) := of_eq rfl rfl rfl rfl rfl rfl rfl

theorem modKeystone (s : State) (f : Keystone → Keystone) (h : (f s.keystone).handover = s.keystone.handover) : CourseKeeps c s (s.modKeystone f) :=
  of_eq rfl rfl rfl rfl h rfl rfl

theorem resetParty (s : State) (p : Nat) : CourseKeeps c s (s.resetParty p) :=
  (bumpEpoch s p).trans (of_mail (.resetParty s p))

theorem of_port {q : PortCode} (h : PortLeaves s t q) : CourseKeeps c s t :=
  of_eq h.power ((congrArg State.flash h.1).trans rfl) ((congrArg State.otp h.1).trans rfl) ((congrArg State.replay h.1).trans rfl)
    ((congrArg (fun x => x.keystone.handover) h.1).trans rfl) h.courses h.bricks

theorem fieldLimitLock (s : State) (b : Bool) : CourseKeeps c s (s.fieldLimitLock b) := of_eq rfl rfl rfl rfl rfl rfl rfl

theorem journalEnd (s : State) (d : Fin 13) (cause : BitVec 4) : CourseKeeps c s (s.journalEnd d cause) := by
  unfold State.journalEnd
  exact .ite (((jrec s d _).trans (modJournal _ _)).trans (event _ _ _ _ _)) (refl c s)

theorem dropRelease (s : State) (d : Fin 13) : CourseKeeps d s (s.dropRelease d) := by
  unfold State.dropRelease
  split
  · exact (modCourse s (fun x => { x with release := none }) (fun _ => rfl) (fun _ => rfl)).trans (svcReply _ _ _ _ _)
  · exact refl d s

theorem dropServices (s : State) (d : Fin 13) : CourseKeeps d s (s.dropServices d) := by
  rw [State.dropServices_eq]
  exact ((dropRelease s d).trans (modKeystone _ _ rfl)).trans (foldl (fun s e => svcReply s _ _ _ _) _ _)

end

end CourseKeeps

section
variable {s : State} {c : Fin 13}

/-! ### A link that goes down -/

theorem State.up_dropQueued (s : State) (q : PortCode) : ((s.dropQueued q).port q).up = (s.port q).up :=
  foldl_part (fun x => (x.port q).up) (fun s c => by rw [State.countPort, State.port_modPort]; rfl) _ _

theorem State.up_holdStart (s : State) (q : PortCode) : ((s.holdStart q).port q).up = (s.port q).up := by
  rw [State.holdStart_eq]
  split
  · rw [State.holdExpire, (Logs.event _ _ _ _ _).port, State.port_modPort]
    change ((State.dropQueued _ q).port q).up = _
    rw [State.up_dropQueued, State.port_modPort]
  · rw [State.port_modPort]

theorem State.up_portDown (s : State) (q : PortCode) : ((s.portDown q).port q).up = false := by
  unfold State.portDown
  dsimp only
  split
  · rw [State.up_holdStart, State.countPort, State.port_modPort, State.countPort, State.port_modPort]
    change ((s.setPort q _).port q).up = false
    rw [State.port_setPort]
  · next h => exact Bool.eq_false_iff.mpr h

/-! ### A course emptied -/

/-- A brick of the course is reset, but for its instruction memory, and its party with it. -/
def State.emptyBrick (c : Fin 13) (s : State) (b : Fin 4) : State :=
  (s.modBrick (brickOf c b) (fun x => { Brick.reset with imem := x.imem })).resetParty (0x80 + (brickOf c b).val)

def State.emptyTile (c : Fin 13) (s : State) (i : Fin 16) : State := s.modTile (tileOfCourse c i) (fun t => t.courseReset s.now)

/-- Pin n is given back if the course owned it. -/
def State.freePin (c : Fin 13) (s : State) (n : Nat) : State :=
  if bit (s.reg (gpioOwnOff n)) 31 ∧ bits (s.reg (gpioOwnOff n)) 15 8 / 16 = c.val then s.setReg (gpioOwnOff n) (setBit (s.reg (gpioOwnOff n)) 31 false) else s

/-- Bricks, tiles and pins of the course. -/
def State.emptyBlocks (c : Fin 13) (s : State) : State :=
  (List.range 128).foldl (State.freePin c) ((List.finRange 16).foldl (State.emptyTile c) ((List.finRange 4).foldl (State.emptyBrick c) s))

/-- A course in its reset state, with its bank and fence. -/
def Course.emptied (x : Course) (now : Nat) : Course :=
  { Course.reset with bank := x.bank, base := edgeFrom brickCycle now, fenced := x.fenced, fencedMem := x.fencedMem,
                      trwStatus := BitVec.ofNat 32 (b2n x.fenced * 2 ^ 29 + b2n x.trowel.isSome * 2 ^ 28) }

/-- The image of the course requires FIELD_LIMIT. -/
def State.limits (s : State) (c : Fin 13) : Bool :=
  match (s.course c).image with
  | some im => im.fieldLimited
  | none => false

theorem State.emptyCourse_eq (s : State) (c : Fin 13) : s.emptyCourse c =
    if s.limits c
    then (((s.emptyBlocks c).modCourse c (fun x => x.emptied (s.emptyBlocks c).now)).portDown (portCp c)).fieldLimitLock false
    else ((s.emptyBlocks c).modCourse c (fun x => x.emptied (s.emptyBlocks c).now)).portDown (portCp c) := rfl

theorem CourseKeeps.emptyBrick (s : State) (c : Fin 13) (b : Fin 4) : CourseKeeps c s (s.emptyBrick c b) :=
  (CourseKeeps.modBrick s (brickOf c b) (fun x => { Brick.reset with imem := x.imem }) fun _ => rfl).trans (.resetParty _ _)

theorem CourseKeeps.emptyBlocks (s : State) (c : Fin 13) : CourseKeeps c s (s.emptyBlocks c) := by
  have hp : ∀ (s : State) (n : Nat), CourseKeeps c s (s.freePin c n) := fun s n => .ite (.setReg s _ _) (.refl c s)
  exact ((CourseKeeps.foldl (fun s b => .emptyBrick s c b) _ s).trans (.foldl (fun s i => .modTile s _ _) _ _)).trans (.foldl hp _ _)

theorem CourseKeeps.emptyCourse (s : State) (c : Fin 13) : CourseKeeps c s (s.emptyCourse c) := by
  have h := ((CourseKeeps.emptyBlocks s c).trans (.modCourse _ (fun x => x.emptied (s.emptyBlocks c).now) (fun _ => rfl) (fun _ => rfl))).trans
    (.of_port (PortLeaves.portDown _ (portCp c)))
  rw [State.emptyCourse_eq]
  exact .ite (h.trans (.fieldLimitLock _ _)) h

theorem State.course_emptyCourse (s : State) (c : Fin 13) : (s.emptyCourse c).course c = ((s.emptyBlocks c).course c).emptied (s.emptyBlocks c).now := by
  rw [State.emptyCourse_eq, apply_ite (State.course · c)]
  generalize hu : (s.emptyBlocks c).modCourse c (fun x => x.emptied (s.emptyBlocks c).now) = u
  have hc : (u.portDown (portCp c)).course c = ((s.emptyBlocks c).course c).emptied (s.emptyBlocks c).now := by
    rw [State.course, (PortLeaves.portDown u (portCp c)).courses, ← State.course, ← hu, State.course_modCourse]
  rw [show ((u.portDown (portCp c)).fieldLimitLock false).course c = (u.portDown (portCp c)).course c from rfl, ite_self, hc]

theorem State.port_emptyCourse (s : State) (c : Fin 13) : ((s.emptyCourse c).port (portCp c)).up = false := by
  rw [State.emptyCourse_eq, apply_ite (State.port · (portCp c)), apply_ite Port.up]
  split
  · exact State.up_portDown _ _
  · exact State.up_portDown _ _

/-- Run state, PC and registers of brick b of the course. -/
def State.brickCore (c : Fin 13) (s : State) (b : Fin 4) : BrickRun × Word × Vector Word 16 :=
  ((s.brick (brickOf c b)).run, (s.brick (brickOf c b)).pc, (s.brick (brickOf c b)).g)

theorem State.brickCore_resetParty (s : State) (p : Nat) (b : Fin 4) : (s.resetParty p).brickCore c b = s.brickCore c b := by
  obtain ⟨-, -, hb, -, -⟩ := MailLeaves.resetParty s p
  unfold State.brickCore
  rw [hb]
  rfl

theorem State.brickCore_emptyBrick (s : State) (c : Fin 13) (b : Fin 4) : (s.emptyBrick c b).brickCore c b = (.idle, 0, Vector.replicate 16 0) := by
  rw [State.emptyBrick, State.brickCore_resetParty, State.brickCore, State.brick_modBrick]
  rfl

theorem State.brickCore_emptyBrick_ne (s : State) (c : Fin 13) {a b : Fin 4} (h : b ≠ a) : (s.emptyBrick c a).brickCore c b = s.brickCore c b := by
  rw [State.emptyBrick, State.brickCore_resetParty, State.brickCore, State.brick_modBrick_ne s _ (brickOf_ne h), State.brickCore]

theorem State.bricks_emptyTile (c : Fin 13) (s : State) (i : Fin 16) : (s.emptyTile c i).bricks = s.bricks := rfl

/-- Every brick of the course idles in its reset state. -/
theorem State.brickCore_emptyCourse (s : State) (c : Fin 13) (b : Fin 4) : (s.emptyCourse c).brickCore c b = (.idle, 0, Vector.replicate 16 0) := by
  obtain ⟨u, -, -, he⟩ := foldl_member (g := State.brickCore c) (R := fun _ _ => True) (fun _ => trivial) (fun _ _ _ _ _ => trivial) (fun _ _ => trivial)
    (fun s a b h => State.brickCore_emptyBrick_ne s c h) (List.nodup_finRange 4) (List.mem_finRange b) s
  rw [State.brickCore_emptyBrick] at he
  rw [← he, State.emptyCourse_eq]
  have hbr : ∀ u : State, u.bricks = ((List.finRange 4).foldl (State.emptyBrick c) s).bricks → u.brickCore c b = ((List.finRange 4).foldl (State.emptyBrick c) s).brickCore c b :=
    fun u hu => by simp only [State.brickCore, State.brick, hu]
  have hblocks : (s.emptyBlocks c).bricks = ((List.finRange 4).foldl (State.emptyBrick c) s).bricks :=
    (foldl_part State.bricks (fun s n => by unfold State.freePin; split <;> rfl) _ _).trans (foldl_part State.bricks (State.bricks_emptyTile c) _ _)
  have hdown := (PortLeaves.portDown ((s.emptyBlocks c).modCourse c (fun x => x.emptied (s.emptyBlocks c).now)) (portCp c)).bricks.trans hblocks
  split
  · exact hbr _ hdown
  · exact hbr _ hdown

end

end Sys2Proof.Machine
end

section
/-! SUPPORT. The RST_CTRL scopes COURSE, PORT and CANCTL as a whole (R80 to R83, R374). -/

namespace Sys2Proof.Machine

section
variable {s t u : State} {c : Fin 13}

/-! ### A course stopped -/

theorem CourseKeeps.replayEnded (s : State) (c : Fin 13) (why : Nat) : CourseKeeps c s (s.replayEnded why) := by
  unfold State.replayEnded
  dsimp only
  have h := CourseKeeps.event (c := c) s .replayEnd false 0 [s.replay.course.val, why]
  split
  · exact (h.trans (.modKeystone _ (fun k => { k with replayReq := none }) rfl)).trans (.svcReply _ _ _ _ _)
  · exact h

/-- A replay of the course is cut off. -/
def Replay.cut (r : Replay) (s : State) (c : Fin 13) : Replay := { r with st := .aborted, cycle := (s.course c).cycleAt s.now }

/-- The replay of the course, if it runs, ends with the course (R83). -/
def State.replayCut (s : State) (c : Fin 13) : State :=
  if s.replay.course = c ∧ (s.replay.st = .loading ∨ s.replay.st = .running) then (s.replayAbort c).event .courseResetEndsReload true 0 [c.val] else s

theorem CourseKeeps.replayCut (s : State) (c : Fin 13) :
    ∃ r, CourseKeeps c { s with replay := r } (s.replayCut c) ∧ (s.replay.course = c → s.replay.st = .running → r.st = .aborted) := by
  by_cases h : s.replay.course = c ∧ (s.replay.st = .loading ∨ s.replay.st = .running)
  · refine ⟨s.replay.cut s c, ?_, fun _ _ => rfl⟩
    rw [State.replayCut, if_pos h, State.replayAbort, if_pos h]
    exact (CourseKeeps.replayEnded (s.modReplay (fun r => r.cut s c)) c 5).trans (.event _ _ _ _ _)
  · refine ⟨s.replay, ?_, fun hc hr => absurd ⟨hc, .inr hr⟩ h⟩
    rw [State.replayCut, if_neg h]
    exact .refl c s

/-- Steps that keep to the bounds do so whatever the replay is. -/
theorem CourseKeeps.withReplay (h : CourseKeeps c s t) (r : Replay) : CourseKeeps c { s with replay := r } { t with replay := r } where
  power := h.power
  flash := h.flash
  otp := h.otp
  replay := rfl
  handover := h.handover
  own := h.own
  other := h.other
  imem := h.imem

/-- A course whose services, replay and recording have ended, before it is emptied. -/
def State.courseStopped (s : State) (c : Fin 13) : State := ((((s.ungateCourse c 0).dropServices c).replayCut c).journalEnd c 1)

theorem State.courseReset_none (h : (s.course c).trowel = none) : s.courseReset c =
    match ((s.courseStopped c).emptyCourse c).keystone.handover with
    | some v =>
      if c = v.standby then (((s.courseStopped c).emptyCourse c).endHandover 12).event .courseResetEndsReload true 0 [c.val]
      else if c = v.live then (((s.courseStopped c).emptyCourse c).emptyCourse v.standby).endHandover 12
      else (s.courseStopped c).emptyCourse c
    | none => (s.courseStopped c).emptyCourse c := by
  unfold State.courseReset
  dsimp only
  rw [h]
  rfl

theorem CourseKeeps.courseStopped (s : State) (c : Fin 13) :
    ∃ r, CourseKeeps c { s with replay := r } (s.courseStopped c) ∧ (s.replay.course = c → s.replay.st = .running → r.st = .aborted) := by
  have h1 : CourseKeeps c s ((s.ungateCourse c 0).dropServices c) := (CourseKeeps.of_mail (.ungateCourse s c 0)).trans (.dropServices _ c)
  obtain ⟨r, h2, hr⟩ := CourseKeeps.replayCut ((s.ungateCourse c 0).dropServices c) c
  refine ⟨r, ((h1.withReplay r).trans h2).trans (.journalEnd _ c 1), ?_⟩
  rw [h1.replay] at hr
  exact hr

/-! ### The course emptied, and the live reload that it ends -/

theorem State.gated_eq_false (h : (s.course c).gatedAt = none) : s.gated c = false := by rw [State.gated, h]; rfl

/-- What an emptied course has become, with all that its reset leaves alone. -/
theorem CourseEmptied.of_keeps {r : Replay} (h : CourseKeeps c { s with replay := r } u) : CourseEmptied s (u.emptyCourse c) c := by
  have hk := h.trans (.emptyCourse u c)
  have hc := State.course_emptyCourse u c
  refine ⟨?_, ?_, ?_, State.gated_eq_false ?_, ?_, ?_, ?_, hk.own.1, hk.own.2, fun b => ?_, State.port_emptyCourse u c, hk.other, fun k _ => hk.imem k, hk.flash, hk.otp⟩
  case refine_8 =>
    have hb := State.brickCore_emptyCourse u c b
    exact ⟨hk.imem _, congrArg Prod.fst hb, congrArg (fun x => x.2.1) hb, congrArg (fun x => x.2.2) hb⟩
  all_goals
    rw [hc]
    rfl

/-- Answers and the end of a reload leave an emptied course as it is. -/
theorem CourseEmptied.service (h : CourseEmptied s u c) (hs : ServiceLeaves u t) (hg : u.gated c = false → t.gated c = false) : CourseEmptied s t c := by
  obtain ⟨h1, h2, h3, h4, h5, h6, h7, h8, h9, hb, hp, ho, hi, hf, hot⟩ := h
  have hc := hs.course c
  refine ⟨?_, ?_, ?_, hg h4, ?_, ?_, ?_, ?_, ?_, fun b => ?_, ?_, fun d hd => ?_, fun k hk => ?_, hs.flash.trans hf, hs.otp.trans hot⟩
  · rw [hc]; exact h1
  · rw [hc]; exact h2
  · rw [hc]; exact h3
  · rw [hc]; exact h5
  · rw [hc]; exact h6
  · rw [hc]; exact h7
  · rw [hc]; exact h8
  · rw [hc]; exact h9
  · rw [hs.brick]; exact hb b
  · rw [hs.port]; exact hp
  · rw [hs.course]; exact ho d hd
  · rw [hs.brick]; exact hi k hk

theorem MailKeeps.remap (s : State) (c : Fin 13) (v : Reg32) : MailKeeps s (s.remap c v) := by
  have h : ∀ (x : State) (n : Fin 13), MailKeeps x (if s.cpTarget n = c then x.setReg (0x8F8000 + 4 * n.val) v else x) := fun x n => by
    split
    · exact .of_eq rfl rfl rfl
    · exact .refl x
  exact .foldl h _ s

theorem MailKeeps.modCourse (s : State) (c : Fin 13) (f : Course → Course) (h : ∀ x, (f x).gatedAt = x.gatedAt) : MailKeeps s (s.modCourse c f) := by
  refine ⟨⟨rfl, rfl⟩, ⟨rfl, rfl⟩, fun d hd => ?_⟩
  by_cases hdc : d = c
  · subst hdc
    rw [State.course_modCourse, h]
    exact hd
  · rw [State.course_modCourse_ne s f hdc]
    exact hd

theorem State.replay_svcReply (s : State) (code : Nat) (r : SvcReq) (status : Nat) (l : List Reg32) : (s.svcReply code r status l).replay = s.replay :=
  (CourseKeeps.svcReply (c := 0) s code r status l).replay

theorem State.replay_remap (s : State) (c : Fin 13) (v : Reg32) : (s.remap c v).replay = s.replay :=
  foldl_part State.replay (fun x n => by split <;> rfl) _ s

theorem MailKeeps.steered (s : State) (c : Fin 13) : MailKeeps s (s.modCourse c (fun x => { x with egressOnly := none })) := .modCourse s c _ fun _ => rfl

theorem MailKeeps.handoverEvent (s : State) (v : Handover) (w : Nat) : MailKeeps s (s.handoverEvent v w) := .event _ _ _ _ _

theorem MailKeeps.handoverOver (s : State) : MailKeeps s (s.modKeystone (fun k => { k with handover := none })) := .of_eq rfl rfl rfl

/-- A reload forgotten, its steering undone, before its report. -/
def State.reloadOver (s : State) (v : Handover) : State :=
  (((s.modKeystone (fun k => { k with handover := none })).remap v.live (BitVec.ofNat 32 v.live.val)).modCourse v.live
    (fun x => { x with egressOnly := none })).modCourse v.standby (fun x => { x with egressOnly := none })

theorem State.endHandover_some {v : Handover} (h : s.keystone.handover = some v) (status : Nat) :
    s.endHandover status = ((s.reloadOver v).handoverEvent v 9).svcReply 0x0201 v.req status [BitVec.ofNat 32 v.standby.val] := by
  unfold State.endHandover
  rw [h]
  rfl

theorem MailKeeps.reloadOver (s : State) (v : Handover) : MailKeeps s (s.reloadOver v) :=
  ((MailKeeps.handoverOver s).trans (.remap _ v.live (BitVec.ofNat 32 v.live.val))).trans ((MailKeeps.steered _ v.live).trans (.steered _ v.standby))

theorem State.replay_modCourse (s : State) (c : Fin 13) (f : Course → Course) : (s.modCourse c f).replay = s.replay := rfl

theorem State.replay_modKeystone (s : State) (f : Keystone → Keystone) : (s.modKeystone f).replay = s.replay := rfl

theorem State.replay_reloadOver (s : State) (v : Handover) : (s.reloadOver v).replay = s.replay := by
  rw [State.reloadOver, State.replay_modCourse, State.replay_modCourse, State.replay_remap, State.replay_modKeystone]

/-- The end of a live reload gates nothing, and leaves the replay. -/
theorem State.endHandover_quiet (s : State) (status : Nat) : MailKeeps s (s.endHandover status) ∧ (s.endHandover status).replay = s.replay := by
  cases h : s.keystone.handover with
  | none =>
    rw [show s.endHandover status = s by unfold State.endHandover; rw [h]]
    exact ⟨.refl s, rfl⟩
  | some v =>
    rw [State.endHandover_some h]
    refine ⟨((MailKeeps.reloadOver s v).trans (.handoverEvent _ v 9)).trans (.svcReply _ _ _ _ _), ?_⟩
    rw [State.replay_svcReply, (Logs.handoverEvent _ v 9).replay, State.replay_reloadOver]

/-- A COURSE reset of a course that is neither under test nor the live one of a reload. -/
theorem State.courseReset_empties (ht : (s.course c).trowel = none) (hl : ∀ v, s.keystone.handover = some v → v.live ≠ c) :
    CourseEmptied s (s.courseReset c) c ∧ (∀ v, s.keystone.handover = some v → v.standby = c → (s.courseReset c).keystone.handover = none) ∧
      (s.replay.course = c → s.replay.st = .running → (s.courseReset c).replay.st = .aborted) ∧ (s.courseReset c).power = s.power := by
  obtain ⟨r, hk, hr⟩ := CourseKeeps.courseStopped s c
  have he := CourseEmptied.of_keeps hk
  have hke := hk.trans (.emptyCourse _ c)
  rw [State.courseReset_none ht]
  generalize (s.courseStopped c).emptyCourse c = u at he hke ⊢
  have hh : u.keystone.handover = s.keystone.handover := hke.handover
  have hrep : s.replay.course = c → s.replay.st = .running → u.replay.st = .aborted := fun h1 h2 => by rw [hke.replay]; exact hr h1 h2
  rw [hh]
  cases hv : s.keystone.handover with
  | none => exact ⟨he, nofun, hrep, hke.power⟩
  | some v =>
    dsimp only
    split
    · have hm := (u.endHandover_quiet 12).1.trans (.event _ .courseResetEndsReload true 0 [c.val])
      have hlog : Logs (u.endHandover 12) _ := Logs.event _ .courseResetEndsReload true 0 [c.val]
      have hs := (ServiceLeaves.endHandover u 12).trans (.of_logs hlog)
      refine ⟨he.service hs ?_, fun _ _ _ => ?_, fun h1 h2 => ?_, hs.power.trans hke.power⟩
      · intro hg
        exact State.gated_eq_false (hm.awake c (Option.isSome_eq_false_iff.mp hg |> Option.isNone_iff_eq_none.mp))
      · rw [hlog.keystone]
        exact State.handover_endHandover u 12
      · rw [hlog.replay, (u.endHandover_quiet 12).2]
        exact hrep h1 h2
    · next hns =>
      rw [if_neg fun h => hl v hv h.symm]
      refine ⟨he, fun w hw hc => ?_, hrep, hke.power⟩
      obtain rfl := Option.some.inj hw
      exact absurd hc.symm hns

/-- A COURSE reset during a preserving trowel run waits for the end of the segment (R230). -/
theorem State.courseReset_waits {r : TrowelRun} (h : (s.course c).trowel = some r) (hp : r.preserving = true) :
    s.courseReset c = s.setCourse c { s.course c with trowel := some { r with abort := true } } := by
  unfold State.courseReset
  dsimp only
  rw [h]
  exact if_pos hp

end

section
variable {s : State}

/-! ### A port reset -/

theorem State.mortar_holdStart {q : PortCode} (h : s.holdTime q ≠ 0) : (s.holdStart q).mortar = s.mortar := by
  rw [State.holdStart_of_hold h]
  rfl

/-- A link that falls leaves what waits, if a hold follows. -/
theorem State.mortar_portDown {q : PortCode} (h : s.holdTime q ≠ 0) : (s.portDown q).mortar = s.mortar := by
  unfold State.portDown
  dsimp only
  split
  · exact State.mortar_holdStart (s := State.countPort _ q 17 1) h
  · rfl

/-! ### A controller reset -/

theorem State.can_canReset (s : State) (n : Fin 8) : (s.canReset n).can n = .reset := State.can_setCan s n _

theorem State.can_canReset_ne (s : State) {m n : Fin 8} (h : m ≠ n) : (s.canReset n).can m = s.can m := State.can_setCan_ne s _ h

/-- Address a is of the block of controller n. -/
def inCanBlock (n : Fin 8) (a : Nat) : Bool := decide (canBase n ≤ a ∧ a < canBase n + 0x10000)

theorem State.reg_canReset (s : State) {n : Fin 8} {a : Nat} (h1 : canBase n ≤ a) (h2 : a < canBase n + 0x10000) : (s.canReset n).reg a = regReset a :=
  Sparse.read_filter_out regReset s.regs (fun a => !inCanBlock n a) (by rw [inCanBlock, decide_eq_true ⟨h1, h2⟩]; rfl)

theorem State.reg_canReset_other (s : State) {n : Fin 8} {a : Nat} (h : a < canBase n ∨ canBase n + 0x10000 ≤ a) : (s.canReset n).reg a = s.reg a :=
  Sparse.read_filter regReset s.regs (fun a => !inCanBlock n a) (by rw [inCanBlock, decide_eq_false (by omega)]; rfl)

end

end Sys2Proof.Machine
end

section
/-! SUPPORT. RST_N, the phases of a start, faults, rails, the TAP and RST_CTRL as commands (R47, R62, R74 to R91, R232, R511). -/

namespace Sys2Proof.Machine

section
variable {s : State}

/-! ### RST_N (R74, R84) -/

/-- RST_N low: a wake domain that was armed is disarmed. -/
def State.rstFallen (s : State) : State :=
  { s with power := { s.power with rstLow := true, fault := true, wakeCfg := if s.power.stbyReady then [] else s.power.wakeCfg, wakeSrc := if s.power.stbyReady then setBit s.power.wakeSrc 15 false else s.power.wakeSrc } }

theorem State.rstFallen_eq (s : State) :
    s.modPower (fun p => { (if p.stbyReady then p.disarm else p) with rstLow := true, fault := true }) = s.rstFallen := by
  unfold State.rstFallen State.modPower
  cases h : s.power.stbyReady <;> simp [h, Power.disarm]

theorem exec_rstNFall_eq : exec .rstNFall s = s.when_ (decide (s.power.supply = .on) && !s.power.rstLow) (fun s =>
    (s.modPower (fun p => { (if p.stbyReady then p.disarm else p) with rstLow := true, fault := true })).deviceReset 1) := rfl

theorem exec_rstNFall_resets (ho : s.power.supply = .on) (hr : s.power.rstLow = false) :
    ∃ t, exec .rstNFall s = .next t ∧ KeepsContents s t ∧ WasReset s.rstFallen t 1 := by
  obtain ⟨hw, hk⟩ := s.rstFallen.deviceReset_resets 1
  refine ⟨s.rstFallen.deviceReset 1, ?_, hk, hw⟩
  rw [exec_rstNFall_eq, State.when_of_true s _ (by simp [ho, hr]), State.rstFallen_eq]

theorem exec_rstNFall_idle (h : s.power.supply ≠ .on ∨ s.power.rstLow = true) : exec .rstNFall s = .next s :=
  exec_rstNFall_eq.trans (State.when_of_false s _ (by rcases h with h | h <;> simp [h]))

section
variable {b : BitVec 2}

theorem State.alive_rstReleased : (s.rstReleased b).alive = !s.power.tap.extestClass := by
  simp [State.alive, State.rstReleased]

/-- The release of RST_N starts the device, unless an EXTEST-class instruction holds it. -/
theorem exec_rstNRelease_begins (hr : s.power.rstLow = true) (hs : s.power.supply ≠ .off)
    (ht : ¬ (b = 3 ∧ (s.lifecycle = .manufacture ∨ s.lifecycle = .returned))) (he : s.power.tap.extestClass = false) :
    ∃ t, exec (.rstNRelease b) s = .next t ∧ Begins (s.rstReleased b) t := by
  refine ⟨_, ?_, State.startRom_begins (s.rstReleased b)⟩
  rw [exec_rstNRelease_start (by simp [hr, hs]) ht, if_pos (by rw [State.alive_rstReleased, he]; rfl)]

theorem exec_rstNRelease_held (hr : s.power.rstLow = true) (hs : s.power.supply ≠ .off)
    (ht : ¬ (b = 3 ∧ (s.lifecycle = .manufacture ∨ s.lifecycle = .returned))) (he : s.power.tap.extestClass = true) :
    exec (.rstNRelease b) s = .next (s.rstReleased b) := by
  rw [exec_rstNRelease_start (by simp [hr, hs]) ht, if_neg (by rw [State.alive_rstReleased, he]; exact Bool.false_ne_true)]

end

/-! ### The phases (R84 to R91, R232, R246) -/

section
variable {o : PhaseOutcome}

theorem exec_startPhaseComplete_rom (ha : s.alive = true) (hp : s.power.phase = .rom) (hl : o.pllFail = none) :
    ∃ t, exec (.startPhaseComplete o) s = .next t ∧
      Enters { s with power := { s.power with pcieWait := if s.power.bootSel = 1 then some s.tick else none } } t .keystoneLoad := by
  refine ⟨_, exec_startPhaseComplete ha hp nofun nofun, ?_⟩
  rw [State.phaseEnd_rom hp hl]
  exact State.enterPhase_enters _ _

/-- A failure of the start at the end of phase p. -/
theorem exec_startPhaseComplete_fails (ha : s.alive = true) {p : Phase} (hp : s.power.phase = p) (h1 : p ≠ .running) (h2 : p ≠ .footing)
    {code : BitVec 8} {x : Reg32} {cause : BitVec 4} (h : s.phaseEnd o = s.startFail code x cause) :
    ∃ t, exec (.startPhaseComplete o) s = .next t ∧ StartFails s t code x cause :=
  ⟨_, exec_startPhaseComplete ha hp h1 h2, by rw [h]; exact State.startFail_fails code x cause ha⟩

theorem exec_startPhaseComplete_pll {k : BitVec 2} (hp : s.power.phase = .rom ∨ (s.power.phase = .clocks ∧ o.otpFault = none)) (ha : s.alive = true)
    (hk : o.pllFail = some k) : ∃ t, exec (.startPhaseComplete o) s = .next t ∧ StartFails s t 0x04 (k.setWidth 32) 7 := by
  rcases hp with hp | ⟨hp, ho⟩
  · exact exec_startPhaseComplete_fails ha hp nofun nofun (State.phaseEnd_rom_pll hp hk)
  · exact exec_startPhaseComplete_fails ha hp nofun nofun (State.phaseEnd_clocks_pll hp ho hk)

theorem exec_startPhaseComplete_keystoneLoad (ha : s.alive = true) (hp : s.power.phase = .keystoneLoad) :
    exec (.startPhaseComplete o) s = .next (s.keystoneLoad o.firmware) := by
  rw [exec_startPhaseComplete ha hp nofun nofun, State.phaseEnd_keystoneLoad hp]

section
variable (ha : s.alive = true) (hp : s.power.phase = .keystoneLoad)
include ha hp

theorem exec_keystoneLoad_flash (h1 : s.power.bootSel ≠ 1) (h2 : s.power.fallback = false)
    (hm : (s.flashImage 0x100000 0x400000).take 4 = [0x41, 0x54, 0x49, 0x52]) (hi : s.imageBad 1 (s.flashImage 0x100000 0x400000) = none) :
    ∃ t, exec (.startPhaseComplete o) s = .next t ∧
      Enters { s with keystone := { s.keystone with firmware := some (imageId (s.flashImage 0x100000 0x400000)) }, power := { s.power with fwSrc := false, pcieWait := none } } t .clocks := by
  refine ⟨_, exec_startPhaseComplete_keystoneLoad ha hp, ?_⟩
  rw [State.keystoneLoad_flash _ h1 h2 (State.firmwareBad_flash_none hm hi)]
  exact State.runFirmware_enters s 0 _

theorem exec_keystoneLoad_flash_bad (h1 : s.power.bootSel ≠ 1) (h2 : s.power.fallback = false) (h3 : s.power.bootSel ≠ 2) {c : BitVec 8} {x : Reg32}
    (h : s.firmwareBad 0 (s.flashImage 0x100000 0x400000) = some (c, x)) :
    ∃ t, exec (.startPhaseComplete o) s = .next t ∧ StartFails s t c x 7 :=
  exec_startPhaseComplete_fails ha hp nofun nofun (by rw [State.phaseEnd_keystoneLoad hp, State.keystoneLoad_flash_bad _ h1 h2 h, if_neg h3])

/-- The start turns to PCIe: it waits for firmware from the host. -/
def State.turnedToPcie (s : State) : State := { s with power := { s.power with fallback := true, pcieWait := some s.tick } }

theorem exec_keystoneLoad_fallback (h2 : s.power.fallback = false) (h3 : s.power.bootSel = 2)
    (h : (s.flashImage 0x100000 0x400000).take 4 ≠ [0x41, 0x54, 0x49, 0x52] ∨ (s.imageBad 1 (s.flashImage 0x100000 0x400000)).isSome = true) :
    exec (.startPhaseComplete o) s = exec (.startPhaseComplete o) s.turnedToPcie := by
  obtain ⟨c, x, hb⟩ := State.firmwareBad_of_bad h
  have ha' : s.turnedToPcie.alive = true := (State.alive_congr ⟨rfl, rfl, rfl⟩).trans ha
  rw [exec_startPhaseComplete_keystoneLoad ha hp, exec_startPhaseComplete_keystoneLoad ha' hp,
    State.keystoneLoad_flash_bad _ (by rw [h3]; decide) h2 hb, if_pos h3, State.keystoneLoad_pcie _ (.inr rfl)]
  rfl

section
variable (hb : s.power.bootSel = 1 ∨ s.power.fallback = true)
include hb

theorem exec_keystoneLoad_waits (hf : o.firmware = none) : exec (.startPhaseComplete o) s = .next s := by
  rw [exec_startPhaseComplete_keystoneLoad ha hp, State.keystoneLoad_pcie _ hb, hf]
  rfl

theorem exec_keystoneLoad_pcie {f : List Byte} (hf : o.firmware = some f) (hi : s.imageBad 1 f = none) :
    ∃ t, exec (.startPhaseComplete o) s = .next t ∧
      Enters { s with keystone := { s.keystone with firmware := some (imageId f) }, power := { s.power with fwSrc := true, pcieWait := none } } t .clocks := by
  refine ⟨_, exec_startPhaseComplete_keystoneLoad ha hp, ?_⟩
  rw [State.keystoneLoad_pcie _ hb, hf, State.pcieLoad_good hi]
  exact State.runFirmware_enters s 1 f

theorem exec_keystoneLoad_pcie_bad {f : List Byte} {e k : Nat} (hf : o.firmware = some f) (hi : s.imageBad 1 f = some (e, k)) :
    ∃ t, exec (.startPhaseComplete o) s = .next t ∧ StartFails s t 0x01 (BitVec.ofNat 32 (k * 65536 + 1)) 7 :=
  exec_startPhaseComplete_fails ha hp nofun nofun (by rw [State.phaseEnd_keystoneLoad hp, State.keystoneLoad_pcie _ hb, hf, State.pcieLoad_bad hi])

end

end

theorem exec_startPhaseComplete_clocks (ha : s.alive = true) (hp : s.power.phase = .clocks) (hf : o.otpFault = none) (hl : o.pllFail = none) :
    ∃ t, exec (.startPhaseComplete o) s = .next t ∧ Enters { s with plumb := t.plumb, power := s.calRead.power } t .trowel := by
  refine ⟨_, exec_startPhaseComplete ha hp nofun nofun, ?_⟩
  rw [State.phaseEnd_clocks hp hf hl]
  exact s.loadCal_enters

theorem exec_startPhaseComplete_courseLoad (ha : s.alive = true) (hp : s.power.phase = .courseLoad) {u : State} (h : s.loadManifest = .ok u) :
    ∃ t, exec (.startPhaseComplete o) s = .next t ∧ Enters u t .ports := by
  refine ⟨_, exec_startPhaseComplete ha hp nofun nofun, ?_⟩
  rw [State.phaseEnd_courseLoad_ok hp h]
  exact State.enterPhase_enters u .ports

theorem exec_startPhaseComplete_manifestBad (ha : s.alive = true) (hp : s.power.phase = .courseLoad) (h1 : s.lifecycle ≠ .manufacture)
    (h2 : (s.flashImage 0x10000 0x10000).take 4 ≠ [0xFF, 0xFF, 0xFF, 0xFF]) {e k : Nat} (h : s.imageBad 5 (s.flashImage 0x10000 0x10000) = some (e, k)) :
    ∃ t, exec (.startPhaseComplete o) s = .next t ∧ StartFails s t 0x07 (BitVec.ofNat 32 (k * 65536)) 7 :=
  exec_startPhaseComplete_fails ha hp nofun nofun (by rw [State.phaseEnd_courseLoad_error hp (State.loadManifest_bad h1 h2 h), Nat.add_zero])

/-! #### TROWEL -/

/-- The journal after the march tests is what the tests left, if it was tested. -/
theorem State.journal_trowelEnd (l : List CourseFail) (h : s.power.cause = 0 ∨ s.power.cause = 2) :
    ((s.trowelEnd l).enterPhase .courseLoad).journal = { Journal.reset with fill := some 0x00000000FFFFFFFF } := by
  have hj : s.journalMarched.journal = { Journal.reset with fill := some journalFill } := by rw [State.journalMarched, if_pos h]
  have hm : (s.trowelEnd l).journal = { Journal.reset with fill := some journalFill } := by
    rw [(s.trowelEnd_marches l).1.journal (by rw [hj]; exact nofun), hj]
  refine Eq.trans (State.journal_recordEvent (s := ((s.trowelEnd l).modPower _).modRecord _) _ ?_) hm
  exact fun hr => absurd ((congrArg Journal.st hm).symm.trans hr) nofun

theorem Marched.enters {t u : State} {p : Phase} (h : Marched s u) (he : Enters u t p) :
    t = { s with freeCtr := t.freeCtr, courses := t.courses, bricks := t.bricks, journal := t.journal, power := t.power, recorder := t.recorder, pf0 := t.pf0, pf1 := t.pf1, hostMem := t.hostMem, chainOut := t.chainOut } := by
  have hf : t.freeCtr = u.freeCtr := (congrArg State.freeCtr he).trans rfl
  refine Eq.trans (b := { u with power := t.power, recorder := t.recorder, journal := t.journal, pf0 := t.pf0, pf1 := t.pf1, hostMem := t.hostMem, chainOut := t.chainOut }) ?_ ?_
  · rw [he.power]
    exact he
  · rw [hf, he.courses, he.bricks]
    conv_lhs => rw [h.frame]

theorem exec_startPhaseComplete_trowel (ha : s.alive = true) (hp : s.power.phase = .trowel) (hs : o.sharedFail = none) :
    ∃ t, exec (.startPhaseComplete o) s = .next t ∧ t.power = { s.power with phase := .courseLoad, degraded := t.power.degraded, startRec := { s.power.startRec with phase := 4 } } ∧
      (o.fenced ≠ [] → t.power.degraded = true) ∧ (o.fenced = [] → t.power.degraded = s.power.degraded) ∧
      (∀ f, f ∈ o.fenced → (t.course f.course).fenced = true) ∧
      (∀ c, (∀ f, f ∈ o.fenced → f.course ≠ c) → t.course c = { s.course c with bank := [], trwStatus := 0x80000000 } ∧ ∀ k, courseOf k = c → t.brick k = { s.brick k with imem := [], pre := [] }) ∧
      ((s.power.cause = 0 ∨ s.power.cause = 2) → t.journal = { Journal.reset with fill := some 0x00000000FFFFFFFF }) ∧
      t = { s with freeCtr := t.freeCtr, courses := t.courses, bricks := t.bricks, journal := t.journal, power := t.power, recorder := t.recorder, pf0 := t.pf0, pf1 := t.pf1, hostMem := t.hostMem, chainOut := t.chainOut } := by
  obtain ⟨hm, hd, hn, hfe, hpass⟩ := s.trowelEnd_marches o.fenced
  have hj := fun h => s.journal_trowelEnd o.fenced h
  have hfr := s.journalMarched_frame
  refine ⟨(s.trowelEnd o.fenced).enterPhase .courseLoad, ?_, ?_⟩
  · rw [exec_startPhaseComplete ha hp nofun nofun, State.phaseEnd_trowel hp hs]
  have he := State.enterPhase_enters (s.trowelEnd o.fenced) .courseLoad
  generalize s.trowelEnd o.fenced = u at hm hd hn hfe hpass hj he
  generalize u.enterPhase .courseLoad = t at hj he
  have hup : u.power = { s.power with degraded := u.power.degraded } := hm.power.trans (by rw [hfr])
  have htp : t.power = { u.power with phase := .courseLoad, startRec := { u.power.startRec with phase := 4 } } := he.power
  have htd : t.power.degraded = u.power.degraded := by rw [htp]
  refine ⟨?_, fun h => htd.trans (hd h), fun h => htd.trans (hn h), fun f hf => ?_, fun c hc => ⟨?_, fun k hk => ?_⟩, hj, ?_⟩
  · rw [htd, htp, hup]
  · rw [he.course f.course]
    exact hfe f hf
  · exact (he.course c).trans (congrArg Prod.fst (hpass c hc))
  · subst hk
    have hb := congrFun (congrArg Prod.snd (hpass _ hc)) (localOf k)
    have hbk : u.brick (brickOf (courseOf k) (localOf k)) = { s.brick (brickOf (courseOf k) (localOf k)) with imem := [], pre := [] } := hb
    rw [brickOf_courseOf] at hbk
    exact (he.brick k).trans hbk
  · refine (hm.enters he).trans ?_
    rw [hfr]

end

end

end Sys2Proof.Machine
end

section
/-! SUPPORT. COURSE_LOAD's entries, faults, the rails, the TAP and RST_CTRL as commands (R62, R73 to R82, R87, R91, R246, R466, R511). -/

namespace Sys2Proof.Machine

section
variable {s : State}

/-! ### Entries of the manifest (R241, R246; log 37) -/

section
variable {e : List Byte} {c : Fin 13} {n : Nat} {l : List Byte} {g : List Reg32}

theorem State.manifestEntry_loads (h : EntryIs s e c n l g) (hf : (s.course c).fenced = false) (hi : (s.course c).image = none) (hs : s.standby ≠ some c)
    (hb : s.loadBad c c l (loadedOf c l g 0) = none) :
    ∃ t, s.manifestEntry e = .ok t ∧ (t.course c).image = some (loadedOf c l g 0) ∧ (t.course c).mode = 1 ∧ (t.course c).released = false ∧
      (∀ x, x ≠ c → (t.course x).bank = (s.course x).bank ∧ (t.course x).image = (s.course x).image) ∧ t.flash = s.flash ∧ t.otp = s.otp := by
  obtain ⟨h1, h2, h3, h4, h5, h6, -⟩ := s.putImage_loads c l (loadedOf c l g 0)
  exact ⟨_, by rw [State.manifestEntry_takes h hf hi hs, State.placeImage_good hb], h1, h2, h3, h4, h5, h6⟩

theorem State.manifestEntry_fails (h : EntryIs s e c n l g) (hf : (s.course c).fenced = false) (hi : (s.course c).image = none) (hs : s.standby ≠ some c)
    {x k : Nat} (hb : s.loadBad c c l (loadedOf c l g 0) = some (x, k)) : s.manifestEntry e = .error (k, c.val) := by
  rw [State.manifestEntry_takes h hf hi hs, State.placeImage_bad hb]

/-- COURSE_ROLE with its standby used up. -/
def State.roleUsed (s : State) : State := s.setReg 0x40 (setBit (s.reg 0x40) 31 false)

theorem State.manifestEntry_substitutes (h : EntryIs s e c n l g) {d : Fin 13} (hc : (s.course c).fenced = true) (hs : s.standby = some d)
    (hf : (s.course d).fenced = false) (hi : (s.course d).image = none) (hw : Sparse.wf regReset s.regs = true)
    (hb : s.roleUsed.loadBad d d l (loadedOf d l g 0) = none) :
    ∃ t, s.manifestEntry e = .ok t ∧ (t.course d).image = some (loadedOf d l g 0) ∧ (t.course d).mode = 1 ∧ (t.course d).released = false ∧
      (∀ x, x ≠ d → (t.course x).bank = (s.course x).bank ∧ (t.course x).image = (s.course x).image) ∧ t.flash = s.flash ∧ t.otp = s.otp ∧
      (t.reg 0x40).getLsbD 31 = false := by
  obtain ⟨h1, h2, h3, h4, h5, h6, h7⟩ := s.roleUsed.putImage_loads d l (loadedOf d l g 0)
  refine ⟨s.roleUsed.putImage d l (loadedOf d l g 0), ?_, h1, h2, h3, h4, h5, h6, ?_⟩
  · rw [State.manifestEntry_standby h hc hs hf hi]
    exact State.placeImage_good hb
  · have hr : s.roleUsed.reg 0x40 = setBit (s.reg 0x40) 31 false := Sparse.read_write_same _ _ _ hw
    rw [h7, hr, getLsbD_setBit]
    rfl

end

theorem exec_startPhaseComplete_ports (o : PhaseOutcome) (ha : s.alive = true) (hp : s.power.phase = .ports) :
    exec (.startPhaseComplete o) s = .next s.enterRunning := by
  rw [exec_startPhaseComplete ha hp nofun nofun, State.phaseEnd_ports hp]

/-! ### Faults (R87, R91, R511) -/

theorem exec_startWatchdogExpiry_eq : exec .startWatchdogExpiry s = s.when_ (s.starting && decide (2000 ≤ s.tick)) (fun s => s.startFail 0x09 0 6) := rfl

theorem exec_startWatchdogExpiry_fails (h : s.starting = true) (ht : 2000 ≤ s.tick) :
    ∃ t, exec .startWatchdogExpiry s = .next t ∧ StartFails s t 0x09 0 6 :=
  ⟨_, exec_startWatchdogExpiry_eq.trans (State.when_of_true s _ (by simp [h, ht])), State.startFail_fails 0x09 0 6 (State.starting_alive h)⟩

theorem exec_startWatchdogExpiry_idle (h : s.starting = false ∨ s.tick < 2000) : exec .startWatchdogExpiry s = .next s :=
  exec_startWatchdogExpiry_eq.trans (State.when_of_false s _ (by rcases h with h | h <;> simp [h]))

theorem exec_pcieBootWaitExpiry_some {n : Nat} (hn : s.power.pcieWait = some n) : exec .pcieBootWaitExpiry s =
    s.when_ (s.starting && decide (n + 1000 ≤ s.tick)) (fun s => s.startFail 0x03 (BitVec.ofNat 32 (s.tick - n)) 7) := by
  simp only [exec, execPcieBootWaitExpiry, hn]

theorem exec_pcieBootWaitExpiry_none (hn : s.power.pcieWait = none) : exec .pcieBootWaitExpiry s = .next s := by
  simp only [exec, execPcieBootWaitExpiry, hn]

theorem exec_pcieBootWaitExpiry_fails {n : Nat} (h : s.starting = true) (hn : s.power.pcieWait = some n) (ht : n + 1000 ≤ s.tick) :
    ∃ t, exec .pcieBootWaitExpiry s = .next t ∧ StartFails s t 0x03 (BitVec.ofNat 32 (s.tick - n)) 7 :=
  ⟨_, (exec_pcieBootWaitExpiry_some hn).trans (State.when_of_true s _ (by simp [h, ht])), State.startFail_fails 0x03 _ 7 (State.starting_alive h)⟩

theorem exec_pcieBootWaitExpiry_idle (h : s.starting = false ∨ ∀ n, s.power.pcieWait = some n → s.tick < n + 1000) : exec .pcieBootWaitExpiry s = .next s := by
  cases hn : s.power.pcieWait with
  | none => exact exec_pcieBootWaitExpiry_none hn
  | some n =>
    refine (exec_pcieBootWaitExpiry_some hn).trans (State.when_of_false s _ ?_)
    rcases h with h | h
    · simp [h]
    · simp [h n hn]

theorem exec_keystoneFatalFault_eq (code : Reg32) : exec (.keystoneFatalFault code) s = s.when_ s.alive (fun s => s.fatalFault code) := rfl

theorem exec_overTemperatureFault_some {n : Nat} (hn : s.power.hotFrom = some n) : exec .overTemperatureFault s =
    s.when_ (s.alive && decide (n + 10 ≤ s.tick)) (fun s => s.fatalFault 0x31) := by
  simp only [exec, execOverTemperatureFault, hn]

theorem exec_overTemperatureFault_none (hn : s.power.hotFrom = none) : exec .overTemperatureFault s = .next s := by
  simp only [exec, execOverTemperatureFault, hn]

theorem exec_overTemperatureFault_due {n : Nat} (ha : s.alive = true) (hn : s.power.hotFrom = some n) (ht : n + 10 ≤ s.tick) :
    exec .overTemperatureFault s = .next (s.fatalFault 0x31) :=
  (exec_overTemperatureFault_some hn).trans (State.when_of_true s _ (by simp [ha, ht]))

theorem exec_overTemperatureFault_idle (h : s.alive = false ∨ ∀ n, s.power.hotFrom = some n → s.tick < n + 10) : exec .overTemperatureFault s = .next s := by
  cases hn : s.power.hotFrom with
  | none => exact exec_overTemperatureFault_none hn
  | some n =>
    refine (exec_overTemperatureFault_some hn).trans (State.when_of_false s _ ?_)
    rcases h with h | h
    · simp [h]
    · simp [h n hn]

/-! ### Rails (R65, R73 to R75, R80) -/

theorem exec_railLoss_eq : exec .railLoss s =
    s.when_ (decide (s.power.supply = .on) && !s.power.stbyReady) (fun s => (s.modPower Power.disarm).railsOff .standby) := rfl

theorem exec_railLoss_gone (ho : s.power.supply = .on) (hs : s.power.stbyReady = false) :
    ∃ t, exec .railLoss s = .next t ∧ RailsGone { s with power := { s.power with wakeCfg := [], wakeSrc := setBit s.power.wakeSrc 15 false } } t .standby :=
  ⟨_, exec_railLoss_eq.trans (State.when_of_true s _ (by simp [ho, hs])), State.railsOff_gone (s.modPower Power.disarm) .standby⟩

theorem exec_railLoss_idle (h : s.power.supply ≠ .on ∨ s.power.stbyReady = true) : exec .railLoss s = .next s :=
  exec_railLoss_eq.trans (State.when_of_false s _ (by rcases h with h | h <;> simp [h]))

/-- WAKE_SRC says that STANDBY was left. -/
def State.standbyNoted (s : State) : State := { s with power := { s.power with wakeSrc := setBit s.power.wakeSrc 15 true } }

theorem exec_standbyEntry_eq : exec .standbyEntry s =
    s.when_ (decide (s.power.supply = .on) && s.power.stbyReady) (fun s => s.standbyNoted.railsOff .standby) := rfl

theorem exec_standbyEntry_gone (ho : s.power.supply = .on) (hs : s.power.stbyReady = true) :
    ∃ t, exec .standbyEntry s = .next t ∧ RailsGone s.standbyNoted t .standby :=
  ⟨_, exec_standbyEntry_eq.trans (State.when_of_true s _ (by simp [ho, hs])), State.railsOff_gone s.standbyNoted .standby⟩

theorem exec_standbyEntry_idle (h : s.power.supply ≠ .on ∨ s.power.stbyReady = false) : exec .standbyEntry s = .next s :=
  exec_standbyEntry_eq.trans (State.when_of_false s _ (by rcases h with h | h <;> simp [h]))

theorem exec_vaonLoss_eq : exec .vaonLoss s = s.when_ (decide (s.power.supply ≠ .off)) (fun s => (s.railsOff .off).aonReset) := rfl

theorem exec_vaonLoss_gone (h : s.power.supply ≠ .off) : ∃ u t, exec .vaonLoss s = .next t ∧ RailsGone s u .off ∧
    t = { u with power := { u.power with wakeSrc := 0, wakeCfg := [], wakePin := false } } :=
  ⟨_, _, exec_vaonLoss_eq.trans (State.when_of_true s _ (by simp [h])), s.railsOff_gone .off, rfl⟩

theorem exec_vaonRise_eq : exec .vaonRise s = s.when_ (decide (s.power.supply = .off)) (fun s => (s.modPower (fun p => { p with supply := .standby })).aonReset) := rfl

theorem exec_vaon_off (h : s.power.supply = .off) : exec .vaonLoss s = .next s ∧
    exec .vaonRise s = .next { s with power := { s.power with supply := .standby, wakeSrc := 0, wakeCfg := [], wakePin := false } } :=
  ⟨exec_vaonLoss_eq.trans (State.when_of_false s _ (by simp [h])), exec_vaonRise_eq.trans (State.when_of_true s _ (by simp [h]))⟩

theorem exec_vaonRise_idle (h : s.power.supply ≠ .off) : exec .vaonRise s = .next s :=
  exec_vaonRise_eq.trans (State.when_of_false s _ (by simp [h]))

theorem exec_pcieReset_eq : exec .pcieReset s = s.when_ s.alive (fun s => s.pcieReset) := rfl

/-! ### RST_CTRL (R82) -/

section
variable {p : Party} {key : BitVec 8} {i : BitVec 6}

theorem rstKey_of (hp : p.isPf1 = true) (hk : key = 0x5A) : rstKey p key = true := by simp [rstKey, hp, hk]

theorem not_rstKey_of (h : p.isPf1 = false ∨ key ≠ 0x5A) : rstKey p key = false := by
  rcases h with h | h
  · rw [rstKey, h, Bool.false_and]
  · rw [rstKey, decide_eq_false h, Bool.and_false]

theorem exec_rstCtrlDevice_restarts (ha : s.alive = true) (hk : rstKey p key = true) :
    ∃ t, exec (.rstCtrlDevice p key) s = .next t ∧ ResetAndBegins s t 4 :=
  ⟨_, (exec_rstCtrlDevice_eq key).trans (State.when_of_true s _ (by simp [ha, hk])), State.restart_begins 4 ha⟩

theorem exec_rstCtrl_refused (h : rstKey p key = false) (i : BitVec 6) : exec (.rstCtrlDevice p key) s = .next s ∧ exec (.rstCtrlCourse p key i) s = .next s ∧
    exec (.rstCtrlPort p key i) s = .next s ∧ exec (.rstCtrlCanctl p key i) s = .next s :=
  ⟨(exec_rstCtrlDevice_eq key).trans (State.when_of_false s _ (by simp [h])), (exec_rstCtrlCourse_eq key i).trans (State.when_of_false s _ (by simp [h])),
    (exec_rstCtrlPort_eq key i).trans (State.when_of_false s _ (by simp [h])), (exec_rstCtrlCanctl_eq key i).trans (State.when_of_false s _ (by simp [h]))⟩

/-- An action that leaves the state does so under any condition. -/
theorem State.when_self {c : Bool} {f : State → State} (h : f s = s) : s.when_ c f = .next s := by
  rw [State.when_, h, ite_self]

theorem exec_rstCtrl_noIndex (p : Party) (key : BitVec 8) (i : BitVec 6) : (13 ≤ i.toNat → exec (.rstCtrlCourse p key i) s = .next s) ∧
    (32 ≤ i.toNat → exec (.rstCtrlPort p key i) s = .next s) ∧ (8 ≤ i.toNat → exec (.rstCtrlCanctl p key i) s = .next s) :=
  ⟨fun h => (exec_rstCtrlCourse_eq key i).trans (State.when_self (dif_neg (by omega))), fun h => (exec_rstCtrlPort_eq key i).trans (State.when_self (dif_neg (by omega))),
    fun h => (exec_rstCtrlCanctl_eq key i).trans (State.when_self (dif_neg (by omega)))⟩

theorem exec_rstCtrlCourse {c : Fin 13} (hu : s.blocksUp = true) (hk : rstKey p key = true) (hi : i.toNat = c.val) :
    exec (.rstCtrlCourse p key i) s = .next (s.courseResetAct c) := by
  rw [exec_rstCtrlCourse_eq, State.when_of_true s _ (by simp [hu, hk]), dif_pos (by omega), show (⟨i.toNat, _⟩ : Fin 13) = c from Fin.ext hi]

theorem exec_rstCtrlPort {q : PortCode} (hu : s.blocksUp = true) (hk : rstKey p key = true) (hi : i.toNat = q.val) (hq : q.val < 32) :
    exec (.rstCtrlPort p key i) s = .next (s.portResetAct q) := by
  rw [exec_rstCtrlPort_eq, State.when_of_true s _ (by simp [hu, hk]), dif_pos (by omega), show (⟨i.toNat, _⟩ : PortCode) = q from Fin.ext hi]

theorem exec_rstCtrlCanctl {n : Fin 8} (hu : s.blocksUp = true) (hk : rstKey p key = true) (hi : i.toNat = n.val) :
    exec (.rstCtrlCanctl p key i) s = .next (s.canResetAct n) := by
  rw [exec_rstCtrlCanctl_eq, State.when_of_true s _ (by simp [hu, hk]), dif_pos (by omega), show (⟨i.toNat, _⟩ : Fin 8) = n from Fin.ext hi]

end

/-- A request that waits for the course's gating waits no longer. -/
def State.courseUnlisted (s : State) (c : Fin 13) : State :=
  { s with power := { s.power with doze := { s.power.doze with waitCourses := setBit s.power.doze.waitCourses c.val false } } }

def State.portUnlisted (s : State) (q : PortCode) : State :=
  { s with power := { s.power with doze := { s.power.doze with ports := setBit s.power.doze.ports q.val false } } }

def State.canUnlisted (s : State) (n : Fin 8) : State :=
  { s with power := { s.power with doze := { s.power.doze with cans := setBit s.power.doze.cans n.val false, waitCans := setBit s.power.doze.waitCans n.val false } } }

theorem State.courseResetAct_eq (s : State) (c : Fin 13) : s.courseResetAct c = (s.courseUnlisted c).courseReset c := rfl
theorem State.portResetAct_eq (s : State) (q : PortCode) : s.portResetAct q = (s.portUnlisted q).portDown q := rfl
theorem State.canResetAct_eq (s : State) (n : Fin 8) : s.canResetAct n = (s.canUnlisted n).canReset n := rfl

theorem State.courseResetAct_empties {c : Fin 13} (ht : (s.course c).trowel = none) (hl : ∀ v, s.keystone.handover = some v → v.live ≠ c) :
    CourseEmptied s (s.courseResetAct c) c ∧ (∀ v, s.keystone.handover = some v → v.standby = c → (s.courseResetAct c).keystone.handover = none) ∧
      (s.replay.course = c → s.replay.st = .running → (s.courseResetAct c).replay.st = .aborted) ∧
      (s.courseResetAct c).power = { s.power with doze := { s.power.doze with waitCourses := setBit s.power.doze.waitCourses c.val false } } :=
  State.courseReset_empties (s := s.courseUnlisted c) ht hl

theorem State.courseResetAct_waits {c : Fin 13} {r : TrowelRun} (h : (s.course c).trowel = some r) (hp : r.preserving = true) :
    s.courseResetAct c = { s with courses := (s.courseResetAct c).courses, power := (s.courseResetAct c).power } ∧
      (s.courseResetAct c).course c = { s.course c with trowel := some { r with abort := true } } ∧
      ∀ d, d ≠ c → (s.courseResetAct c).course d = s.course d := by
  rw [State.courseResetAct_eq, State.courseReset_waits (s := s.courseUnlisted c) h hp]
  exact ⟨rfl, State.course_setCourse _ c _, fun d hd => State.course_setCourse_ne _ _ hd⟩

theorem State.portResetAct_drops (s : State) (q : PortCode) : ((s.portResetAct q).port q).up = false ∧ OtherPorts s (s.portResetAct q) q ∧
    KeepsQueues s (s.portResetAct q) q ∧ (s.holdTime q ≠ 0 → (s.portResetAct q).mortar = s.mortar) ∧ (s.portResetAct q).regs = s.regs ∧
    SameMemories s (s.portResetAct q) ∧ (s.portResetAct q).power = { s.power with doze := { s.power.doze with ports := setBit s.power.doze.ports q.val false } } := by
  rw [State.portResetAct_eq]
  have h := PortLeaves.portDown (s.portUnlisted q) q
  have hm := fun (hh : s.holdTime q ≠ 0) => State.mortar_portDown (s := s.portUnlisted q) hh
  exact ⟨State.up_portDown _ q, h.2.1, h.2.2, hm, h.regs, h.sameMemories, h.power⟩

theorem State.canResetAct_resets (s : State) (n : Fin 8) : (s.canResetAct n).can n = Can.reset ∧ (∀ m, m ≠ n → (s.canResetAct n).can m = s.can m) ∧
    (∀ a, canBase n ≤ a → a < canBase n + 0x10000 → (s.canResetAct n).reg a = regReset a) ∧
    (∀ a, (a < canBase n ∨ canBase n + 0x10000 ≤ a) → (s.canResetAct n).reg a = s.reg a) ∧
    s.canResetAct n = { s with cans := (s.canResetAct n).cans, regs := (s.canResetAct n).regs, plumb := { s.plumb with quads := (s.canResetAct n).plumb.quads },
                               power := { s.power with doze := { s.power.doze with cans := setBit s.power.doze.cans n.val false, waitCans := setBit s.power.doze.waitCans n.val false } } } := by
  rw [State.canResetAct_eq]
  exact ⟨State.can_canReset _ n, fun m hm => State.can_canReset_ne _ hm, fun a => State.reg_canReset _, fun a => State.reg_canReset_other _, rfl⟩

/-! ### The TAP (R62, R466) -/

section
variable {i : TapInstr}

theorem exec_tapInstruction_idle (h : s.power.supply ≠ .on) : exec (.tapInstruction i) s = .next s :=
  (exec_tapInstruction_eq i).trans (State.when_of_false s _ (by simp [h]))

theorem exec_tapInstruction_allowed (ho : s.power.supply = .on) (ha : s.tapAllowed i = true) : exec (.tapInstruction i) s = .next (s.tapTo i) :=
  exec_tapInstruction ho (if_pos ha)

theorem exec_tapInstruction_plain (ho : s.power.supply = .on) (ha : s.tapAllowed i = true) (he : s.power.tap.extestClass = false) (hn : s.power.tap ≠ .internalScan)
    (hi : i.extestClass = false) (hs : i ≠ .internalScan) : exec (.tapInstruction i) s = .next (s.tapSet i) := by
  rw [exec_tapInstruction_allowed ho ha, State.tapTo_plain hi hs he hn]

theorem exec_tapInstruction_barred (ho : s.power.supply = .on) (ha : s.tapAllowed i = false) (he : s.power.tap.extestClass = false) (hn : s.power.tap ≠ .internalScan) :
    exec (.tapInstruction i) s = .next (s.tapSet .bypass) := by
  rw [exec_tapInstruction ho (if_neg (by rw [ha]; exact Bool.false_ne_true)), State.tapTo_plain (i := .bypass) rfl nofun he hn]

theorem exec_tapInstruction_scan (ho : s.power.supply = .on) (ha : s.tapAllowed .internalScan = true) (he : s.power.tap.extestClass = false)
    (hn : s.power.tap ≠ .internalScan) : ∃ t, exec (.tapInstruction .internalScan) s = .next t ∧ SessionEnded s t ∧ t.keystone.challenge = false ∧
      t.power = { s.power with tap := .internalScan } ∧ SameMemories s t ∧ t.regs = s.regs := by
  obtain ⟨-, hse, hch, hsm⟩ := s.endSession_spec
  have hf := s.endSession_frame
  refine ⟨_, (exec_tapInstruction_allowed ho ha).trans (congrArg _ (State.tapTo_scan he hn)), hse, hch, ?_, hsm, ?_⟩
  · rw [State.tapSet, State.modPower_power, show (s.endSession true).power = s.power from (congrArg State.power hf).trans rfl]
  · exact (congrArg State.regs hf).trans rfl

theorem exec_tapInstruction_extest (ho : s.power.supply = .on) (hi : i.extestClass = true) (he : s.power.tap.extestClass = false) :
    ∃ t, exec (.tapInstruction i) s = .next t ∧ KeepsContents s t ∧ WasReset (s.tapSet i) t 3 := by
  obtain ⟨hw, hk⟩ := (s.tapSet i).deviceReset_resets 3
  exact ⟨_, (exec_tapInstruction_allowed ho (State.tapAllowed_extest hi)).trans (congrArg _ (State.tapTo_extest hi he)), hk, hw⟩

theorem exec_tapInstruction_extest_again (ho : s.power.supply = .on) (hi : i.extestClass = true) (he : s.power.tap.extestClass = true) :
    exec (.tapInstruction i) s = .next (s.tapSet i) := by
  rw [exec_tapInstruction_allowed ho (State.tapAllowed_extest hi), State.tapTo_extest_again hi he]

theorem exec_tapInstruction_leave_extest (ho : s.power.supply = .on) (ha : s.tapAllowed i = true) (hi : i.extestClass = false) (hs : i ≠ .internalScan)
    (he : s.power.tap.extestClass = true) (hr : s.power.rstLow = false) : ∃ t, exec (.tapInstruction i) s = .next t ∧ ResetAndBegins (s.tapSet i) t 3 :=
  ⟨_, (exec_tapInstruction_allowed ho ha).trans (congrArg _ (State.tapTo_leave_extest hi hs he)), State.restart_begins 3 (State.alive_tapSet ho hr hi)⟩

theorem exec_tapInstruction_leave_scan (ho : s.power.supply = .on) (ha : s.tapAllowed i = true) (hi : i.extestClass = false) (hs : i ≠ .internalScan)
    (hn : s.power.tap = .internalScan) (hr : s.power.rstLow = false) : ∃ t, exec (.tapInstruction i) s = .next t ∧ ResetAndBegins (s.tapSet i) t 7 :=
  ⟨_, (exec_tapInstruction_allowed ho ha).trans (congrArg _ (State.tapTo_leave_scan hi hs hn)), State.restart_begins 7 (State.alive_tapSet ho hr hi)⟩

theorem exec_extestExit (ho : s.power.supply = .on) (he : s.power.tap.extestClass = true) : exec .extestExit s = .next ((s.tapSet .idcode).restart 3) := by
  rw [exec_extestExit_eq, State.when_of_true s _ (by simp [ho, he]), State.tapTo_leave_extest (i := .idcode) rfl nofun he]

theorem exec_extestExit_begins (ho : s.power.supply = .on) (he : s.power.tap.extestClass = true) (hr : s.power.rstLow = false) :
    ∃ t, exec .extestExit s = .next t ∧ ResetAndBegins (s.tapSet .idcode) t 3 :=
  ⟨_, exec_extestExit ho he, State.restart_begins 3 (State.alive_tapSet ho hr rfl)⟩

theorem exec_extestExit_held (ho : s.power.supply = .on) (he : s.power.tap.extestClass = true) (hr : s.power.rstLow = true) :
    ∃ t, exec .extestExit s = .next t ∧ KeepsContents s t ∧ WasReset (s.tapSet .idcode) t 3 := by
  obtain ⟨hw, hk⟩ := (s.tapSet .idcode).deviceReset_resets 3
  exact ⟨_, (exec_extestExit ho he).trans (congrArg _ (State.restart_of_held 3 (State.not_alive_tapSet hr))), hk, hw⟩

theorem exec_extestExit_idle (h : s.power.supply ≠ .on ∨ s.power.tap.extestClass = false) : exec .extestExit s = .next s :=
  exec_extestExit_eq.trans (State.when_of_false s _ (by rcases h with h | h <;> simp [h]))

end

end

end Sys2Proof.Machine
end

section
/-! Settles O3: resets and starts by their scopes. -/

namespace Sys2Proof.Machine

/-- Settles O3, clause by clause: a DEVICE reset and the start that follows it (`State.restart_begins`), each phase by its own outcome, each
cause of a reset by its command, and the scopes by what their steps leave alone. That a command which cannot happen leaves the state rests
on log 20; that an erased manifest loads no image on log 37; FAULT_N on log 39; phase PORTS on log 40; BYPASS in place of a TAP instruction
that the level bars on log 54; START_STATUS.CAUSE out of STANDBY, with ARMED still readable, on log 70. -/
theorem resetsAndStartsFollowTheirScopes : Obligations.ResetsAndStartsFollowTheirScopes := by
  unfold Obligations.ResetsAndStartsFollowTheirScopes
  refine ⟨?rstNFall, ?rstNFallIdle, ?rstNRelease, ?rstNReleaseHeld, ?rstNReleaseIdle, ?rom, ?pll, ?flash, ?noMagic, ?flashBad, ?fallback, ?waits, ?pcie, ?pcieBad,
    ?otp, ?clocks, ?shared, ?trowel, ?noManifest, ?manifestBad, ?manifest, ?manifestFails, ?entry, ?entryFails, ?entryStandby, ?entrySkipped, ?ports, ?noStart,
    ?watchdog, ?watchdogIdle, ?bootWait, ?bootWaitIdle, ?fatalStart, ?fatal, ?fatalIdle, ?hotStart, ?hot, ?hotIdle, ?railLoss, ?railLossIdle, ?standby, ?standbyIdle,
    ?vaonLoss, ?vaonOff, ?vaonRise, ?pcieReset, ?pcieResetIdle, ?device, ?refused, ?noIndex, ?course, ?courseWaits, ?port, ?canctl,
    ?tap, ?tapBarred, ?scan, ?extest, ?extestAgain, ?leaveExtest, ?leaveScan, ?tapIdle, ?exit, ?exitHeld, ?exitIdle⟩
  case rstNFall => exact fun s => exec_rstNFall_resets
  case rstNFallIdle => exact fun s => exec_rstNFall_idle
  case rstNRelease => exact fun s b => exec_rstNRelease_begins
  case rstNReleaseHeld => exact fun s b => exec_rstNRelease_held
  case rstNReleaseIdle => exact fun s b => exec_rstNRelease_idle
  case rom => exact fun s o => exec_startPhaseComplete_rom
  case pll => exact fun s o k => exec_startPhaseComplete_pll
  case flash => exact fun s o => exec_keystoneLoad_flash
  case noMagic => exact fun s o ha hp h1 h2 h3 hm => exec_keystoneLoad_flash_bad ha hp h1 h2 h3 (State.firmwareBad_noMagic hm)
  case flashBad => exact fun s o e k ha hp h1 h2 h3 hm hi => exec_keystoneLoad_flash_bad ha hp h1 h2 h3 (State.firmwareBad_flash_some hm hi)
  case fallback => exact fun s o => exec_keystoneLoad_fallback
  case waits => exact fun s o => exec_keystoneLoad_waits
  case pcie => exact fun s o f ha hp hb => exec_keystoneLoad_pcie ha hp hb
  case pcieBad => exact fun s o f e k ha hp hb => exec_keystoneLoad_pcie_bad ha hp hb
  case otp => exact fun s o w ha hp ho => exec_startPhaseComplete_fails ha hp nofun nofun (State.phaseEnd_clocks_otp hp ho)
  case clocks => exact fun s o => exec_startPhaseComplete_clocks
  case shared => exact fun s o b a ha hp ho => exec_startPhaseComplete_fails ha hp nofun nofun (State.phaseEnd_trowel_shared hp ho)
  case trowel => exact fun s o => exec_startPhaseComplete_trowel
  case noManifest => exact fun s o ha hp h => exec_startPhaseComplete_courseLoad ha hp (State.loadManifest_none h)
  case manifestBad => exact fun s o e k ha hp h1 h2 => exec_startPhaseComplete_manifestBad ha hp h1 h2
  case manifest => exact fun s o u ha hp => exec_startPhaseComplete_courseLoad ha hp
  case manifestFails => exact fun s o k c ha hp h => exec_startPhaseComplete_fails ha hp nofun nofun (State.phaseEnd_courseLoad_error hp h)
  case entry => exact fun s e c n l g hw hg hc hn hs hl => State.manifestEntry_loads ⟨hw, hg, hc, hn, hs, hl⟩
  case entryFails => exact fun s e c n l g hw hg hc hn hs hl hf hi hb x k => State.manifestEntry_fails ⟨hw, hg, hc, hn, hs, hl⟩ hf hi hb
  case entryStandby => exact fun s e c n l g hw hg hc hn hs hl d => State.manifestEntry_substitutes ⟨hw, hg, hc, hn, hs, hl⟩
  case entrySkipped => exact fun s e c n l g hw hg hc hn hs hl => State.manifestEntry_skipped ⟨hw, hg, hc, hn, hs, hl⟩
  case ports => exact fun s o ha hp => ⟨_, exec_startPhaseComplete_ports o ha hp, s.enterRunning_runs⟩
  case noStart => exact fun s o => exec_startPhaseComplete_idle
  case watchdog => exact fun s => exec_startWatchdogExpiry_fails
  case watchdogIdle => exact fun s => exec_startWatchdogExpiry_idle
  case bootWait => exact fun s n => exec_pcieBootWaitExpiry_fails
  case bootWaitIdle => exact fun s => exec_pcieBootWaitExpiry_idle
  case fatalStart => exact fun s code h => ⟨_, (exec_keystoneFatalFault_eq code).trans (State.when_of_true s _ (State.starting_alive h)), State.fatalFault_starting code h⟩
  case fatal =>
    intro s code ha h
    obtain ⟨v, hl, hr⟩ := State.fatalFault_running code ha h
    exact ⟨v, _, (exec_keystoneFatalFault_eq code).trans (State.when_of_true s _ ha), hl, hr⟩
  case fatalIdle => exact fun s code h => (exec_keystoneFatalFault_eq code).trans (State.when_of_false s _ h)
  case hotStart => exact fun s n h hn ht => ⟨_, exec_overTemperatureFault_due (State.starting_alive h) hn ht, State.fatalFault_starting 0x31 h⟩
  case hot =>
    intro s n ha h hn ht
    obtain ⟨v, hl, hr⟩ := State.fatalFault_running 0x31 ha h
    exact ⟨v, _, exec_overTemperatureFault_due ha hn ht, hl, hr⟩
  case hotIdle => exact fun s => exec_overTemperatureFault_idle
  case railLoss => exact fun s => exec_railLoss_gone
  case railLossIdle => exact fun s => exec_railLoss_idle
  case standby => exact fun s => exec_standbyEntry_gone
  case standbyIdle => exact fun s => exec_standbyEntry_idle
  case vaonLoss => exact fun s => exec_vaonLoss_gone
  case vaonOff => exact fun s => exec_vaon_off
  case vaonRise => exact fun s => exec_vaonRise_idle
  case pcieReset => exact fun s ha => ⟨_, exec_pcieReset_eq.trans (State.when_of_true s _ ha), s.pcieReset_resets⟩
  case pcieResetIdle => exact fun s ha => exec_pcieReset_eq.trans (State.when_of_false s _ ha)
  case device => exact fun s p key ha hp hk => exec_rstCtrlDevice_restarts ha (rstKey_of hp hk)
  case refused => exact fun s p key i h => exec_rstCtrl_refused (not_rstKey_of h) i
  case noIndex => exact fun s => exec_rstCtrl_noIndex
  case course => exact fun s p key i c hu hp hk hi ht hl => ⟨_, exec_rstCtrlCourse hu (rstKey_of hp hk) hi, State.courseResetAct_empties ht hl⟩
  case courseWaits => exact fun s p key i c r hu hp hk hi ht hr => ⟨_, exec_rstCtrlCourse hu (rstKey_of hp hk) hi, State.courseResetAct_waits ht hr⟩
  case port => exact fun s p key i q hu hp hk hi hq => ⟨_, exec_rstCtrlPort hu (rstKey_of hp hk) hi hq, s.portResetAct_drops q⟩
  case canctl =>
    intro s p key i n hu hp hk hi
    obtain ⟨hn, hm, hin, hout, hf⟩ := s.canResetAct_resets n
    exact ⟨_, exec_rstCtrlCanctl hu (rstKey_of hp hk) hi, hn, hm, hin, fun _ => hout, hf⟩
  case tap => exact fun s i => exec_tapInstruction_plain
  case tapBarred => exact fun s i => exec_tapInstruction_barred
  case scan => exact fun s => exec_tapInstruction_scan
  case extest => exact fun s i => exec_tapInstruction_extest
  case extestAgain => exact fun s i => exec_tapInstruction_extest_again
  case leaveExtest => exact fun s i => exec_tapInstruction_leave_extest
  case leaveScan => exact fun s i => exec_tapInstruction_leave_scan
  case tapIdle => exact fun s i => exec_tapInstruction_idle
  case exit => exact fun s => exec_extestExit_begins
  case exitHeld => exact fun s => exec_extestExit_held
  case exitIdle => exact fun s => exec_extestExit_idle

end Sys2Proof.Machine
end

section
/-! SUPPORT. A request that the keystone takes, and what taking it leaves alone (R439, R457 to R459). -/

namespace Sys2Proof.Machine

section
variable {s t : State}

/-! ### What mailbox operations leave alone -/

theorem MailLeaves.flash (h : MailLeaves s t) : t.flash = s.flash := (congrArg State.flash h.1).trans rfl
theorem MailLeaves.otp (h : MailLeaves s t) : t.otp = s.otp := (congrArg State.otp h.1).trans rfl
theorem MailLeaves.power (h : MailLeaves s t) : t.power = s.power := (congrArg State.power h.1).trans rfl
theorem MailLeaves.tick (h : MailLeaves s t) : t.tick = s.tick := (congrArg State.tick h.1).trans rfl
theorem MailLeaves.recorder (h : MailLeaves s t) : t.recorder = s.recorder := (congrArg State.recorder h.1).trans rfl
theorem MailLeaves.urral (h : MailLeaves s t) : t.urral = s.urral := (congrArg State.urral h.1).trans rfl

theorem Logs.urral (h : Logs s t) : t.urral = s.urral := (congrArg State.urral h).trans rfl

/-- The lifecycle is what OTP says (R447). -/
theorem State.lifecycle_congr (h : t.otp = s.otp) : t.lifecycle = s.lifecycle := by
  unfold State.lifecycle State.otpWord
  rw [h]

end

section
variable (s : State) (p : Nat) (j : Fin 32)

@[simp] theorem State.flash_takeMail : (s.takeMail p j).flash = s.flash := (MailLeaves.takeMail s p j).flash
@[simp] theorem State.otp_takeMail : (s.takeMail p j).otp = s.otp := (MailLeaves.takeMail s p j).otp
@[simp] theorem State.power_takeMail : (s.takeMail p j).power = s.power := (MailLeaves.takeMail s p j).power
@[simp] theorem State.tick_takeMail : (s.takeMail p j).tick = s.tick := (MailLeaves.takeMail s p j).tick
@[simp] theorem State.recorder_takeMail : (s.takeMail p j).recorder = s.recorder := (MailLeaves.takeMail s p j).recorder
@[simp] theorem State.urral_takeMail : (s.takeMail p j).urral = s.urral := (MailLeaves.takeMail s p j).urral

theorem State.alive_takeMail : (s.takeMail p j).alive = s.alive := by simp only [State.alive, State.power_takeMail]

theorem State.lifecycle_takeMail : (s.takeMail p j).lifecycle = s.lifecycle := State.lifecycle_congr (s.otp_takeMail p j)

end

/-! ### The request that is served -/

section
variable {s : State} {code : Nat} {r : SvcReq} {j : Fin 32}

/-- Nothing is skipped where the first request is one that a service answers. -/
theorem State.skipUnknown_of_known (hf : s.frontMail = some j) (hk : (s.mailbox j).unknown s.keystone.action = false) (n : Nat) : s.skipUnknown n = s := by
  cases n with
  | zero => rfl
  | succ n => simp [State.skipUnknown, hf, hk]

theorem State.requestAt_of_front (hf : s.frontMail = some j) (hd : (s.mailbox j).data.toList = r.words code) (hs : (s.mailbox j).sender = r.caller.num) :
    s.requestAt code r = some j := by simp [State.requestAt, hf, hd, hs]

/-- A request that the keystone takes now is carried out on the state in which its mailbox has been emptied. -/
theorem State.serve_of_asked (f : State → State) (h : s.asked code r j) : s.serve code r f = .next (f (s.takeMail 0x01 j)) := by
  obtain ⟨hserv, hf, hk, hd, hs, hr, hden⟩ := h
  have hreq := State.requestAt_of_front hf hd hs
  rw [State.serve, State.when_of_true s _ hserv]
  simp only [State.skipUnknown_of_known hf hk, hreq, hr, hden, Bool.false_eq_true, if_false]

end

/-- A field of a word down to bit 0. -/
theorem bits_low {w : Nat} (v : BitVec w) (hi : Nat) : bits v hi 0 = v.toNat % 2 ^ (hi + 1) := by simp [bits]

end Sys2Proof.Machine
end

section
/-! SUPPORT. Flash that is erased and written, FLASH.WRITE and the calibration page (R450, R461, R497 to R499; log 36). -/

namespace Sys2Proof.Machine

/-! ### Runs of bytes -/

section
variable {d : Nat → Byte} {m : Memory} {l : List Byte}

@[simp] theorem Memory.length_readBytes (d : Nat → Byte) (m : Memory) (a n : Nat) : (Memory.readBytes d m a n).length = n := by
  induction n generalizing a with
  | zero => rfl
  | succ n ih => rw [Memory.readBytes, List.length_cons, ih]

/-- A byte of a run reads back as written. -/
theorem Memory.read_writeBytes_in (hw : Memory.wf d m = true) {a k : Nat} {b : Byte} (h : l[k]? = some b) :
    Sparse.read d (Memory.writeBytes d m a l) (a + k) = b := by
  induction l generalizing m a k with
  | nil => simp at h
  | cons x xs ih =>
    have hw' : Memory.wf d (Sparse.write d m a x) = true := Sparse.wf_write d a x hw
    cases k with
    | zero =>
      obtain rfl : x = b := by simpa using h
      refine (Memory.read_writeBytes_out d _ (a + 1) xs (.inl (Nat.lt_succ_self a))).trans ?_
      exact Sparse.read_write_same d a x hw
    | succ k =>
      rw [Memory.writeBytes, show a + (k + 1) = a + 1 + k by omega]
      exact ih hw' (by simpa using h)

/-- Bytes that read as a list says are that list. -/
theorem Memory.readBytes_eq {a : Nat} (h : ∀ k b, l[k]? = some b → Sparse.read d m (a + k) = b) : Memory.readBytes d m a l.length = l := by
  induction l generalizing a with
  | nil => rfl
  | cons x xs ih =>
    rw [List.length_cons, Memory.readBytes, show Sparse.read d m a = x from h 0 x rfl, ih (a := a + 1)]
    intro k b hk
    rw [show a + 1 + k = a + (k + 1) by omega]
    exact h (k + 1) b hk

end

/-! ### Flash (R450) -/

section
variable {s t : State} {a n : Nat} {l : List Byte}

/-- The flash of t is that of s with n bytes from a on erased, and l programmed there. -/
def FlashRewritten (s t : State) (a n : Nat) (l : List Byte) : Prop := t.flash = ((s.flashErase a n).flashProgram a l).flash

theorem State.wf_flashErase (a n : Nat) (hw : Memory.wf flashBlank s.flash = true) : Memory.wf flashBlank (s.flashErase a n).flash = true :=
  Sparse.wf_filter flashBlank _ hw

theorem FlashRewritten.outside (h : FlashRewritten s t a n l) (hl : l.length ≤ n) : FlashOutside s t a n := fun x hx => by
  rw [h]
  refine (Memory.read_writeBytes_out flashBlank _ a l (by omega)).trans ?_
  exact Sparse.read_filter flashBlank s.flash (fun y => decide (y < a ∨ a + n ≤ y)) (decide_eq_true hx)

/-- What is erased and not programmed reads as ones (log 8). -/
theorem FlashRewritten.erased (h : FlashRewritten s t a n l) {y : Nat} (h1 : a + l.length ≤ y) (h2 : y < a + n) : Sparse.read flashBlank t.flash y = 0xFF := by
  rw [h]
  refine (Memory.read_writeBytes_out flashBlank _ a l (.inr h1)).trans ?_
  exact Sparse.read_filter_out flashBlank s.flash (fun y => decide (y < a ∨ a + n ≤ y)) (decide_eq_false (by omega))

theorem FlashRewritten.byte (h : FlashRewritten s t a n l) (hw : Memory.wf flashBlank s.flash = true) {k : Nat} {b : Byte} (hk : l[k]? = some b) :
    Sparse.read flashBlank t.flash (a + k) = b := by
  rw [h]
  exact Memory.read_writeBytes_in (State.wf_flashErase a n hw) hk

theorem FlashRewritten.reads (h : FlashRewritten s t a n l) (hw : Memory.wf flashBlank s.flash = true) : Memory.readBytes flashBlank t.flash a l.length = l :=
  Memory.readBytes_eq fun _ _ => h.byte hw

end

/-! ### FLASH.WRITE (R450, R461) -/

@[simp] theorem State.length_hostBytes (s : State) (lo hi : Reg32) (n : Nat) : (s.hostBytes lo hi n).length = n := Memory.length_readBytes _ _ _ n

section
variable {s : State} {r : SvcReq} {j : Fin 32} {a n : Nat}

theorem flashRegion_image (h : n < 48) : flashRegion n = some (0x500000 + n * 0x100000, 0x100000) := if_pos h

theorem flashRegion_none (h : 48 ≤ n) (h1 : n ≠ 0x80) (h2 : n ≠ 0x81) : flashRegion n = none := by
  rw [flashRegion, if_neg (Nat.not_lt.mpr h), if_neg h1, if_neg h2]

/-- The bytes that FLASH.WRITE takes from the host. -/
def State.flashSource (s : State) (r : SvcReq) (n : Nat) : List Byte := s.hostBytes r.w1 r.w2 (min r.w3.toNat n)

/-- What FLASH.WRITE does once its slot and its length are good. -/
theorem State.flashService_of_region (hr : flashRegion r.w4.toNat = some (a, n)) (hn : r.w3.toNat ≤ n) : s.flashService r =
    if s.notAllowed = true ∧ r.w4.toNat ≠ 0x80 then s.svcReply 0x0A01 r 14 [0]
    else match s.imageBad (slotKind r.w4.toNat (s.flashSource r n)) (s.flashSource r n) with
      | some (e, _) => s.svcReply 0x0A01 r e [0]
      | none => ((s.flashErase a n).flashProgram a (s.flashSource r n)).svcReply 0x0A01 r 0 [r.w3] := by
  rw [State.flashService, hr]
  exact if_neg (Nat.not_lt.mpr hn)

theorem slot_firmware_iff (v : Reg32) : v.toNat = 0x80 ↔ v = 0x80 := ⟨fun h => BitVec.eq_of_toNat_eq h, fun h => by rw [h]; rfl⟩

theorem State.flashService_denied (hr : flashRegion r.w4.toNat = some (a, n)) (hn : r.w3.toNat ≤ n) (hm : s.notAllowed = true) (hk : r.w4 ≠ 0x80) :
    s.flashService r = s.svcReply 0x0A01 r 14 [0] := by
  rw [State.flashService_of_region hr hn]
  exact if_pos ⟨hm, (slot_firmware_iff r.w4).not.mpr hk⟩

theorem State.flashService_bad (hr : flashRegion r.w4.toNat = some (a, n)) (hn : r.w3.toNat ≤ n) (hm : s.notAllowed = true → r.w4 = 0x80) {e k : Nat}
    (hb : s.imageBad (slotKind r.w4.toNat (s.flashSource r n)) (s.flashSource r n) = some (e, k)) : s.flashService r = s.svcReply 0x0A01 r e [0] := by
  rw [State.flashService_of_region hr hn, if_neg fun h => h.2 ((slot_firmware_iff r.w4).mpr (hm h.1)), hb]

theorem State.flashService_writes (hr : flashRegion r.w4.toNat = some (a, n)) (hn : r.w3.toNat ≤ n) (hm : s.notAllowed = true → r.w4 = 0x80)
    (hb : s.imageBad (slotKind r.w4.toNat (s.flashSource r n)) (s.flashSource r n) = none) :
    s.flashService r = ((s.flashErase a n).flashProgram a (s.flashSource r n)).svcReply 0x0A01 r 0 [r.w3] := by
  rw [State.flashService_of_region hr hn, if_neg fun h => h.2 ((slot_firmware_iff r.w4).mpr (hm h.1)), hb]

theorem exec_flashWrite (h : s.asked 0x0A01 r j) : exec (.flashWrite r) s = .next ((s.takeMail 0x01 j).flashService r) :=
  State.serve_of_asked (fun s => s.flashService r) h

/-- A good image replaces its slot, and nothing else of flash changes (R450). -/
theorem exec_flashWrite_writes (h : s.asked 0x0A01 r j) (hr : flashRegion r.w4.toNat = some (a, n)) (hn : r.w3.toNat ≤ n)
    (hm : (s.takeMail 0x01 j).notAllowed = true → r.w4 = 0x80)
    (hb : (s.takeMail 0x01 j).imageBad (slotKind r.w4.toNat ((s.takeMail 0x01 j).flashSource r n)) ((s.takeMail 0x01 j).flashSource r n) = none) :
    ∃ x : State, exec (.flashWrite r) s = .next (x.svcReply 0x0A01 r 0 [r.w3]) ∧ x = { (s.takeMail 0x01 j) with flash := x.flash } ∧
      FlashRewritten s x a n ((s.takeMail 0x01 j).flashSource r n) := by
  refine ⟨_, (exec_flashWrite h).trans (congrArg _ (State.flashService_writes hr hn hm hb)), rfl, ?_⟩
  simp only [FlashRewritten, State.flashErase, State.flashProgram, State.flash_takeMail]

end

/-! ### The calibration page (R497 to R499; log 36) -/

section
variable {s : State} {r : SvcReq} {j : Fin 32} {l : List Byte}

theorem length_toLe (n v : Nat) : (toLe n v).length = n := by
  induction n generalizing v with
  | zero => rfl
  | succ n ih => rw [toLe, List.length_cons, ih]

theorem length_integratorPage (hl : l.length = 4096) : (integratorPage l).length = 4096 := by
  simp [integratorPage, toBe, length_toLe, hl]

/-- ORIGIN is the byte at 6. -/
theorem integratorPage_origin (hl : l.length = 4096) : (integratorPage l)[6]? = some 1 := by
  simp [integratorPage, hl]

/-- The other bytes before the digest are those written. -/
theorem integratorPage_body (hl : l.length = 4096) {a : Nat} (ha : a < 0xFC0) (h6 : a ≠ 6) : (integratorPage l)[a]? = some (nth l a 0) := by
  have hn : l[a]? = some (nth l a 0) := by
    rw [nth, List.getElem?_eq_getElem (by omega)]
    rfl
  rw [← hn, integratorPage, List.getElem?_append_left (by simp [hl, ha])]
  rcases Nat.lt_or_gt_of_ne h6 with hlt | hgt
  · rw [List.getElem?_append_left (by simp [hl, hlt]), List.getElem?_take_of_lt hlt]
  · obtain ⟨k, rfl⟩ : ∃ k, a = k + 7 := ⟨a - 7, by omega⟩
    rw [List.getElem?_append_right (by simp [hl])]
    simp only [List.length_take, hl, show k + 7 - min 6 4096 = k + 1 by omega, List.getElem?_cons_succ, List.getElem?_drop]
    rw [Nat.add_comm 7 k, List.getElem?_take_of_lt ha]

/-- The page that CAL.WRITE puts into flash. -/
def State.calWritten (s : State) (r : SvcReq) : List Byte :=
  if s.hostBytes r.w1 r.w2 4096 = s.calFlash then s.hostBytes r.w1 r.w2 4096 else integratorPage (s.hostBytes r.w1 r.w2 4096)

theorem State.length_calWritten (s : State) (r : SvcReq) : (s.calWritten r).length = 4096 := by
  unfold State.calWritten
  split
  · exact s.length_hostBytes _ _ _
  · exact length_integratorPage (s.length_hostBytes _ _ _)

theorem State.calFlash_takeMail (s : State) (p : Nat) (j : Fin 32) : (s.takeMail p j).calFlash = s.calFlash := by
  simp only [State.calFlash, State.flash_takeMail]

theorem State.calWriteService_manufacture (hl : s.lifecycle = .manufacture) : s.calWriteService r = s.svcReply 0x0D02 r 14 [] := if_pos hl

theorem State.calWriteService_key (hl : s.lifecycle ≠ .manufacture) (hk : r.w3 ≠ 0x0C411B05) : s.calWriteService r = s.svcReply 0x0D02 r 2 [] :=
  (if_neg hl).trans (if_pos hk)

theorem State.calWriteService_invalid (hl : s.lifecycle ≠ .manufacture) (hk : r.w3 = 0x0C411B05) (hv : s.calValid (s.hostBytes r.w1 r.w2 4096) = false) :
    s.calWriteService r = s.svcReply 0x0D02 r 5 [] := (if_neg hl).trans ((if_neg (not_not_intro hk)).trans (if_pos hv))

theorem State.calWriteService_writes (hl : s.lifecycle ≠ .manufacture) (hk : r.w3 = 0x0C411B05) (hv : s.calValid (s.hostBytes r.w1 r.w2 4096) = true) :
    s.calWriteService r = ((s.flashErase 0 4096).flashProgram 0 (s.calWritten r)).svcReply 0x0D02 r 0 [] :=
  (if_neg hl).trans ((if_neg (not_not_intro hk)).trans (if_neg (by rw [hv]; exact nofun)))

theorem exec_calWrite (h : s.asked 0x0D02 r j) : exec (.calWrite r) s = .next ((s.takeMail 0x01 j).calWriteService r) :=
  State.serve_of_asked (fun s => s.calWriteService r) h

/-- A valid page replaces the one in flash (R499). -/
theorem exec_calWrite_writes (h : s.asked 0x0D02 r j) (hl : s.lifecycle ≠ .manufacture) (hk : r.w3 = 0x0C411B05)
    (hv : (s.takeMail 0x01 j).calValid ((s.takeMail 0x01 j).hostBytes r.w1 r.w2 4096) = true) :
    ∃ x : State, exec (.calWrite r) s = .next (x.svcReply 0x0D02 r 0 []) ∧ x = { (s.takeMail 0x01 j) with flash := x.flash } ∧
      FlashRewritten s x 0 4096 ((s.takeMail 0x01 j).calWritten r) := by
  rw [← s.lifecycle_takeMail 0x01 j] at hl
  refine ⟨_, (exec_calWrite h).trans (congrArg _ (State.calWriteService_writes hl hk hv)), rfl, ?_⟩
  simp only [FlashRewritten, State.flashErase, State.flashProgram, State.flash_takeMail]

/-- The page that flash already holds is written as it is. -/
theorem State.calWritten_same (h : s.hostBytes r.w1 r.w2 4096 = s.calFlash) : s.calWritten r = s.calFlash := (if_pos h).trans h

/-- Any other is one of the integrator. -/
theorem State.calWritten_integrator (h : s.hostBytes r.w1 r.w2 4096 ≠ s.calFlash) : s.calWritten r = integratorPage (s.hostBytes r.w1 r.w2 4096) := if_neg h

end

end Sys2Proof.Machine
end

section
/-! SUPPORT. CLEAR_START, the reads of the recorder and of the calibration page, and TIME.SAMPLE (R92, R326, R461, R484, R499). -/

namespace Sys2Proof

/-- The domain that a sample names. -/
def SvcReq.domain (r : SvcReq) : Fin 2 := if r.w1.getLsbD 0 then 1 else 0
/-- The nanoseconds of a sample's time. -/
def SvcReq.sampleNs (r : SvcReq) : Nat := r.w4.toNat % 2 ^ 30
/-- The seconds of a sample's time. -/
def SvcReq.sampleSec (r : SvcReq) : Nat := r.w5.toNat + r.w6.toNat % 65536 * 2 ^ 32

end Sys2Proof

namespace Sys2Proof.Machine

/-! ### The start that CLEAR_START begins (R80, R92) -/

section
variable {s t : State} {cause : BitVec 4}

/-- A device that is reset and begins its start is in phase ROM or in footing mode, with everything else as reset leaves it. -/
theorem ResetAndBegins.restarted (h : ResetAndBegins s t cause) : Restarted t cause := by
  obtain ⟨u, hw, -, hb⟩ := h
  obtain ⟨hu, -, -, -, hpow, hc, -, -, hk, -⟩ := hw
  obtain ⟨hl, hp, -, hfoot, hrom, -⟩ := hb
  have htick : u.tick = 0 := (congrArg State.tick hu).trans rfl
  have hregs : u.regs = [] := (congrArg State.regs hu).trans rfl
  have hkey : t.keystone = u.keystone := hl.keystone
  refine ⟨by rw [hp, hpow], ?_, hl.tick.trans htick, hl.regs.trans hregs, by rw [hkey, hk]; rfl, by rw [hkey, hk]; rfl, fun j => ?_, fun c => ?_⟩
  · by_cases hf : 3 ≤ u.power.startRec.count ∨ u.lifecycle = .retired
    · exact .inr (hfoot hf).1
    · exact .inl (hrom hf).1
  · have hm : u.mailbox j = State.reset.mailbox j := (congrArg (State.mailbox · j) hu).trans rfl
    rw [hl.mailbox j]
    change (u.mailbox j).st = .empty
    rw [hm, State.mailbox_reset]
    rfl
  · rw [hl.course c]
    change (u.course c).image = none
    rw [hc c]
    rfl

theorem ResetAndBegins.flash (h : ResetAndBegins s t cause) : t.flash = s.flash := by
  obtain ⟨u, ⟨hu, -⟩, -, hl, -⟩ := h
  have h1 : u.flash = s.flash := (congrArg State.flash hu).trans rfl
  exact hl.flash.trans h1

theorem ResetAndBegins.otp (h : ResetAndBegins s t cause) : t.otp = s.otp := by
  obtain ⟨u, ⟨hu, -⟩, -, hl, -⟩ := h
  have h1 : u.otp = s.otp := (congrArg State.otp hu).trans rfl
  exact hl.otp.trans h1

/-- After a start with no failed one before it, a device that is not RETIRED is in phase ROM (R89). -/
theorem ResetAndBegins.rom (h : ResetAndBegins s t cause) (hc : s.power.startRec.count = 0) (hl : s.lifecycle ≠ .retired) :
    t.power.phase = .rom ∧ t.power.startRec.count = 1 := by
  obtain ⟨u, ⟨hu, -, -, -, hpow, -⟩, -, -, -, -, -, hrom, -⟩ := h
  have hcount : u.power.startRec.count = 0 := by rw [hpow]; exact hc
  have hlife : u.lifecycle = s.lifecycle := State.lifecycle_congr ((congrArg State.otp hu).trans rfl)
  obtain ⟨h1, -, h2, -⟩ := hrom (by rw [hcount, hlife]; simp [hl])
  exact ⟨h1, by rw [h2, hcount]⟩

end

section
variable {s : State} {r : SvcReq} {j : Fin 32}

/-- CLEAR_START replies, clears the count of failed starts, and resets the device (R92). -/
theorem State.clearStart_begins (h : s.alive = true) :
    ∃ v : State, v.power.startRec.count = 0 ∧ v.flash = s.flash ∧ v.otp = s.otp ∧ ResetAndBegins v (s.clearStart r) 7 := by
  have hs := ServiceLeaves.svcReply s 0x0B01 r 0 []
  refine ⟨(s.svcReply 0x0B01 r 0 []).modRecord (fun x => { x with count := 0 }), rfl, hs.flash, hs.otp, State.restart_begins 7 ?_⟩
  refine Eq.trans (State.alive_congr ?_) h
  change (s.svcReply 0x0B01 r 0 []).power.supply = _ ∧ (s.svcReply 0x0B01 r 0 []).power.rstLow = _ ∧ (s.svcReply 0x0B01 r 0 []).power.tap = _
  rw [hs.power]
  exact ⟨rfl, rfl, rfl⟩

theorem exec_clearStart_restarts (h : s.asked 0x0B01 r j) (ha : s.alive = true) : ∃ t, exec (.clearStart r) s = .next t ∧ Restarted t 7 ∧ t.flash = s.flash ∧
    t.otp = s.otp ∧ (s.lifecycle ≠ .retired → t.power.phase = .rom ∧ t.power.startRec.count = 1) := by
  obtain ⟨v, hc, hf, ho, hr⟩ := State.clearStart_begins (r := r) ((s.alive_takeMail 0x01 j).trans ha)
  rw [State.flash_takeMail] at hf
  rw [State.otp_takeMail] at ho
  refine ⟨_, State.serve_of_asked (fun s => s.clearStart r) h, hr.restarted, hr.flash.trans hf, hr.otp.trans ho, fun hl => hr.rom hc ?_⟩
  rwa [State.lifecycle_congr ho]

/-! ### The recorder (R461, R484) -/

theorem State.recorderService_reads (h1 : 1 ≤ r.w4.toNat) (h2 : r.w4.toNat ≤ 16384) : s.recorderService r =
    (s.dmaWrite (hostAddr r.w1 r.w2) ((s.recorder.range r.w3 r.w4.toNat).flatMap RecEntry.bytes)).svcReply 0x0C01 r 0
      [BitVec.ofNat 32 (s.recorder.range r.w3 r.w4.toNat).length, lastSeq (s.recorder.range r.w3 r.w4.toNat)] := by
  refine if_neg (not_or.mpr ⟨fun h => ?_, Nat.not_lt.mpr h2⟩)
  rw [h] at h1
  exact absurd h1 (by decide)

theorem State.recorderService_bad (h : r.w4 = 0 ∨ 16384 < r.w4.toNat) : s.recorderService r = s.svcReply 0x0C01 r 2 [] := if_pos h

theorem exec_recorderRead (h : s.asked 0x0C01 r j) : exec (.recorderRead r) s = .next ((s.takeMail 0x01 j).recorderService r) :=
  State.serve_of_asked (fun s => s.recorderService r) h

theorem State.flushService_reads {b : FlushBlock} (h : s.recorder.blocks[r.w3.toNat]? = some b) : s.flushService r =
    (s.dmaWrite (hostAddr r.w1 r.w2) ((b.recs.take r.w4.toNat).flatMap RecEntry.bytes)).svcReply 0x0C02 r 0 [BitVec.ofNat 32 b.cause, lastSeq b.recs] := by
  rw [State.flushService, h]

theorem State.flushService_bad (h : s.recorder.blocks[r.w3.toNat]? = none) : s.flushService r = s.svcReply 0x0C02 r 2 [] := by
  rw [State.flushService, h]

theorem exec_readFlush (h : s.asked 0x0C02 r j) : exec (.readFlush r) s = .next ((s.takeMail 0x01 j).flushService r) :=
  State.serve_of_asked (fun s => s.flushService r) h

/-- What a range reports is in the array, and within n numbers of the first (R479). -/
theorem Recorder.mem_range {x : Recorder} {first : Reg32} {n : Nat} {e : RecEntry} (h : e ∈ x.range first n) : e ∈ x.recs ∧ (e.seq - first).toNat < n := by
  obtain ⟨hm, hp⟩ := List.mem_filter.mp h
  exact ⟨List.mem_reverse.mp hm, (of_decide_eq_true hp).1⟩

/-! ### CAL.READ (R499) -/

theorem exec_calRead (h : s.asked 0x0D01 r j) : exec (.calRead r) s =
    .next (((s.takeMail 0x01 j).dmaWrite (hostAddr r.w1 r.w2) s.calFlash).svcReply 0x0D01 r 0 []) := by
  rw [← s.calFlash_takeMail 0x01 j]
  exact State.serve_of_asked (fun s => s.calReadService r) h

/-! ### TIME.SAMPLE (R326, R461; log 46) -/

/-- The sample is in the domain's registers and has been submitted. -/
def State.sampleFed (s : State) (r : SvcReq) : State :=
  (((s.setReg (tdBase r.domain + 0x40) r.w2).setReg (tdBase r.domain + 0x44) r.w3).setReg (tdBase r.domain + 0x48) (r.w4 &&& 0x3FFFFFFF)).submitSample
    r.domain r.sampleSec

/-- The domain takes no samples from services, or has one that is not earlier. -/
def State.sampleBad (s : State) (r : SvcReq) : Bool :=
  decide (s.tdSource r.domain ≠ 0) || s.sampleStale r.domain ((r.sampleSec * 1000000000 + r.sampleNs) * 65536)

theorem State.sampleBad_false (h1 : s.tdSource r.domain = 0) (h2 : s.sampleStale r.domain ((r.sampleSec * 1000000000 + r.sampleNs) * 65536) = false) :
    s.sampleBad r = false := by rw [State.sampleBad, h1, h2]; rfl

theorem State.sampleBad_true (h : s.tdSource r.domain ≠ 0 ∨ s.sampleStale r.domain ((r.sampleSec * 1000000000 + r.sampleNs) * 65536) = true) :
    s.sampleBad r = true := by simpa [State.sampleBad] using h

theorem State.timeService_denied (ha : s.timeAllows r.caller r.domain = false) : s.timeService r = s.svcReply 0x0601 r 1 [] := if_pos ha

theorem State.timeService_badNs (ha : s.timeAllows r.caller r.domain = true) (hn : 1000000000 ≤ r.sampleNs) : s.timeService r = s.svcReply 0x0601 r 2 [] := by
  rw [SvcReq.sampleNs, ← bits_low r.w4 29] at hn
  exact (if_neg (ne_false_of_eq_true ha)).trans (if_pos hn)

/-- A sample that is allowed is fed to its domain, and the reply says whether it was STALE. -/
theorem State.timeService_feeds (ha : s.timeAllows r.caller r.domain = true) (hn : r.sampleNs < 1000000000) : s.timeService r =
    (s.sampleFed r).svcReply 0x0601 r (if s.sampleBad r then 17 else 0) [((s.sampleFed r).dom r.domain).status &&& 0xF8000000] := by
  have hns : bits r.w4 29 0 = r.sampleNs := bits_low r.w4 29
  have hsec : r.w5.toNat + bits r.w6 15 0 * 2 ^ 32 = r.sampleSec := by rw [bits_low]; rfl
  unfold State.timeService
  rw [hsec, hns]
  exact (if_neg (ne_false_of_eq_true ha)).trans (if_neg (Nat.not_le.mpr hn))

theorem exec_timeSample (h : s.asked 0x0601 r j) : exec (.timeSample r) s = .next ((s.takeMail 0x01 j).timeService r) :=
  State.serve_of_asked (fun s => s.timeService r) h

theorem exec_timeSample_accepted (h : s.asked 0x0601 r j) (ha : (s.takeMail 0x01 j).timeAllows r.caller r.domain = true) (hn : r.sampleNs < 1000000000)
    (hb : (s.takeMail 0x01 j).sampleBad r = false) : exec (.timeSample r) s = .next (((s.takeMail 0x01 j).sampleFed r).svcReply 0x0601 r 0
      [(((s.takeMail 0x01 j).sampleFed r).dom r.domain).status &&& 0xF8000000]) := by
  rw [exec_timeSample h, State.timeService_feeds ha hn, hb]
  rfl

theorem exec_timeSample_stale (h : s.asked 0x0601 r j) (ha : (s.takeMail 0x01 j).timeAllows r.caller r.domain = true) (hn : r.sampleNs < 1000000000)
    (hb : (s.takeMail 0x01 j).sampleBad r = true) : exec (.timeSample r) s = .next (((s.takeMail 0x01 j).sampleFed r).svcReply 0x0601 r 17
      [(((s.takeMail 0x01 j).sampleFed r).dom r.domain).status &&& 0xF8000000]) := by
  rw [exec_timeSample h, State.timeService_feeds ha hn, hb]
  rfl

end

end Sys2Proof.Machine
end

section
/-! SUPPORT. Checkpoints, role swaps and the renewals that go with them (R412, R414, R415, R417, R420). -/

namespace Sys2Proof.Machine

/-! ### Causes that are raised (R424) -/

section
variable (s : State)

theorem State.cause_fireVector (f g : Bool) (v : Nat) : ((s.fireVector f v).hostFn g).cause = (s.hostFn g).cause := by
  unfold State.fireVector
  dsimp only
  split
  · split
    · cases f <;> cases g <;> rfl
    · cases g <;> rfl
  · rfl

theorem State.hostFn_msgManager (c : Nat) (w : List Reg32) (g : Bool) : (s.msgManager c w).hostFn g = s.hostFn g := by
  unfold State.msgManager
  split <;> rfl

theorem State.cause_raiseIn (f : Bool) (m : Reg32) : ((s.raiseIn f m).hostFn f).cause = (s.hostFn f).cause ||| m := by
  have h : ((s.setHostFn f { s.hostFn f with cause := (s.hostFn f).cause ||| m }).hostFn f).cause = (s.hostFn f).cause ||| m := by
    cases f <;> rfl
  unfold State.raiseIn
  dsimp only
  split
  · exact h
  · rw [State.cause_fireVector, h]

theorem State.cause_raiseCause (f : Bool) (m : Reg32) : ((s.raiseCause f m).hostFn f).cause = (s.hostFn f).cause ||| m := by
  unfold State.raiseCause
  dsimp only
  split
  · exact s.cause_raiseIn f m
  · rw [State.hostFn_msgManager, State.cause_raiseIn]

/-- The keystone asks the host of PF1 for a checkpoint (R414). -/
theorem State.asksCheckpoint (s : State) : (s.raiseCause true 0x800).pf1.cause.getLsbD 11 = true := by
  have h : (s.raiseCause true 0x800).pf1.cause = s.pf1.cause ||| 0x800 := s.cause_raiseCause true 0x800
  rw [h, BitVec.getLsbD_or]
  exact Bool.or_true _

end

/-! ### Role and hold (R416, R424) -/

section
variable (s : State)

theorem Logs.roleCause : Logs s s.roleCause := (Logs.raiseCause s false 0x1000).trans (Logs.raiseCause _ true 0x1000)

theorem State.chainOut_subset_roleCause : s.chainOut ⊆ s.roleCause.chainOut :=
  List.Subset.trans (s.chainOut_subset_raiseCause false 0x1000) (State.chainOut_subset_raiseCause _ true 0x1000)

theorem State.setRole_logs (r : UrrRole) : Logs { s with urral := { s.urral with role := r } } (s.setRole r) :=
  Logs.ite (Logs.refl _) (Logs.roleCause _)

theorem State.chainOut_subset_setRole (r : UrrRole) : s.chainOut ⊆ (s.setRole r).chainOut :=
  chainOut_subset_ite (List.Subset.refl _) (State.chainOut_subset_roleCause (s.modUrral _))

/-- Outputs are released (R416). -/
theorem State.setHold_false_logs : Logs { s with urral := { s.urral with hold := false } } (s.setHold false) :=
  Logs.ite (Logs.refl _) (Logs.roleCause _)

theorem State.chainOut_subset_release : s.chainOut ⊆ (s.setHold false).chainOut :=
  chainOut_subset_ite (List.Subset.refl _) (State.chainOut_subset_roleCause (s.modUrral _))

end

section
variable {s : State} {k : Fin 4}

theorem State.mem_endPorts : k ∈ s.endPorts ↔ s.endPort k := by
  simp [State.endPorts, State.endPort]

/-- The same frame, but for the port, is sent at each end-role port. -/
theorem State.sends_endPorts (s : State) (o : State → Fin 4 → UrrOut) (ho : ∀ (s : State) l k, o { s with chainOut := l } k = o s k) (l : List (Fin 4)) :
    l.foldl (fun s k => s.chainSend (o s k)) s = { s with chainOut := s.chainOut ++ l.map (o s) } := by
  simpa using foldl_chainSend (fun _ _ => true) o (fun _ _ _ => rfl) ho l s

end

/-! ### A renewal of the manager (R412) -/

section
variable {s : State}

/-- The lease of the manager, as it goes out of port k. -/
def State.leaseOf (s : State) (k : Fin 4) : UrrOut := .lease k s.urral.mepoch (s.urral.chainId.getD 0)

/-- The state of a renewal before outputs are released. -/
def State.leaseSent (s : State) : State :=
  let same := decide (s.urral.renewed = s.tick) && s.urral.leaseOk
  { s with chainOut := s.chainOut ++ s.endPorts.map s.leaseOf, pins := { s.pins with leaseOut := !s.pins.leaseOut },
           urral := { s.urral with renewing := true, ready := false, leaseOk := true, renewed := s.tick, best := none,
                                   pinSeen := same && s.urral.pinSeen, linkSeen := same && s.urral.linkSeen } }

theorem State.leaseRenew_eq (s : State) : s.leaseRenew = s.leaseSent.setHold false := by
  have he : s.endPorts.foldl (fun s k => s.chainSend (.lease k s.urral.mepoch (s.urral.chainId.getD 0))) s =
      { s with chainOut := s.chainOut ++ s.endPorts.map s.leaseOf } := s.sends_endPorts State.leaseOf (fun _ _ _ => rfl) s.endPorts
  unfold State.leaseRenew
  rw [he]
  rfl

theorem State.leaseRenew_logs (s : State) : Logs { s.leaseSent with urral := { s.leaseSent.urral with hold := false } } s.leaseRenew := by
  rw [State.leaseRenew_eq]
  exact s.leaseSent.setHold_false_logs

/-- What a renewal sends and sets (R412, R416). -/
theorem State.leaseRenew_renewed (s : State) : Renewed s s.leaseRenew := by
  have hl := s.leaseRenew_logs
  have hu := hl.urral
  have hout : ∀ k, s.endPort k → s.leaseOf k ∈ s.leaseRenew.chainOut := fun k hk => by
    rw [State.leaseRenew_eq]
    exact s.leaseSent.chainOut_subset_release (List.mem_append_right _ (List.mem_map_of_mem (State.mem_endPorts.mpr hk)))
  refine ⟨hout, hl.pins, ?_⟩
  rw [hu]
  refine ⟨rfl, rfl, rfl, rfl, rfl, rfl, rfl, rfl, rfl, ?_⟩
  rw [hl.pins]
  exact hl

theorem State.restoreLate_leaseRenew (s : State) : s.leaseRenew.urral.restoreLate = s.urral.restoreLate := by rw [s.leaseRenew_logs.urral]; rfl

theorem State.swapFail_leaseRenew (s : State) : s.leaseRenew.urral.swapFail = s.urral.swapFail := by rw [s.leaseRenew_logs.urral]; rfl

/-- RESTORE_LATE: the flag and its event, and the manager renews all the same (R415). -/
theorem exec_restoreLate_renews (hb : s.blocksUp = true) (hr : s.urral.role = .manager) (hn : s.urral.renewing = false) (hy : s.urral.ready = false)
    (hs : s.urral.swap = .none) (ht : s.urral.renewed + 25 ≤ s.tick) :
    ∃ x t : State, exec .restoreLate s = .next t ∧ Logs { s with urral := { s.urral with restoreLate := true } } x ∧ Renewed x t ∧ t.urral.restoreLate = true := by
  have hl := Logs.event (s.modUrral fun u => { u with restoreLate := true }) .restoreLate true 0 []
  refine ⟨_, _, State.when_of_true s (fun s => s.restoreLate) (by simp [hb, hr, hn, hy, hs, ht]), hl, State.leaseRenew_renewed _, ?_⟩
  rw [State.restoreLate, State.restoreLate_leaseRenew, hl.urral]
  rfl

theorem exec_swapFail_handed (cause : Option (BitVec 8)) {n : Nat} (hs : s.urral.swap = .handed n) : exec (.swapFail cause) s =
    s.when_ (s.blocksUp && (decide (s.urral.role = .manager) && decide (s.urral.renewed + 6 ≤ s.tick))) (fun s => s.swapFail cause) := by
  change execSwapFail cause s = _
  rw [execSwapFail, hs]

theorem exec_swapFail_idle (cause : Option (BitVec 8)) (hs : s.urral.swap = .none) : exec (.swapFail cause) s = .next s := by
  change execSwapFail cause s = _
  rw [execSwapFail, hs]

theorem State.swapFail_eq (s : State) (cause : Option (BitVec 8)) : ∃ args, s.swapFail cause =
    ((s.modUrral fun u => { u with swap := .none, swapFail := true }).event .swapFail true 0 args).leaseRenew := ⟨_, rfl⟩

/-- SWAP_FAIL: the swap is given up, and the manager renews again (R417). -/
theorem exec_swapFail_renews (cause : Option (BitVec 8)) {n : Nat} (hb : s.blocksUp = true) (hr : s.urral.role = .manager) (hs : s.urral.swap = .handed n)
    (ht : s.urral.renewed + 6 ≤ s.tick) : ∃ x t : State, exec (.swapFail cause) s = .next t ∧
      Logs { s with urral := { s.urral with swap := .none, swapFail := true } } x ∧ Renewed x t ∧ t.urral.swapFail = true := by
  obtain ⟨args, he⟩ := s.swapFail_eq cause
  have hl := Logs.event (s.modUrral fun u => { u with swap := .none, swapFail := true }) .swapFail true 0 args
  refine ⟨_, _, (exec_swapFail_handed cause hs).trans ((State.when_of_true s _ (by simp [hb, hr, ht])).trans (congrArg _ he)), hl, State.leaseRenew_renewed _, ?_⟩
  rw [State.swapFail_leaseRenew, hl.urral]
  rfl

end

/-! ### Checkpoints (R414; logs 27 and 28) -/

section
variable {s : State} {r : SvcReq} {j : Fin 32}

/-- The checkpoint as it goes over the link. -/
def ckptOut (seq : Word) (data : List Byte) : UrrOut := .ckpt seq data (Config.sha512 data)

theorem State.sendCkpt_plain (h : s.urral.swap ≠ .checkpoint) (seq : Word) (data : List Byte) : s.sendCkpt seq data =
    { s with urral := { s.urral with ckptSent := seq }, chainOut := s.chainOut ++ [ckptOut seq data] } := by
  rw [State.sendCkpt, if_neg h]
  rfl

theorem State.sendCkpt_final (h : s.urral.swap = .checkpoint) (seq : Word) (data : List Byte) : s.sendCkpt seq data =
    { s with urral := { s.urral with ckptSent := seq, swap := .handed s.tick, renewing := false, ready := false },
             chainOut := s.chainOut ++ [ckptOut seq data] ++ [.handoff seq] } := by
  simp only [State.sendCkpt, State.chainSend, State.modUrral, ckptOut, if_pos h]

theorem State.ckptService_sends (hr : s.urral.role = .manager) (hn : r.w3.toNat ≤ 4194304) : s.ckptService r =
    (s.sendCkpt (r.w4.extractLsb' 0 16) (s.hostBytes r.w1 r.w2 r.w3.toNat)).svcReply 0x0701 r 0 [(r.w4.extractLsb' 0 16).setWidth 32] :=
  (if_neg (not_not_intro hr)).trans (if_neg (Nat.not_lt.mpr hn))

theorem State.ckptService_notManager (hr : s.urral.role ≠ .manager) : s.ckptService r = s.svcReply 0x0701 r 14 [] := if_pos hr

theorem State.ckptService_long (hr : s.urral.role = .manager) (hn : 4194304 < r.w3.toNat) : s.ckptService r = s.svcReply 0x0701 r 2 [] :=
  (if_neg (not_not_intro hr)).trans (if_pos hn)

theorem exec_ckptPush (h : s.asked 0x0701 r j) : exec (.ckptPush r) s = .next ((s.takeMail 0x01 j).ckptService r) :=
  State.serve_of_asked (fun s => s.ckptService r) h

/-- CKPT.PUSH of a manager sends what the host's buffer holds, and replies with its number (R414). -/
theorem exec_ckptPush_sends (h : s.asked 0x0701 r j) (hr : s.urral.role = .manager) (hn : r.w3.toNat ≤ 4194304) : exec (.ckptPush r) s =
    .next (((s.takeMail 0x01 j).sendCkpt (r.w4.extractLsb' 0 16) ((s.takeMail 0x01 j).hostBytes r.w1 r.w2 r.w3.toNat)).svcReply 0x0701 r 0
      [(r.w4.extractLsb' 0 16).setWidth 32]) := by
  rw [exec_ckptPush h, State.ckptService_sends (by rwa [State.urral_takeMail]) hn]

theorem exec_ckptDue_asks (hb : s.blocksUp = true) (hr : s.urral.role = .manager) (ht : s.tick % 100 = 0) :
    ∃ t, exec .ckptDue s = .next t ∧ Logs s t ∧ t.pf1.cause.getLsbD 11 = true :=
  ⟨_, State.when_of_true s (fun s => s.raiseCause true 0x800) (by simp [hb, hr, ht]), Logs.raiseCause s true 0x800, s.asksCheckpoint⟩

theorem exec_ckptDue_idle (h : s.urral.role ≠ .manager ∨ s.tick % 100 ≠ 0) : exec .ckptDue s = .next s :=
  State.when_of_false s (fun s => s.raiseCause true 0x800) (by rcases h with h | h <;> simp [h])

section
variable {seq : Word} {data : List Byte} {dg : BitVec 512}

theorem exec_ckpt (hb : s.blocksUp = true) (hr : s.urral.role = .standby) : exec (.ckpt seq data dg) s = .next (s.takeCkpt seq data dg) :=
  State.when_of_true s (fun s => s.takeCkpt seq data dg) (by simp [hb, hr])

/-- Bits [15:8] of PAIR_CFG name the ring (R420). -/
theorem bits_pairRing (v : Reg32) : bits v 15 8 = v.toNat / 256 % 256 := by
  simp [bits, BitVec.extractLsb'_toNat, Nat.shiftRight_eq_div_pow]

/-- A checkpoint with its digest goes to the ring of the host as one frame (R414; log 27). -/
theorem State.takeCkpt_keeps (hd : Config.sha512 data = dg) : ∃ e, s.takeCkpt seq data dg =
    { s with urral := { s.urral with ckptSeq := seq }, mortar := { s.mortar with toHost := s.mortar.toHost ++ [e], nextId := s.mortar.nextId + 1 } } ∧
    e.frame.bytes = data ∧ e.out = portH ∧ ∃ n : Fin 64, e.frame.ring = some n ∧ n.val = (s.reg 0x600010).toNat / 256 % 256 % 64 := by
  refine ⟨_, if_pos hd, rfl, rfl, _, rfl, ?_⟩
  exact congrArg (· % 64) (bits_pairRing (s.reg 0x600010))

theorem State.takeCkpt_wrong (hd : Config.sha512 data ≠ dg) : s.takeCkpt seq data dg = s := if_neg hd

end

end

/-! ### Role swaps (R415, R417, R420) -/

section
variable {s : State} {p : Party}

/-- A manager in no swap asks its host for the final checkpoint. -/
theorem State.startSwap_asks (hr : s.urral.role = .manager) (hs : s.urral.swap = .none) : Logs { s with urral := s.startSwap.urral } s.startSwap ∧
    s.startSwap.urral = { s.urral with swap := .checkpoint, swapFrom := s.tick, swapFail := false } ∧ s.startSwap.pf1.cause.getLsbD 11 = true := by
  have he : s.startSwap = (s.modUrral fun u => { u with swap := .checkpoint, swapFrom := s.tick, swapFail := false }).raiseCause true 0x800 := if_pos ⟨hr, hs⟩
  have hl := Logs.raiseCause (s.modUrral fun u => { u with swap := .checkpoint, swapFrom := s.tick, swapFail := false }) true 0x800
  rw [← he] at hl
  refine ⟨?_, hl.urral, by rw [he]; exact State.asksCheckpoint _⟩
  rw [hl.urral]
  exact hl

theorem bits_swapMin (v : Reg32) : bits v 31 16 = v.toNat / 65536 := by
  simp only [bits, BitVec.extractLsb'_toNat, Nat.shiftRight_eq_div_pow]
  have := v.isLt
  omega

theorem exec_roleSwap_starts (hb : s.blocksUp = true) (ht : s.urral.swapFrom + (s.reg 0x600010).toNat / 65536 * 60000 ≤ s.tick) :
    exec .roleSwap s = .next s.startSwap := by
  rw [← bits_swapMin] at ht
  exact State.when_of_true s (fun s => s.startSwap) (by rw [hb]; exact decide_eq_true ht)

/-- PAIR_CTRL takes writes of PF1 and of the keystone. -/
theorem State.urralWrite_pairCtrl (hp : p.isPf1 = true ∨ p = .keystone) (v : Reg32) :
    s.urralWrite p 0x14 v = if bit v 2 then (if bit v 1 then s.pairReady else s).startSwap else if bit v 1 then s.pairReady else s := by
  refine if_neg ?_
  rcases hp with hp | hp <;> simp [hp]

theorem State.urralWrite_refused (hp : p.isPf1 = false) (hk : p ≠ .keystone) (o : Nat) (v : Reg32) :
    s.urralWrite p o v = s.refused p (0x600000 + o) v.toNat := if_pos (by simp [hp, hk])

theorem exec_swapNow_eq (p : Party) : exec (.swapNow p) s = s.when_ s.blocksUp (fun s => s.urralWrite p 0x14 4) := rfl

theorem exec_ready_eq (p : Party) : exec (.ready p) s = s.when_ s.blocksUp (fun s => s.urralWrite p 0x14 2) := rfl

theorem exec_swapNow_starts (hb : s.blocksUp = true) (hp : p.isPf1 = true ∨ p = .keystone) : exec (.swapNow p) s = .next s.startSwap := by
  rw [exec_swapNow_eq, State.when_of_true s _ hb, State.urralWrite_pairCtrl hp]
  rfl

theorem exec_ready_acts (hb : s.blocksUp = true) (hp : p.isPf1 = true ∨ p = .keystone) : exec (.ready p) s = .next s.pairReady := by
  rw [exec_ready_eq, State.when_of_true s _ hb, State.urralWrite_pairCtrl hp]
  rfl

theorem exec_pairCtrl_refused (hb : s.blocksUp = true) (hp : p.isPf1 = false) (hk : p ≠ .keystone) :
    exec (.swapNow p) s = .next (s.refused p 0x600014 4) ∧ exec (.ready p) s = .next (s.refused p 0x600014 2) := by
  constructor
  · rw [exec_swapNow_eq, State.when_of_true s _ hb, State.urralWrite_refused hp hk]
    rfl
  · rw [exec_ready_eq, State.when_of_true s _ hb, State.urralWrite_refused hp hk]
    rfl

/-- The claim of a standby that takes the role in a swap: with the next epoch, as the holder of the lease (R417). -/
def State.swapClaim (s : State) : Claim :=
  { src := s.urral.devnum, leaseHeld := true, mepoch := s.urral.mepoch + 1, prio := s.urral.prio, uid := s.uid }

/-- The standby that takes the role, before its claim goes out. -/
def State.swapTaken (s : State) : State :=
  s.modUrral fun u => { u with handoff := false, ready := true, renewing := false, mepoch := s.urral.mepoch + 1, mgrDev := u.devnum, swapFrom := s.tick }

theorem State.pairReady_takes (hh : s.urral.handoff = true) (hr : s.urral.role = .standby) : s.pairReady =
    { s.swapTaken with chainOut := s.chainOut ++ s.endPorts.map (fun k => UrrOut.claim k s.swapClaim) }.setRole .manager := by
  have he := s.swapTaken.sends_endPorts (fun _ k => UrrOut.claim k s.swapClaim) (fun _ _ _ => rfl) s.endPorts
  refine (if_pos ⟨hh, hr⟩).trans ?_
  exact congrArg (State.setRole · .manager) he

/-- In a swap the standby becomes manager with the next epoch, and claims at each end-role port (R417). -/
theorem State.pairReady_swaps (hh : s.urral.handoff = true) (hr : s.urral.role = .standby) :
    Logs { s with urral := s.pairReady.urral, chainOut := s.pairReady.chainOut } s.pairReady ∧
    s.pairReady.urral = { s.urral with handoff := false, ready := true, renewing := false, mepoch := s.urral.mepoch + 1, mgrDev := s.urral.devnum, swapFrom := s.tick, role := .manager } ∧
    ∀ k, s.endPort k → UrrOut.claim k s.swapClaim ∈ s.pairReady.chainOut := by
  rw [State.pairReady_takes hh hr]
  generalize hout : s.chainOut ++ s.endPorts.map (fun k => UrrOut.claim k s.swapClaim) = out
  have hl := State.setRole_logs { s.swapTaken with chainOut := out } .manager
  have hsub := State.chainOut_subset_setRole { s.swapTaken with chainOut := out } .manager
  refine ⟨?_, hl.urral, fun k hk => hsub ?_⟩
  · rw [hl.urral]
    exact hl
  · rw [← hout]
    exact List.mem_append_right _ (List.mem_map_of_mem (State.mem_endPorts.mpr hk))

theorem State.pairReady_notes (h : s.urral.handoff = false ∨ s.urral.role ≠ .standby) : s.pairReady = { s with urral := { s.urral with ready := true } } := by
  refine if_neg ?_
  rcases h with h | h <;> simp [h]

theorem exec_handoff_restores (n : Word) (hb : s.blocksUp = true) (hr : s.urral.role = .standby) :
    exec (.handoff n) s = .next { s with urral := { s.urral with handoff := true, ready := false } } :=
  State.when_of_true s (fun s => s.modUrral fun u => { u with handoff := true, ready := false }) (by simp [hb, hr])

end

end Sys2Proof.Machine
end

section
/-! Settles O54: the services on flash, recorder, calibration, time and checkpoints, and the role swap of a manager pair. -/

namespace Sys2Proof.Machine

/-- Settles O54, clause by clause: each service by what it does once its request is taken (`State.serve_of_asked`), flash by
`FlashRewritten`, CLEAR_START by the reset it ends in, and the role swap by the renewals, claims and causes of the link. That CKPT_DUE
and SWAP_FAIL leave the state where they are not due rests on log 20; a checkpoint as one command and one frame on log 27; HANDOFF after
the final checkpoint on log 28; ORIGIN and the digest of the calibration page on log 36; the word of a TIME.SAMPLE reply on log 46. -/
theorem storesSamplesAndCheckpoints : Obligations.StoresSamplesAndCheckpoints := by
  unfold Obligations.StoresSamplesAndCheckpoints
  refine ⟨?flashWrite, ?flashDenied, ?flashBad, ?regions, ?clearStart, ?recorderRead, ?recorderBad, ?readFlush, ?flushBad, ?range, ?calRead, ?calWrite,
    ?calManufacture, ?calKey, ?calInvalid, ?sample, ?sampleStale, ?sampleDenied, ?sampleNs, ?push, ?pushFinal, ?pushNotManager, ?pushLong, ?roleSwap,
    ?swapNow, ?pairRefused, ?ckptDue, ?ckptNotDue, ?ckpt, ?ckptWrong, ?readySwap, ?ready, ?handoff, ?restoreLate, ?swapFail, ?swapFailIdle⟩
  case flashWrite =>
    intro s r j a n hq hr hn hm hb hw
    obtain ⟨x, he, hx, hf⟩ := exec_flashWrite_writes hq hr hn hm hb
    refine ⟨x, he, hx, hf.outside ?_, hf.reads hw, fun y => hf.erased⟩
    rw [State.flashSource, State.length_hostBytes]
    exact Nat.min_le_right _ _
  case flashDenied => exact fun s r j a n hq hr hn hm hk => (exec_flashWrite hq).trans (congrArg _ (State.flashService_denied hr hn hm hk))
  case flashBad => exact fun s r j a n hq hr hn hm e k hb => (exec_flashWrite hq).trans (congrArg _ (State.flashService_bad hr hn hm hb))
  case regions => exact fun n => ⟨flashRegion_image, rfl, rfl, flashRegion_none⟩
  case clearStart => exact fun s r j => exec_clearStart_restarts
  case recorderRead =>
    intro s r j hq h1 h2
    exact ⟨_, (exec_recorderRead hq).trans (congrArg _ (State.recorderService_reads h1 h2)), rfl⟩
  case recorderBad => exact fun s r j hq h => (exec_recorderRead hq).trans (congrArg _ (State.recorderService_bad h))
  case readFlush =>
    intro s r j b hq hb
    rw [← s.recorder_takeMail 0x01 j] at hb
    exact ⟨_, (exec_readFlush hq).trans (congrArg _ (State.flushService_reads hb)), rfl⟩
  case flushBad => exact fun s r j hq hb => (exec_readFlush hq).trans (congrArg _ (State.flushService_bad hb))
  case range => exact fun x first n e => Recorder.mem_range
  case calRead => exact fun s r j hq => ⟨_, exec_calRead hq, rfl⟩
  case calWrite =>
    intro s r j hq hl hk hv hw
    obtain ⟨x, he, hx, hf⟩ := exec_calWrite_writes hq hl hk hv
    have hlen := (s.takeMail 0x01 j).length_calWritten r
    have hpage := (s.takeMail 0x01 j).length_hostBytes r.w1 r.w2 4096
    have hcal := s.calFlash_takeMail 0x01 j
    refine ⟨x, he, hx, hf.outside hlen.le, fun h => ?_, fun h => ?_⟩
    · have hr := hf.reads hw
      rw [hlen, State.calWritten_same (h.trans hcal.symm), hcal] at hr
      exact hr
    · rw [State.calWritten_integrator fun h' => h (h'.trans hcal)] at hf
      refine ⟨hf.byte hw (integratorPage_origin hpage), fun a ha h6 => ?_⟩
      have hb := hf.byte hw (integratorPage_body hpage ha h6)
      rwa [Nat.zero_add] at hb
  case calManufacture =>
    exact fun s r j hq hl => (exec_calWrite hq).trans (congrArg _ (State.calWriteService_manufacture ((s.lifecycle_takeMail 0x01 j).trans hl)))
  case calKey =>
    exact fun s r j hq hl hk => (exec_calWrite hq).trans (congrArg _ (State.calWriteService_key (by rwa [State.lifecycle_takeMail]) hk))
  case calInvalid =>
    exact fun s r j hq hl hk hv => (exec_calWrite hq).trans (congrArg _ (State.calWriteService_invalid (by rwa [State.lifecycle_takeMail]) hk hv))
  case sample => exact fun s r j hq ha hn hs ht => exec_timeSample_accepted hq ha hn (State.sampleBad_false hs ht)
  case sampleStale => exact fun s r j hq ha hn h => exec_timeSample_stale hq ha hn (State.sampleBad_true h)
  case sampleDenied => exact fun s r j hq ha => (exec_timeSample hq).trans (congrArg _ (State.timeService_denied ha))
  case sampleNs => exact fun s r j hq ha hn => (exec_timeSample hq).trans (congrArg _ (State.timeService_badNs ha hn))
  case push =>
    intro s r j hq hr hn hs
    refine ⟨_, exec_ckptPush_sends hq hr hn, State.sendCkpt_plain ?_ _ _⟩
    rwa [State.urral_takeMail]
  case pushFinal =>
    intro s r j hq hr hn hs
    rw [← s.tick_takeMail 0x01 j]
    refine ⟨_, exec_ckptPush_sends hq hr hn, State.sendCkpt_final ?_ _ _⟩
    rwa [State.urral_takeMail]
  case pushNotManager =>
    exact fun s r j hq hr => (exec_ckptPush hq).trans (congrArg _ (State.ckptService_notManager (by rwa [State.urral_takeMail])))
  case pushLong =>
    exact fun s r j hq hr hn => (exec_ckptPush hq).trans (congrArg _ (State.ckptService_long (by rwa [State.urral_takeMail]) hn))
  case roleSwap => exact fun s hb ht hr hs => ⟨_, exec_roleSwap_starts hb ht, State.startSwap_asks hr hs⟩
  case swapNow => exact fun s p hb hp hr hs => ⟨_, exec_swapNow_starts hb hp, State.startSwap_asks hr hs⟩
  case pairRefused => exact fun s p => exec_pairCtrl_refused
  case ckptDue => exact fun s => exec_ckptDue_asks
  case ckptNotDue => exact fun s => exec_ckptDue_idle
  case ckpt =>
    intro s seq data dg hb hr hd
    obtain ⟨e, he⟩ := State.takeCkpt_keeps (s := s) (seq := seq) hd
    exact ⟨_, e, exec_ckpt hb hr, he⟩
  case ckptWrong => exact fun s seq data dg hb hr hd => (exec_ckpt hb hr).trans (congrArg _ (State.takeCkpt_wrong hd))
  case readySwap =>
    intro s p hb hp hh hr
    obtain ⟨hl, hu, hc⟩ := State.pairReady_swaps hh hr
    exact ⟨_, s.swapClaim, exec_ready_acts hb hp, hl, hu, rfl, rfl, rfl, rfl, hc⟩
  case ready => exact fun s p hb hp h => (exec_ready_acts hb hp).trans (congrArg _ (State.pairReady_notes h))
  case handoff => exact fun s n => exec_handoff_restores n
  case restoreLate => exact fun s => exec_restoreLate_renews
  case swapFail => exact fun s n cause => exec_swapFail_renews cause
  case swapFailIdle => exact fun s cause => exec_swapFail_idle cause

end Sys2Proof.Machine
end

section
/-! SUPPORT. The fields of a first word, and the decoder and the encoder of the brick instruction set as inverses of each other (R100 to R124). -/

namespace Sys2Proof.Machine

/-! ### The fields of the words (R100, R111, R113, R117, R124) -/

theorem append_eq_append_iff {n m : Nat} {a c : BitVec n} {b d : BitVec m} : a ++ b = c ++ d ↔ a = c ∧ b = d := by
  refine ⟨fun h => ⟨?_, ?_⟩, fun ⟨ha, hb⟩ => ha ▸ hb ▸ rfl⟩
  · rw [← BitVec.extractLsb'_append_eq_left (a := a) (b := b), h, BitVec.extractLsb'_append_eq_left]
  · rw [← BitVec.extractLsb'_append_eq_right (a := a) (b := b), h, BitVec.extractLsb'_append_eq_right]

theorem fnOf_cases (w : Word) : fnOf w = 0 ∨ fnOf w = 1 ∨ fnOf w = 2 ∨ fnOf w = 3 := by
  have h : fnOf w < 4 := BitVec.isLt _
  omega

section
variable {w w2 : Word} {op : BitVec 6} {fx fy : BitVec 4} {fn : BitVec 2} {i : BitVec 6}

/-- A word is its opcode and the ten bits below it. -/
theorem word_eq_append (w : Word) : w = w.extractLsb' 10 6 ++ w.extractLsb' 0 10 :=
  (BitVec.extractLsb'_append_extractLsb' (w := 6) (len := 10)).symm

theorem fxOf_append_imm6Of (w : Word) : fxOf w ++ imm6Of w = w.extractLsb' 0 10 :=
  BitVec.extractLsb'_append_extractLsb'_eq_extractLsb' rfl

theorem fyOf_append_fn (w : Word) : fyOf w ++ w.extractLsb' 0 2 = imm6Of w :=
  BitVec.extractLsb'_append_extractLsb'_eq_extractLsb' rfl

/-- The words with fields OP, FX and IMM6. -/
theorem imm6Word_eq_iff : op ++ (fx ++ i) = w ↔ opOf w = op.toNat ∧ fxOf w = fx ∧ imm6Of w = i := by
  rw [opOf, bits, BitVec.toNat_inj, eq_comm]
  conv_lhs => rw [word_eq_append w, ← fxOf_append_imm6Of, append_eq_append_iff, append_eq_append_iff]

/-- The words with fields OP, FX, FY and FN. -/
theorem firstWord_eq_iff : firstWord op fx fy fn = w ↔ opOf w = op.toNat ∧ fxOf w = fx ∧ fyOf w = fy ∧ fnOf w = fn.toNat := by
  rw [firstWord, imm6Word_eq_iff, ← fyOf_append_fn, append_eq_append_iff, fnOf, bits, BitVec.toNat_inj]

/-- The words of REP with its count (R124). -/
theorem repWord_eq_iff {n : BitVec 9} : op ++ ((1 : BitVec 1) ++ n) = w ↔ opOf w = op.toNat ∧ bit w 9 = true ∧ w.extractLsb' 0 9 = n := by
  have hl : w.extractLsb' 9 1 ++ w.extractLsb' 0 9 = w.extractLsb' 0 10 := BitVec.extractLsb'_append_extractLsb'_eq_extractLsb' rfl
  have h9 : bit w 9 = true ↔ w.extractLsb' 9 1 = 1 := by
    rw [bit, BitVec.eq_of_getLsbD_eq_iff]
    simp
  rw [opOf, bits, BitVec.toNat_inj, h9, eq_comm]
  conv_lhs => rw [word_eq_append w, ← hl, append_eq_append_iff, append_eq_append_iff]

/-- The second words of a bit field: position and width below eight zeros (R111). -/
theorem fieldWord_eq_iff {p wm1 : BitVec 4} :
    (0 : BitVec 8) ++ (p ++ wm1) = w2 ↔ bits w2 15 8 = 0 ∧ w2.extractLsb' 4 4 = p ∧ w2.extractLsb' 0 4 = wm1 := by
  have hw : w2 = w2.extractLsb' 8 8 ++ (w2.extractLsb' 4 4 ++ w2.extractLsb' 0 4) := by
    have hl : w2.extractLsb' 4 4 ++ w2.extractLsb' 0 4 = w2.extractLsb' 0 8 := BitVec.extractLsb'_append_extractLsb'_eq_extractLsb' rfl
    rw [hl]
    exact (BitVec.extractLsb'_append_extractLsb' (w := 8) (len := 8)).symm
  rw [show bits w2 15 8 = 0 ↔ w2.extractLsb' 8 8 = 0 from BitVec.toNat_inj (y := 0), eq_comm]
  conv_lhs => rw [hw, append_eq_append_iff, append_eq_append_iff]

/-- The second words that name a register above twelve zeros (R113, R114). -/
theorem sourceWord_eq_iff {b : BitVec 4} : b ++ (0 : BitVec 12) = w2 ↔ bits w2 11 0 = 0 ∧ w2.extractLsb' 12 4 = b := by
  have hw : w2 = w2.extractLsb' 12 4 ++ w2.extractLsb' 0 12 := (BitVec.extractLsb'_append_extractLsb' (w := 4) (len := 12)).symm
  rw [show bits w2 11 0 = 0 ↔ w2.extractLsb' 0 12 = 0 from BitVec.toNat_inj (y := 0), eq_comm, and_comm]
  conv_lhs => rw [hw, append_eq_append_iff]

/-- The second words that name an I/O address below four zeros (R117). -/
theorem ioWord_eq_iff {io : BitVec 12} : (0 : BitVec 4) ++ io = w2 ↔ bits w2 15 12 = 0 ∧ w2.extractLsb' 0 12 = io := by
  have hw : w2 = w2.extractLsb' 12 4 ++ w2.extractLsb' 0 12 := (BitVec.extractLsb'_append_extractLsb' (w := 4) (len := 12)).symm
  rw [show bits w2 15 12 = 0 ↔ w2.extractLsb' 12 4 = 0 from BitVec.toNat_inj (y := 0), eq_comm]
  conv_lhs => rw [hw, append_eq_append_iff]

/-- FX is bit 9 above bits [8:6] (R124). -/
theorem fxOf_eq_zero_iff : fxOf w = 0 ↔ bit w 9 = false ∧ bits w 8 6 = 0 := by
  have hl : w.extractLsb' 9 1 ++ w.extractLsb' 6 3 = fxOf w := BitVec.extractLsb'_append_extractLsb'_eq_extractLsb' rfl
  have h9 : bit w 9 = false ↔ w.extractLsb' 9 1 = 0 := by
    rw [bit, BitVec.eq_of_getLsbD_eq_iff]
    simp
  rw [show bits w 8 6 = 0 ↔ w.extractLsb' 6 3 = 0 from BitVec.toNat_inj (y := 0), ← hl, h9]
  exact append_eq_append_iff (c := 0) (d := 0)

end

@[simp] theorem onlyIf_eq_some {c : Bool} {i j : BInstr} : onlyIf c i = some j ↔ c = true ∧ i = j := by
  cases c <;> simp [onlyIf]

/-- The words are those that R100 to R124 give instruction i: the second matters where the instruction has two. -/
def BInstr.Spells (i : BInstr) (w w2 : Word) : Prop :=
  i.wellFormed = true ∧ (encodeBrick i).1 = w ∧ (i.length = 2 → (encodeBrick i).2 = w2)

/-! ### The operations by their FN -/

section
variable (w : Word)

theorem fn_unOf : (unOf (fnOf w)).fn.toNat = fnOf w := by
  obtain hf | hf | hf | hf := fnOf_cases w <;> rw [hf] <;> rfl

theorem opFn_aluAOf : (aluAOf (fnOf w)).opFn.1 = 0x05 ∧ (aluAOf (fnOf w)).opFn.2.toNat = fnOf w := by
  obtain hf | hf | hf | hf := fnOf_cases w <;> rw [hf] <;> exact ⟨rfl, rfl⟩

theorem opFn_aluBOf : (aluBOf (fnOf w)).opFn.1 = 0x06 ∧ (aluBOf (fnOf w)).opFn.2.toNat = fnOf w := by
  obtain hf | hf | hf | hf := fnOf_cases w <;> rw [hf] <;> exact ⟨rfl, rfl⟩

theorem fn_shiftOf : (shiftOf (fnOf w)).fn.toNat = fnOf w := by
  obtain hf | hf | hf | hf := fnOf_cases w <;> rw [hf] <;> rfl

theorem rowFn_cmpOf (le : Bool) : (cmpOf le (fnOf w)).rowFn.1 = le ∧ (cmpOf le (fnOf w)).rowFn.2.toNat = fnOf w := by
  obtain hf | hf | hf | hf := fnOf_cases w <;> rw [hf] <;> cases le <;> exact ⟨rfl, rfl⟩

end

/-! ### What the decoder reads has the words read -/

section
variable {w w2 : Word} {i : BInstr}

theorem spells_of_decodeMisc (ho : opOf w = 0x00) (h : decodeMisc w = some i) : i.Spells w w2 := by
  obtain hf | hf | hf | hf := fnOf_cases w <;> simp [decodeMisc, hf] at h <;> obtain ⟨⟨hx, hy⟩, rfl⟩ := h <;>
    exact ⟨rfl, firstWord_eq_iff.mpr ⟨ho, hx, hy, hf⟩, nofun⟩

theorem spells_of_decodeShift (ho : opOf w = 0x0A ∨ opOf w = 0x0B ∨ opOf w = 0x0C ∨ opOf w = 0x0D) (h : decodeShift w w2 = some i) :
    i.Spells w w2 := by
  obtain ho | ho | ho | ho := ho
  · obtain rfl : .shift (shiftOf (fnOf w)) (fxOf w) (.imm (fyOf w)) = i := by simpa [decodeShift, ho] using h
    exact ⟨rfl, firstWord_eq_iff.mpr ⟨ho, rfl, rfl, (fn_shiftOf w).symm⟩, nofun⟩
  · obtain rfl : .shift (shiftOf (fnOf w)) (fxOf w) (.reg (fyOf w)) = i := by simpa [decodeShift, ho] using h
    exact ⟨rfl, firstWord_eq_iff.mpr ⟨ho, rfl, rfl, (fn_shiftOf w).symm⟩, nofun⟩
  · obtain hf | hf | hf | hf := fnOf_cases w <;> simp [decodeShift, ho, hf] at h <;> subst h <;>
      exact ⟨rfl, firstWord_eq_iff.mpr ⟨ho, rfl, rfl, hf⟩, nofun⟩
  · obtain hf | hf | hf | hf := fnOf_cases w <;> simp [decodeShift, ho, hf] at h <;> obtain ⟨⟨hz, hl⟩, rfl⟩ := h <;>
      exact ⟨by simpa [BInstr.wellFormed] using hl, firstWord_eq_iff.mpr ⟨ho, rfl, rfl, hf⟩, fun _ => fieldWord_eq_iff.mpr ⟨hz, rfl, rfl⟩⟩

theorem spells_cmp_reg {le : Bool} (ho : opOf w = (if le then 0x11 else 0x10 : BitVec 6).toNat) (hz : bits w2 11 0 = 0) :
    (BInstr.cmp (cmpOf le (fnOf w)) (fxOf w) (fyOf w) (.reg (w2.extractLsb' 12 4))).Spells w w2 := by
  obtain ⟨hl, hf⟩ := rowFn_cmpOf w le
  exact ⟨rfl, firstWord_eq_iff.mpr ⟨hl.symm ▸ ho, rfl, rfl, hf.symm⟩, fun _ => sourceWord_eq_iff.mpr ⟨hz, rfl⟩⟩

theorem spells_cmp_imm {le : Bool} (ho : opOf w = (if le then 0x13 else 0x12 : BitVec 6).toNat) :
    (BInstr.cmp (cmpOf le (fnOf w)) (fxOf w) (fyOf w) (.imm w2)).Spells w w2 := by
  obtain ⟨hl, hf⟩ := rowFn_cmpOf w le
  exact ⟨rfl, firstWord_eq_iff.mpr ⟨hl.symm ▸ ho, rfl, rfl, hf.symm⟩, fun _ => rfl⟩

theorem spells_of_decodeCmp (ho : opOf w = 0x10 ∨ opOf w = 0x11 ∨ opOf w = 0x12 ∨ opOf w = 0x13 ∨ opOf w = 0x14) (h : decodeCmp w w2 = some i) :
    i.Spells w w2 := by
  obtain ho | ho | ho | ho | ho := ho <;> simp [decodeCmp, ho] at h
  · exact h.2 ▸ spells_cmp_reg (le := false) ho h.1
  · exact h.2 ▸ spells_cmp_reg (le := true) ho h.1
  · exact h ▸ spells_cmp_imm (le := false) ho
  · exact h ▸ spells_cmp_imm (le := true) ho
  · obtain ⟨hz, rfl⟩ := h
    obtain hf | hf | hf | hf := fnOf_cases w <;> rw [hf] <;>
      exact ⟨rfl, firstWord_eq_iff.mpr ⟨ho, rfl, rfl, hf⟩, fun _ => sourceWord_eq_iff.mpr ⟨hz, rfl⟩⟩

theorem spells_of_decodeAccess
    (ho : opOf w = 0x18 ∨ opOf w = 0x19 ∨ opOf w = 0x1A ∨ opOf w = 0x1B ∨ opOf w = 0x1C ∨ opOf w = 0x1D)
    (h : decodeAccess w w2 = some i) : i.Spells w w2 := by
  obtain ho | ho | ho | ho | ho | ho := ho
  · obtain hf | hf | hf | hf := fnOf_cases w <;> simp [decodeAccess, ho, hf] at h <;> subst h <;>
      exact ⟨rfl, firstWord_eq_iff.mpr ⟨ho, rfl, rfl, hf⟩, nofun⟩
  · obtain hf | hf | hf | hf := fnOf_cases w <;> simp [decodeAccess, ho, hf] at h <;> subst h <;>
      exact ⟨rfl, firstWord_eq_iff.mpr ⟨ho, rfl, rfl, hf⟩, nofun⟩
  · obtain hf | hf | hf | hf := fnOf_cases w <;> simp [decodeAccess, ho, hf] at h
    · subst h
      exact ⟨rfl, firstWord_eq_iff.mpr ⟨ho, rfl, rfl, hf⟩, fun _ => rfl⟩
    · obtain ⟨hy, rfl⟩ := h
      exact ⟨rfl, firstWord_eq_iff.mpr ⟨ho, rfl, hy, hf⟩, fun _ => rfl⟩
  · obtain hf | hf | hf | hf := fnOf_cases w <;> simp [decodeAccess, ho, hf] at h
    · subst h
      exact ⟨rfl, firstWord_eq_iff.mpr ⟨ho, rfl, rfl, hf⟩, fun _ => rfl⟩
    · obtain ⟨hx, rfl⟩ := h
      exact ⟨rfl, firstWord_eq_iff.mpr ⟨ho, hx, rfl, hf⟩, fun _ => rfl⟩
  · obtain hf | hf | hf | hf := fnOf_cases w <;> simp [decodeAccess, ho, hf] at h <;> subst h <;>
      exact ⟨rfl, firstWord_eq_iff.mpr ⟨ho, rfl, rfl, hf⟩, nofun⟩
  · obtain hf | hf | hf | hf := fnOf_cases w <;> simp [decodeAccess, ho, hf] at h <;> obtain ⟨⟨hz, hy⟩, rfl⟩ := h
    · exact ⟨rfl, firstWord_eq_iff.mpr ⟨ho, rfl, hy, hf⟩, fun _ => ioWord_eq_iff.mpr ⟨hz, rfl⟩⟩
    · exact ⟨rfl, firstWord_eq_iff.mpr ⟨ho, hy, rfl, hf⟩, fun _ => ioWord_eq_iff.mpr ⟨hz, rfl⟩⟩
    · exact ⟨rfl, firstWord_eq_iff.mpr ⟨ho, rfl, hy, hf⟩, fun _ => ioWord_eq_iff.mpr ⟨hz, rfl⟩⟩
    · exact ⟨rfl, firstWord_eq_iff.mpr ⟨ho, rfl, hy, hf⟩, fun _ => ioWord_eq_iff.mpr ⟨hz, rfl⟩⟩

theorem spells_of_decodeControl
    (ho : opOf w = 0x20 ∨ opOf w = 0x21 ∨ opOf w = 0x22 ∨ opOf w = 0x24 ∨ opOf w = 0x25 ∨ opOf w = 0x26 ∨ opOf w = 0x27)
    (h : decodeControl w w2 = some i) : i.Spells w w2 := by
  obtain ho | ho | ho | ho | ho | ho | ho := ho
  · obtain hf | hf | hf | hf := fnOf_cases w <;> simp [decodeControl, ho, hf] at h
    · obtain ⟨hy, rfl⟩ := h
      exact ⟨rfl, firstWord_eq_iff.mpr ⟨ho, rfl, hy, hf⟩, fun _ => rfl⟩
    · obtain ⟨hy, rfl⟩ := h
      exact ⟨rfl, firstWord_eq_iff.mpr ⟨ho, rfl, hy, hf⟩, fun _ => rfl⟩
    · obtain ⟨hy, rfl⟩ := h
      exact ⟨rfl, firstWord_eq_iff.mpr ⟨ho, rfl, hy, hf⟩, fun _ => rfl⟩
    · obtain ⟨⟨hx, hy⟩, rfl⟩ := h
      exact ⟨rfl, firstWord_eq_iff.mpr ⟨ho, hx, hy, hf⟩, fun _ => rfl⟩
  · obtain ⟨⟨hf, hx, hy⟩, rfl⟩ : (fnOf w = 0 ∧ fxOf w = 0 ∧ fyOf w = 0) ∧ .call w2 = i := by simpa [decodeControl, ho] using h
    exact ⟨rfl, firstWord_eq_iff.mpr ⟨ho, hx, hy, hf⟩, fun _ => rfl⟩
  · obtain hf | hf | hf | hf := fnOf_cases w <;> simp [decodeControl, ho, hf] at h <;> obtain ⟨hx, rfl⟩ := h <;>
      exact ⟨rfl, firstWord_eq_iff.mpr ⟨ho, hx, rfl, hf⟩, nofun⟩
  · cases h9 : bit w 9
    · obtain ⟨⟨hz, hf⟩, rfl⟩ : (bits w 8 6 = 0 ∧ fnOf w = 0) ∧ .rep (.reg (fyOf w)) = i := by simpa [decodeControl, ho, h9] using h
      exact ⟨rfl, firstWord_eq_iff.mpr ⟨ho, fxOf_eq_zero_iff.mpr ⟨h9, hz⟩, rfl, hf⟩, nofun⟩
    · obtain rfl : .rep (.imm (w.extractLsb' 0 9)) = i := by simpa [decodeControl, ho, h9] using h
      exact ⟨rfl, repWord_eq_iff.mpr ⟨ho, h9, rfl⟩, nofun⟩
  · obtain ⟨hs, rfl⟩ : sregExists (imm6Of w) = true ∧ .mfs (fxOf w) (imm6Of w) = i := by simpa [decodeControl, ho] using h
    exact ⟨hs, imm6Word_eq_iff.mpr ⟨ho, rfl, rfl⟩, nofun⟩
  · obtain ⟨hs, rfl⟩ : mtsNames (imm6Of w) = true ∧ .mts (imm6Of w) (fxOf w) = i := by simpa [decodeControl, ho] using h
    exact ⟨hs, imm6Word_eq_iff.mpr ⟨ho, rfl, rfl⟩, nofun⟩
  · obtain ⟨hf, rfl⟩ : fnOf w = 0 ∧ .wait (fxOf w) (fyOf w) = i := by simpa [decodeControl, ho] using h
    exact ⟨rfl, firstWord_eq_iff.mpr ⟨ho, rfl, rfl, hf⟩, nofun⟩

/-- The opcodes that `decodeBrick` reads by itself (R107 to R109, R112). -/
theorem spells_of_compute
    (ho : opOf w = 0x01 ∨ opOf w = 0x02 ∨ opOf w = 0x03 ∨ opOf w = 0x04 ∨ opOf w = 0x05 ∨ opOf w = 0x06 ∨ opOf w = 0x07 ∨ opOf w = 0x08 ∨
      opOf w = 0x09 ∨ opOf w = 0x0E)
    (h : decodeBrick w w2 = some i) : i.Spells w w2 := by
  obtain ho | ho | ho | ho | ho | ho | ho | ho | ho | ho := ho <;> simp [decodeBrick, ho] at h
  · subst h
    exact ⟨rfl, firstWord_eq_iff.mpr ⟨ho, rfl, rfl, (fn_unOf w).symm⟩, nofun⟩
  · obtain ⟨⟨hy, hf⟩, rfl⟩ := h
    exact ⟨rfl, firstWord_eq_iff.mpr ⟨ho, rfl, hy, hf⟩, fun _ => rfl⟩
  · subst h
    exact ⟨rfl, imm6Word_eq_iff.mpr ⟨ho, rfl, rfl⟩, nofun⟩
  · subst h
    exact ⟨rfl, imm6Word_eq_iff.mpr ⟨ho, rfl, rfl⟩, nofun⟩
  · subst h
    obtain ⟨h1, h2⟩ := opFn_aluAOf w
    exact ⟨rfl, firstWord_eq_iff.mpr ⟨h1.symm ▸ ho, rfl, rfl, h2.symm⟩, nofun⟩
  · subst h
    obtain ⟨h1, h2⟩ := opFn_aluBOf w
    exact ⟨rfl, firstWord_eq_iff.mpr ⟨h1.symm ▸ ho, rfl, rfl, h2.symm⟩, nofun⟩
  · obtain hf | hf | hf | hf := fnOf_cases w <;> simp [hf] at h <;> subst h <;>
      exact ⟨rfl, firstWord_eq_iff.mpr ⟨ho, rfl, rfl, hf⟩, nofun⟩
  · subst h
    obtain hf | hf | hf | hf := fnOf_cases w <;> rw [hf] <;> exact ⟨rfl, firstWord_eq_iff.mpr ⟨ho, rfl, rfl, hf⟩, fun _ => rfl⟩
  · obtain hf | hf | hf | hf := fnOf_cases w <;> simp [hf] at h <;> subst h <;>
      exact ⟨rfl, firstWord_eq_iff.mpr ⟨ho, rfl, rfl, hf⟩, fun _ => rfl⟩
  · subst h
    obtain hf | hf | hf | hf := fnOf_cases w <;> rw [hf] <;> exact ⟨rfl, firstWord_eq_iff.mpr ⟨ho, rfl, rfl, hf⟩, fun _ => rfl⟩

theorem spells_of_decodeBrick (h : decodeBrick w w2 = some i) : i.Spells w w2 := by
  by_cases hm : opOf w = 0x00
  · exact spells_of_decodeMisc hm (by simpa [decodeBrick, hm] using h)
  by_cases hc : opOf w = 0x01 ∨ opOf w = 0x02 ∨ opOf w = 0x03 ∨ opOf w = 0x04 ∨ opOf w = 0x05 ∨ opOf w = 0x06 ∨ opOf w = 0x07 ∨
      opOf w = 0x08 ∨ opOf w = 0x09 ∨ opOf w = 0x0E
  · exact spells_of_compute hc h
  by_cases hs : opOf w = 0x0A ∨ opOf w = 0x0B ∨ opOf w = 0x0C ∨ opOf w = 0x0D
  · exact spells_of_decodeShift hs (by obtain ho | ho | ho | ho := hs <;> simpa [decodeBrick, ho] using h)
  by_cases hp : opOf w = 0x10 ∨ opOf w = 0x11 ∨ opOf w = 0x12 ∨ opOf w = 0x13 ∨ opOf w = 0x14
  · exact spells_of_decodeCmp hp (by obtain ho | ho | ho | ho | ho := hp <;> simpa [decodeBrick, ho] using h)
  by_cases ha : opOf w = 0x18 ∨ opOf w = 0x19 ∨ opOf w = 0x1A ∨ opOf w = 0x1B ∨ opOf w = 0x1C ∨ opOf w = 0x1D
  · exact spells_of_decodeAccess ha (by obtain ho | ho | ho | ho | ho | ho := ha <;> simpa [decodeBrick, ho] using h)
  by_cases ht : opOf w = 0x20 ∨ opOf w = 0x21 ∨ opOf w = 0x22 ∨ opOf w = 0x24 ∨ opOf w = 0x25 ∨ opOf w = 0x26 ∨ opOf w = 0x27
  · exact spells_of_decodeControl ht (by obtain ho | ho | ho | ho | ho | ho | ho := ht <;> simpa [decodeBrick, ho] using h)
  have rs : ¬(0x0A ≤ opOf w ∧ opOf w ≤ 0x0D) := by omega
  have rp : ¬(0x10 ≤ opOf w ∧ opOf w ≤ 0x14) := by omega
  have ra : ¬(0x18 ≤ opOf w ∧ opOf w ≤ 0x1D) := by omega
  simp only [not_or] at hc
  simp [decodeBrick, hm, hc, rs, rp, ra, ht] at h

end

/-! ### Words that an instruction has, the decoder reads -/

section
variable {w w2 : Word} {i : BInstr}

theorem decodeBrick_of_spells (h : i.Spells w w2) : decodeBrick w w2 = some i := by
  obtain ⟨hw, he, h2⟩ := h
  cases i with
  | un op d s =>
    obtain ⟨ho, rfl, rfl, hf⟩ := firstWord_eq_iff.mp he
    cases op <;> simp_all [decodeBrick, UnOp.fn, unOf]
  | movi d x =>
    obtain ⟨ho, rfl, hy, hf⟩ := firstWord_eq_iff.mp he
    obtain rfl : x = w2 := h2 rfl
    simp_all [decodeBrick]
  | movq d x =>
    obtain ⟨ho, rfl, rfl⟩ := imm6Word_eq_iff.mp he
    simp [decodeBrick, ho]
  | addq d x =>
    obtain ⟨ho, rfl, rfl⟩ := imm6Word_eq_iff.mp he
    simp [decodeBrick, ho]
  | alu op d s =>
    obtain ⟨ho, rfl, rfl, hf⟩ := firstWord_eq_iff.mp he
    cases op <;> simp_all [decodeBrick, AluOp.opFn, aluAOf, aluBOf]
  | alui op d s x =>
    obtain ⟨ho, rfl, rfl, hf⟩ := firstWord_eq_iff.mp he
    obtain rfl : x = w2 := h2 rfl
    cases op <;> simp_all [decodeBrick, ImmOp.opFn]
  | shift op d n =>
    cases n <;> obtain ⟨ho, rfl, rfl, hf⟩ := firstWord_eq_iff.mp he <;> cases op <;> simp_all [decodeBrick, decodeShift, ShiftOp.fn, shiftOf]
  | bitop op d n =>
    obtain ⟨ho, rfl, rfl, hf⟩ := firstWord_eq_iff.mp he
    cases op <;> simp_all [decodeBrick, decodeShift, BitOp.fn]
  | ext sg d s p wm1 =>
    obtain ⟨ho, rfl, rfl, hf⟩ := firstWord_eq_iff.mp he
    obtain ⟨hz, rfl, rfl⟩ := fieldWord_eq_iff.mp (h2 rfl)
    cases sg <;> simp_all [decodeBrick, decodeShift, BInstr.wellFormed]
  | ins d s p wm1 =>
    obtain ⟨ho, rfl, rfl, hf⟩ := firstWord_eq_iff.mp he
    obtain ⟨hz, rfl, rfl⟩ := fieldWord_eq_iff.mp (h2 rfl)
    simp_all [decodeBrick, decodeShift, BInstr.wellFormed]
  | crc op d s poly =>
    obtain ⟨ho, rfl, rfl, hf⟩ := firstWord_eq_iff.mp he
    obtain rfl : poly = w2 := h2 rfl
    cases op <;> simp_all [decodeBrick, CrcOp.fn]
  | cmp op d a b =>
    cases b with
    | reg b =>
      obtain ⟨ho, rfl, rfl, hf⟩ := firstWord_eq_iff.mp he
      obtain ⟨hz, rfl⟩ := sourceWord_eq_iff.mp (h2 rfl)
      cases op <;> simp_all [decodeBrick, decodeCmp, CmpOp.rowFn, cmpOf]
    | imm x =>
      obtain ⟨ho, rfl, rfl, hf⟩ := firstWord_eq_iff.mp he
      obtain rfl : x = w2 := h2 rfl
      cases op <;> simp_all [decodeBrick, decodeCmp, CmpOp.rowFn, cmpOf]
  | carry op d a b =>
    obtain ⟨ho, rfl, rfl, hf⟩ := firstWord_eq_iff.mp he
    obtain ⟨hz, rfl⟩ := sourceWord_eq_iff.mp (h2 rfl)
    cases op <;> simp_all [decodeBrick, decodeCmp, CarryOp.fn]
  | ld d m =>
    cases m <;> obtain ⟨ho, rfl, hy, hf⟩ := firstWord_eq_iff.mp he <;>
      simp_all [decodeBrick, decodeAccess, encodeBrick, BInstr.length]
  | st m v =>
    cases m <;> obtain ⟨ho, hx, rfl, hf⟩ := firstWord_eq_iff.mp he <;>
      simp_all [decodeBrick, decodeAccess, encodeBrick, BInstr.length]
  | inp d m =>
    cases m with
    | reg s =>
      obtain ⟨ho, rfl, rfl, hf⟩ := firstWord_eq_iff.mp he
      simp_all [decodeBrick, decodeAccess]
    | imm io =>
      obtain ⟨ho, rfl, hy, hf⟩ := firstWord_eq_iff.mp he
      obtain ⟨hz, rfl⟩ := ioWord_eq_iff.mp (h2 rfl)
      simp_all [decodeBrick, decodeAccess]
  | outp m v =>
    cases m with
    | reg s =>
      obtain ⟨ho, rfl, rfl, hf⟩ := firstWord_eq_iff.mp he
      simp_all [decodeBrick, decodeAccess]
    | imm io =>
      obtain ⟨ho, hx, rfl, hf⟩ := firstWord_eq_iff.mp he
      obtain ⟨hz, rfl⟩ := ioWord_eq_iff.mp (h2 rfl)
      simp_all [decodeBrick, decodeAccess]
  | xin a io =>
    obtain ⟨ho, rfl, hy, hf⟩ := firstWord_eq_iff.mp he
    obtain ⟨hz, rfl⟩ := ioWord_eq_iff.mp (h2 rfl)
    simp_all [decodeBrick, decodeAccess]
  | xout io a =>
    obtain ⟨ho, rfl, hy, hf⟩ := firstWord_eq_iff.mp he
    obtain ⟨hz, rfl⟩ := ioWord_eq_iff.mp (h2 rfl)
    simp_all [decodeBrick, decodeAccess]
  | br op c target =>
    obtain ⟨ho, rfl, hy, hf⟩ := firstWord_eq_iff.mp he
    obtain rfl : target = w2 := h2 rfl
    cases op <;> simp_all [decodeBrick, decodeControl, BrOp.fn]
  | jmp target =>
    obtain ⟨ho, hx, hy, hf⟩ := firstWord_eq_iff.mp he
    obtain rfl : target = w2 := h2 rfl
    simp_all [decodeBrick, decodeControl]
  | call target =>
    obtain ⟨ho, hx, hy, hf⟩ := firstWord_eq_iff.mp he
    obtain rfl : target = w2 := h2 rfl
    simp_all [decodeBrick, decodeControl]
  | jr s | callr s =>
    obtain ⟨ho, hx, rfl, hf⟩ := firstWord_eq_iff.mp he
    simp_all [decodeBrick, decodeControl]
  | ret | rett | nop | bkpt =>
    obtain ⟨ho, hx, hy, hf⟩ := firstWord_eq_iff.mp he
    simp_all [decodeBrick, decodeMisc]
  | mfs d sel =>
    obtain ⟨ho, rfl, rfl⟩ := imm6Word_eq_iff.mp he
    simp_all [decodeBrick, decodeControl, BInstr.wellFormed]
  | mts sel s =>
    obtain ⟨ho, rfl, rfl⟩ := imm6Word_eq_iff.mp he
    simp_all [decodeBrick, decodeControl, BInstr.wellFormed]
  | wait d s =>
    obtain ⟨ho, rfl, rfl, hf⟩ := firstWord_eq_iff.mp he
    simp_all [decodeBrick, decodeControl]
  | rep n =>
    cases n with
    | imm n =>
      obtain ⟨ho, h9, rfl⟩ := repWord_eq_iff.mp he
      simp [decodeBrick, decodeControl, ho, h9]
    | reg s =>
      obtain ⟨ho, hx, rfl, hf⟩ := firstWord_eq_iff.mp he
      obtain ⟨h9, hz⟩ := fxOf_eq_zero_iff.mp hx
      simp_all [decodeBrick, decodeControl]

end

/-- The decoder reads the instructions whose words it is given, and no others. -/
theorem decodeBrick_eq_some_iff {w w2 : Word} {i : BInstr} : decodeBrick w w2 = some i ↔ i.Spells w w2 :=
  ⟨spells_of_decodeBrick, decodeBrick_of_spells⟩

/-- The opcode of an instruction gives its length (R103). -/
theorem opLength_encodeBrick (i : BInstr) : opLength (opOf (encodeBrick i).1) = i.length := by
  have hf : ∀ op fx fy fn, opOf (firstWord op fx fy fn) = op.toNat := fun op fx fy fn => (firstWord_eq_iff.mp rfl).1
  cases i with
  | movq d x | addq d x | mfs d x | mts x d => exact congrArg opLength (imm6Word_eq_iff.mp rfl).1
  | alu op d s | alui op d s w => cases op <;> exact congrArg opLength (hf ..)
  | shift op d n => cases n <;> exact congrArg opLength (hf ..)
  | cmp op d a b => cases b <;> cases op <;> exact congrArg opLength (hf ..)
  | ld d m | st m d | inp d m | outp m d => cases m <;> exact congrArg opLength (hf ..)
  | rep n =>
    cases n with
    | imm n => exact congrArg opLength (repWord_eq_iff.mp rfl).1
    | reg s => exact congrArg opLength (hf ..)
  | _ => exact congrArg opLength (hf ..)

end Sys2Proof.Machine
end

section
/-! Settles O58: the encoding of brick instructions. -/

namespace Sys2Proof.Machine

/-- Settles O58: encoder and decoder are inverses by `decodeBrick_eq_some_iff`, whose two directions go through the rows of R107 to R124. -/
theorem brickEncodingRoundTrips : Obligations.BrickEncodingRoundTrips := by
  unfold Obligations.BrickEncodingRoundTrips
  exact ⟨fun i hi => decodeBrick_eq_some_iff.mpr ⟨hi, rfl, fun _ => rfl⟩, fun w w2 i => decodeBrick_eq_some_iff.mp⟩

end Sys2Proof.Machine
end

section
/-! SUPPORT. What FE reads before an instruction issues, which instruction then issues, and what follows it: the next word, a taken transfer, a
trap (R99, R107 to R119, R132, R143 to R145). -/

namespace Sys2Proof.Machine

/-! ### Words at an address -/

section
variable {b : Brick} {a : Nat} {i : BInstr}

theorem Brick.holdsAt.decode (h : b.holdsAt a i) : decodeBrick (b.imem.word a) (b.imem.word (a + 1)) = some i := by
  obtain ⟨hw, -, h1, h2⟩ := h
  exact decodeBrick_of_spells ⟨hw, h1.symm, fun hl => (h2 hl).symm⟩

theorem Brick.holdsAt.opLength (h : b.holdsAt a i) : opLength (opOf (b.imem.word a)) = i.length := by
  rw [h.2.2.1, opLength_encodeBrick]

theorem opLength_pos (op : Nat) : 0 < opLength op := by
  unfold opLength
  split <;> decide

theorem opLength_le (op : Nat) : opLength op ≤ 2 := by
  unfold opLength
  split <;> decide

theorem BInstr.length_pos (i : BInstr) : 0 < i.length := opLength_encodeBrick i ▸ opLength_pos _

theorem Brick.holdsAt.lt (h : b.holdsAt a i) : a < 0x2000 := by
  have := h.2.1
  have := i.length_pos
  omega

end

/-! ### FE (R143 to R145) -/

section
variable (b : Brick)

theorem Brick.feRead_eq (n : Nat) : b.feRead n = { b with pre := (b.feRead n).pre } := by
  induction n generalizing b with
  | zero => rfl
  | succ n ih => exact (ih _).trans rfl

theorem Brick.length_feRead (n : Nat) : (b.feRead n).pre.length = b.pre.length + n := by
  induction n generalizing b with
  | zero => rfl
  | succ n ih =>
    rw [Brick.feRead, ih]
    simp only [List.length_append, List.length_singleton]
    omega

theorem nth_append_left {α : Type} {l m : List α} {k : Nat} {d : α} (h : k < l.length) : nth (l ++ m) k d = nth l k d := by
  rw [nth, nth, List.getElem?_append_left h]

theorem nth_append_singleton {α : Type} (l : List α) (x d : α) : nth (l ++ [x]) l.length d = x := by simp [nth]

variable {b}

theorem Brick.coherent.feRead (h : b.coherent) (n : Nat) : (b.feRead n).coherent := by
  induction n generalizing b with
  | zero => exact h
  | succ n ih =>
    refine ih fun k hk => ?_
    rw [List.length_append, List.length_singleton] at hk
    obtain hk | rfl := Nat.lt_succ_iff_lt_or_eq.mp hk
    · exact (nth_append_left hk).trans (h k hk)
    · exact nth_append_singleton _ _ _

theorem Brick.coherent.feed (h : b.coherent) (k : Nat) : (b.feed k).coherent := h.feRead _

theorem Brick.le_length_feed (b : Brick) (k : Nat) : k ≤ (b.feed k).pre.length := by
  rw [Brick.feed, Brick.length_feRead]
  omega

theorem Brick.feed_eq (b : Brick) (k : Nat) : b.feed k = { b with pre := (b.feed k).pre } := b.feRead_eq _

theorem Brick.fetched_eq (b : Brick) (t k : Nat) : b.fetched t k = { b with pre := (b.fetched t k).pre, feAt := (b.fetched t k).feAt } := by
  rw [Brick.fetched, Brick.feed_eq, Brick.feTo, Brick.feRead_eq]

theorem Brick.coherent.fetched (h : b.coherent) (t k : Nat) : (b.fetched t k).coherent := by
  have hf : (b.feTo t).coherent := h.feRead _
  exact hf.feed k

/-- The word that FE has read at place k is the word of instruction memory there. -/
theorem Brick.coherent.nth_eq (h : b.coherent) {k : Nat} (hk : k < b.pre.length) (d : Word) : nth b.pre k d = b.imem.word (b.pc.toNat + k) := by
  rw [← h k hk, nth, nth, List.getElem?_eq_getElem hk]
  rfl

theorem Brick.pastEnd_eq_false (h : b.coherent) (hp : 0 < b.pre.length) (he : b.pc.toNat + opLength (opOf (b.imem.word b.pc.toNat)) ≤ 0x2000) :
    b.pastEnd = false := by
  have hpos := opLength_pos (opOf (b.imem.word b.pc.toNat))
  rw [Brick.pastEnd, h.nth_eq hp, Nat.add_zero, show imemWords = 0x2000 from rfl]
  exact Bool.or_eq_false_iff.mpr ⟨decide_eq_false (by omega), decide_eq_false (by omega)⟩

end

/-! ### The brick about to issue -/

@[simp] theorem State.setBrick_setBrick (s : State) (k : Fin 52) (x y : Brick) : (s.setBrick k x).setBrick k y = s.setBrick k y := by
  simp [State.setBrick]

@[simp] theorem State.setBrick_brick (s : State) (k : Fin 52) : s.setBrick k (s.brick k) = s := by simp [State.setBrick, State.brick]

section
variable {s : State} {bk : Fin 52} {i : BInstr} {ct : Contention}

theorem State.brick_prepared (s : State) (bk : Fin 52) : (s.prepared bk).brick bk = (s.brick bk).fetched (s.brick bk).ready 2 := State.brick_setBrick ..

theorem State.brick_prepared_eq (s : State) (bk : Fin 52) : (s.prepared bk).brick bk =
    { s.brick bk with pre := ((s.prepared bk).brick bk).pre, feAt := ((s.prepared bk).brick bk).feAt } := by
  rw [State.brick_prepared]
  exact Brick.fetched_eq ..

theorem State.brick_prepared_ne (s : State) {bk k : Fin 52} (h : k ≠ bk) : (s.prepared bk).brick k = s.brick k := State.brick_setBrick_ne _ _ h

/-! What FE reads ahead changes nothing else of the brick. -/

theorem State.r_prepared (s : State) (bk : Fin 52) : ((s.prepared bk).brick bk).r = (s.brick bk).r := by rw [State.brick_prepared_eq]; rfl

theorem State.pc_prepared (s : State) (bk : Fin 52) : ((s.prepared bk).brick bk).pc = (s.brick bk).pc := by rw [State.brick_prepared_eq]

theorem State.ready_prepared (s : State) (bk : Fin 52) : ((s.prepared bk).brick bk).ready = (s.brick bk).ready := by rw [State.brick_prepared_eq]

theorem State.inRep_prepared (s : State) (bk : Fin 52) : ((s.prepared bk).brick bk).inRep = (s.brick bk).inRep := by rw [State.brick_prepared_eq]

theorem State.repc_prepared (s : State) (bk : Fin 52) : ((s.prepared bk).brick bk).repc = (s.brick bk).repc := by rw [State.brick_prepared_eq]

theorem State.inTrap_prepared (s : State) (bk : Fin 52) : ((s.prepared bk).brick bk).inTrap = (s.brick bk).inTrap := by rw [State.brick_prepared_eq]

theorem State.tpc_prepared (s : State) (bk : Fin 52) : ((s.prepared bk).brick bk).tpc = (s.brick bk).tpc := by rw [State.brick_prepared_eq]

theorem State.trep_prepared (s : State) (bk : Fin 52) : ((s.prepared bk).brick bk).trep = (s.brick bk).trep := by rw [State.brick_prepared_eq]

theorem State.trepc_prepared (s : State) (bk : Fin 52) : ((s.prepared bk).brick bk).trepc = (s.brick bk).trepc := by rw [State.brick_prepared_eq]

theorem State.rstk_prepared (s : State) (bk : Fin 52) : ((s.prepared bk).brick bk).rstk = (s.brick bk).rstk := by rw [State.brick_prepared_eq]

theorem State.imem_prepared (s : State) (bk : Fin 52) : ((s.prepared bk).brick bk).imem = (s.brick bk).imem := by rw [State.brick_prepared_eq]

theorem State.holdsAt_prepared {a : Nat} (hi : (s.brick bk).holdsAt a i) : ((s.prepared bk).brick bk).holdsAt a i := by
  rw [Brick.holdsAt, s.imem_prepared]
  exact hi

/-- FE has the words at hand, and they are those of instruction memory. -/
theorem State.coherent_prepared (hb : (s.brick bk).coherent) : ((s.prepared bk).brick bk).coherent := by
  rw [State.brick_prepared]
  exact hb.fetched _ 2

theorem State.length_pre_prepared (s : State) (bk : Fin 52) : 2 ≤ ((s.prepared bk).brick bk).pre.length := by
  rw [State.brick_prepared]
  exact Brick.le_length_feed _ 2

/-- What instruction i does at its issue by brick bk, but for where the brick goes next. -/
def State.runs (s : State) (bk : Fin 52) (i : BInstr) (ct : Contention) : Ran :=
  (s.prepared bk).runInstr bk i ((s.brick bk).pc + BitVec.ofNat 16 i.length) (encodeBrick i).1 (s.brick bk).ready ct

theorem State.words_prepared (hb : (s.brick bk).coherent) :
    ((s.prepared bk).brick bk).words = ((s.brick bk).imem.word (s.brick bk).pc.toNat, (s.brick bk).imem.word ((s.brick bk).pc.toNat + 1)) := by
  have hc := State.coherent_prepared hb
  have hl := s.length_pre_prepared bk
  rw [Brick.words, hc.nth_eq (by omega), hc.nth_eq (by omega), State.imem_prepared, State.pc_prepared, Nat.add_zero]

theorem State.pastEnd_prepared (hb : (s.brick bk).coherent)
    (he : (s.brick bk).pc.toNat + opLength (opOf ((s.brick bk).imem.word (s.brick bk).pc.toNat)) ≤ 0x2000) :
    ((s.prepared bk).brick bk).pastEnd = false := by
  have hl := s.length_pre_prepared bk
  refine Brick.pastEnd_eq_false (State.coherent_prepared hb) (by omega) ?_
  rwa [State.imem_prepared, State.pc_prepared]

/-- Where an instruction stands at the PC of a brick that can issue, its command issues it. -/
theorem State.issue_of_holdsAt (hc : s.canIssue bk = true) (hb : (s.brick bk).coherent) (hi : (s.brick bk).holdsAt (s.brick bk).pc.toNat i) :
    s.issue bk i ct = (s.prepared bk).issueAt bk i (s.brick bk).ready ct := by
  have hp := State.pastEnd_prepared hb (hi.opLength.symm ▸ hi.2.1)
  rw [State.issue, if_pos hc]
  simp only [hp, State.words_prepared hb, hi.decode, State.ready_prepared, Bool.false_eq_true, if_false, if_true]

/-- What follows is what the instruction does and where it goes, unless REP may not repeat it (R126). -/
theorem State.issue_eq_settle (hc : s.canIssue bk = true) (hb : (s.brick bk).coherent) (hi : (s.brick bk).holdsAt (s.brick bk).pc.toNat i)
    (hm : (s.brick bk).inRep = true → i.misuse = none) :
    s.issue bk i ct = (s.prepared bk).settle bk i.length (s.brick bk).ready (s.runs bk i ct) := by
  have hn : (if (s.brick bk).inRep then i.misuse else none) = none := by
    split
    · exact hm ‹_›
    · rfl
  rw [State.issue_of_holdsAt hc hb hi, State.issueAt, State.inRep_prepared, hn, State.words_prepared hb, State.pc_prepared, hi.2.2.1]
  rfl

theorem State.issue_of_issues (h : s.issues bk i) : s.issue bk i ct = (s.prepared bk).settle bk i.length (s.brick bk).ready (s.runs bk i ct) := by
  obtain ⟨hc, hin, hb, hi⟩ := h
  exact State.issue_eq_settle hc hb hi fun hr => absurd (hin.symm.trans hr) Bool.false_ne_true

end

/-! ### What follows an instruction -/

section
variable {s : State} {bk : Fin 52} {i : BInstr} {ct : Contention} {c : Instr} {f g : Brick → Brick} {n : Nat}

theorem Becomes.of_setBrick {b : Brick} (hc : exec c s = .next ((s.prepared bk).setBrick bk b))
    (hb : b = { f (s.brick bk) with pre := b.pre, feAt := b.feAt }) : Becomes c s bk f := by
  refine ⟨_, b.pre, b.feAt, hc, rfl, fun k hk => ?_, (State.brick_setBrick _ _ _).trans hb⟩
  rw [State.brick_setBrick_ne _ _ hk, State.brick_prepared_ne _ hk]

/-- A change of a brick that neither looks at what FE has read nor touches the issue time and REP. -/
structure KeepsFlow (g : Brick → Brick) : Prop where
  fe    : ∀ (b : Brick) (pre : List Word) (at_ : Nat), g { b with pre := pre, feAt := at_ } = { g b with pre := pre, feAt := at_ }
  ready : ∀ b, (g b).ready = b.ready
  inRep : ∀ b, (g b).inRep = b.inRep

theorem KeepsFlow.prepared (hg : KeepsFlow g) (s : State) (bk : Fin 52) : g ((s.prepared bk).brick bk) =
    { g (s.brick bk) with pre := ((s.prepared bk).brick bk).pre, feAt := ((s.prepared bk).brick bk).feAt } := by
  conv_lhs => rw [State.brick_prepared_eq]
  exact hg.fe ..

/-- Outside a REP sequence, sequential execution goes on with the next word. -/
theorem State.settle_next {u : State} (h : (u.brick bk).inRep = false) (len t n : Nat) : s.settle bk len t ⟨u, .next, n⟩ =
    u.setBrick bk (({ u.brick bk with ready := t + n * brickCycle }).advance len) := by
  simp only [State.settle, h, Bool.false_eq_true, if_false]

/-- After the effect `g`, the next word. -/
theorem Becomes.of_next (h : s.issues bk i) (hc : exec c s = .next (s.issue bk i ct)) (hg : KeepsFlow g)
    (hr : s.runs bk i ct = ⟨(s.prepared bk).setBrick bk (g ((s.prepared bk).brick bk)), .next, n⟩) :
    Becomes c s bk (fun b => (g b).onward i.length n) := by
  have hin : (g ((s.prepared bk).brick bk)).inRep = false := ((hg.inRep _).trans (s.inRep_prepared bk)).trans h.2.1
  rw [State.issue_of_issues h, hr, State.settle_next (by rwa [State.brick_setBrick]), State.setBrick_setBrick, State.brick_setBrick,
    hg.prepared] at hc
  refine .of_setBrick hc ?_
  simp only [Brick.onward, Brick.advance, hg.ready, Nat.mul_comm 4, brickCycle]

/-- After the effect `g`, a taken transfer to w. -/
theorem Becomes.of_goto {w : Word} (h : s.issues bk i) (hc : exec c s = .next (s.issue bk i ct)) (hg : KeepsFlow g)
    (hr : s.runs bk i ct = ⟨(s.prepared bk).setBrick bk (g ((s.prepared bk).brick bk)), .goto w, 2⟩) :
    Becomes c s bk (fun b => (g b).jumped w) := by
  rw [State.issue_of_issues h, hr] at hc
  simp only [State.settle, State.brick_setBrick, State.setBrick_setBrick, hg.prepared] at hc
  refine .of_setBrick hc ?_
  simp only [Brick.jumped, Brick.goPc, hg.ready, brickCycle, Nat.reduceMul]

theorem State.takeTrap_eq (s : State) {bk : Fin 52} (h : (s.brick bk).inTrap = false) (cause sub : Nat) (tpc tinfo : Word) (ready : Nat) :
    s.takeTrap bk cause sub tpc tinfo ready = s.setBrick bk ((s.brick bk).enterTrap cause sub tpc tinfo ready) := by
  simp [State.takeTrap, h]

/-- Outside a trap, an instruction that traps has no other effect. -/
theorem Traps.of_trap {cause sub : Nat} {info : Word} {st : State} (h : s.issues bk i) (hc : exec c s = .next (s.issue bk i ct))
    (hin : (s.brick bk).inTrap = false) (hr : s.runs bk i ct = ⟨st, .trap cause sub info, n⟩) : Traps c s bk cause sub info := by
  have hin' : ((s.prepared bk).brick bk).inTrap = false := (s.inTrap_prepared bk).trans hin
  rw [State.issue_of_issues h, hr] at hc
  simp only [State.settle, State.takeTrap_eq _ hin'] at hc
  refine .of_setBrick hc ?_
  rw [State.brick_prepared_eq]
  rfl

/-- A transfer to w: taken below 0x2000, and the FETCH trap from there on (R118). -/
theorem Becomes.of_xfer {w : Word} (h : s.issues bk i) (hc : exec c s = .next (s.issue bk i ct)) (hg : KeepsFlow g)
    (hr : s.runs bk i ct = xfer (s.prepared bk) ((s.prepared bk).setBrick bk (g ((s.prepared bk).brick bk))) w) :
    (w.toNat < 0x2000 → Becomes c s bk (fun b => (g b).jumped w)) ∧
      (0x2000 ≤ w.toNat → (s.brick bk).inTrap = false → Traps c s bk 2 3 w) :=
  ⟨fun hw => .of_goto h hc hg (hr.trans (if_neg (Nat.not_le.mpr hw))), fun hw hin => .of_trap h hc hin (hr.trans (if_pos hw))⟩

/-- An instruction that writes v to g[d]. -/
theorem Writes.of_setR {d : BitVec 4} {v : Word} (h : s.issues bk i) (hc : exec c s = .next (s.issue bk i ct))
    (hr : s.runs bk i ct = ⟨(s.prepared bk).setBrick bk (((s.prepared bk).brick bk).setR d v), .next, n⟩) : Writes c s bk d v i.length n :=
  .of_next h hc ⟨fun _ _ _ => rfl, fun _ => rfl, fun _ => rfl⟩ hr

end

end Sys2Proof.Machine
end

section
/-! SUPPORT. What the computing instructions write, group by group, and their results in the words of the rules (R107 to R114). -/

namespace Sys2Proof.Machine

/-! ### Each group writes its result to g[d] -/

section
variable {s : State} {bk : Fin 52} {c : Instr} {d x : BitVec 4}

theorem writes_un {op : UnOp} (h : s.issues bk (.un op d x)) (hc : exec c s = .next (s.issue bk (.un op d x) [])) :
    Writes c s bk d (op.eval ((s.brick bk).r x)) 1 1 :=
  .of_setR h hc (by rw [← s.r_prepared]; rfl)

theorem writes_movi {w : Word} (h : s.issues bk (.movi d w)) (hc : exec c s = .next (s.issue bk (.movi d w) [])) : Writes c s bk d w 2 1 :=
  .of_setR h hc rfl

theorem writes_movq {n : BitVec 6} (h : s.issues bk (.movq d n)) (hc : exec c s = .next (s.issue bk (.movq d n) [])) :
    Writes c s bk d (n.signExtend 16) 1 1 :=
  .of_setR h hc rfl

theorem writes_addq {n : BitVec 6} (h : s.issues bk (.addq d n)) (hc : exec c s = .next (s.issue bk (.addq d n) [])) :
    Writes c s bk d ((s.brick bk).r d + n.signExtend 16) 1 1 :=
  .of_setR h hc (by rw [← s.r_prepared]; rfl)

theorem writes_alu {op : AluOp} (h : s.issues bk (.alu op d x)) (hc : exec c s = .next (s.issue bk (.alu op d x) [])) :
    Writes c s bk d (op.eval ((s.brick bk).r d) ((s.brick bk).r x)) 1 op.cycles :=
  .of_setR h hc (by rw [← s.r_prepared]; rfl)

theorem writes_alui {op : ImmOp} {w : Word} (h : s.issues bk (.alui op d x w)) (hc : exec c s = .next (s.issue bk (.alui op d x w) [])) :
    Writes c s bk d (op.eval ((s.brick bk).r x) w) 2 op.cycles :=
  .of_setR h hc (by rw [← s.r_prepared]; rfl)

theorem Brick.shiftCount_eq (b : Brick) (n : ShiftCount) : b.shiftCount n = countOf b.r n := by
  cases n with
  | imm n => rfl
  | reg x => exact (BitVec.extractLsb'_toNat ..).trans (by rw [Nat.shiftRight_zero]; rfl)

theorem writes_shift {op : ShiftOp} {n : ShiftCount} (h : s.issues bk (.shift op d n)) (hc : exec c s = .next (s.issue bk (.shift op d n) [])) :
    Writes c s bk d (op.eval ((s.brick bk).r d) (countOf (s.brick bk).r n)) 1 1 := by
  refine .of_setR h hc ?_
  rw [← s.r_prepared, ← Brick.shiftCount_eq]
  rfl

theorem writes_bitop {op : BitOp} (h : s.issues bk (.bitop op d x)) (hc : exec c s = .next (s.issue bk (.bitop op d x) [])) :
    Writes c s bk d (op.eval ((s.brick bk).r d) x.toNat) 1 1 :=
  .of_setR h hc (by rw [← s.r_prepared]; rfl)

theorem writes_ext {sg : Bool} {p wm1 : BitVec 4} (h : s.issues bk (.ext sg d x p wm1)) (hc : exec c s = .next (s.issue bk (.ext sg d x p wm1) [])) :
    Writes c s bk d (extEval sg ((s.brick bk).r x) p.toNat (wm1.toNat + 1)) 2 1 :=
  .of_setR h hc (by rw [← s.r_prepared]; rfl)

theorem writes_ins {p wm1 : BitVec 4} (h : s.issues bk (.ins d x p wm1)) (hc : exec c s = .next (s.issue bk (.ins d x p wm1) [])) :
    Writes c s bk d (insEval ((s.brick bk).r d) ((s.brick bk).r x) p.toNat (wm1.toNat + 1)) 2 1 :=
  .of_setR h hc (by rw [← s.r_prepared]; rfl)

theorem writes_crc {op : CrcOp} {w : Word} (h : s.issues bk (.crc op d x w)) (hc : exec c s = .next (s.issue bk (.crc op d x w) [])) :
    Writes c s bk d (op.eval ((s.brick bk).r d) ((s.brick bk).r x) w) 2 1 :=
  .of_setR h hc (by rw [← s.r_prepared]; rfl)

theorem Brick.cmpSrc_eq (b : Brick) (y : CmpSrc) : b.cmpSrc y = sourceOf b.r y := by cases y <;> rfl

theorem writes_cmp {op : CmpOp} {a : BitVec 4} {y : CmpSrc} (h : s.issues bk (.cmp op d a y)) (hc : exec c s = .next (s.issue bk (.cmp op d a y) [])) :
    Writes c s bk d (flagWord (op.holds ((s.brick bk).r a) (sourceOf (s.brick bk).r y))) 2 1 := by
  refine .of_setR h hc ?_
  rw [← s.r_prepared, ← Brick.cmpSrc_eq]
  rfl

theorem writes_carry {op : CarryOp} {a b : BitVec 4} (h : s.issues bk (.carry op d a b)) (hc : exec c s = .next (s.issue bk (.carry op d a b) [])) :
    Writes c s bk d (flagWord (op.holds ((s.brick bk).r a) ((s.brick bk).r b))) 2 1 :=
  .of_setR h hc (by rw [← s.r_prepared]; rfl)

end

/-! ### Results in the words of the rules -/

section
variable (a b x : Word)

theorem ofNat_of_toNat {n : Nat} (h : x.toNat = n % 2 ^ 16) : x = BitVec.ofNat 16 n := BitVec.eq_of_toNat_eq (h.trans (BitVec.toNat_ofNat n 16).symm)

/-- SWAPB exchanges the two bytes (R107). -/
theorem UnOp.eval_swapb : UnOp.swapb.eval x = BitVec.ofNat 16 (x.toNat % 256 * 256 + x.toNat / 256) := by
  refine ofNat_of_toNat _ ?_
  have hx := x.isLt
  have hhi : (x.extractLsb' 8 8).toNat = x.toNat / 256 := by
    rw [BitVec.extractLsb'_toNat, Nat.shiftRight_eq_div_pow]
    omega
  have hlo : (x.extractLsb' 0 8).toNat = x.toNat % 256 := by rw [BitVec.extractLsb'_toNat, Nat.shiftRight_zero]
  rw [UnOp.eval, BitVec.toNat_append, hlo, hhi, ← Nat.shiftLeft_add_eq_or_of_lt (by omega), Nat.shiftLeft_eq]
  omega

theorem AluOp.eval_mul : AluOp.mul.eval a b = BitVec.ofNat 16 (a.toNat * b.toNat) := ofNat_of_toNat _ (BitVec.toNat_mul a b)

theorem ShiftOp.eval_shl (n : Nat) : ShiftOp.shl.eval a n = BitVec.ofNat 16 (a.toNat * 2 ^ n) := by
  refine ofNat_of_toNat _ ?_
  rw [ShiftOp.eval, BitVec.toNat_shiftLeft, Nat.shiftLeft_eq]

theorem ShiftOp.eval_shr (n : Nat) : ShiftOp.shr.eval a n = BitVec.ofNat 16 (a.toNat / 2 ^ n) := by
  refine ofNat_of_toNat _ ?_
  rw [ShiftOp.eval, BitVec.toNat_ushiftRight, Nat.shiftRight_eq_div_pow, Nat.mod_eq_of_lt ((Nat.div_le_self _ _).trans_lt a.isLt)]

theorem ShiftOp.eval_sar (n : Nat) : ShiftOp.sar.eval a n = BitVec.ofInt 16 (a.toInt / 2 ^ n) := by
  rw [ShiftOp.eval, ← BitVec.ofInt_toInt (x := a.sshiftRight n), BitVec.toInt_sshiftRight, Int.shiftRight_eq_div_pow]
  rfl

theorem ShiftOp.eval_rol {n : Nat} (h : n < 16) : ShiftOp.rol.eval a n = BitVec.ofNat 16 (a.toNat * 2 ^ n + a.toNat / 2 ^ (16 - n)) := by
  have hd : a <<< n &&& a >>> (16 - n) = 0#16 := by
    ext k hk
    simp only [BitVec.getElem_and, BitVec.getElem_shiftLeft, BitVec.getElem_ushiftRight, BitVec.getElem_zero]
    by_cases hkn : k < n
    · simp [hkn]
    · rw [BitVec.getLsbD_of_ge a (16 - n + k) (by omega), Bool.and_false]
  rw [ShiftOp.eval, BitVec.rotateLeft_def, Nat.mod_eq_of_lt h, ← BitVec.add_eq_or_of_and_eq_zero _ _ hd, BitVec.ofNat_add,
    ← ShiftOp.eval_shl, ← ShiftOp.eval_shr]
  rfl

theorem twoPow_eq_ofNat (n : Nat) : BitVec.twoPow 16 n = BitVec.ofNat 16 (2 ^ n) := ofNat_of_toNat _ (BitVec.toNat_twoPow 16 n)

/-! #### Bit fields (R111) -/

theorem toNat_onesMask {w : Nat} (h : w ≤ 16) : (onesMask w).toNat = 2 ^ w - 1 := by
  rw [onesMask, BitVec.toNat_ushiftRight, BitVec.toNat_allOnes, Nat.shiftRight_eq_div_pow]
  interval_cases w <;> rfl

theorem toNat_field (p : Nat) {w : Nat} (h : w ≤ 16) : ((a >>> p) &&& onesMask w).toNat = a.toNat / 2 ^ p % 2 ^ w := by
  rw [BitVec.toNat_and, toNat_onesMask h, BitVec.toNat_ushiftRight, Nat.and_two_pow_sub_one_eq_mod, Nat.shiftRight_eq_div_pow]

theorem extEval_unsigned (p : Nat) {w : Nat} (h : w ≤ 16) : extEval false a p w = BitVec.ofNat 16 (a.toNat / 2 ^ p % 2 ^ w) := by
  refine ofNat_of_toNat _ ((toNat_field a p h).trans (Nat.mod_eq_of_lt ?_).symm)
  exact (Nat.mod_le _ _).trans_lt ((Nat.div_le_self _ _).trans_lt a.isLt)

theorem onesMask_shiftLeft (p : Nat) {w : Nat} (h : w ≤ 16) : onesMask w <<< p = fieldMask p w := by
  refine ofNat_of_toNat _ ?_
  rw [BitVec.toNat_shiftLeft, toNat_onesMask h, Nat.shiftLeft_eq]

theorem insEval_eq (p : Nat) {w : Nat} (h : w ≤ 16) : insEval a b p w = (a &&& ~~~ fieldMask p w) ||| ((b <<< p) &&& fieldMask p w) := by
  rw [insEval, onesMask_shiftLeft p h]

theorem getLsbD_of_lt {f : Word} {k : Nat} (h : f.toNat < 2 ^ (k + 1)) : f.getLsbD k = decide (2 ^ k ≤ f.toNat) := by
  have hk : 0 < 2 ^ k := Nat.two_pow_pos k
  rw [BitVec.getLsbD, Nat.testBit_eq_decide_div_mod_eq, decide_eq_decide]
  rw [pow_succ] at h
  have hd : f.toNat / 2 ^ k < 2 := Nat.div_lt_of_lt_mul h
  rw [Nat.mod_eq_of_lt hd, ← Nat.div_pos_iff.trans (and_iff_right hk)]
  omega

/-- A field with ones above it is the field less 2^w. -/
theorem or_not_onesMask (p : Nat) {w : Nat} (h : w ≤ 16) :
    ((a >>> p) &&& onesMask w) ||| ~~~ onesMask w = BitVec.ofInt 16 ((a.toNat / 2 ^ p % 2 ^ w : Nat) - 2 ^ w : Int) := by
  have hd : ((a >>> p) &&& onesMask w) &&& ~~~ onesMask w = 0#16 := by
    rw [BitVec.and_assoc, BitVec.and_not_self]
    exact BitVec.and_zero
  have hw : 2 ^ w ≤ 2 ^ 16 := Nat.pow_le_pow_right (by decide) h
  have hp : 0 < 2 ^ w := Nat.two_pow_pos w
  have hf : a.toNat / 2 ^ p % 2 ^ w < 2 ^ w := Nat.mod_lt _ hp
  refine BitVec.eq_of_toNat_eq ?_
  rw [← BitVec.add_eq_or_of_and_eq_zero _ _ hd, BitVec.toNat_add, BitVec.toNat_not, toNat_onesMask h, toNat_field a p h, BitVec.toNat_ofInt,
    show (2 : Int) ^ w = (2 ^ w : Nat) by push_cast; rfl]
  generalize 2 ^ w = u at *
  generalize a.toNat / 2 ^ p % u = f at *
  omega

theorem extEval_signed (p : Nat) {k : Nat} (h : k + 1 ≤ 16) : extEval true a p (k + 1) =
    if a.toNat / 2 ^ p % 2 ^ (k + 1) < 2 ^ k then BitVec.ofNat 16 (a.toNat / 2 ^ p % 2 ^ (k + 1))
    else BitVec.ofInt 16 ((a.toNat / 2 ^ p % 2 ^ (k + 1) : Nat) - 2 ^ (k + 1) : Int) := by
  have hf := toNat_field a p h
  have hlt : ((a >>> p) &&& onesMask (k + 1)).toNat < 2 ^ (k + 1) := hf ▸ Nat.mod_lt _ (Nat.two_pow_pos _)
  have hu := extEval_unsigned a p h
  simp only [extEval, Bool.true_and, Bool.false_and, Bool.false_eq_true, if_false, Nat.add_sub_cancel, getLsbD_of_lt hlt, hf, decide_eq_true_eq] at hu ⊢
  rw [or_not_onesMask a p h, hu]
  simp only [← Nat.not_lt, ite_not]

/-! #### CRC steps (R112) -/

theorem and_one_eq_one_iff : x &&& 1 = 1 ↔ x.getLsbD 0 = true := by
  rw [show (1 : Word) = 1#16 from rfl, BitVec.and_one_eq_setWidth_ofBool_getLsbD]
  cases x.getLsbD 0 <;> decide

theorem crcStepL_eq (poly data crc : Word) (i : Nat) : crcStepL poly data crc i =
    if (crc ^^^ (data >>> i)) &&& 1 = 1 then (crc >>> 1) ^^^ poly else crc >>> 1 := by
  have h : (crc.getLsbD 0 != data.getLsbD i) = true ↔ (crc ^^^ (data >>> i)) &&& 1 = 1 := by
    rw [and_one_eq_one_iff]
    simp
  simp only [crcStepL, h]

theorem crcStepM_eq (poly data crc : Word) (i : Nat) : crcStepM poly data crc i =
    if ((crc >>> 15) ^^^ (data >>> i)) &&& 1 = 1 then (crc <<< 1) ^^^ poly else crc <<< 1 := by
  have h : (crc.getLsbD 15 != data.getLsbD i) = true ↔ ((crc >>> 15) ^^^ (data >>> i)) &&& 1 = 1 := by
    rw [and_one_eq_one_iff]
    simp
  simp only [crcStepM, h]

theorem foldl_crcStepL (poly data : Word) (l : List Nat) (crc : Word) : l.foldl (crcStepL poly data) crc = crcLow poly data l crc := by
  induction l generalizing crc with
  | nil => rfl
  | cons i l ih => rw [List.foldl_cons, ih, crcStepL_eq, crcLow]

theorem foldl_crcStepM (poly data : Word) (l : List Nat) (crc : Word) : l.foldl (crcStepM poly data) crc = crcHigh poly data l crc := by
  induction l generalizing crc with
  | nil => rfl
  | cons i l ih => rw [List.foldl_cons, ih, crcStepM_eq, crcHigh]

theorem flagWord_decide (p : Prop) [Decidable p] : flagWord (decide p) = if p then 1 else 0 := by simp [flagWord]

end

end Sys2Proof.Machine
end

section
/-! Settles O4 to O7: the computing instructions. -/

namespace Sys2Proof.Machine

/-- Settles O4: each row of R107 is a write of its group (`writes_un` and the rules beside it). -/
theorem movesComplete : Obligations.MovesComplete := by
  unfold Obligations.MovesComplete
  refine ⟨?mov, ?not, ?neg, ?swapb, ?movi, ?movq, ?addq⟩
  case mov => exact fun s bk d x h => writes_un h rfl
  case not => exact fun s bk d x h => writes_un h rfl
  case neg => exact fun s bk d x h => writes_un h rfl
  case swapb => exact fun s bk d x h => UnOp.eval_swapb _ ▸ writes_un h rfl
  case movi => exact fun s bk d w h => writes_movi h rfl
  case movq => exact fun s bk d i h => writes_movq h rfl
  case addq => exact fun s bk d i h => writes_addq h rfl

/-- Settles O5: each row of R108 and R109 is a write of its group (`writes_alu`, `writes_alui`). -/
theorem arithmeticCompletes : Obligations.ArithmeticCompletes := by
  unfold Obligations.ArithmeticCompletes
  refine ⟨?add, ?sub, ?and, ?or, ?xor, ?andn, ?minu, ?maxu, ?mul, ?mulhu, ?mulhs, ?addi, ?subi, ?andi, ?ori, ?xori, ?muli⟩
  case add | sub | and | or | xor | andn | minu | maxu | mulhu | mulhs => exact fun s bk d x h => writes_alu h rfl
  case mul => exact fun s bk d x h => AluOp.eval_mul _ _ ▸ writes_alu h rfl
  case addi | subi | andi | ori | xori => exact fun s bk d x w h => writes_alui h rfl
  case muli => exact fun s bk d x w h => AluOp.eval_mul _ _ ▸ writes_alui h rfl

theorem countOf_lt (r : BitVec 4 → Word) (n : ShiftCount) : countOf r n < 16 := by
  cases n with
  | imm n => exact n.isLt
  | reg x => exact Nat.mod_lt _ (by decide)

/-- Settles O6: each row of R110 to R112 is a write of its group, with its result in the words of the rule (`ShiftOp.eval_shl` and the lemmas
beside it). -/
theorem shiftsFieldsAndCrcComplete : Obligations.ShiftsFieldsAndCrcComplete := by
  unfold Obligations.ShiftsFieldsAndCrcComplete
  refine ⟨?shl, ?shr, ?sar, ?rol, ?bset, ?bclr, ?binv, ?extu, ?exts, ?ins, ?l8, ?l16, ?m8, ?m16⟩
  case shl => exact fun s bk d n h => ShiftOp.eval_shl _ _ ▸ writes_shift h rfl
  case shr => exact fun s bk d n h => ShiftOp.eval_shr _ _ ▸ writes_shift h rfl
  case sar => exact fun s bk d n h => ShiftOp.eval_sar _ _ ▸ writes_shift h rfl
  case rol => exact fun s bk d n h => ShiftOp.eval_rol _ (countOf_lt _ n) ▸ writes_shift h rfl
  case bset | bclr | binv => exact fun s bk d n h => twoPow_eq_ofNat _ ▸ writes_bitop h rfl
  case extu => exact fun s bk d x p wm1 h => extEval_unsigned _ _ wm1.isLt ▸ writes_ext h rfl
  case exts => exact fun s bk d x p wm1 h => extEval_signed _ _ wm1.isLt ▸ writes_ext h rfl
  case ins => exact fun s bk d x p wm1 h => insEval_eq _ _ _ wm1.isLt ▸ writes_ins h rfl
  case l8 | l16 => exact fun s bk d x poly h => foldl_crcStepL _ _ _ _ ▸ writes_crc h rfl
  case m8 | m16 => exact fun s bk d x poly h => foldl_crcStepM _ _ _ _ ▸ writes_crc h rfl

/-- Settles O7: each row of R113 and R114 writes the flag of its condition (`writes_cmp`, `writes_carry`). -/
theorem comparesComplete : Obligations.ComparesComplete := by
  unfold Obligations.ComparesComplete
  refine ⟨?ceq, ?cne, ?cltu, ?clts, ?cleu, ?cles, ?cgtu, ?cgts, ?carry, ?borrow, ?ovfa, ?ovfs⟩
  case ceq | cne | cltu | clts | cleu | cles | cgtu | cgts =>
    exact fun s bk d a b h => by simpa only [CmpOp.holds, flagWord_decide] using writes_cmp h rfl
  case carry | borrow | ovfa | ovfs => exact fun s bk d a b h => by simpa only [CarryOp.holds, flagWord_decide] using writes_carry h rfl

end Sys2Proof.Machine
end

section
/-! SUPPORT. Taken and untaken transfers, and the return stack (R118, R119). -/

namespace Sys2Proof.Machine

section
variable {s : State} {bk : Fin 52} {c : Instr} {i : BInstr} {ct : Contention} {f g : Brick → Brick} {w : Word}

theorem Becomes.congr (h : Becomes c s bk f) (hf : f (s.brick bk) = g (s.brick bk)) : Becomes c s bk g := by
  obtain ⟨t, pre, fe, he, ht, hk, hb⟩ := h
  exact ⟨t, pre, fe, he, ht, hk, hf ▸ hb⟩

theorem keepsFlow_id : KeepsFlow id := ⟨fun _ _ _ => rfl, fun _ => rfl, fun _ => rfl⟩

/-- An instruction without any effect of its own. -/
theorem Becomes.of_nop {n : Nat} (h : s.issues bk i) (hc : exec c s = .next (s.issue bk i ct)) (hr : s.runs bk i ct = ⟨s.prepared bk, .next, n⟩) :
    Becomes c s bk (fun b => b.onward i.length n) :=
  .of_next h hc keepsFlow_id (by rw [hr, State.setBrick_brick])

/-- A transfer without any effect of its own. -/
theorem Becomes.of_jump (h : s.issues bk i) (hc : exec c s = .next (s.issue bk i ct)) (hr : s.runs bk i ct = xfer (s.prepared bk) (s.prepared bk) w) :
    (w.toNat < 0x2000 → Becomes c s bk (fun b => b.jumped w)) ∧ (0x2000 ≤ w.toNat → (s.brick bk).inTrap = false → Traps c s bk 2 3 w) :=
  Becomes.of_xfer h hc keepsFlow_id (by rw [hr, State.setBrick_brick])

/-! ### Branches (R118) -/

theorem State.runs_bz (x : BitVec 4) : s.runs bk (.br .bz x w) ct =
    if (s.brick bk).r x = 0 then xfer (s.prepared bk) (s.prepared bk) w else ⟨s.prepared bk, .next, 1⟩ := by
  rw [← s.r_prepared]
  rfl

theorem State.runs_bnz (x : BitVec 4) : s.runs bk (.br .bnz x w) ct =
    if (s.brick bk).r x ≠ 0 then xfer (s.prepared bk) (s.prepared bk) w else ⟨s.prepared bk, .next, 1⟩ := by
  rw [← s.r_prepared]
  rfl

/-- The count of a DBNZ goes down by one. -/
def Brick.countDown (x : BitVec 4) (b : Brick) : Brick := b.setR x (b.r x - 1)

theorem keepsFlow_countDown (x : BitVec 4) : KeepsFlow (Brick.countDown x) := ⟨fun _ _ _ => rfl, fun _ => rfl, fun _ => rfl⟩

theorem State.runs_dbnz (x : BitVec 4) : s.runs bk (.br .dbnz x w) ct =
    if (s.brick bk).r x ≠ 1 then xfer (s.prepared bk) ((s.prepared bk).setBrick bk (((s.prepared bk).brick bk).countDown x)) w
    else ⟨(s.prepared bk).setBrick bk (((s.prepared bk).brick bk).countDown x), .next, 1⟩ := by
  have h1 : ∀ v : Word, v ≠ 1 ↔ v - 1 ≠ 0 := fun v => sub_ne_zero.symm
  simp only [h1]
  rw [← s.r_prepared]
  rfl

theorem bz_completes {x : BitVec 4} (h : s.issues bk (.br .bz x w)) :
    ((s.brick bk).r x = 0 → w.toNat < 0x2000 → Becomes (.bz bk x w) s bk (fun b => b.jumped w)) ∧
      ((s.brick bk).r x = 0 → 0x2000 ≤ w.toNat → (s.brick bk).inTrap = false → Traps (.bz bk x w) s bk 2 3 w) ∧
      ((s.brick bk).r x ≠ 0 → Becomes (.bz bk x w) s bk (fun b => b.onward 2 1)) :=
  have taken (hx : (s.brick bk).r x = 0) := Becomes.of_jump (c := .bz bk x w) h rfl ((State.runs_bz x).trans (if_pos hx))
  ⟨fun hx => (taken hx).1, fun hx => (taken hx).2, fun hx => .of_nop h rfl ((State.runs_bz x).trans (if_neg hx))⟩

theorem bnz_completes {x : BitVec 4} (h : s.issues bk (.br .bnz x w)) :
    ((s.brick bk).r x ≠ 0 → w.toNat < 0x2000 → Becomes (.bnz bk x w) s bk (fun b => b.jumped w)) ∧
      ((s.brick bk).r x ≠ 0 → 0x2000 ≤ w.toNat → (s.brick bk).inTrap = false → Traps (.bnz bk x w) s bk 2 3 w) ∧
      ((s.brick bk).r x = 0 → Becomes (.bnz bk x w) s bk (fun b => b.onward 2 1)) :=
  have taken (hx : (s.brick bk).r x ≠ 0) := Becomes.of_jump (c := .bnz bk x w) h rfl ((State.runs_bnz x).trans (if_pos hx))
  ⟨fun hx => (taken hx).1, fun hx => (taken hx).2, fun hx => .of_nop h rfl ((State.runs_bnz x).trans (if_neg (not_not.mpr hx)))⟩

theorem dbnz_completes {x : BitVec 4} (h : s.issues bk (.br .dbnz x w)) :
    ((s.brick bk).r x ≠ 1 → w.toNat < 0x2000 → Becomes (.dbnz bk x w) s bk (fun b => (b.setR x (b.r x - 1)).jumped w)) ∧
      ((s.brick bk).r x ≠ 1 → 0x2000 ≤ w.toNat → (s.brick bk).inTrap = false → Traps (.dbnz bk x w) s bk 2 3 w) ∧
      ((s.brick bk).r x = 1 → Becomes (.dbnz bk x w) s bk (fun b => (b.setR x 0).onward 2 1)) := by
  have taken (hx : (s.brick bk).r x ≠ 1) := Becomes.of_xfer (c := .dbnz bk x w) h rfl (keepsFlow_countDown x) ((State.runs_dbnz x).trans (if_pos hx))
  refine ⟨fun hx => (taken hx).1, fun hx => (taken hx).2, fun hx => ?_⟩
  have hn := Becomes.of_next (c := .dbnz bk x w) h rfl (keepsFlow_countDown x) ((State.runs_dbnz x).trans (if_neg (not_not.mpr hx)))
  exact hn.congr (by rw [Brick.countDown, hx, BitVec.sub_self]; rfl)

/-! ### The return stack (R119) -/

/-- A return address is pushed. -/
def Brick.pushed (ret : Word) (b : Brick) : Brick := { b with rstk := b.rstk ++ [ret] }

/-- The newest return address is popped. -/
def Brick.popped (b : Brick) : Brick := { b with rstk := b.rstk.dropLast }

theorem keepsFlow_pushed (ret : Word) : KeepsFlow (Brick.pushed ret) := ⟨fun _ _ _ => rfl, fun _ => rfl, fun _ => rfl⟩

theorem keepsFlow_popped : KeepsFlow Brick.popped := ⟨fun _ _ _ => rfl, fun _ => rfl, fun _ => rfl⟩

/-- CALL and CALLR: the push is checked before the target (R133). -/
theorem call_completes {ret : Word} (h : s.issues bk i) (hc : exec c s = .next (s.issue bk i ct)) (hr : s.runs bk i ct = (s.prepared bk).runCall bk w ret) :
    ((s.brick bk).rstk.length < 8 → w.toNat < 0x2000 → Becomes c s bk (fun b => { b.jumped w with rstk := b.rstk ++ [ret] })) ∧
      ((s.brick bk).rstk.length < 8 → 0x2000 ≤ w.toNat → (s.brick bk).inTrap = false → Traps c s bk 2 3 w) ∧
      (8 ≤ (s.brick bk).rstk.length → (s.brick bk).inTrap = false → Traps c s bk 4 0 8) := by
  have room (hl : (s.brick bk).rstk.length < 8) := Becomes.of_xfer h hc (keepsFlow_pushed ret)
    (hr.trans (if_neg (by rw [State.rstk_prepared]; omega)))
  exact ⟨fun hl => (room hl).1, fun hl => (room hl).2, fun hl hin => .of_trap h hc hin (hr.trans (if_pos (by rw [State.rstk_prepared]; exact hl)))⟩

theorem ret_completes (h : s.issues bk .ret) :
    (∀ (l : List Word) (w : Word), (s.brick bk).rstk = l ++ [w] → w.toNat < 0x2000 →
        Becomes (.ret bk) s bk (fun b => { b.jumped w with rstk := l })) ∧
      (∀ (l : List Word) (w : Word), (s.brick bk).rstk = l ++ [w] → 0x2000 ≤ w.toNat → (s.brick bk).inTrap = false → Traps (.ret bk) s bk 2 3 w) ∧
      ((s.brick bk).rstk = [] → (s.brick bk).inTrap = false → Traps (.ret bk) s bk 4 1 0) := by
  have hr : s.runs bk .ret [] = (s.prepared bk).runRet bk := rfl
  have full {l : List Word} {w : Word} (hl : (s.brick bk).rstk = l ++ [w]) := Becomes.of_xfer (c := .ret bk) (w := w) h rfl keepsFlow_popped
    (by rw [hr, State.runRet, State.rstk_prepared, hl, List.getLast?_concat, Brick.popped, State.rstk_prepared, hl])
  refine ⟨fun l w hl hw => ((full hl).1 hw).congr ?_, fun l w hl => (full hl).2, fun hl hin => .of_trap h rfl hin (n := 0) (st := s.prepared bk) ?_⟩
  · rw [Brick.popped, hl, List.dropLast_concat]
    rfl
  · rw [hr, State.runRet, State.rstk_prepared, hl]
    rfl

end

end Sys2Proof.Machine
end

section
/-! Settles O8: control transfers. -/

namespace Sys2Proof.Machine

/-- Settles O8: each transfer by its own rule above, which separates taken, not taken and trapping. -/
theorem transfersComplete : Obligations.TransfersComplete := by
  unfold Obligations.TransfersComplete
  refine ⟨?bz, ?bnz, ?dbnz, ?jmp, ?jr, ?call, ?callr, ?ret⟩
  case bz => exact fun s bk c w => bz_completes
  case bnz => exact fun s bk c w => bnz_completes
  case dbnz => exact fun s bk c w => dbnz_completes
  case jmp => exact fun s bk w h => Becomes.of_jump h rfl rfl
  case jr => exact fun s bk x h => Becomes.of_jump h rfl (by rw [← s.r_prepared]; rfl)
  case call => exact fun s bk w h => call_completes h rfl rfl
  case callr => exact fun s bk x h => call_completes h rfl (by rw [← s.r_prepared]; rfl)
  case ret => exact fun s bk => ret_completes

end Sys2Proof.Machine
end

section
/-! SUPPORT. Special registers, BKPT, WAIT and the event lines that a brick sees as it issues (R120 to R123, R157). -/

namespace Sys2Proof.Machine

/-! ### Special registers (R120, R121) -/

section
variable {s : State} {bk : Fin 52}

theorem State.sreg_prepared (s : State) (bk : Fin 52) (sel t : Nat) : (s.prepared bk).sreg bk sel t = s.sreg bk sel t := by
  rw [State.sreg, State.sreg, State.brick_prepared_eq]
  rfl

theorem Brick.tstat_eq (b : Brick) : b.tstat = (if b.trep then 2 else 0) + (if b.inTrap then 1 else 0) := by
  unfold Brick.tstat
  cases b.trep <;> cases b.inTrap <;> rfl

/-- An MFS that issues now reads the special register as R120 lists it. -/
theorem State.sreg_eq_special (s : State) (bk : Fin 52) (sel : BitVec 6) : s.sreg bk sel.toNat (s.brick bk).ready = s.special bk sel := by
  unfold State.special
  generalize sel.toNat = n
  split
  case h_5 => exact Brick.tstat_eq _
  case h_13 h0 h1 h2 h3 h4 h5 h6 h8 h9 hA hC hD => simp_all [State.sreg]
  all_goals rfl

/-- The effect of MFS: g[d] is written, and a read of CYCLO latches n. -/
def Brick.fromSpecial (d : BitVec 4) (sel : BitVec 6) (v : Word) (n : Nat) (b : Brick) : Brick :=
  { b.setR d v with cycLatch := if sel = 8 then BitVec.ofNat 32 (n / 2 ^ 16) else b.cycLatch }

theorem keepsFlow_fromSpecial (d : BitVec 4) (sel : BitVec 6) (v : Word) (n : Nat) : KeepsFlow (Brick.fromSpecial d sel v n) :=
  ⟨fun _ _ _ => rfl, fun _ => rfl, fun _ => rfl⟩

theorem State.runs_mfs (s : State) (bk : Fin 52) (d : BitVec 4) (sel : BitVec 6) : s.runs bk (.mfs d sel) [] =
    ⟨(s.prepared bk).setBrick bk (((s.prepared bk).brick bk).fromSpecial d sel (s.special bk sel) ((s.course (courseOf bk)).cycleAt (s.brick bk).ready)),
      .next, 1⟩ := by
  have hs : sel.toNat = 0x08 ↔ sel = 8 := BitVec.toNat_inj (y := 8)
  rw [← s.sreg_eq_special, ← s.sreg_prepared]
  show (⟨_, _, _⟩ : Ran) = _
  simp only [State.modBrick_eq, hs, Brick.fromSpecial]
  split <;> rfl

theorem mfs_completes {d : BitVec 4} {sel : BitVec 6} (h : s.issues bk (.mfs d sel)) :
    Becomes (.mfs bk d sel) s bk (fun b => { (b.setR d (s.special bk sel)).onward 1 1 with
      cycLatch := if sel = 8 then BitVec.ofNat 32 ((s.course (courseOf bk)).cycleAt b.ready / 2 ^ 16) else b.cycLatch }) :=
  .of_next h rfl (keepsFlow_fromSpecial ..) (s.runs_mfs bk d sel)

/-- MTS of TPC, TREPC and TSTAT. -/
theorem mts_completes {sel : BitVec 6} {x : BitVec 4} (h : s.issues bk (.mts sel x)) (hsel : sel.toNat ≠ 0x05) :
    Becomes (.mts bk sel x) s bk (fun b => (b.mts sel.toNat (b.r x)).onward 1 1) := by
  have hk : KeepsFlow (fun b => b.mts sel.toNat (b.r x)) := by
    refine ⟨fun b pre fe => ?_, fun b => ?_, fun b => ?_⟩ <;> unfold Brick.mts <;> split_ifs <;> rfl
  exact .of_next h rfl hk (if_neg hsel)

/-- MTS of REPC outside a REP sequence is illegal (R102). -/
theorem mts_repc_traps {x : BitVec 4} (h : s.issues bk (.mts 5 x)) (hin : (s.brick bk).inTrap = false) :
    Traps (.mts bk 5 x) s bk 1 0 ((s.brick bk).imem.word (s.brick bk).pc.toNat) := by
  obtain ⟨-, -, -, -, -, hw, -⟩ := id h
  rw [hw]
  exact .of_trap h rfl hin rfl

/-- A brick that issues outside a REP sequence has not been asked to halt (R167). -/
theorem State.issues.haltReq {i : BInstr} (h : s.issues bk i) : (s.brick bk).haltReq = false := by
  obtain ⟨hc, hin, -, -⟩ := h
  simp_all [State.canIssue]

theorem bkpt_completes (h : s.issues bk .bkpt) : Becomes (.bkpt bk) s bk (fun b => { b.onward 1 1 with haltReq := b.bkptHalt }) := by
  have hc : exec (.bkpt bk) s = .next (s.issue bk .bkpt []) := rfl
  rw [State.issue_of_issues h] at hc
  refine .of_setBrick hc ?_
  rw [State.runs, State.runInstr, State.brick_prepared_eq, h.haltReq, Bool.false_or]
  rfl

end

/-! ### WAIT (R122) -/

section
variable {s : State} {bk : Fin 52} {d x : BitVec 4}

theorem State.eventLines_prepared (s : State) (bk : Fin 52) (t : Nat) : (s.prepared bk).eventLines bk t = s.eventLines bk t := by
  rw [State.eventLines, State.eventLines, State.levelLines, State.levelLines, State.brick_prepared_eq]
  rfl

theorem State.runs_wait (s : State) (bk : Fin 52) (d x : BitVec 4) : s.runs bk (.wait d x) [] =
    if (s.brick bk).r x = 0 ∨ s.eventLines bk (s.brick bk).ready &&& (s.brick bk).r x ≠ 0 then
      ⟨(s.prepared bk).setBrick bk (((s.prepared bk).brick bk).setR d (s.eventLines bk (s.brick bk).ready &&& (s.brick bk).r x)), .next, 1⟩
    else ⟨s.prepared bk, .wait d ((s.brick bk).r x), 1⟩ := by
  rw [← s.r_prepared, ← s.eventLines_prepared]
  rfl

theorem wait_writes (h : s.issues bk (.wait d x)) (hm : (s.brick bk).r x = 0 ∨ s.eventLines bk (s.brick bk).ready &&& (s.brick bk).r x ≠ 0) :
    Writes (.wait bk d x) s bk d (s.eventLines bk (s.brick bk).ready &&& (s.brick bk).r x) 1 1 :=
  .of_setR h rfl ((s.runs_wait bk d x).trans (if_pos hm))

theorem wait_holds (h : s.issues bk (.wait d x)) (hm : (s.brick bk).r x ≠ 0) (hl : s.eventLines bk (s.brick bk).ready &&& (s.brick bk).r x = 0) :
    Becomes (.wait bk d x) s bk (fun b => { b.goTo .waiting b.ready with waitD := d, waitMask := b.r x }) := by
  have hc : exec (.wait bk d x) s = .next (s.issue bk (.wait d x) []) := rfl
  rw [State.issue_of_issues h, s.runs_wait, if_neg (not_or.mpr ⟨hm, not_not.mpr hl⟩)] at hc
  refine .of_setBrick hc ?_
  rw [State.brick_prepared_eq]
  rfl

theorem Brick.r_setR_same (b : Brick) (v : Word) : (b.setR d v).r d = v := Vector.getElem_set_self ..

theorem Brick.r_setR_ne (b : Brick) (v : Word) (h : x ≠ d) : (b.setR d v).r x = b.r x :=
  Vector.getElem_set_ne d.isLt x.isLt fun he => h (BitVec.eq_of_toNat_eq he.symm)

theorem waitEnd_writes (hb : s.atBoundary bk = true) (hw : (s.brick bk).run = .waiting)
    (hl : s.eventLines bk (s.boundary bk) &&& (s.brick bk).waitMask ≠ 0) : exec (.waitEnd bk) s = .next ((s.at_ (s.boundary bk)).setBrick bk
      { ((((s.brick bk).goTo .running (s.boundary bk)).setR (s.brick bk).waitD (s.eventLines bk (s.boundary bk) &&& (s.brick bk).waitMask)).advance 1)
        with ready := s.boundary bk + 4 }) := by
  have hc : (s.atBoundary bk && (decide ((s.brick bk).run = .waiting) &&
      decide (s.eventLines bk (s.boundary bk) &&& (s.brick bk).waitMask ≠ 0))) = true := by simp only [hb, hw, hl, decide_true, Bool.and_self, ne_eq, not_false_eq_true]
  have he : exec (.waitEnd bk) s = execWaitEnd bk s := rfl
  rw [he, execWaitEnd, s.when_of_true _ hc]
  rfl

end

end Sys2Proof.Machine
end

section
/-! Settles O11 and O12: special registers, NOP, BKPT and WAIT. -/

namespace Sys2Proof.Machine

/-- Settles O11: MFS by `State.sreg_eq_special`, MTS by its register, and MTS of REPC by the trap of R102. -/
theorem specialRegistersComplete : Obligations.SpecialRegistersComplete := by
  unfold Obligations.SpecialRegistersComplete
  refine ⟨?mfs, ?tpc, ?trepc, ?tstat, ?repc, ?nop, ?bkpt⟩
  case mfs => exact fun s bk d sel => mfs_completes
  case tpc | trepc | tstat => exact fun s bk x h => mts_completes h (by decide)
  case repc => exact fun s bk x => mts_repc_traps
  case nop => exact fun s bk h => .of_nop h rfl rfl
  case bkpt => exact fun s bk => bkpt_completes

/-- Settles O12: WAIT goes on at once (`wait_writes`) or holds (`wait_holds`), and WAIT_END writes the masked lines. -/
theorem waitCompletes : Obligations.WaitCompletes := by
  unfold Obligations.WaitCompletes
  refine ⟨?empty, ?up, ?down, ?ends⟩
  case empty =>
    intro s bk d x h hm
    have h0 : s.eventLines bk (s.brick bk).ready &&& (s.brick bk).r x = 0 := hm.symm ▸ BitVec.and_zero
    exact h0 ▸ wait_writes h (.inl hm)
  case up => exact fun s bk d x h hl => wait_writes h (.inr hl)
  case down => exact fun s bk d x => wait_holds
  case ends =>
    intro s bk hb hw hl
    refine ⟨_, waitEnd_writes hb hw hl, ?_, fun x hx => ?_, ?_, ?_, ?_, ?_, rfl, fun k hk => ?_⟩
    · rw [State.brick_setBrick]
      exact Brick.r_setR_same _ _
    · rw [State.brick_setBrick]
      exact Brick.r_setR_ne _ _ hx
    · rw [State.brick_setBrick]; rfl
    · rw [State.brick_setBrick]; rfl
    · rw [State.brick_setBrick]
    · rw [State.brick_setBrick]; rfl
    · exact State.brick_setBrick_ne _ _ hk

end Sys2Proof.Machine
end

section
/-! SUPPORT. The illegal opcode trap, the return from a trap, and the double fault (R102, R130 to R136). -/

namespace Sys2Proof.Machine

section
variable {s : State} {bk : Fin 52} {i : BInstr} {w w2 : Word}

/-! ### Words that may be repeated (R102, R126) -/

theorem BInstr.ne_rett_of_misuse (h : i.misuse = none) : i ≠ .rett := by
  rintro rfl
  exact absurd h (by decide)

/-- In a REP sequence only words without an instruction are illegal, and RETT outside a trap (R102). -/
theorem Brick.illegalWord_of_decode (b : Brick) (hd : decodeBrick w w2 = some i) (hr : i ≠ .rett) : b.illegalWord true w w2 = false := by
  rw [Brick.illegalWord, hd]
  cases i with
  | rett => exact absurd rfl hr
  | _ => exact Bool.and_false _

theorem Brick.illegalWord_of_none (b : Brick) (rep : Bool) (hd : decodeBrick w w2 = none) : b.illegalWord rep w w2 = true := by
  rw [Brick.illegalWord, hd]

/-! ### An illegal word at the PC (R102, R130) -/

theorem exec_illegalOpcode (hc : s.canIssue bk = true) (hb : (s.brick bk).coherent) (he : (s.brick bk).pc.toNat + 2 ≤ 0x2000)
    (hd : decodeBrick ((s.brick bk).imem.word (s.brick bk).pc.toNat) ((s.brick bk).imem.word ((s.brick bk).pc.toNat + 1)) = none) :
    exec (.illegalOpcode bk) s = .next (((s.prepared bk).setBrick bk { (s.prepared bk).brick bk with inRep := false }).takeTrap bk 1 0
      (s.brick bk).pc ((s.brick bk).imem.word (s.brick bk).pc.toNat) ((s.brick bk).ready + 12)) := by
  have hp := State.pastEnd_prepared hb (le_trans (Nat.add_le_add_left (opLength_le _) _) he)
  have hw := State.words_prepared hb
  have hx : exec (.illegalOpcode bk) s = execIllegalOpcode bk s := rfl
  rw [hx, execIllegalOpcode, if_pos hc]
  simp only [hp, hw, Brick.illegalWord_of_none _ _ hd, Bool.false_eq_true, if_false, if_true, State.illegalAt, State.pc_prepared, State.ready_prepared, brickCycle]

/-- Outside a trap the brick enters the one of cause 1. -/
theorem illegalOpcode_traps (hc : s.canIssue bk = true) (hb : (s.brick bk).coherent) (hin : (s.brick bk).inTrap = false)
    (he : (s.brick bk).pc.toNat + 2 ≤ 0x2000)
    (hd : decodeBrick ((s.brick bk).imem.word (s.brick bk).pc.toNat) ((s.brick bk).imem.word ((s.brick bk).pc.toNat + 1)) = none) :
    Becomes (.illegalOpcode bk) s bk (fun b => Brick.trapped { b with inRep := false } 1 0 b.pc (b.imem.word b.pc.toNat) (b.ready + 12)) := by
  have hx := exec_illegalOpcode hc hb he hd
  rw [State.takeTrap_eq, State.setBrick_setBrick, State.brick_setBrick] at hx
  · refine .of_setBrick hx ?_
    rw [State.brick_prepared_eq]
    rfl
  · rw [State.brick_setBrick]
    exact (s.inTrap_prepared bk).trans hin

/-- Inside a trap the brick stops, and keeps what it held (R136). -/
theorem State.takeTrap_inTrap (s : State) {bk : Fin 52} (h : (s.brick bk).inTrap = true) (cause sub : Nat) (tpc tinfo : Word) (ready : Nat) :
    Logs (s.setBrick bk { ((s.brick bk).goTo .stopped s.now) with stopCause := 1, inRep := false }) (s.takeTrap bk cause sub tpc tinfo ready) := by
  rw [State.takeTrap]
  simp only [h, if_true]
  exact Logs.event ..

theorem illegalOpcode_stops (hc : s.canIssue bk = true) (hb : (s.brick bk).coherent) (hin : (s.brick bk).inTrap = true)
    (he : (s.brick bk).pc.toNat + 2 ≤ 0x2000)
    (hd : decodeBrick ((s.brick bk).imem.word (s.brick bk).pc.toNat) ((s.brick bk).imem.word ((s.brick bk).pc.toNat + 1)) = none) :
    ∃ t pre fe, exec (.illegalOpcode bk) s = .next t ∧ (∀ k, k ≠ bk → t.brick k = s.brick k) ∧ t.brick bk =
      { (s.brick bk).goTo .stopped (max s.now (s.brick bk).ready) with stopCause := 1, inRep := false, pre := pre, feAt := fe } := by
  have hl := State.takeTrap_inTrap ((s.prepared bk).setBrick bk { (s.prepared bk).brick bk with inRep := false }) (bk := bk)
    (by rw [State.brick_setBrick]; exact (s.inTrap_prepared bk).trans hin) 1 0 (s.brick bk).pc
    ((s.brick bk).imem.word (s.brick bk).pc.toNat) ((s.brick bk).ready + 12)
  refine ⟨_, ((s.prepared bk).brick bk).pre, ((s.prepared bk).brick bk).feAt, exec_illegalOpcode hc hb he hd, fun k hk => ?_, ?_⟩
  · rw [hl.brick, State.brick_setBrick_ne _ _ hk, State.brick_setBrick_ne _ _ hk, State.brick_prepared_ne _ hk]
  · rw [hl.brick, State.brick_setBrick, State.brick_setBrick]
    conv_lhs => rw [State.brick_prepared_eq]
    rfl

/-! ### RETT (R135) -/

theorem rett_traps (h : s.issues bk .rett) (hin : (s.brick bk).inTrap = false) : Traps (.rett bk) s bk 1 0 3 :=
  .of_trap h rfl hin (if_pos ((s.inTrap_prepared bk).trans hin))

theorem rett_returns (h : s.issues bk .rett) (hin : (s.brick bk).inTrap = true) (ht : (s.brick bk).tpc.toNat < 0x2000) :
    exec (.rett bk) s = .next ((s.prepared bk).setBrick bk (((s.prepared bk).brick bk).returnTrap (s.brick bk).ready)) := by
  have hr : s.runs bk .rett [] = ⟨s.prepared bk, .rett, 2⟩ := by
    refine (if_neg ?_).trans (if_neg ?_)
    · rw [State.inTrap_prepared, hin]
      decide
    · rw [State.tpc_prepared]
      exact Nat.not_le.mpr ht
  have hc : exec (.rett bk) s = .next (s.issue bk .rett []) := rfl
  rw [hc, State.issue_of_issues h, hr]
  rfl

theorem Brick.returnTrap_plain {b : Brick} (ht : b.trep = false) (t : Nat) :
    b.returnTrap t = { b.goPc b.tpc (t + 8) with inTrap := false, trep := false } := by
  simp only [Brick.returnTrap, ht, Bool.false_eq_true, if_false, brickCycle, Nat.reduceMul]

theorem Brick.returnTrap_resumes {b : Brick} (ht : b.trep = true) (hn : b.trepc ≠ 0) (t : Nat) :
    b.returnTrap t = { b.goPc b.tpc (t + 8) with inTrap := false, trep := false, repc := b.trepc, inRep := true } := by
  simp only [Brick.returnTrap, ht, hn, false_and, if_true, if_false, brickCycle, Nat.reduceMul]

theorem Brick.returnTrap_skips {b : Brick} (ht : b.trep = true) (hn : b.trepc = 0) (hi : b.holdsAt b.tpc.toNat i) (hm : i.misuse = none) (t : Nat) :
    b.returnTrap t = { b.goPc b.tpc (t + 8) with inTrap := false, trep := false, repc := 0, pc := b.tpc + BitVec.ofNat 16 i.length } := by
  simp only [Brick.returnTrap, ht, hn, hi.decode, hi.opLength, hm, Option.bind_some, Option.isSome_none, Bool.or_false,
    Brick.illegalWord_of_decode _ hi.decode (BInstr.ne_rett_of_misuse hm), true_and, if_true, brickCycle, Nat.reduceMul]

end

end Sys2Proof.Machine
end

section
/-! Settles O14: traps and their return. -/

namespace Sys2Proof.Machine

/-- Settles O14: the trap of cause 1 by `illegalOpcode_traps`, RETT by the three forms of `Brick.returnTrap`, and the double fault by
`illegalOpcode_stops`. -/
theorem trapsAreTakenAndReturned : Obligations.TrapsAreTakenAndReturned := by
  unfold Obligations.TrapsAreTakenAndReturned
  refine ⟨?illegal, ?outside, ?plain, ?resumes, ?skips, ?double⟩
  case illegal => exact fun s bk => illegalOpcode_traps
  case outside => exact fun s bk => rett_traps
  case plain =>
    intro s bk h hin htpc ht
    have hb := Brick.returnTrap_plain (b := (s.prepared bk).brick bk) ((s.trep_prepared bk).trans ht) (s.brick bk).ready
    refine .of_setBrick (hb ▸ rett_returns h hin htpc) ?_
    rw [State.brick_prepared_eq]
    simp only [Brick.goPc, Brick.jumped, ht]
  case resumes =>
    intro s bk h hin htpc ht hn
    have hb := Brick.returnTrap_resumes (b := (s.prepared bk).brick bk) ((s.trep_prepared bk).trans ht)
      (by rwa [State.trepc_prepared]) (s.brick bk).ready
    refine .of_setBrick (hb ▸ rett_returns h hin htpc) ?_
    rw [State.brick_prepared_eq]
    rfl
  case skips =>
    intro s bk i h hin ht hn hi hm
    have hb := Brick.returnTrap_skips (b := (s.prepared bk).brick bk) ((s.trep_prepared bk).trans ht)
      ((s.trepc_prepared bk).trans hn) (by rw [State.tpc_prepared]; exact State.holdsAt_prepared hi) hm (s.brick bk).ready
    refine .of_setBrick (hb ▸ rett_returns h hin hi.lt) ?_
    rw [State.brick_prepared_eq]
    rfl
  case double =>
    intro s bk hc hb hin he hd
    obtain ⟨t, pre, fe, hx, hk, hbk⟩ := illegalOpcode_stops hc hb hin he hd
    refine ⟨t, hx, ?_⟩
    rw [hbk]
    exact ⟨rfl, rfl, rfl, rfl, rfl, rfl, rfl, rfl, rfl, hin, hk⟩

end Sys2Proof.Machine
end

section
/-! SUPPORT. The REP word and the word behind it, and the executions that REPC counts (R124 to R128). -/

namespace Sys2Proof.Machine

/-! ### The word behind the REP word -/

/-- The brick past a REP word, with the words of the repeated instruction at hand. -/
def Brick.pastPrefix (b : Brick) : Brick := { (b.feed 3) with pc := b.pc + 1, pre := (b.feed 3).pre.drop 1 }

section
variable {b : Brick}

theorem Brick.pastPrefix_eq (b : Brick) : b.pastPrefix = { b with pc := b.pc + 1, pre := b.pastPrefix.pre } := by
  rw [Brick.pastPrefix, Brick.feed_eq]

theorem Brick.length_pastPrefix (b : Brick) : 2 ≤ b.pastPrefix.pre.length := by
  have := b.le_length_feed 3
  rw [Brick.pastPrefix, List.length_drop]
  omega

theorem nth_drop {α : Type} (l : List α) (n k : Nat) (d : α) : nth (l.drop n) k d = nth l (n + k) d := by rw [nth, nth, List.getElem?_drop]

theorem toNat_pc_succ (h : b.pc.toNat < 0x2000) : (b.pc + 1).toNat = b.pc.toNat + 1 := by
  rw [BitVec.toNat_add]
  exact Nat.mod_eq_of_lt (by have : (1 : Word).toNat = 1 := rfl; omega)

theorem Brick.coherent.pastPrefix (h : b.coherent) (hpc : b.pc.toNat < 0x2000) : b.pastPrefix.coherent := by
  intro k hk
  have hf := h.feed 3 (1 + k)
  rw [Brick.pastPrefix, List.length_drop] at hk
  rw [Brick.pastPrefix, toNat_pc_succ hpc, nth_drop, hf (by omega), Brick.feed_eq, Nat.add_assoc]

/-- The words behind the REP word are those of instruction memory. -/
theorem Brick.words_pastPrefix (h : b.coherent) (hpc : b.pc.toNat < 0x2000) :
    nth b.pastPrefix.pre 0 0 = b.imem.word (b.pc.toNat + 1) ∧ nth b.pastPrefix.pre 1 0 = b.imem.word (b.pc.toNat + 1 + 1) := by
  have hc := h.pastPrefix hpc
  have hl := b.length_pastPrefix
  rw [hc.nth_eq (by omega), hc.nth_eq (by omega), Brick.pastPrefix_eq]
  simp only [toNat_pc_succ hpc, Nat.add_zero, and_self]

theorem Brick.pastEnd_pastPrefix (h : b.coherent) (he : b.pc.toNat + 1 + opLength (opOf (b.imem.word (b.pc.toNat + 1))) ≤ 0x2000) :
    b.pastPrefix.pastEnd = false := by
  have hpc : b.pc.toNat < 0x2000 := by omega
  have hl := b.length_pastPrefix
  refine Brick.pastEnd_eq_false (h.pastPrefix hpc) (by omega) ?_
  rw [Brick.pastPrefix_eq]
  simpa only [toNat_pc_succ hpc] using he

end

/-! ### The REP word (R124 to R127) -/

section
variable {s : State} {bk : Fin 52} {i : BInstr} {n t : Nat}

/-- An illegal word behind the REP word. -/
theorem State.startRep_illegal (hb : (s.brick bk).coherent) (he : (s.brick bk).pc.toNat + 3 ≤ 0x2000)
    (hd : decodeBrick ((s.brick bk).imem.word ((s.brick bk).pc.toNat + 1)) ((s.brick bk).imem.word ((s.brick bk).pc.toNat + 2)) = none) :
    s.startRep bk n t = s.takeTrap bk 1 0 ((s.brick bk).pc + 1) ((s.brick bk).imem.word ((s.brick bk).pc.toNat + 1)) (t + 16) := by
  have hp := Brick.pastEnd_pastPrefix hb (by have := opLength_le (opOf ((s.brick bk).imem.word ((s.brick bk).pc.toNat + 1))); omega)
  obtain ⟨h0, h1⟩ := Brick.words_pastPrefix hb (by omega)
  have hw := (s.brick bk).illegalWord_of_none true hd
  unfold State.startRep
  extract_lets b src b1 w w2 late b2 src2
  have hb1 : ¬b1.pastEnd = true := ne_true_of_eq_false hp
  have hw1 : w = _ := h0
  have hw2 : w2 = _ := h1
  rw [if_neg hb1, hw1, hw2, if_pos hw]
  rfl

/-- An instruction behind the REP word that R126 forbids there. -/
theorem State.startRep_misused {sub : Nat} (hb : (s.brick bk).coherent) (hi : (s.brick bk).holdsAt ((s.brick bk).pc.toNat + 1) i)
    (hm : i.misuse = some sub) (hr : i ≠ .rett) : s.startRep bk n t =
      (s.setBrick bk { s.brick bk with repc := 0 }).takeTrap bk 3 sub (s.brick bk).pc ((s.brick bk).imem.word ((s.brick bk).pc.toNat + 1)) (t + 12) := by
  have hp := Brick.pastEnd_pastPrefix hb (hi.opLength.symm ▸ hi.2.1)
  obtain ⟨h0, h1⟩ := Brick.words_pastPrefix hb (by have := hi.lt; omega)
  have hw := ne_true_of_eq_false ((s.brick bk).illegalWord_of_decode hi.decode hr)
  unfold State.startRep
  extract_lets b src b1 w w2 late b2 src2
  have hb1 : ¬b1.pastEnd = true := ne_true_of_eq_false hp
  have hw1 : w = _ := h0
  have hw2 : w2 = _ := h1
  rw [if_neg hb1, hw1, hw2, if_neg hw, hi.decode, Option.bind_some, hm]
  rfl

/-- An instruction that may be repeated: skipped for a count of 0, and next otherwise. -/
theorem State.startRep_fits (hb : (s.brick bk).coherent) (hi : (s.brick bk).holdsAt ((s.brick bk).pc.toNat + 1) i) (hm : i.misuse = none) :
    s.startRep bk n t = s.setBrick bk (if n = 0 then { ({ (s.brick bk).pastPrefix with ready := t + 4 }).advance i.length with repc := 0 }
      else { (s.brick bk).pastPrefix with ready := t + 4, repc := BitVec.ofNat 16 n, inRep := true }) := by
  have hp := Brick.pastEnd_pastPrefix hb (hi.opLength.symm ▸ hi.2.1)
  obtain ⟨h0, h1⟩ := Brick.words_pastPrefix hb (by have := hi.lt; omega)
  have hw := ne_true_of_eq_false ((s.brick bk).illegalWord_of_decode hi.decode (BInstr.ne_rett_of_misuse hm))
  unfold State.startRep
  extract_lets b src b1 w w2 late b2 src2
  have hb1 : ¬b1.pastEnd = true := ne_true_of_eq_false hp
  have hw1 : w = _ := h0
  have hw2 : w2 = _ := h1
  have hl : opLength (opOf w) = i.length := hw1 ▸ hi.opLength
  have hs : src2 = b2.advance (opLength (opOf w)) := rfl
  rw [hl] at hs
  rewrite [if_neg hb1, hw1, hw2, if_neg hw, hi.decode, Option.bind_some, hm, hs]
  by_cases hn : n = 0
  · rewrite [if_pos hn, if_pos hn]
    rfl
  · rewrite [if_neg hn, if_neg hn]
    rfl

/-- REP issues: what follows is `startRep`. -/
theorem exec_rep {m : RepCount} (h : s.issues bk (.rep m)) :
    exec (.rep bk m) s = .next ((s.prepared bk).startRep bk (repCount (s.brick bk).r m) (s.brick bk).ready) := by
  have hc : exec (.rep bk m) s = .next (s.issue bk (.rep m) []) := rfl
  rw [hc, State.issue_of_issues h, ← s.r_prepared]
  cases m <;> rfl

/-- Past the REP word the brick is as it was, but for the PC and what FE has read. -/
theorem State.pastPrefix_prepared (s : State) (bk : Fin 52) : ((s.prepared bk).brick bk).pastPrefix =
    { s.brick bk with pc := (s.brick bk).pc + 1, pre := ((s.prepared bk).brick bk).pastPrefix.pre, feAt := ((s.prepared bk).brick bk).feAt } :=
  (Brick.pastPrefix_eq _).trans
    (congrArg (fun b : Brick => { b with pc := b.pc + 1, pre := ((s.prepared bk).brick bk).pastPrefix.pre }) (State.brick_prepared_eq s bk))

theorem rep_begins {m : RepCount} (h : s.issues bk (.rep m)) (hi : (s.brick bk).holdsAt ((s.brick bk).pc.toNat + 1) i) (hm : i.misuse = none)
    (hn : repCount (s.brick bk).r m ≠ 0) :
    Becomes (.rep bk m) s bk (fun b => { b.onward 1 1 with repc := BitVec.ofNat 16 (repCount b.r m), inRep := true }) := by
  have hc := exec_rep h
  rewrite [State.startRep_fits (State.coherent_prepared h.2.2.1) (State.pc_prepared s bk ▸ State.holdsAt_prepared hi) hm, if_neg hn, State.pastPrefix_prepared] at hc
  exact .of_setBrick hc rfl

theorem rep_skips {m : RepCount} (h : s.issues bk (.rep m)) (hi : (s.brick bk).holdsAt ((s.brick bk).pc.toNat + 1) i) (hm : i.misuse = none)
    (hn : repCount (s.brick bk).r m = 0) : Becomes (.rep bk m) s bk (fun b => { b.onward (1 + i.length) 1 with repc := 0 }) := by
  have hc := exec_rep h
  have hpc : (s.brick bk).pc + 1 + BitVec.ofNat 16 i.length = (s.brick bk).pc + BitVec.ofNat 16 (1 + i.length) := by
    rw [BitVec.ofNat_add, BitVec.add_assoc]
    rfl
  rewrite [State.startRep_fits (State.coherent_prepared h.2.2.1) (State.pc_prepared s bk ▸ State.holdsAt_prepared hi) hm, if_pos hn, State.pastPrefix_prepared] at hc
  refine .of_setBrick hc ?_
  simp only [Brick.advance, Brick.onward, hpc, Nat.mul_one]

theorem rep_misused {m : RepCount} {sub : Nat} (h : s.issues bk (.rep m)) (hi : (s.brick bk).holdsAt ((s.brick bk).pc.toNat + 1) i)
    (hm : i.misuse = some sub) (hr : i ≠ .rett) (hin : (s.brick bk).inTrap = false) : Traps (.rep bk m) s bk 3 sub (encodeBrick i).1 := by
  have hc := exec_rep h
  rewrite [State.startRep_misused (State.coherent_prepared h.2.2.1) (State.pc_prepared s bk ▸ State.holdsAt_prepared hi) hm hr, State.takeTrap_eq,
    State.setBrick_setBrick, State.brick_setBrick, State.pc_prepared, State.imem_prepared, hi.2.2.1] at hc
  · refine .of_setBrick hc ?_
    rewrite [State.brick_prepared_eq]
    simp only [Brick.enterTrap, Brick.goPc, Brick.trapped, h.2.1, Bool.false_eq_true, if_false]
  · rw [State.brick_setBrick]
    exact (s.inTrap_prepared bk).trans hin

theorem rep_illegal {m : RepCount} (h : s.issues bk (.rep m)) (he : (s.brick bk).pc.toNat + 3 ≤ 0x2000) (hin : (s.brick bk).inTrap = false)
    (hd : decodeBrick ((s.brick bk).imem.word ((s.brick bk).pc.toNat + 1)) ((s.brick bk).imem.word ((s.brick bk).pc.toNat + 2)) = none) :
    Becomes (.rep bk m) s bk (fun b => b.trapped 1 0 (b.pc + 1) (b.imem.word (b.pc.toNat + 1)) (b.ready + 16)) := by
  have hc := exec_rep h
  rewrite [State.startRep_illegal (State.coherent_prepared h.2.2.1) (by rw [State.pc_prepared]; exact he)
    (by rw [State.pc_prepared, State.imem_prepared]; exact hd), State.takeTrap_eq _ ((s.inTrap_prepared bk).trans hin),
    State.pc_prepared, State.imem_prepared] at hc
  refine .of_setBrick hc ?_
  rewrite [State.brick_prepared_eq]
  rfl

end

/-! ### The executions (R128) -/

section
variable {s : State} {bk : Fin 52}

/-- One more execution: the registers stay, REPC goes down, and the PC goes on after the last. -/
theorem Brick.repeated_spec (b : Brick) (len : Nat) : (b.repeated len).g = b.g ∧ (b.repeated len).repc = b.repc - 1 ∧
    (b.repeated len).ready = b.ready ∧ (b.repc ≠ 1 → (b.repeated len).pc = b.pc ∧ (b.repeated len).inRep = b.inRep) ∧
    (b.repc = 1 → (b.repeated len).pc = b.pc + BitVec.ofNat 16 len ∧ (b.repeated len).inRep = false) := by
  by_cases h : b.repc = 1
  · have hr : b.repeated len = { b.advance len with repc := 0, inRep := false } := if_pos h
    rewrite [hr, h]
    exact ⟨rfl, rfl, rfl, fun hn => absurd rfl hn, fun _ => ⟨rfl, rfl⟩⟩
  · have hr : b.repeated len = { b with repc := b.repc - 1 } := if_neg h
    rewrite [hr]
    exact ⟨rfl, rfl, rfl, fun _ => ⟨rfl, rfl⟩, fun he => absurd he h⟩

theorem State.settle_repeats {x : Brick} (hx : x.inRep = true) (len t n : Nat) : s.settle bk len t ⟨s.setBrick bk x, .next, n⟩ =
    s.setBrick bk (({ x with ready := t + n * brickCycle }).repeated len) := by
  simp only [State.settle, State.brick_setBrick, State.setBrick_setBrick, hx, if_true]

theorem Brick.r_congr {b c : Brick} (h : b.g = c.g) (x : BitVec 4) : b.r x = c.r x := by rw [Brick.r, Brick.r, h]

/-- An execution of a repeated instruction of the two-operand group. -/
theorem alu_repeats {op : AluOp} {d x : BitVec 4} {c : Instr} (h : s.repeats bk (.alu op d x)) (hc : exec c s = .next (s.issue bk (.alu op d x) [])) :
    ∃ t, exec c s = .next t ∧ (t.brick bk).r d = op.eval ((s.brick bk).r d) ((s.brick bk).r x) ∧
      (t.brick bk).repc = (s.brick bk).repc - 1 ∧ (t.brick bk).ready = (s.brick bk).ready + 4 * op.cycles ∧
      ((s.brick bk).repc ≠ 1 → (t.brick bk).pc = (s.brick bk).pc ∧ (t.brick bk).inRep = true) ∧
      ((s.brick bk).repc = 1 → (t.brick bk).pc = (s.brick bk).pc + 1 ∧ (t.brick bk).inRep = false) := by
  obtain ⟨hi, hin, -, hb, ha⟩ := h
  have hr : s.runs bk (.alu op d x) [] = ⟨(s.prepared bk).setBrick bk (((s.prepared bk).brick bk).setR d
      (op.eval ((s.brick bk).r d) ((s.brick bk).r x))), .next, op.cycles⟩ := by
    rw [← s.r_prepared]
    rfl
  generalize op.eval ((s.brick bk).r d) ((s.brick bk).r x) = v at hr ⊢
  have hinp : (((s.prepared bk).brick bk).setR d v).inRep = true := (s.inRep_prepared bk).trans hin
  rw [State.issue_eq_settle hi hb ha fun _ => rfl, hr, State.settle_repeats hinp] at hc
  obtain ⟨hg, hn, ht, hgo, hlast⟩ := Brick.repeated_spec
    { ((s.prepared bk).brick bk).setR d v with ready := (s.brick bk).ready + op.cycles * brickCycle } 1
  refine ⟨_, hc, ?_⟩
  rw [State.brick_setBrick]
  refine ⟨(Brick.r_congr hg d).trans (Brick.r_setR_same _ v), hn.trans (congrArg (· - 1) (s.repc_prepared bk)),
    ht.trans (congrArg _ (Nat.mul_comm _ 4)), fun h1 => ?_, fun h1 => ?_⟩
  · obtain ⟨hpc, hr⟩ := hgo (by rwa [← s.repc_prepared] at h1)
    exact ⟨hpc.trans (s.pc_prepared bk), hr.trans hinp⟩
  · obtain ⟨hpc, hr⟩ := hlast ((s.repc_prepared bk).trans h1)
    exact ⟨hpc.trans (congrArg (· + 1) (s.pc_prepared bk)), hr⟩

end

theorem misuse_ne_none_iff (i : BInstr) : i.misuse ≠ none ↔ (∃ op c w, i = .br op c w) ∨ (∃ w, i = .jmp w) ∨ (∃ w, i = .call w) ∨ (∃ x, i = .jr x) ∨
      (∃ x, i = .callr x) ∨ i = .ret ∨ i = .rett ∨ (∃ n, i = .rep n) ∨ (∃ d x, i = .wait d x) ∨ i = .bkpt ∨ (∃ x, i = .mts 5 x) := by
  cases i with
  | br | jmp | call | jr | callr | ret | rett | bkpt | rep | wait => exact iff_of_true (Option.some_ne_none 0) (by simp)
  | mts sel x =>
    have hs : sel.toNat = 0x05 ↔ sel = 5 := BitVec.toNat_inj (y := 5)
    by_cases h : sel.toNat = 0x05
    · have hm : (BInstr.mts sel x).misuse = some 1 := if_pos (decide_eq_true h)
      exact iff_of_true (hm ▸ Option.some_ne_none 1) (by simp [hs.mp h])
    · have hm : (BInstr.mts sel x).misuse = none := if_neg (ne_true_of_eq_false (decide_eq_false h))
      exact iff_of_false (fun hn => hn hm) (by simpa using mt hs.mpr h)
  | _ => exact iff_of_false (fun h => h rfl) (by simp)

end Sys2Proof.Machine
end

section
/-! Settles O13: REP. -/

namespace Sys2Proof.Machine

/-- Settles O13: the REP word by what stands behind it (`State.startRep_fits` and its companions), an execution by `alu_repeats`. -/
theorem repCompletes : Obligations.RepCompletes := by
  unfold Obligations.RepCompletes
  refine ⟨?begins, ?skips, ?misused, ?illegal, ?repeats, misuse_ne_none_iff⟩
  case begins => exact fun s bk n i => rep_begins
  case skips => exact fun s bk n i => rep_skips
  case misused => exact fun s bk n i sub => rep_misused
  case illegal => exact fun s bk n h he hin hd => rep_illegal h he hin hd
  case repeats =>
    rintro s bk d x op h c (⟨rfl, rfl⟩ | ⟨rfl, rfl⟩)
    · exact alu_repeats h rfl
    · exact alu_repeats h rfl

end Sys2Proof.Machine
end

section
/-! SUPPORT. LD and ST, and which cycles an access loses to the rivals that are earlier in the rotation (R105, R115, R116, R149, R153). -/

namespace Sys2Proof.Machine

/-! ### The rotation (R149) -/

/-- The first that requests is m where nothing before m in the order requests. -/
theorem firstOf_append_iff {req : BitVec 8} {m : Nat} {l1 l2 : List Nat} (hm : req.getLsbD m = true) (hn : m ∉ l1) :
    firstOf req (l1 ++ m :: l2) = m ↔ ∀ x ∈ l1, req.getLsbD x = false := by
  induction l1 with
  | nil => simp [firstOf, hm]
  | cons x l1 ih =>
    obtain ⟨hx, hn⟩ := not_or.mp (mt List.mem_cons.mpr hn)
    rw [List.cons_append, firstOf, List.forall_mem_cons, ← ih hn]
    cases h : req.getLsbD x
    · simp
    · simp [Ne.symm hx]

/-- The order over N masters from x on comes to m after (m - x) mod N others. -/
theorem rotation_eq {N m : Nat} (hm : m < N) (hN : N = 4 ∨ N = 8) (x : Nat) : (List.range N).map (fun i => (x % N + i) % N) =
    (List.range ((m + N - x % N) % N)).map (fun i => (x % N + i) % N) ++
      m :: ((List.range N).map (fun i => (x % N + i) % N)).drop ((m + N - x % N) % N + 1) := by
  have hp : (m + N - x % N) % N < N := Nat.mod_lt _ (by omega)
  have hat : (x % N + (m + N - x % N) % N) % N = m := by obtain rfl | rfl := hN <;> omega
  have hl : (m + N - x % N) % N < ((List.range N).map (fun i => (x % N + i) % N)).length := by rwa [List.length_map, List.length_range]
  conv_lhs => rw [← List.take_append_drop ((m + N - x % N) % N) ((List.range N).map (fun i => (x % N + i) % N)), List.drop_eq_getElem_cons hl]
  rw [List.getElem_map, List.getElem_range, hat, ← List.map_take, List.take_range, Nat.min_eq_left hp.le]

theorem firstOf_rotation {N m : Nat} (hm : m < N) (hN : N = 4 ∨ N = 8) (x : Nat) (r : BitVec 8) (l : List Nat) :
    firstOf (setBit r m true) ((List.range N).map (fun i => (x % N + i) % N) ++ l) = m ↔
      ∀ j, j < (m + N - x % N) % N → r.getLsbD ((x + j) % N) = false := by
  have hne : ∀ j, j < (m + N - x % N) % N → (x % N + j) % N ≠ m := by
    intro j hj
    obtain rfl | rfl := hN <;> omega
  have hreq : (setBit r m true).getLsbD m = true := by
    rw [getLsbD_setBit, if_pos ⟨rfl, by omega⟩]
  rw [rotation_eq hm hN, List.append_assoc, List.cons_append, firstOf_append_iff hreq]
  · simp only [List.forall_mem_map, List.mem_range]
    refine forall₂_congr fun j hj => ?_
    rw [getLsbD_setBit, if_neg fun h => hne j hj h.1, Nat.mod_add_mod]
  · simp only [List.mem_map, List.mem_range, not_exists, not_and]
    exact hne

theorem bankStall_cons (mode : BitVec 2) (m a n : Nat) (r : BitVec 8) (ct : Contention) : bankStall mode m a n (r :: ct) =
    if bankWinner mode n (a % 8) (setBit r m true) = m then 0 else 1 + bankStall mode m a (n + 1) ct := rfl

/-- During start-up, test and recovery the rotation is over the bricks (R149). -/
theorem bankStall_bricks {m : Nat} (hm : m < 4) (a n : Nat) (r : BitVec 8) (ct : Contention) : bankStall 1 m a n (r :: ct) =
    if (∀ j, j < (m + 4 - (n + a) % 4) % 4 → r.getLsbD (((n + a) + j) % 4) = false) then 0 else 1 + bankStall 1 m a (n + 1) ct := by
  have hw := firstOf_rotation hm (.inl rfl) (n + a % 8) r [6, 7, 4, 5]
  have hx : ∀ j, (n + a % 8 + j) % 4 = (n + a + j) % 4 := fun j => by omega
  simp only [show (n + a % 8) % 4 = (n + a) % 4 from hx 0, hx] at hw
  simp only [bankStall_cons, bankWinner, if_true, show (n + a % 8) % 4 = (n + a) % 4 from hx 0, hw]

/-- Otherwise it is over all eight masters (R149). -/
theorem bankStall_all {mode : BitVec 2} (hmode : mode ≠ 1) {m : Nat} (hm : m < 8) (a n : Nat) (r : BitVec 8) (ct : Contention) :
    bankStall mode m a n (r :: ct) =
      if (∀ j, j < (m + 8 - (n + a) % 8) % 8 → r.getLsbD (((n + a) + j) % 8) = false) then 0 else 1 + bankStall mode m a (n + 1) ct := by
  have hw := firstOf_rotation hm (.inr rfl) (n + a % 8) r []
  have hx : ∀ j, (n + a % 8 + j) % 8 = (n + a + j) % 8 := fun j => by omega
  simp only [List.append_nil, show (n + a % 8) % 8 = (n + a) % 8 from hx 0, hx] at hw
  simp only [bankStall_cons, bankWinner, if_neg hmode, show (n + a % 8) % 8 = (n + a) % 8 from hx 0, hw]

/-! ### LD and ST (R115, R116) -/

section
variable {s : State} {bk : Fin 52} {i : BInstr} {ct : Contention} {c : Instr} {f : Brick → Brick} {n cyc : Nat}

/-- What an access leaves of its course: the bank as `g` makes it, and CONF_CNT of the brick with the n cycles lost. -/
def Course.accessed (bk : Fin 52) (n : Nat) (g : Memory → Memory) (x : Course) : Course :=
  { x.lose ⟨(localOf bk).val, by omega⟩ n with bank := g x.bank }

/-- After the effect `f` on the brick and an access to its bank, the next word. -/
theorem BecomesBank.of_next {g : Memory → Memory} (h : s.issues bk i) (hc : exec c s = .next (s.issue bk i ct)) (hf : KeepsFlow f)
    (hr : s.runs bk i ct = ⟨((s.prepared bk).setBrick bk (f ((s.prepared bk).brick bk))).modCourse (courseOf bk) (Course.accessed bk n g), .next, cyc⟩) :
    BecomesBank c s bk (fun b => (f b).onward i.length cyc) n g := by
  have hin : (f ((s.prepared bk).brick bk)).inRep = false := ((hf.inRep _).trans (s.inRep_prepared bk)).trans h.2.1
  have hb : (((s.prepared bk).setBrick bk (f ((s.prepared bk).brick bk))).modCourse (courseOf bk) (Course.accessed bk n g)).brick bk =
      f ((s.prepared bk).brick bk) := State.brick_setBrick ..
  rw [State.issue_of_issues h, hr, State.settle_next (by rwa [hb]), hb] at hc
  refine ⟨_, ((s.prepared bk).brick bk).pre.drop i.length, ((s.prepared bk).brick bk).feAt, hc, rfl, fun k hk => ?_,
    (State.brick_setBrick _ _ _).trans ?_, fun k hk => ?_, ?_⟩
  · rw [State.brick_setBrick_ne _ _ hk]
    exact (State.brick_setBrick_ne _ _ hk).trans (State.brick_prepared_ne _ hk)
  · rw [hf.prepared]
    simp only [Brick.onward, Brick.advance, hf.ready, Nat.mul_comm 4, brickCycle]
  · exact State.course_modCourse_ne _ _ hk
  · exact State.course_modCourse _ _ _

theorem Brick.bankAddr_eq (b : Brick) (m : BankAddr) : b.bankAddr m = ((addressOf b m).1, b.pointed m) := by cases m <;> rfl

theorem keepsFlow_pointed (m : BankAddr) : KeepsFlow (fun b => b.pointed m) := by
  cases m <;> exact ⟨fun _ _ _ => rfl, fun _ => rfl, fun _ => rfl⟩

theorem keepsFlow_pointed_setR (m : BankAddr) (d : BitVec 4) (v : Word) : KeepsFlow (fun b => (b.pointed m).setR d v) := by
  cases m <;> exact ⟨fun _ _ _ => rfl, fun _ => rfl, fun _ => rfl⟩

theorem addressOf_prepared (s : State) (bk : Fin 52) (m : BankAddr) : addressOf ((s.prepared bk).brick bk) m = addressOf (s.brick bk) m := by
  rw [State.brick_prepared_eq]
  cases m <;> rfl

theorem State.modCourse_modCourse (s : State) (k : Fin 13) (f g : Course → Course) : (s.modCourse k f).modCourse k g = s.modCourse k (g ∘ f) := by
  simp [State.modCourse, State.setCourse, State.course]

theorem State.runs_ld (s : State) (bk : Fin 52) (d : BitVec 4) (m : BankAddr) (ct : Contention) : s.runs bk (.ld d m) ct =
    ⟨((s.prepared bk).setBrick bk ((((s.prepared bk).brick bk).pointed m).setR d
        ((s.course (courseOf bk)).bank.word (addressOf (s.brick bk) m).1.toNat))).modCourse (courseOf bk)
          (Course.accessed bk (s.lost bk (addressOf (s.brick bk) m).1 1 ct) id),
      .next, 2 + s.lost bk (addressOf (s.brick bk) m).1 1 ct⟩ := by
  have hr : s.runs bk (.ld d m) ct = (s.prepared bk).runLd bk d m (s.brick bk).ready ct := rfl
  rw [hr, State.runLd, Brick.bankAddr_eq, addressOf_prepared]
  rfl

theorem State.runs_st (s : State) (bk : Fin 52) (m : BankAddr) (v : BitVec 4) (ct : Contention) : s.runs bk (.st m v) ct =
    ⟨((s.prepared bk).setBrick bk (((s.prepared bk).brick bk).pointed m)).modCourse (courseOf bk)
          (Course.accessed bk (s.lost bk (addressOf (s.brick bk) m).1 1 ct)
            (fun x => x.setWord (addressOf (s.brick bk) m).1.toNat ((s.brick bk).r v))),
      .next, 2 + s.lost bk (addressOf (s.brick bk) m).1 1 ct⟩ := by
  have hr : s.runs bk (.st m v) ct = (s.prepared bk).runSt bk m v (s.brick bk).ready ct := rfl
  rw [hr, State.runSt, Brick.bankAddr_eq, addressOf_prepared, State.r_prepared]
  simp only [State.bankWrite, State.brickLose, State.modCourse_modCourse]
  rfl

end

end Sys2Proof.Machine
end

section
/-! Settles O9: bank accesses. -/

namespace Sys2Proof.Machine

/-- Settles O9 (R115, R116; R105, R149 and R153 for the lost cycles): LD and ST by `BecomesBank.of_next` on the effect of each, and the lost cycles by the rotation (`firstOf_rotation`). -/
theorem bankAccessesComplete : Obligations.BankAccessesComplete := by
  unfold Obligations.BankAccessesComplete
  refine ⟨?ld, ?st, fun _ _ _ _ => rfl, fun m a n r ct hm => bankStall_bricks hm a n r ct, fun mode m a n r ct h hm => bankStall_all h hm a n r ct⟩
  case ld =>
    intro s bk d m ct h
    have hv := BecomesBank.of_next (c := .ld bk d m ct) h rfl (keepsFlow_pointed_setR m d _) (s.runs_ld bk d m ct)
    exact hv
  case st => exact fun s bk m v ct h => BecomesBank.of_next h rfl (keepsFlow_pointed m) (s.runs_st bk m v ct)

end Sys2Proof.Machine
end

section
/-! SUPPORT. A register of a brick's I/O space written or read by itself, and what the journal takes of it (R117, R154, R173, R487, R494). -/

namespace Sys2Proof.Machine

/-! ### One brick, and the journal -/

/-- Nothing differs but brick bk and the journal. -/
structure BrickLeaves (bk : Fin 52) (s t : State) : Prop where
  frame : t = { s with bricks := t.bricks, journal := t.journal }
  others : ∀ k, k ≠ bk → t.brick k = s.brick k

section
variable {s t : State} {bk : Fin 52}

theorem BrickLeaves.setBrick (s : State) (bk : Fin 52) (b : Brick) : BrickLeaves bk s (s.setBrick bk b) := ⟨rfl, fun _ hk => State.brick_setBrick_ne s b hk⟩

theorem BrickLeaves.jrec (h : BrickLeaves bk s t) (c : Fin 13) (r : JRec) : BrickLeaves bk s (t.jrec c r) := by
  refine ⟨?_, fun k hk => (State.brick_jrec t c r k).trans (h.others k hk)⟩
  rw [State.jrec_eq, h.frame]

/-! ### Writes -/

/-- A register outside the windows that a brick may write, and that replay writes too. -/
def plainWritable (a : Nat) : Bool :=
  (decide (a < 0x100) || decide (0x620 ≤ a)) && ((decide (plainAccess a = .wo) || decide (plainAccess a = .rw)) && !replayDiscards a)

variable {a : Nat}

theorem State.ioAccess_plain (s : State) (h : a < 0x100 ∨ 0x620 ≤ a) : s.ioAccess a = plainAccess a := by
  rw [State.ioAccess, if_neg (by omega), if_neg (by omega)]

/-- An address outside the windows needs no assignment. -/
theorem State.ioAssigned_plain (s : State) (bk : Fin 52) (h : a < 0x100 ∨ 0x620 ≤ a) : s.ioAssigned bk a = true := by
  rw [State.ioAssigned, if_neg (by omega), if_neg (by omega), if_neg (by omega), if_neg (by omega), Bool.or_true]

theorem State.sendsReceive_plain (s : State) (w : Option Word) (h : a < 0x100 ∨ 0x620 ≤ a) : s.sendsReceive a w = false := by
  cases w with
  | none => rfl
  | some v => exact Bool.and_eq_false_iff.mpr (.inl (decide_eq_false (by omega)))

theorem State.ioTrap_write (s : State) (bk : Fin 52) (v : Word) (h : a < 0x100 ∨ 0x620 ≤ a) (ha : plainAccess a = .wo ∨ plainAccess a = .rw) :
    s.ioTrap bk a (some v) = none := by
  simp only [State.ioTrap, s.ioAccess_plain h, s.ioAssigned_plain bk h, s.sendsReceive_plain _ h]
  rcases ha with ha | ha <;> rw [ha] <;> rfl

theorem State.ioTrap_read (s : State) (bk : Fin 52) (h : a < 0x100 ∨ 0x620 ≤ a) (ha : plainAccess a = .ro) : s.ioTrap bk a none = none := by
  simp only [State.ioTrap, s.ioAccess_plain h, s.ioAssigned_plain bk h, s.sendsReceive_plain _ h, ha]
  rfl

theorem State.ioWrite_plain (s : State) (bk : Fin 52) (v : Word) (t : Nat) (hd : replayDiscards a = false) : s.ioWrite bk a v t =
    if bit s.journal.cfg 29 then (s.ioWriteLive bk a v t).jrec (courseOf bk) (.out (localOf bk) (BitVec.ofNat 12 a) v ((s.course (courseOf bk)).cycleAt t))
    else s.ioWriteLive bk a v t := if_neg (by rw [hd]; exact fun h => Bool.false_ne_true h.2)

theorem State.ioWriteNow_plain (hu : s.blocksUp = true) (hg : s.gated (courseOf bk) = false) (ha : plainWritable a = true) (v : Word) :
    s.ioWriteNow bk a v = .next (if bit s.journal.cfg 29 then
      (s.ioWriteLive bk a v s.now).jrec (courseOf bk) (.out (localOf bk) (BitVec.ofNat 12 a) v ((s.course (courseOf bk)).cycleAt s.now))
    else s.ioWriteLive bk a v s.now) := by
  simp only [plainWritable, Bool.and_eq_true, Bool.or_eq_true, decide_eq_true_eq, Bool.not_eq_true'] at ha
  obtain ⟨hr, hacc, hd⟩ := ha
  have hc : (s.blocksUp && (!s.gated (courseOf bk) && (s.ioTrap bk a (some v)).isNone)) = true := by
    rw [hu, hg, s.ioTrap_write bk v hr hacc]
    rfl
  rw [State.ioWriteNow, State.when_of_true s _ hc, State.ioWrite_plain s bk v s.now hd]

/-- A write whose effect is on the brick alone. -/
theorem State.ioWriteNow_sets {b : Brick} {v : Word} (hu : s.blocksUp = true) (hg : s.gated (courseOf bk) = false) (ha : plainWritable a = true)
    (hl : s.ioWriteLive bk a v s.now = s.setBrick bk b) : ∃ t, s.ioWriteNow bk a v = .next t ∧
      t = { s with bricks := t.bricks, journal := t.journal } ∧ (∀ k, k ≠ bk → t.brick k = s.brick k) ∧ t.brick bk = b := by
  have hs := BrickLeaves.setBrick s bk b
  rw [State.ioWriteNow_plain hu hg ha, hl]
  refine ⟨_, rfl, ?_⟩
  split
  · have hj := hs.jrec (courseOf bk) (.out (localOf bk) (BitVec.ofNat 12 a) v ((s.course (courseOf bk)).cycleAt s.now))
    exact ⟨hj.frame, hj.others, (State.brick_jrec ..).trans (State.brick_setBrick ..)⟩
  · exact ⟨hs.frame, hs.others, State.brick_setBrick ..⟩

/-! ### Reads -/

theorem State.ioReadNow_plain (hu : s.blocksUp = true) (hg : s.gated (courseOf bk) = false) (hr : a < 0x100 ∨ 0x620 ≤ a) (ha : plainAccess a = .ro) :
    s.ioReadNow bk a = .next { (s.ioRead bk a s.now).2 with readValue := (s.ioRead bk a s.now).1.setWidth 32 } := by
  have hc : (s.blocksUp && (!s.gated (courseOf bk) && (s.ioTrap bk a none).isNone)) = true := by
    rw [hu, hg, s.ioTrap_read bk hr ha]
    rfl
  rw [State.ioReadNow, State.when_of_true s _ hc]

/-- A register that is no course input reads in replay as it does live, and no record is made. -/
theorem State.ioRead_plain (s : State) (bk : Fin 52) (t : Nat) (hj : ioJournaled a = false) (ha : a ≠ 0xC0) : s.ioRead bk a t = s.ioReadLive bk a t := by
  simp [State.ioRead, hj, ha]

theorem State.ioRead_time (s : State) {bk : Fin 52} (t : Nat) (hm : (s.course (courseOf bk)).mode ≠ 2) : s.ioRead bk 0xC0 t =
    ((s.ioReadLive bk 0xC0 t).1, (s.ioReadLive bk 0xC0 t).2.jrec (courseOf bk)
      (.time (localOf bk) ((s.ioReadLive bk 0xC0 t).2.brick bk).io.timeLatch ((s.course (courseOf bk)).cycleAt t))) := by
  have hr : s.replays bk = false := decide_eq_false hm
  simp [State.ioRead, hr]

end

end Sys2Proof.Machine
end

section
/-! SUPPORT. The watchdog: an expiry, a kick, the configuration, and what a boundary makes of a pending expiry or a stop (R132, R158 to R161). -/

namespace Sys2Proof.Machine

section
variable {s : State} {bk : Fin 52}

/-! ### The count (R158 to R161) -/

/-- Brick c is b after an expiry: the count is reloaded, and the expiry is pending or asks for a stop. -/
structure Brick.Expired (b c : Brick) : Prop where
  left : c.wd.left = 64 * b.wd.period.toNat
  g : c.g = b.g
  pc : c.pc = b.pc
  first : b.wd.pending = false → b.wd.trapped = false → c.wd.pending = true ∧ c.stopReq = b.stopReq
  again : b.wd.pending = true ∨ b.wd.trapped = true → c.stopReq = true

theorem Brick.expired_wdExpire (b : Brick) (t : Nat) : b.Expired (b.wdExpire t) := by
  unfold Brick.wdExpire
  by_cases h : b.wd.pending = true ∨ b.wd.trapped = true
  · rw [if_pos h]
    exact ⟨rfl, rfl, rfl, fun hp ht => by simp [hp, ht] at h, fun _ => rfl⟩
  · rw [if_neg h]
    exact ⟨rfl, rfl, rfl, fun _ _ => ⟨rfl, rfl⟩, fun hn => absurd hn h⟩

theorem exec_watchdogExpiry (hu : s.blocksUp = true) (hg : s.gated (courseOf bk) = false) (hc : (s.brick bk).counts = true)
    (hp : (s.brick bk).wd.period ≠ 0) : exec (.watchdogExpiry bk) s = .next ((s.at_ ((s.brick bk).wd.since + (s.brick bk).wd.left * 4)).setBrick bk
      ((s.brick bk).wdExpire ((s.brick bk).wd.since + (s.brick bk).wd.left * 4))) := by
  have hw : (s.blocksUp && (!s.gated (courseOf bk) && ((s.brick bk).counts && decide ((s.brick bk).wd.period ≠ 0)))) = true := by
    rw [hu, hg, hc, decide_eq_true hp]; rfl
  have he : exec (.watchdogExpiry bk) s = execWatchdogExpiry bk s := rfl
  rw [he, execWatchdogExpiry, s.when_of_true _ hw]
  rfl

/-- A kick with another value than 0x5AA5 is an expiry (R159). -/
theorem Brick.wdKick_ne (b : Brick) {v : Word} (h : v ≠ 0x5AA5) (t : Nat) : b.wdKick v t = b.wdExpire t := if_neg h

theorem exec_wdogKick (hu : s.blocksUp = true) (hg : s.gated (courseOf bk) = false) (v : Word) : ∃ t, exec (.wdogKick bk v) s = .next t ∧
    t = { s with bricks := t.bricks, journal := t.journal } ∧ (∀ k, k ≠ bk → t.brick k = s.brick k) ∧ t.brick bk = (s.brick bk).wdKick v s.now :=
  State.ioWriteNow_sets (a := 0x011) hu hg rfl rfl

theorem Brick.wdConfig_locked {b : Brick} (h : b.wd.lock = true) (v : Word) (t : Nat) : b.wdConfig v t = b := if_pos h

theorem Brick.wdConfig_open {b : Brick} (h : b.wd.lock = false) (v : Word) (t : Nat) : b.wdConfig v t = { b with wd := { b.wd with
    period := v.extractLsb' 0 15, lock := v.getLsbD 15, left := 64 * (v.toNat % 2 ^ 15), since := t } } := by
  have hp : (v.extractLsb' 0 15).toNat = v.toNat % 2 ^ 15 := by simp
  rw [← hp]
  exact if_neg (by rw [h]; exact Bool.false_ne_true)

theorem exec_wdogCfgWrite (hu : s.blocksUp = true) (hg : s.gated (courseOf bk) = false) (v : Word) : ∃ t, exec (.wdogCfgWrite bk v) s = .next t ∧
    t = { s with bricks := t.bricks, journal := t.journal } ∧ (∀ k, k ≠ bk → t.brick k = s.brick k) ∧ t.brick bk = (s.brick bk).wdConfig v s.now :=
  State.ioWriteNow_sets (a := 0x010) hu hg rfl rfl

/-! ### At a boundary (R132, R133, R159, R160) -/

/-- At a boundary a brick runs or waits, outside a REP sequence. -/
theorem State.run_of_atBoundary (h : s.atBoundary bk = true) :
    ((s.brick bk).run = .running ∨ (s.brick bk).run = .waiting) ∧ (s.brick bk).inRep = false := by
  simp only [State.atBoundary, Bool.and_eq_true, Bool.or_eq_true, decide_eq_true_eq, Bool.not_eq_true'] at h
  exact h.2.2

/-- A WAIT that ends leaves the brick running; a running brick is as it was. -/
theorem Brick.endWait_keeps {b : Brick} (h : b.run = .running ∨ b.run = .waiting) (t : Nat) : (b.endWait t).run = .running ∧
    (b.endWait t).inRep = b.inRep ∧ (b.endWait t).g = b.g ∧ (b.endWait t).rstk = b.rstk := by
  rcases h with h | h
  · have he : b.endWait t = b := if_neg (by rw [h]; decide)
    rw [he]
    exact ⟨h, rfl, rfl, rfl⟩
  · have he : b.endWait t = { b.goTo .running t with ready := t } := if_pos h
    rw [he]
    exact ⟨rfl, rfl, rfl, rfl⟩

/-- A brick that has taken a pending expiry as the trap of cause 5. -/
def Brick.wdTrapped (b : Brick) (t : Nat) : Brick :=
  { b.endWait t with wd := { (b.endWait t).wd with pending := false, trapped := true } }.enterTrap 5 0 b.pc 0 (t + 12)

theorem exec_watchdogTrap (hb : s.atBoundary bk = true) (hp : (s.brick bk).wd.pending = true) (hin : (s.brick bk).inTrap = false)
    (hi : (s.brick bk).inj.busy = false) (hh : (s.brick bk).haltReq = false) (hs : (s.brick bk).stopReq = false) :
    exec (.watchdogTrap bk) s = .next ((s.at_ (s.boundary bk)).setBrick bk ((s.brick bk).wdTrapped (s.boundary bk))) := by
  have hw : (s.atBoundary bk && ((s.brick bk).wd.pending && (!(s.brick bk).inTrap && (!(s.brick bk).inj.busy &&
    (!(s.brick bk).haltReq && !(s.brick bk).stopReq))))) = true := by rw [hb, hp, hin, hi, hh, hs]; rfl
  have he : exec (.watchdogTrap bk) s = execWatchdogTrap bk s := rfl
  rw [he, execWatchdogTrap, s.when_of_true _ hw]
  rfl

/-- A stop is the brick's alone, but for its recorder event. -/
theorem exec_watchdogStop (hb : s.atBoundary bk = true) (hs : (s.brick bk).stopReq = true) (hi : (s.brick bk).inj.busy = false)
    (hh : (s.brick bk).haltReq = false) : ∃ t, exec (.watchdogStop bk) s = .next t ∧
      Logs ((s.at_ (s.boundary bk)).setBrick bk { (s.brick bk).goTo .stopped (s.boundary bk) with stopCause := 2, stopReq := false }) t := by
  have hw : (s.atBoundary bk && ((s.brick bk).stopReq && (!(s.brick bk).inj.busy && !(s.brick bk).haltReq))) = true := by rw [hb, hs, hi, hh]; rfl
  have he : exec (.watchdogStop bk) s = execWatchdogStop bk s := rfl
  rw [he, execWatchdogStop, s.when_of_true _ hw]
  exact ⟨_, rfl, Logs.event ..⟩

end

end Sys2Proof.Machine
end

section
/-! Settles O15: the watchdog. -/

namespace Sys2Proof.Machine

/-- Settles O15: an expiry by `Brick.expired_wdExpire`, which a kick with another value than 0x5AA5 is too, the trap by
`Brick.wdTrapped`, the stop by its frame, kick and configuration as I/O writes (`State.ioWriteNow_sets`). -/
theorem watchdogsCount : Obligations.WatchdogsCount := by
  unfold Obligations.WatchdogsCount
  refine ⟨?expiry, ?trap, ?stop, ?kick, ?wrong, ?config⟩
  case expiry =>
    intro s bk hu hg hc hp
    have hx := (s.brick bk).expired_wdExpire ((s.brick bk).wd.since + (s.brick bk).wd.left * 4)
    refine ⟨_, exec_watchdogExpiry hu hg hc hp, ?_, rfl, fun k hk => State.brick_setBrick_ne _ _ hk, ?_⟩
    · rw [Nat.mul_comm 4]
      rfl
    · rw [State.brick_setBrick]
      exact ⟨hx.left, hx.g, hx.pc, hx.first, hx.again⟩
  case trap =>
    intro s bk hb hp hin hi hh hs
    obtain ⟨hr, hrep⟩ := State.run_of_atBoundary hb
    obtain ⟨hrun, hinr, hg, hrs⟩ := Brick.endWait_keeps hr (s.boundary bk)
    refine ⟨_, exec_watchdogTrap hb hp hin hi hh hs, rfl, fun k hk => State.brick_setBrick_ne _ _ hk, ?_⟩
    rw [State.brick_setBrick]
    exact ⟨rfl, rfl, rfl, hinr.trans hrep, rfl, rfl, rfl, hrun, hg, hrs, rfl, rfl⟩
  case stop =>
    intro s bk hb hs hi hh
    obtain ⟨t, hx, hl⟩ := exec_watchdogStop hb hs hi hh
    refine ⟨t, hx, fun k hk => ?_, ?_⟩
    · rw [hl.brick, State.brick_setBrick_ne _ _ hk, State.brick_of_at]
    · rw [hl.brick, State.brick_setBrick]
      exact ⟨rfl, rfl, rfl, rfl, rfl, rfl, rfl⟩
  case kick => exact fun s bk hu hg => exec_wdogKick hu hg 0x5AA5
  case wrong =>
    intro s bk v hu hg hv
    obtain ⟨t, hx, hf, hk, hbk⟩ := exec_wdogKick hu hg v
    have he := (s.brick bk).expired_wdExpire s.now
    rw [Brick.wdKick_ne _ hv] at hbk
    rw [← hbk] at he
    exact ⟨t, hx, hf, hk, he.left, he.first, he.again⟩
  case config =>
    intro s bk v hu hg
    obtain ⟨t, hx, hf, hk, hbk⟩ := exec_wdogCfgWrite hu hg v
    exact ⟨t, hx, hf, hk, fun hl => hbk.trans (Brick.wdConfig_locked hl v _), fun hl => hbk.trans (Brick.wdConfig_open hl v _)⟩

end Sys2Proof.Machine
end

section
/-! SUPPORT. The event lines, doorbells, conflict counters, times and markers of a brick (R153, R156, R157, R173, R487, R489, R518). -/

namespace Sys2Proof.Machine

section
variable {s t u : State} {bk : Fin 52} {v : Word}

/-! ### Latched lines (R157, R487) -/

theorem BrickLeaves.latchLine (s : State) (bk : Fin 52) (n : Nat) : BrickLeaves bk s (s.latchLine bk n) := by
  unfold State.latchLine
  exact (BrickLeaves.setBrick s bk _).jrec _ _

theorem State.brick_latchLine (s : State) (bk : Fin 52) (n : Nat) : (s.latchLine bk n).brick bk =
    { s.brick bk with io := { (s.brick bk).io with events := setBit (s.brick bk).io.events n true } } := by
  unfold State.latchLine
  exact (State.brick_jrec ..).trans (State.brick_setBrick ..)

/-! ### Doorbells (R157, R173) -/

/-- Nothing differs but bricks of course c and the journal. -/
structure RingLeaves (c : Fin 13) (s t : State) : Prop where
  frame : t = { s with bricks := t.bricks, journal := t.journal }
  others : ∀ k, courseOf k ≠ c → t.brick k = s.brick k

theorem RingLeaves.refl (c : Fin 13) (s : State) : RingLeaves c s s := ⟨rfl, fun _ _ => rfl⟩

theorem RingLeaves.trans {c : Fin 13} (h1 : RingLeaves c s t) (h2 : RingLeaves c t u) : RingLeaves c s u :=
  ⟨bricksFrame_trans h1.frame h2.frame, fun k hk => (h2.others k hk).trans (h1.others k hk)⟩

theorem RingLeaves.jrec {c : Fin 13} (h : RingLeaves c s t) (r : JRec) : RingLeaves c s (t.jrec c r) := by
  refine ⟨?_, fun k hk => (State.brick_jrec t c r k).trans (h.others k hk)⟩
  rw [State.jrec_eq, h.frame]

/-- One brick of course c is rung, if its bit is set. -/
def State.ring1 (v : Word) (c : Fin 13) (s : State) (b : Fin 4) : State := if bit v b.val then s.latchLine (brickOf c b) 13 else s

theorem RingLeaves.ring1 (s : State) (v : Word) (c : Fin 13) (b : Fin 4) : RingLeaves c s (s.ring1 v c b) := by
  rw [State.ring1]
  split
  · have h := BrickLeaves.latchLine s (brickOf c b) 13
    exact ⟨h.frame, fun k hk => h.others k (brickOf_ne_of_courseOf hk b)⟩
  · exact .refl c s

theorem State.brick_ring1_ne (s : State) (v : Word) (c : Fin 13) (a b : Fin 4) (h : b ≠ a) :
    (s.ring1 v c a).brick (brickOf c b) = s.brick (brickOf c b) := by
  rw [State.ring1]
  split
  · exact (BrickLeaves.latchLine ..).others _ (brickOf_ne h)
  · rfl

theorem State.brick_ring1 (s : State) (v : Word) (c : Fin 13) (b : Fin 4) : (s.ring1 v c b).brick (brickOf c b) =
    { s.brick (brickOf c b) with io := { (s.brick (brickOf c b)).io with
      events := if v.getLsbD b.val then (s.brick (brickOf c b)).io.events ||| 0x2000 else (s.brick (brickOf c b)).io.events } } := by
  rw [State.ring1, bit]
  split
  · exact State.brick_latchLine s _ 13
  · rfl

theorem RingLeaves.dbell (s : State) (bk : Fin 52) (v : Word) : RingLeaves (courseOf bk) s (s.dbell bk v) :=
  foldl_rel (RingLeaves (courseOf bk)) (.refl _) (fun _ _ _ => .trans) _ (fun s b => .ring1 s v _ b) _ s

theorem State.brick_dbell {k : Fin 52} (s : State) (v : Word) (hk : courseOf k = courseOf bk) : (s.dbell bk v).brick k =
    { s.brick k with io := { (s.brick k).io with
      events := if v.getLsbD (k.val % 4) then (s.brick k).io.events ||| 0x2000 else (s.brick k).io.events } } := by
  obtain ⟨u, -, hu, he⟩ := foldl_member (R := RingLeaves (courseOf bk)) (g := fun s b => s.brick (brickOf (courseOf bk) b))
    (f := State.ring1 v (courseOf bk)) (.refl _) (fun _ _ _ => .trans) (fun s b => .ring1 s v _ b) (fun s a b h => s.brick_ring1_ne v _ a b h)
    (List.nodup_finRange 4) (List.mem_finRange (localOf k)) s
  have hd : s.dbell bk v = (List.finRange 4).foldl (State.ring1 v (courseOf bk)) s := rfl
  rw [State.brick_ring1, hu, ← hk, brickOf_courseOf] at he
  rw [hd, ← hk]
  exact he

theorem exec_dbell (hu : s.blocksUp = true) (hg : s.gated (courseOf bk) = false) (v : Word) : ∃ t, exec (.dbell bk v) s = .next t ∧
    RingLeaves (courseOf bk) s t ∧ ∀ k, t.brick k = (s.dbell bk v).brick k := by
  refine ⟨_, State.ioWriteNow_plain (a := 0x800) hu hg rfl v, ?_⟩
  have hl : s.ioWriteLive bk 0x800 v s.now = s.dbell bk v := rfl
  rw [hl]
  split
  · exact ⟨(RingLeaves.dbell s bk v).jrec _, fun k => State.brick_jrec ..⟩
  · exact ⟨.dbell s bk v, fun _ => rfl⟩

/-! ### Conflict counters (R153, R173) -/

/-- PF1, the chain manager and the keystone clear counters of every course (R153). -/
theorem State.confClrWrite_of_right {p : Party} (h : s.pf1MgrKey p = true) (c : Fin 13) (v : BitVec 8) :
    s.confClrWrite p c v = s.modCourse c (fun x => x.confClear v) := by
  cases p with
  | brick k => exact absurd h Bool.false_ne_true
  | pf0 | pf1 | tap | keystone | chain =>
    unfold State.confClrWrite
    simp only [h, if_true]

theorem exec_confClr {p : Party} (hu : s.blocksUp = true) (h : s.pf1MgrKey p = true) (c : Fin 13) (v : BitVec 8) :
    exec (.confClr p c v) s = .next (s.modCourse c (fun x => x.confClear v)) := by
  have he : exec (.confClr p c v) s = execConfClr p c v s := rfl
  rw [he, execConfClr, s.when_of_true _ hu, State.confClrWrite_of_right h]

/-- CONF_LO(m), a register of its own for each master. -/
theorem plain_confLo (m : Fin 8) : plainAccess (0x810 + 2 * m.val) = .ro ∧ ioJournaled (0x810 + 2 * m.val) = false := by
  revert m
  decide

theorem State.ioReadLive_confLo (s : State) (bk : Fin 52) (m : Fin 8) (t : Nat) : s.ioReadLive bk (0x810 + 2 * m.val) t =
    ((s.course (courseOf bk)).conf[m].extractLsb' 0 16, s.setBrick bk { s.brick bk with io := { (s.brick bk).io with
      confHi := (s.brick bk).io.confHi.set m ((s.course (courseOf bk)).conf[m].extractLsb' 16 16) } }) := by
  fin_cases m <;> rfl

theorem exec_confLoRead (hu : s.blocksUp = true) (hg : s.gated (courseOf bk) = false) (m : Fin 8) : exec (.confLoRead bk m) s =
    .next { s.setBrick bk { s.brick bk with io := { (s.brick bk).io with
      confHi := (s.brick bk).io.confHi.set m ((s.course (courseOf bk)).conf[m].extractLsb' 16 16) } } with
      readValue := ((s.course (courseOf bk)).conf[m].extractLsb' 0 16).setWidth 32 } := by
  obtain ⟨hacc, hj⟩ := plain_confLo m
  have he : exec (.confLoRead bk m) s = s.ioReadNow bk (0x810 + 2 * m.val) := rfl
  rw [he, State.ioReadNow_plain hu hg (by omega) hacc, State.ioRead_plain s bk s.now hj (by omega), State.ioReadLive_confLo]

/-! ### Times (R156, R173) -/

theorem timeWords_frac (n : Nat) : ((timeWords n).extractLsb' 0 16).toNat = fracOf n := by
  have hl : (timeWords n).extractLsb' 0 16 = BitVec.ofNat 16 (fracOf n) := BitVec.extractLsb'_append_eq_right
  have hf : fracOf n < 2 ^ 16 := Nat.div_lt_of_lt_mul (Nat.mod_lt n (by decide))
  rw [hl, BitVec.toNat_ofNat, Nat.mod_eq_of_lt hf]

/-- The brick once TIME_W0 to TIME_W5 hold time n. -/
def Brick.latchTime (b : Brick) (n : Nat) : Brick := { b with io := { b.io with timeLatch := timeWords n } }

theorem State.ioReadLive_timeW0 (s : State) (bk : Fin 52) (t : Nat) : s.ioReadLive bk 0xC0 t =
    ((timeWords (s.brickTime (s.brick bk).io.timeSel t)).extractLsb' 0 16,
      s.setBrick bk ((s.brick bk).latchTime (s.brickTime (s.brick bk).io.timeSel t))) := rfl

theorem exec_timeW0Read (hu : s.blocksUp = true) (hg : s.gated (courseOf bk) = false) (hm : (s.course (courseOf bk)).mode ≠ 2) :
    ∃ u, BrickLeaves bk s u ∧ u.brick bk = (s.brick bk).latchTime (s.brickTime (s.brick bk).io.timeSel s.now) ∧ exec (.timeW0Read bk) s =
      .next { u with readValue := ((timeWords (s.brickTime (s.brick bk).io.timeSel s.now)).extractLsb' 0 16).setWidth 32 } := by
  have he : exec (.timeW0Read bk) s = s.ioReadNow bk 0xC0 := rfl
  rw [he, State.ioReadNow_plain hu hg (by omega) rfl, State.ioRead_time s s.now hm, State.ioReadLive_timeW0]
  dsimp only
  refine ⟨_, ?_, ?_, rfl⟩
  · exact (BrickLeaves.setBrick s bk _).jrec _ _
  · exact (State.brick_jrec ..).trans (State.brick_setBrick ..)

/-- The brick once a write of v to TIME_SEL is done: the value 3 is ignored. -/
def Brick.selectTime (b : Brick) (v : Word) : Brick := { b with io := if bits v 1 0 = 3 then b.io else { b.io with timeSel := v.extractLsb' 0 2 } }

theorem Brick.selectTime_eq (b : Brick) (v : Word) :
    b.selectTime v = { b with io := { b.io with timeSel := if v.toNat % 4 = 3 then b.io.timeSel else v.extractLsb' 0 2 } } := by
  have hv : bits v 1 0 = v.toNat % 4 := bits_low v 1
  rw [Brick.selectTime, hv]
  by_cases h : v.toNat % 4 = 3
  · rw [if_pos h, if_pos h]
  · rw [if_neg h, if_neg h]

theorem exec_timeSelWrite (hu : s.blocksUp = true) (hg : s.gated (courseOf bk) = false) (v : Word) : ∃ t, exec (.timeSelWrite bk v) s = .next t ∧
    t = { s with bricks := t.bricks, journal := t.journal } ∧ (∀ k, k ≠ bk → t.brick k = s.brick k) ∧ t.brick bk = (s.brick bk).selectTime v :=
  State.ioWriteNow_sets (a := 0xC6) hu hg rfl rfl

/-! ### Compares (R518) -/

/-- The seconds nearest to n that end in v (R518). -/
def nearestSec (n v : Nat) : Nat :=
  if (v + 65536 - n % 65536) % 65536 < 32768 then n + (v + 65536 - n % 65536) % 65536 else n + (v + 65536 - n % 65536) % 65536 - 65536

theorem nearestSec_spec {n v : Nat} (hn : 32768 ≤ n) (hv : v < 65536) :
    nearestSec n v % 65536 = v ∧ n ≤ nearestSec n v + 32768 ∧ nearestSec n v ≤ n + 32767 := by
  unfold nearestSec
  split <;> omega

/-- The brick once a write of v to TIME_CMP2 has armed the compare at n seconds, or left it unarmed. -/
def Brick.armed (b : Brick) (v : Word) (n : Nat) : Brick := { b with io := { b.io with
  cmp2 := v
  armed := if b.io.cmp1.toNat * 65536 + b.io.cmp0.toNat < 1000000000 then
    some ⟨b.io.timeSel, b.io.cmp1.toNat * 65536 + b.io.cmp0.toNat, nearestSec n v.toNat⟩ else none
  events := b.io.events &&& 0xEFFF } }

theorem exec_timeCmp2Write (hu : s.blocksUp = true) (hg : s.gated (courseOf bk) = false) (v : Word) : ∃ t, exec (.timeCmp2Write bk v) s = .next t ∧
    t = { s with bricks := t.bricks, journal := t.journal } ∧ (∀ k, k ≠ bk → t.brick k = s.brick k) ∧
    t.brick bk = (s.brick bk).armed v (secOf (s.brickTime (s.brick bk).io.timeSel s.now)) :=
  State.ioWriteNow_sets (a := 0xCA) hu hg rfl rfl

theorem exec_timeCompareMatch {a : ArmedCompare} (hu : s.blocksUp = true) (ha : (s.brick bk).io.armed = some a) : exec (.timeCompareMatch bk) s =
    .next (((s.at_ (s.brickTimeReach a.sel (a.sec * unitsPerSec + a.ns * 2 ^ 48) s.now)).setBrick bk
      { s.brick bk with io := { (s.brick bk).io with armed := none } }).latchLine bk 12) := by
  have he : exec (.timeCompareMatch bk) s = execTimeCompareMatch bk s := rfl
  rw [he, execTimeCompareMatch]
  simp only [ha, s.when_of_true _ hu]

/-! ### Markers (R173, R487, R489) -/

theorem State.journalTrig_recs (s : State) :
    s.journalTrig = { s with journal := s.journalTrig.journal } ∧ s.journalTrig.journal.recs = s.journal.recs := by
  unfold State.journalTrig
  split <;> exact ⟨rfl, rfl⟩

/-- A marker changes the journal alone, by its record and the trigger that it may be. -/
theorem State.markJournal_recs (s : State) (bk : Fin 52) (v : Word) (t : Nat) :
    s.markJournal bk v t = { s with journal := (s.markJournal bk v t).journal } ∧ (s.markJournal bk v t).journal.recs =
      (s.jrec (courseOf bk) (.mark (localOf bk) v ((s.course (courseOf bk)).cycleAt t))).journal.recs := by
  unfold State.markJournal
  dsimp only
  split
  · obtain ⟨hf, hr⟩ := State.journalTrig_recs (s.jrec (courseOf bk) (.mark (localOf bk) v ((s.course (courseOf bk)).cycleAt t)))
    refine ⟨?_, hr⟩
    rw [hf, State.jrec_eq]
  · exact ⟨State.jrec_eq .., rfl⟩

theorem State.markJournal_of_not_journaled (h : s.journaled (courseOf bk) = false) (v : Word) (t : Nat) : s.markJournal bk v t = s := by
  simp only [State.markJournal, State.jrec_of_not_journaled h, h, Bool.false_eq_true, false_and, if_false]

/-- A journal that wraps and records the course ends with the marker. -/
theorem State.getLast_markJournal (h : s.journaled (courseOf bk) = true) (hw : bit s.journal.cfg 30 = false) (v : Word) (t : Nat) :
    ∃ e, (s.markJournal bk v t).journal.recs.getLast? = some e ∧ e.what = .mark (localOf bk) v ((s.course (courseOf bk)).cycleAt t) := by
  obtain ⟨j, -, hc, he⟩ := State.jrec_of_journaled (r := .mark (localOf bk) v ((s.course (courseOf bk)).cycleAt t)) h
  obtain ⟨-, hl⟩ := Journal.put_of_wrap j (.mark (localOf bk) v ((s.course (courseOf bk)).cycleAt t)) (hc.symm ▸ hw)
  exact ⟨_, by rw [(State.markJournal_recs ..).2, he, hl], rfl⟩

theorem exec_jmark (hu : s.blocksUp = true) (hg : s.gated (courseOf bk) = false) (v : Word) : exec (.jmark bk v) s = .next
    (if bit s.journal.cfg 29 then (s.markJournal bk v s.now).jrec (courseOf bk) (.out (localOf bk) 0x830 v ((s.course (courseOf bk)).cycleAt s.now))
      else s.markJournal bk v s.now) := State.ioWriteNow_plain (a := 0x830) hu hg rfl v

end

end Sys2Proof.Machine
end

section
/-! Settles O16: the registers of a brick. -/

namespace Sys2Proof.Machine

/-- Settles O16: each register as an I/O access by itself (`State.ioWriteNow_plain`, `State.ioReadNow_plain`), the doorbells brick by brick
(`State.brick_dbell`), the compare by `nearestSec_spec`, the marker by `State.getLast_markJournal`. -/
theorem brickRegistersAct : Obligations.BrickRegistersAct := by
  unfold Obligations.BrickRegistersAct
  refine ⟨?evClr, ?dbell, ?confClr, ?confLo, ?timeW0, ?timeSel, ?timeCmp2, ?compare, ?jmark⟩
  case evClr => exact fun s bk v hu hg => State.ioWriteNow_sets (a := 0x001) hu hg rfl rfl
  case dbell =>
    intro s bk v hu hg
    obtain ⟨t, hx, hl, hb⟩ := exec_dbell hu hg v
    exact ⟨t, hx, hl.frame, hl.others, fun k hk => (hb k).trans (State.brick_dbell s v hk)⟩
  case confClr =>
    intro s p c v hu hp
    refine ⟨_, exec_confClr hu hp c v, rfl, fun k hk => State.course_modCourse_ne s _ hk, ?_, fun m => ?_⟩
    · rw [State.course_modCourse]
      rfl
    · rw [State.course_modCourse]
      exact Vector.getElem_ofFn m.isLt
  case confLo =>
    intro s bk m hu hg
    refine ⟨_, exec_confLoRead hu hg m, rfl, fun k hk => State.brick_setBrick_ne s _ hk, ?_, State.brick_setBrick ..⟩
    exact (BitVec.toNat_setWidth_of_le (by decide)).trans (BitVec.extractLsb'_toNat ..)
  case timeW0 =>
    intro s bk hu hg hm
    obtain ⟨u, hu, hb, hx⟩ := exec_timeW0Read hu hg hm
    refine ⟨_, hx, ?_, hu.others, hb, ?_⟩
    · conv_lhs => rw [hu.frame]
    · rw [← timeWords_frac]
      exact BitVec.toNat_setWidth_of_le (by decide)
  case timeSel =>
    intro s bk v hu hg
    rw [← Brick.selectTime_eq]
    exact exec_timeSelWrite hu hg v
  case timeCmp2 =>
    intro s bk v hu hg
    obtain ⟨t, hx, hf, hk, hb⟩ := exec_timeCmp2Write hu hg v
    refine ⟨t, hx, hf, hk, ?_⟩
    rw [hb]
    exact ⟨rfl, rfl, rfl, rfl, fun hn => if_neg (Nat.not_lt.mpr hn), fun hn => ⟨_, if_pos hn, fun hs => nearestSec_spec hs v.isLt⟩⟩
  case compare =>
    intro s bk a hu ha
    refine ⟨_, exec_timeCompareMatch hu ha, fun k hk => ?_, ?_, ?_⟩
    · rw [(BrickLeaves.latchLine ..).others k hk, State.brick_setBrick_ne _ _ hk, State.brick_of_at]
    · rw [State.brick_latchLine, State.brick_setBrick]
      rfl
    · rw [(BrickLeaves.latchLine ..).frame]
      rfl
  case jmark =>
    intro s bk v hu hg
    refine ⟨_, exec_jmark hu hg v, ?_, fun hj => ?_, fun hj hw ho => ?_⟩
    · split
      · rw [State.jrec_eq, (State.markJournal_recs s bk v s.now).1]
      · exact (State.markJournal_recs s bk v s.now).1
    · rw [State.markJournal_of_not_journaled hj, State.jrec_of_not_journaled hj, ite_self]
    · rw [ho, if_neg Bool.false_ne_true]
      exact State.getLast_markJournal hj hw v s.now

end Sys2Proof.Machine
end

section
/-! SUPPORT. BRK_CTRL and the debug registers of a brick: halt, resume, step, run, injection (R164, R167 to R171). -/

namespace Sys2Proof.Machine

/-! ### The fields of BRK_CTRL (R171) -/

/-- RUN and BKPT_HALT as they are, and one bit n more. -/
theorem ctrlFields (h r : Bool) (n : Fin 6) : ∀ v : Reg32, v = BitVec.ofNat 32 (b2n h * 16 + b2n r) ||| BitVec.twoPow 32 n.val →
    bit v 0 = (r || decide (n = 0)) ∧ bit v 1 = decide (n = 1) ∧ bit v 2 = decide (n = 2) ∧ bit v 3 = decide (n = 3) ∧
      bit v 4 = (h || decide (n = 4)) ∧ bit v 5 = decide (n = 5) ∧ (bits v 3 1 = 0 ↔ n ≠ 1 ∧ n ≠ 2 ∧ n ≠ 3) := by
  rintro v rfl
  revert h r n
  decide

theorem getLsbD_maskOf {w hi lo : Nat} (h : hi < w) (hl : lo ≤ hi) (i : Nat) : (maskOf w hi lo).getLsbD i = decide (lo ≤ i ∧ i ≤ hi) := by
  have hi1 : ∀ j, (BitVec.allOnes w >>> (w - (hi + 1 - lo))).getLsbD j = decide (w - (hi + 1 - lo) + j < w) := fun j => by
    rw [BitVec.getLsbD_ushiftRight, BitVec.getLsbD_allOnes]
  rw [maskOf, BitVec.getLsbD_shiftLeft, hi1, Bool.eq_iff_iff]
  simp only [Bool.and_eq_true, Bool.not_eq_true', decide_eq_true_eq, decide_eq_false_iff_not]
  omega

theorem getLsbD_setBits {w hi lo : Nat} (v : BitVec w) (h : hi < w) (hl : lo ≤ hi) (x i : Nat) : (setBits v hi lo x).getLsbD i =
    if lo ≤ i ∧ i ≤ hi then x.testBit (i - lo) else v.getLsbD i := by
  rw [setBits, BitVec.getLsbD_or, BitVec.getLsbD_and, BitVec.getLsbD_and, BitVec.getLsbD_not, BitVec.getLsbD_shiftLeft, BitVec.getLsbD_ofNat,
    getLsbD_maskOf h hl]
  by_cases hc : lo ≤ i ∧ i ≤ hi
  · have h1 : i < w := by omega
    have h2 : i - lo < w := by omega
    simp [hc, h1, h2]
  · by_cases hw : i < w
    · simp [hc, hw]
    · simp [hc, hw, BitVec.getLsbD_of_ge v i (by omega)]

/-- The fields below a field that is replaced are as they were. -/
theorem bits_setBits_below {w hi lo : Nat} (v : BitVec w) (h : hi < w) (hl : lo ≤ hi) (x : Nat) {a b : Nat} (hab : a < lo) :
    bits (setBits v hi lo x) a b = bits v a b := by
  refine congrArg BitVec.toNat (BitVec.eq_of_getLsbD_eq fun i hi => ?_)
  rw [BitVec.getLsbD_extractLsb', BitVec.getLsbD_extractLsb', getLsbD_setBits v h hl, if_neg (by omega)]

theorem bits_setBits_key (v : Reg32) (key : BitVec 8) : bits (setBits v 31 24 key.toNat) 31 24 = key.toNat := by
  refine congrArg BitVec.toNat (BitVec.eq_of_getLsbD_eq (x := (setBits v 31 24 key.toNat).extractLsb' 24 8) (y := key) fun i hi => ?_)
  rw [BitVec.getLsbD_extractLsb', getLsbD_setBits v (by decide) (by decide), if_pos (by omega), Nat.add_sub_cancel_left, decide_eq_true hi, Bool.true_and,
    BitVec.getLsbD]

section
variable {s : State} {p : Party} {bk : Fin 52} {v : Reg32}

/-! ### A write of BRK_CTRL (R166, R170, R171) -/

/-- The party may write what it asks for. -/
theorem State.brkCtrl_allowed (hp : s.pf1MgrKey p = true) (hd : bits v 3 1 = 0 ∨ s.debugs p bk) (h4 : bit v 4 = (s.brick bk).bkptHalt) :
    (!s.pf1MgrKey p || ((decide (bits v 3 1 ≠ 0) || (bit v 4 != (s.brick bk).bkptHalt)) && (!s.brickDebug p || s.gated (courseOf bk)))) = false := by
  rw [hp, h4, bne_self_eq_false]
  rcases hd with h0 | ⟨-, hd, -, hg⟩
  · simp [h0]
  · simp [hd, hg]

/-- RUN and BKPT_HALT written as they are leave the state. -/
theorem State.setBrick_runBit {r : Bool} (h : r = (s.brick bk).runBit) : s.setBrick bk { s.brick bk with runBit := r } = s := by
  rw [h]
  exact State.setBrick_brick s bk

theorem State.setBrick_bkptHalt {r : Bool} (h : r = (s.brick bk).bkptHalt) : s.setBrick bk { s.brick bk with bkptHalt := r } = s := by
  rw [h]
  exact State.setBrick_brick s bk

/-- A reset with its key (R172). -/
theorem State.brkCtrlWrite_reset (hp : s.pf1MgrKey p = true) (hd : bits v 3 1 = 0) (h0 : bit v 0 = (s.brick bk).runBit)
    (h4 : bit v 4 = (s.brick bk).bkptHalt) (h5 : bit v 5 = true) (hk : bits v 31 24 = 0xB7) :
    s.brkCtrlWrite p bk v = (s.ungateCourse (courseOf bk) 0).resetBrick bk := by
  unfold State.brkCtrlWrite
  dsimp only
  rw [if_neg (ne_true_of_eq_false (State.brkCtrl_allowed hp (.inl hd) h4)), if_pos ⟨h5, hk⟩, State.setBrick_runBit h0]

/-- A write that keeps RUN and does not reset: its debug bits act. -/
theorem State.brkCtrlWrite_acts (hp : s.pf1MgrKey p = true) (hd : bits v 3 1 = 0 ∨ s.debugs p bk) (h0 : bit v 0 = (s.brick bk).runBit)
    (h4 : bit v 4 = (s.brick bk).bkptHalt) (hk : ¬(bit v 5 = true ∧ bits v 31 24 = 0xB7)) : s.brkCtrlWrite p bk v =
      if bit v 2 then (if bit v 1 then s.haltBrick bk else s).resumeBrick bk
      else if bit v 3 then (if bit v 1 then s.haltBrick bk else s).stepBrick bk else if bit v 1 then s.haltBrick bk else s := by
  have hn : ∀ q : Prop, ¬(bit v 0 = true ∧ (s.brick bk).runBit = false ∧ q) := fun q ⟨h1, h2, _⟩ => by simp [h1, h2] at h0
  unfold State.brkCtrlWrite
  dsimp only
  rw [if_neg (ne_true_of_eq_false (State.brkCtrl_allowed hp hd h4)), if_neg hk, State.setBrick_runBit h0, State.modBrick_eq,
    State.setBrick_bkptHalt h4, if_neg (hn _)]

/-- RUN set on an idle brick of a released course (R171). -/
theorem State.brkCtrlWrite_run (hp : s.pf1MgrKey p = true) (hd : bits v 3 1 = 0) (h0 : bit v 0 = true) (h1 : bit v 1 = false) (h2 : bit v 2 = false)
    (h3 : bit v 3 = false) (h4 : bit v 4 = (s.brick bk).bkptHalt) (h5 : bit v 5 = false) (hr : (s.brick bk).runBit = false)
    (hi : (s.brick bk).run = .idle) (hl : (s.course (courseOf bk)).released = true) :
    s.brkCtrlWrite p bk v = (s.setBrick bk { s.brick bk with runBit := true }).startBrick bk := by
  have hb : bit v 4 = ((s.setBrick bk { s.brick bk with runBit := true }).brick bk).bkptHalt := by rw [State.brick_setBrick, h4]
  unfold State.brkCtrlWrite
  dsimp only
  rw [if_neg (ne_true_of_eq_false (State.brkCtrl_allowed hp (.inl hd) h4)), if_neg (fun h => by simp [h5] at h), h0, h1, h2, h3, State.modBrick_eq,
    State.setBrick_bkptHalt hb]
  simp only [Bool.false_eq_true, if_false, State.brick_setBrick, hr, hi, State.released, State.course_of_setBrick, hl, and_self, if_true]

/-! ### The commands that write BRK_CTRL -/

/-- The value that a command writes, with the bits that it sets (R171). -/
theorem Brick.ctrlWith_fields (b : Brick) (n : Fin 6) : bit (b.ctrlWith n.val) 0 = (b.runBit || decide (n = 0)) ∧
    bit (b.ctrlWith n.val) 1 = decide (n = 1) ∧ bit (b.ctrlWith n.val) 2 = decide (n = 2) ∧ bit (b.ctrlWith n.val) 3 = decide (n = 3) ∧
      bit (b.ctrlWith n.val) 4 = (b.bkptHalt || decide (n = 4)) ∧ bit (b.ctrlWith n.val) 5 = decide (n = 5) ∧
      (bits (b.ctrlWith n.val) 3 1 = 0 ↔ n ≠ 1 ∧ n ≠ 2 ∧ n ≠ 3) := ctrlFields b.bkptHalt b.runBit n _ rfl

/-- HALT, RESUME and STEP by a party with debug rights. -/
theorem State.brkCtrlWrite_ctrlWith (h : s.debugs p bk) {n : Fin 6} (hn : n = 1 ∨ n = 2 ∨ n = 3) : s.brkCtrlWrite p bk ((s.brick bk).ctrlWith n.val) =
    if n = 1 then s.haltBrick bk else if n = 2 then s.resumeBrick bk else s.stepBrick bk := by
  obtain ⟨-, -, hp, -⟩ := id h
  obtain ⟨h0, h1, h2, h3, h4, h5, -⟩ := (s.brick bk).ctrlWith_fields n
  rw [State.brkCtrlWrite_acts hp (.inr h), h1, h2, h3]
  · rcases hn with rfl | rfl | rfl <;> rfl
  · rcases hn with rfl | rfl | rfl <;> exact h0.trans (Bool.or_false _)
  · rcases hn with rfl | rfl | rfl <;> exact h4.trans (Bool.or_false _)
  · rw [h5]
    rcases hn with rfl | rfl | rfl <;> exact fun hk => Bool.false_ne_true hk.1

theorem exec_halt (h : s.debugs p bk) : exec (.halt p bk) s = .next (s.haltBrick bk) := by
  have he : exec (.halt p bk) s = s.when_ s.blocksUp (fun s => s.brkCtrlWrite p bk ((s.brick bk).ctrlWith 1)) := rfl
  rw [he, s.when_of_true _ h.1]
  exact congrArg _ (State.brkCtrlWrite_ctrlWith h (n := 1) (.inl rfl))

theorem exec_resume (h : s.debugs p bk) : exec (.resume p bk) s = .next (s.resumeBrick bk) := by
  have he : exec (.resume p bk) s = s.when_ s.blocksUp (fun s => s.brkCtrlWrite p bk ((s.brick bk).ctrlWith 2)) := rfl
  rw [he, s.when_of_true _ h.1]
  exact congrArg _ (State.brkCtrlWrite_ctrlWith h (n := 2) (.inr (.inl rfl)))

theorem exec_step (h : s.debugs p bk) : exec (.step p bk) s = .next (s.stepBrick bk) := by
  have he : exec (.step p bk) s = s.when_ s.blocksUp (fun s => s.brkCtrlWrite p bk ((s.brick bk).ctrlWith 3)) := rfl
  rw [he, s.when_of_true _ h.1]
  exact congrArg _ (State.brkCtrlWrite_ctrlWith h (n := 3) (.inr (.inr rfl)))

theorem exec_run (hu : s.blocksUp = true) (hp : s.pf1MgrKey p = true) (hi : (s.brick bk).run = .idle) (hr : (s.brick bk).runBit = false)
    (hl : (s.course (courseOf bk)).released = true) :
    exec (.run p bk) s = .next ((s.setBrick bk { s.brick bk with runBit := true }).startBrick bk) := by
  have he : exec (.run p bk) s = s.when_ s.blocksUp (fun s => s.brkCtrlWrite p bk ((s.brick bk).ctrlWith 0)) := rfl
  obtain ⟨h0, h1, h2, h3, h4, h5, hd⟩ := (s.brick bk).ctrlWith_fields 0
  rw [he, s.when_of_true _ hu]
  exact congrArg _ (State.brkCtrlWrite_run hp (hd.mpr (by decide)) (h0.trans (Bool.or_true _)) h1 h2 h3 (h4.trans (Bool.or_false _)) h5 hr hi hl)

/-- The value that BRICK_RESET writes: RUN and BKPT_HALT as they are, RESET, and the key. -/
theorem Brick.resetWrite_fields (b : Brick) (key : BitVec 8) : ∀ v, v = setBits (b.ctrlWith 5) 31 24 key.toNat →
    bit v 0 = b.runBit ∧ bit v 1 = false ∧ bit v 2 = false ∧ bit v 3 = false ∧ bit v 4 = b.bkptHalt ∧ bit v 5 = true ∧ bits v 3 1 = 0 ∧
      bits v 31 24 = key.toNat := by
  rintro v rfl
  have hb : ∀ i, i < 24 → bit (setBits (b.ctrlWith 5) 31 24 key.toNat) i = bit (b.ctrlWith 5) i := fun i hi =>
    (getLsbD_setBits (b.ctrlWith 5) (by decide) (by decide) _ i).trans (if_neg (by omega))
  obtain ⟨h0, h1, h2, h3, h4, h5, hd⟩ := b.ctrlWith_fields 5
  refine ⟨?_, ?_, ?_, ?_, ?_, ?_, ?_, bits_setBits_key _ key⟩
  · exact (hb 0 (by decide)).trans (h0.trans (Bool.or_false _))
  · exact (hb 1 (by decide)).trans h1
  · exact (hb 2 (by decide)).trans h2
  · exact (hb 3 (by decide)).trans h3
  · exact (hb 4 (by decide)).trans (h4.trans (Bool.or_false _))
  · exact (hb 5 (by decide)).trans h5
  · exact (bits_setBits_below _ (by decide) (by decide) _ (by decide)).trans (hd.mpr (by decide))

theorem exec_brickReset_eq (hu : s.blocksUp = true) (key : BitVec 8) :
    exec (.brickReset p bk key) s = .next (s.brkCtrlWrite p bk (setBits ((s.brick bk).ctrlWith 5) 31 24 key.toNat)) := by
  have he : exec (.brickReset p bk key) s =
    s.when_ s.blocksUp (fun s => s.brkCtrlWrite p bk (setBits ((s.brick bk).ctrlWith 5) 31 24 key.toNat)) := rfl
  rw [he, s.when_of_true _ hu]

theorem exec_brickReset (hu : s.blocksUp = true) (hp : s.pf1MgrKey p = true) :
    exec (.brickReset p bk 0xB7) s = .next ((s.ungateCourse (courseOf bk) 0).resetBrick bk) := by
  obtain ⟨h0, -, -, -, h4, h5, hd, hk⟩ := (s.brick bk).resetWrite_fields 0xB7 _ rfl
  rw [exec_brickReset_eq hu, State.brkCtrlWrite_reset hp hd h0 h4 h5 hk]

/-- With another key nothing happens (R172). -/
theorem exec_brickReset_wrongKey {key : BitVec 8} (hu : s.blocksUp = true) (hp : s.pf1MgrKey p = true) (hne : key ≠ 0xB7) :
    exec (.brickReset p bk key) s = .next s := by
  obtain ⟨h0, h1, h2, h3, h4, -, hd, hk⟩ := (s.brick bk).resetWrite_fields key _ rfl
  have hn : bits (setBits ((s.brick bk).ctrlWith 5) 31 24 key.toNat) 31 24 ≠ 0xB7 := fun h => hne (BitVec.eq_of_toNat_eq (hk.symm.trans h))
  rw [exec_brickReset_eq hu, State.brkCtrlWrite_acts hp (.inl hd) h0 h4 (fun h => hn h.2), h1, h2, h3]
  rfl

/-! ### A brick that starts (R169, R171) -/

/-- The brick as it starts to run at its PC at root time t. -/
def Brick.started (b : Brick) (t : Nat) : Brick :=
  { (b.goTo .running t).goPc b.pc t with stopCause := 0, haltReq := false, stopReq := false }

theorem State.startBrick_eq (s : State) (bk : Fin 52) :
    s.startBrick bk = s.setBrick bk ((s.brick bk).started ((s.course (courseOf bk)).edgeAt s.now + 4)) := rfl

theorem State.resumeBrick_held (h : (s.brick bk).held = true) : s.resumeBrick bk = (s.startBrick bk).debugRecord bk 1 0 := if_pos h

/-! ### Debug registers and injection (R164, R168, R171) -/

theorem exec_dbgRegWrite_eq (hu : s.blocksUp = true) (off : BitVec 8) (v : Reg32) :
    exec (.dbgRegWrite p bk off v) s = .next (s.brickBlockWrite p bk off.toNat v) := by
  have he : exec (.dbgRegWrite p bk off v) s = s.when_ s.blocksUp (fun s => s.brickBlockWrite p bk off.toNat v) := rfl
  rw [he, s.when_of_true _ hu]

/-- A debug register of a held brick is written, and the journal takes it. -/
theorem State.brickBlockWrite_held (h : s.debugs p bk) (hh : (s.brick bk).held = true) {off : Nat} (ho : 0x20 ≤ off) (v : Reg32) :
    s.brickBlockWrite p bk off v = (s.setBrick bk ((s.brick bk).dbgWrite off v)).debugRecord bk 3 (BitVec.ofNat 32 off ++ v) := by
  obtain ⟨-, hd, -, hg⟩ := h
  rw [State.brickBlockWrite, if_neg (by omega), if_neg (by simp [hd, hg]), if_neg (by omega), if_neg (by omega), if_pos ⟨hh, ho⟩, State.modBrick_eq]

theorem exec_dbgRegWrite (h : s.debugs p bk) (hh : (s.brick bk).held = true) {off : BitVec 8} (ho : 0x20 ≤ off.toNat) (v : Reg32) :
    ∃ t, exec (.dbgRegWrite p bk off v) s = .next t ∧ t = { s with bricks := t.bricks, journal := t.journal } ∧
      (∀ k, k ≠ bk → t.brick k = s.brick k) ∧ t.brick bk = (s.brick bk).dbgWrite off.toNat v := by
  rw [exec_dbgRegWrite_eq h.1, State.brickBlockWrite_held h hh ho]
  have hj := (BrickLeaves.setBrick s bk ((s.brick bk).dbgWrite off.toNat v)).jrec (courseOf bk)
    (.dbg (localOf bk) 3 (BitVec.ofNat 32 off.toNat ++ v) ((s.course (courseOf bk)).cycleAt s.now))
  exact ⟨_, rfl, hj.frame, hj.others, (State.brick_jrec ..).trans (State.brick_setBrick ..)⟩

theorem Brick.dbgWrite_pc (b : Brick) (v : Reg32) : b.dbgWrite 0x20 v = { b with pc := v.extractLsb' 0 16, pre := [] } := rfl

theorem Brick.dbgWrite_reg (b : Brick) (x : Fin 16) (v : Reg32) :
    b.dbgWrite (0x40 + 4 * x.val) v = b.setR (BitVec.ofNat 4 x.val) (v.extractLsb' 0 16) := by
  have hx : (0x40 + 4 * x.val - 0x40) / 4 = x.val := by omega
  rw [Brick.dbgWrite, if_neg (by omega), if_pos (by omega), hx]

theorem Brick.dbgWrite_tstat (b : Brick) (v : Reg32) : b.dbgWrite 0xD0 v = { b with trep := v.getLsbD 1, inTrap := v.getLsbD 0 } := by
  have h1 : bit (v.extractLsb' 0 16) 1 = v.getLsbD 1 := by simp [bit]
  have h0 : bit (v.extractLsb' 0 16) 0 = v.getLsbD 0 := by simp [bit]
  rw [← h1, ← h0]
  rfl

theorem exec_injGo (h : s.debugs p bk) : exec (.injGo p bk) s = .next (s.injGo bk []) := by
  obtain ⟨hu, hd, -, hg⟩ := h
  have he : exec (.injGo p bk) s = s.when_ s.blocksUp (fun s => s.brickBlockWrite p bk 0x0C 1) := rfl
  rw [he, s.when_of_true _ hu, State.brickBlockWrite, if_neg (by omega), if_neg (by simp [hd, hg]), if_neg (by omega), if_pos rfl, if_pos (by decide)]

/-- A running or waiting brick takes an injection at its boundary. -/
theorem State.injGo_counts (h : (s.brick bk).counts = true) (ct : Contention) :
    s.injGo bk ct = s.setBrick bk { s.brick bk with inj := { (s.brick bk).inj with busy := true } } := by
  have hr : (s.brick bk).run = .running ∨ (s.brick bk).run = .waiting := by simpa [Brick.counts] using h
  rw [State.injGo]
  by_cases hb : (s.brick bk).inj.busy = true
  · rw [if_pos hb, ← hb]
    exact (State.setBrick_brick s bk).symm
  · rcases hr with hr | hr <;> simp only [hb, hr, Bool.false_eq_true, if_false]

theorem State.injGo_refused (h : (s.brick bk).run = .idle ∨ (s.brick bk).run = .stopped) (hb : (s.brick bk).inj.busy = false) (ct : Contention) :
    s.injGo bk ct = s.setBrick bk { s.brick bk with inj := { (s.brick bk).inj with result := 3 } } := by
  rw [State.injGo]
  rcases h with h | h <;> simp only [hb, h, Bool.false_eq_true, if_false]

end

end Sys2Proof.Machine
end

section
/-! SUPPORT. The halt at a boundary, and one instruction by STEP (R124, R144, R167, R169, R170). -/

namespace Sys2Proof.Machine

section
variable {s t : State} {bk : Fin 52} {i : BInstr}

/-! ### Debug records (R170, R487) -/

theorem BrickLeaves.debugRecord (h : BrickLeaves bk s t) (k : Fin 52) (what : BitVec 4) (w : BitVec 64) : BrickLeaves bk s (t.debugRecord k what w) := by
  unfold State.debugRecord
  exact h.jrec _ _

theorem State.brick_debugRecord (s : State) (k : Fin 52) (what : BitVec 4) (w : BitVec 64) (j : Fin 52) : (s.debugRecord k what w).brick j = s.brick j := by
  unfold State.debugRecord
  exact State.brick_jrec ..

theorem exec_debugHalt (hb : s.atBoundary bk = true) (hh : (s.brick bk).haltReq = true) (hi : (s.brick bk).inj.busy = false) :
    exec (.debugHalt bk) s = .next (((s.at_ (s.boundary bk)).setBrick bk { (s.brick bk).goTo .halted (s.boundary bk) with haltReq := false }).debugRecord bk 0 0) := by
  have hw : (s.atBoundary bk && ((s.brick bk).haltReq && !(s.brick bk).inj.busy)) = true := by rw [hb, hh, hi]; rfl
  have he : exec (.debugHalt bk) s = execDebugHalt bk s := rfl
  rw [he, execDebugHalt, s.when_of_true _ hw]

/-! ### The instruction at the PC, by itself (R102, R169) -/

/-- A word that R102 lets stand in every state of the brick. -/
theorem Brick.illegalWord_of_plain (b : Brick) (rep : Bool) {w w2 : Word} (hd : decodeBrick w w2 = some i) (hr : i ≠ .rett) (hm : i.isMtsRepc = false) :
    b.illegalWord rep w w2 = false := by
  rw [Brick.illegalWord, hd]
  cases i with
  | rett => exact absurd rfl hr
  | _ => exact Bool.and_eq_false_iff.mpr (.inl hm)

theorem State.issueAny_eq_settle (hin : (s.brick bk).inRep = false) (hb : (s.brick bk).coherent) (hi : (s.brick bk).holdsAt (s.brick bk).pc.toNat i)
    (hr : i ≠ .rett) (hm : i.isMtsRepc = false) :
    s.issueAny bk = (s.prepared bk).settle bk i.length (s.brick bk).ready (s.runs bk i []) := by
  have hp := State.pastEnd_prepared hb (hi.opLength.symm ▸ hi.2.1)
  have hl := ((s.prepared bk).brick bk).illegalWord_of_plain ((s.prepared bk).brick bk).inRep hi.decode hr hm
  rw [State.issueAny]
  simp only [hp, State.words_prepared hb, hl, hi.decode, Bool.false_eq_true, if_false]
  simp only [State.issueAt, State.inRep_prepared, hin, Bool.false_eq_true, if_false, State.words_prepared hb, State.pc_prepared, State.ready_prepared,
    hi.2.2.1]
  rfl

/-- Outside a REP sequence nothing is left to execute. -/
theorem State.runRep_of_not_inRep (h : (s.brick bk).inRep = false) (n : Nat) : s.runRep bk n = s := by
  cases n with
  | zero => rfl
  | succ n => exact if_neg fun hn => Bool.false_ne_true (h.symm.trans hn.1)

/-- The brick past a NOP, at its next issue. -/
def Brick.pastNop (b : Brick) : Brick := { b with ready := b.ready + 4 }.advance 1

theorem State.runOne_nop (hin : (s.brick bk).inRep = false) (hb : (s.brick bk).coherent) (hi : (s.brick bk).holdsAt (s.brick bk).pc.toNat .nop) :
    s.runOne bk = (s.prepared bk).setBrick bk ((s.prepared bk).brick bk).pastNop := by
  have hp : ((s.prepared bk).brick bk).inRep = false := (s.inRep_prepared bk).trans hin
  have hx : s.issueAny bk = (s.prepared bk).setBrick bk ((s.prepared bk).brick bk).pastNop := by
    have hr : s.runs bk .nop [] = ⟨s.prepared bk, .next, 1⟩ := rfl
    rw [State.issueAny_eq_settle hin hb hi nofun rfl, hr, State.settle_next hp, ← State.ready_prepared]
    rfl
  rw [State.runOne]
  simp only [hin, Bool.false_eq_true, if_false, hx]
  refine State.runRep_of_not_inRep ?_ _
  rw [State.brick_setBrick]
  exact hp

/-! ### STEP (R169) -/

theorem State.stepBrick_of_not_held (h : (s.brick bk).held = false) : s.stepBrick bk = s := if_neg (by rw [h]; exact Bool.false_ne_true)

/-- The brick as STEP leaves it after an instruction that goes on. -/
def Brick.stepped (b : Brick) : Brick := { b.goTo .halted b.ready with haltReq := false }

theorem State.stepBrick_of_running (h : (s.brick bk).held = true) (hr : (((s.startBrick bk).runOne bk).brick bk).run = .running) : s.stepBrick bk =
    (((s.startBrick bk).runOne bk).debugRecord bk 2 0).setBrick bk (((s.startBrick bk).runOne bk).brick bk).stepped := by
  rw [State.stepBrick, if_pos h, State.modBrick_eq, State.brick_debugRecord]
  simp only [hr]
  rfl

/-- A brick that starts has nothing of its words read ahead. -/
theorem Brick.coherent_started (b : Brick) (t : Nat) : (b.started t).coherent := fun _ hk => absurd hk (Nat.not_lt_zero _)

/-- STEP over a NOP. -/
theorem State.stepBrick_nop (hh : (s.brick bk).held = true) (hin : (s.brick bk).inRep = false) (hi : (s.brick bk).holdsAt (s.brick bk).pc.toNat .nop) :
    (∀ k, k ≠ bk → (s.stepBrick bk).brick k = s.brick k) ∧ ((s.stepBrick bk).brick bk).run = .halted ∧
      ((s.stepBrick bk).brick bk).pc = (s.brick bk).pc + 1 ∧ ((s.stepBrick bk).brick bk).g = (s.brick bk).g ∧
      ((s.stepBrick bk).brick bk).rstk = (s.brick bk).rstk ∧ ((s.stepBrick bk).brick bk).inTrap = (s.brick bk).inTrap ∧
      ((s.stepBrick bk).brick bk).tpc = (s.brick bk).tpc := by
  have hs : (s.startBrick bk).brick bk = (s.brick bk).started ((s.course (courseOf bk)).edgeAt s.now + 4) := State.brick_setBrick ..
  have hone : (s.startBrick bk).runOne bk = _ := State.runOne_nop (by rw [hs]; exact hin) (by rw [hs]; exact Brick.coherent_started _ _) (by rw [hs]; exact hi)
  have hp : ((s.startBrick bk).prepared bk).brick bk = _ := State.brick_prepared_eq ..
  rw [hs] at hp
  rw [State.stepBrick_of_running hh (by rw [hone, State.brick_setBrick, hp]; rfl), hone]
  refine ⟨fun k hk => ?_, ?_⟩
  · rw [State.brick_setBrick_ne _ _ hk, State.brick_debugRecord, State.brick_setBrick_ne _ _ hk, State.brick_prepared_ne _ hk, State.startBrick_eq,
      State.brick_setBrick_ne _ _ hk]
  · rw [State.brick_setBrick, State.brick_setBrick, hp]
    dsimp only [Brick.stepped, Brick.pastNop, Brick.advance, Brick.goTo, Brick.started, Brick.goPc]
    exact ⟨rfl, rfl, rfl, rfl, rfl, rfl⟩

end

end Sys2Proof.Machine
end

section
/-! SUPPORT. The BRICK reset: the brick itself, and that the reset of its mailboxes changes of an awake brick the line MBE at most (R8, R81, R94,
R157, R172, R441, R442). -/

namespace Sys2Proof.Machine

/-! ### What every part of a mailbox operation keeps, a reset of a party keeps -/

/-- A relation that holds over what changes neither bricks nor courses, over an empty event at a brick, and over the wake of a course. -/
structure MailRelation (R : State → State → Prop) : Prop where
  trans : ∀ {s t u}, R s t → R t u → R s u
  quiet : ∀ {s t}, t.bricks = s.bricks → t.courses = s.courses → R s t
  latch : ∀ s k, R s (s.latchLine k 11)
  wake : ∀ s c n, R s (s.ungateCourse c n)

namespace MailRelation

variable {R : State → State → Prop}

theorem ite {s t u : State} {p : Prop} [Decidable p] (ht : R s t) (hu : R s u) : R s (if p then t else u) := by
  split
  · exact ht
  · exact hu

variable (h : MailRelation R)
include h

theorem refl (s : State) : R s s := h.quiet rfl rfl

theorem setMailbox (s : State) (j : Fin 32) (m : Mailbox) : R s (s.setMailbox j m) := h.quiet rfl rfl

theorem recross (s : State) : R s s.recross := h.quiet rfl rfl

theorem setReplies (s : State) (l : List (Fin 32 × List Reg32)) : R s { s with keystone := { s.keystone with replies := l } } := h.quiet rfl rfl

theorem bumpEpoch (s : State) (p : Nat) : R s (s.bumpEpoch p) := h.quiet rfl rfl

theorem fireVector (s : State) (f : Bool) (v : Nat) : R s (s.fireVector f v) := h.quiet (Logs.fireVector s f v).bricks (Logs.fireVector s f v).courses

theorem mbNotice (s : State) (p n : Nat) (j : Fin 32) : R s (s.mbNotice p n j) := ite (h.quiet rfl rfl) (h.refl s)

theorem wakeEvent (s : State) (r : Nat) (j : Fin 32) : R s (s.wakeEvent r j) := by
  unfold State.wakeEvent
  refine ite (h.fireVector _ _ _) (ite (h.fireVector _ _ _) ?_)
  split
  · exact h.wake _ _ _
  · exact h.refl s

theorem emptyEvent (s : State) (p : Nat) (j : Fin 32) : R s (s.emptyEvent p j) := by
  unfold State.emptyEvent
  refine ite (h.fireVector _ _ _) (ite (h.fireVector _ _ _) ?_)
  split
  · exact h.latch _ _
  · exact h.mbNotice _ _ _ _

theorem postAs (s : State) (p : Nat) (ep : BitVec 4) (j : Fin 32) (n : Nat) : R s (s.postAs p ep j n) := by
  unfold State.postAs
  have hm : ∀ (x : State) (m : Mailbox) (r : Nat), R s x → R s ((x.setMailbox j m).wakeEvent r j) := fun x m r hx =>
    h.trans (h.trans hx (h.setMailbox x j m)) (h.wakeEvent _ r j)
  have hc : R s (if (s.mailboxes.toList.any fun y => y.crosses p (s.mailbox j).recv.toNat) = true then
      { s with mailboxes := s.mailboxes.map (fun y => if y.crosses p (s.mailbox j).recv.toNat then { y with crossed := true } else y) } else s) :=
    ite (h.quiet rfl rfl) (h.refl s)
  exact ite (h.trans (hm _ _ _ hc) (h.wakeEvent _ p j)) (hm _ _ _ hc)

theorem postReply (s : State) (j : Fin 32) : R s (s.postReply j) := by
  unfold State.postReply
  split
  · exact ite (h.trans (h.setReplies s _) (h.trans (h.setMailbox _ j _) (h.postAs _ _ _ j 8))) (h.refl s)
  · exact h.refl s

theorem unlockMail (s : State) (p : Nat) (j : Fin 32) : R s (s.unlockMail p j) := by
  unfold State.unlockMail
  dsimp only
  split
  · exact ite (h.trans (h.setMailbox s j _) (h.postReply _ j)) (h.refl s)
  · exact h.refl s

theorem discardMail (s : State) (r : Nat) (j : Fin 32) : R s (s.discardMail r j) := by
  unfold State.discardMail
  dsimp only
  refine ite ?_ (h.refl s)
  split
  · have hm := h.trans (h.setMailbox s j { (s.mailbox j).emptied with bell := false, discarded := true, dcount := satInc (s.mailbox j).dcount }) (h.recross _)
    exact h.trans (ite (h.trans hm (h.mbNotice _ _ _ j)) (h.trans hm (h.emptyEvent _ _ j))) (h.postReply _ j)
  · exact h.setMailbox s j _

theorem resetParty (s : State) (p : Nat) : R s (s.resetParty p) := by
  unfold State.resetParty
  have hd := foldl_rel R h.refl (fun _ _ _ => h.trans) _ (fun s j => h.discardMail s p j) (List.finRange 32) s
  have hu := foldl_rel R h.refl (fun _ _ _ => h.trans) _ (fun s j => h.unlockMail s p j) (List.finRange 32)
  exact h.trans (h.trans hd (hu _)) (h.bumpEpoch _ p)

end MailRelation

/-! ### A brick whose course is awake -/

/-- While its course is awake, brick bk keeps its watchdog and every event line but MBE, line 11. -/
structure AwakeKeeps (bk : Fin 52) (s t : State) : Prop where
  awake : (s.course (courseOf bk)).gatedAt = none → (t.course (courseOf bk)).gatedAt = none
  wd : (s.course (courseOf bk)).gatedAt = none → (t.brick bk).wd = (s.brick bk).wd
  lines : (s.course (courseOf bk)).gatedAt = none → (t.brick bk).io.events &&& 0xF7FF = (s.brick bk).io.events &&& 0xF7FF

section
variable {s t u : State} {bk : Fin 52}

theorem AwakeKeeps.of_brick (hc : (s.course (courseOf bk)).gatedAt = none → (t.course (courseOf bk)).gatedAt = none) (hb : t.brick bk = s.brick bk) :
    AwakeKeeps bk s t := ⟨hc, fun _ => by rw [hb], fun _ => by rw [hb]⟩

theorem AwakeKeeps.trans (h1 : AwakeKeeps bk s t) (h2 : AwakeKeeps bk t u) : AwakeKeeps bk s u :=
  ⟨fun h => h2.awake (h1.awake h), fun h => (h2.wd (h1.awake h)).trans (h1.wd h), fun h => (h2.lines (h1.awake h)).trans (h1.lines h)⟩

theorem and_setBit_mbe (w : Word) : setBit w 11 true &&& 0xF7FF = w &&& 0xF7FF := by
  have hm : (0xF7FF : Word) &&& BitVec.twoPow 16 11 = 0#16 := by decide
  rw [setBit, if_pos rfl, BitVec.and_comm, BitVec.and_or_distrib_left, hm, BitVec.or_zero, BitVec.and_comm]

theorem AwakeKeeps.latchLine (s : State) (bk k : Fin 52) : AwakeKeeps bk s (s.latchLine k 11) := by
  have hl := BrickLeaves.latchLine s k 11
  have hc : (s.latchLine k 11).course (courseOf bk) = s.course (courseOf bk) := by
    rw [hl.frame]
    rfl
  by_cases hk : bk = k
  · subst hk
    refine ⟨fun h => hc ▸ h, fun _ => ?_, fun _ => ?_⟩
    · rw [State.brick_latchLine]
    · rw [State.brick_latchLine]
      exact and_setBit_mbe _
  · exact .of_brick (fun h => hc ▸ h) (hl.others bk hk)

@[simp] theorem State.brick_endGateHold (s : State) (q : PortCode) (k : Fin 52) : (s.endGateHold q).brick k = s.brick k := by
  rw [State.endGateHold_frame]
  rfl

/-- A course that wakes leaves the bricks of the others. -/
theorem State.brick_ungateCourse_ne (s : State) {c : Fin 13} (cause : BitVec 4) (h : courseOf bk ≠ c) : (s.ungateCourse c cause).brick bk = s.brick bk := by
  cases hg : (s.course c).gatedAt with
  | none => rw [State.ungateCourse_none cause hg]
  | some g =>
    obtain ⟨f, k, r, he⟩ := State.ungateCourse_shape cause hg
    rw [he, State.brick_jrec, State.brick_endGateHold]
    refine (foldl_part (State.brick · bk) ?_ _ _).trans ((BricksOf.foldl c (fun _ => f) _).2 bk h)
    exact fun _ _ => rfl

theorem State.awake_ungateCourse (s : State) (c : Fin 13) (cause : BitVec 4) : ((s.ungateCourse c cause).course c).gatedAt = none := by
  cases hg : (s.course c).gatedAt with
  | none => rw [State.ungateCourse_none cause hg, hg]
  | some g =>
    rw [State.course_ungateCourse cause hg]
    rfl

theorem AwakeKeeps.ungateCourse (s : State) (bk : Fin 52) (c : Fin 13) (cause : BitVec 4) : AwakeKeeps bk s (s.ungateCourse c cause) := by
  by_cases hc : courseOf bk = c
  · subst hc
    have hn : (s.course (courseOf bk)).gatedAt = none → (s.ungateCourse (courseOf bk) cause).brick bk = s.brick bk := fun h => by
      rw [State.ungateCourse_none cause h]
    exact ⟨fun _ => s.awake_ungateCourse _ _, fun h => by rw [hn h], fun h => by rw [hn h]⟩
  · exact .of_brick (fun h => ((WakeLeaves.ungateCourse s c cause).courses _ hc).symm ▸ h) (s.brick_ungateCourse_ne cause hc)

theorem awakeKeeps_mailRelation (bk : Fin 52) : MailRelation (AwakeKeeps bk) where
  trans := AwakeKeeps.trans
  quiet hb hc := .of_brick (fun h => by rwa [State.course, hc]) (by rw [State.brick, hb]; rfl)
  latch s k := .latchLine s bk k
  wake s c n := .ungateCourse s bk c n

/-! ### The BRICK reset (R94, R172) -/

/-- What stays of a brick over its reset. -/
theorem Brick.brickReset_eq (b : Brick) (start : Bool) (t : Nat) : b.brickReset start t = { Brick.reset with
    imem := b.imem, fm := b.fm, runBit := b.runBit, ready := t, feAt := (b.brickReset start t).feAt,
    run := if start then .running else .idle,
    inj := { Injection.reset with result := if b.inj.busy then 3 else 0 } } := by
  cases start <;> rfl

/-- Brick c is b after its reset: registers, PC, return stack, trap state, watchdog and event lines are those of a DEVICE reset, but for MBE. -/
structure Brick.ResetFrom (b c : Brick) (start : Bool) : Prop where
  regs : ∀ x, c.r x = 0
  pc : c.pc = 0
  rstk : c.rstk = []
  inTrap : c.inTrap = false
  repc : c.repc = 0
  events : c.io.events &&& 0xF7FF = 0
  armed : c.io.armed = none
  timeLatch : c.io.timeLatch = 0
  wd : c.wd = .reset
  imem : c.imem = b.imem
  fm : c.fm = b.fm
  runBit : c.runBit = b.runBit
  run : c.run = if start then .running else .idle
  result : b.inj.busy = true → c.inj.result = 3

theorem Brick.resetFrom_brickReset (b : Brick) (start : Bool) (t : Nat) : b.ResetFrom (b.brickReset start t) start := by
  rw [Brick.brickReset_eq]
  exact ⟨fun x => Vector.getElem_replicate x.isLt, rfl, rfl, rfl, rfl, BitVec.zero_and, rfl, rfl, rfl, rfl, rfl, rfl, rfl, fun h => if_pos h⟩

/-- Mailbox operations change no more of a brick. -/
theorem MailLeaves.resetFrom {b : Brick} {start : Bool} (h : MailLeaves s t) (hr : b.ResetFrom (s.brick bk) start)
    (hw : (t.brick bk).wd = (s.brick bk).wd) (he : (t.brick bk).io.events &&& 0xF7FF = (s.brick bk).io.events &&& 0xF7FF) :
    b.ResetFrom (t.brick bk) start := by
  have hb := h.2.2.1 bk
  refine ⟨?_, ?_, ?_, ?_, ?_, he.trans hr.events, ?_, ?_, hw.trans hr.wd, ?_, ?_, ?_, ?_, ?_⟩
  all_goals rw [hb]
  exacts [hr.regs, hr.pc, hr.rstk, hr.inTrap, hr.repc, hr.armed, hr.timeLatch, hr.imem, hr.fm, hr.runBit, hr.run, hr.result]

theorem State.resetBrick_eq (s : State) (bk : Fin 52) : s.resetBrick bk = (s.setBrick bk ((s.brick bk).brickReset
    ((s.brick bk).runBit && s.released bk) ((s.course (courseOf bk)).edgeAt s.now + 4))).resetParty (Party.num (.brick bk)) := rfl

/-- The brick of an awake course is reset; no other brick loses its registers or its place. -/
theorem State.resetBrick_resets (ha : (s.course (courseOf bk)).gatedAt = none) :
    (s.brick bk).ResetFrom ((s.resetBrick bk).brick bk) ((s.brick bk).runBit && s.released bk) ∧
      ∀ k, k ≠ bk → ((s.resetBrick bk).brick k).g = (s.brick k).g ∧ ((s.resetBrick bk).brick k).pc = (s.brick k).pc := by
  have hr := (s.brick bk).resetFrom_brickReset ((s.brick bk).runBit && s.released bk) ((s.course (courseOf bk)).edgeAt s.now + 4)
  rw [State.resetBrick_eq]
  generalize (s.brick bk).brickReset ((s.brick bk).runBit && s.released bk) ((s.course (courseOf bk)).edgeAt s.now + 4) = b at hr ⊢
  have hk := (awakeKeeps_mailRelation bk).resetParty (s.setBrick bk b) (Party.num (.brick bk))
  obtain ⟨x, hx, he⟩ := State.resetParty_mail (s.setBrick bk b) (Party.num (.brick bk))
  have hb : ∀ k, ((s.setBrick bk b).resetParty (Party.num (.brick bk))).brick k = x.brick k := fun k => by
    rw [he]
    rfl
  have hw := hk.wd ha
  have hl := hk.lines ha
  rw [hb] at hw hl
  refine ⟨?_, fun k hne => ?_⟩
  · rw [hb]
    exact hx.resetFrom (by rwa [State.brick_setBrick]) hw hl
  · rw [hb, hx.2.2.1 k, State.brick_setBrick_ne s b hne]
    exact ⟨rfl, rfl⟩

/-- What a wake of the course before the reset changes of the brick is lost in it. -/
theorem MailLeaves.resetFrom_of_woken {b : Brick} {start : Bool} (h : MailLeaves s t) (hr : (t.brick bk).ResetFrom b start) : (s.brick bk).ResetFrom b start := by
  have hb := h.2.2.1 bk
  have him : (t.brick bk).imem = (s.brick bk).imem := by rw [hb]
  have hfm : (t.brick bk).fm = (s.brick bk).fm := by rw [hb]
  have hrun : (t.brick bk).runBit = (s.brick bk).runBit := by rw [hb]
  have hinj : (t.brick bk).inj = (s.brick bk).inj := by rw [hb]
  exact { hr with imem := hr.imem.trans him, fm := hr.fm.trans hfm, runBit := hr.runBit.trans hrun, result := fun h => hr.result (hinj ▸ h) }

/-- A BRICK reset wakes the course and resets the brick (R70, R172). -/
theorem State.ungate_resetBrick_resets (s : State) (bk : Fin 52) :
    (s.brick bk).ResetFrom (((s.ungateCourse (courseOf bk) 0).resetBrick bk).brick bk) ((s.brick bk).runBit && (s.course (courseOf bk)).released) ∧
      ∀ k, k ≠ bk → (((s.ungateCourse (courseOf bk) 0).resetBrick bk).brick k).g = (s.brick k).g ∧
        (((s.ungateCourse (courseOf bk) 0).resetBrick bk).brick k).pc = (s.brick k).pc := by
  have hu := MailLeaves.ungateCourse s (courseOf bk) 0
  obtain ⟨hr, ho⟩ := State.resetBrick_resets (s.awake_ungateCourse (courseOf bk) 0)
  have hrun : ((s.ungateCourse (courseOf bk) 0).brick bk).runBit = (s.brick bk).runBit := by rw [hu.2.2.1 bk]
  have hrel : (s.ungateCourse (courseOf bk) 0).released bk = (s.course (courseOf bk)).released := by rw [State.released, hu.2.1]
  rw [hrun, hrel] at hr
  refine ⟨hu.resetFrom_of_woken hr, fun k hk => ?_⟩
  obtain ⟨hg, hpc⟩ := ho k hk
  have hb := hu.2.2.1 k
  exact ⟨hg.trans (by rw [hb]), hpc.trans (by rw [hb])⟩

end

end Sys2Proof.Machine
end

section
/-! Settles O17: the debug commands of a brick. -/

namespace Sys2Proof.Machine

/-- Settles O17: HALT, RESUME, STEP and RUN by the bits of BRK_CTRL that they write (`State.brkCtrlWrite_acts`), STEP over NOP by
`State.stepBrick_nop`, the reset by `State.ungate_resetBrick_resets`, the debug registers by `exec_dbgRegWrite`. -/
theorem bricksAreDebugged : Obligations.BricksAreDebugged := by
  unfold Obligations.BricksAreDebugged
  refine ⟨?halt, ?debugHalt, ?step, ?stepIdle, ?resume, ?reset, ?wrongKey, ?run, ?pc, ?reg, ?tstat, ?inject, ?refused⟩
  case halt => exact fun s p bk h => ⟨_, exec_halt h, rfl, fun k hk => State.brick_modBrick_ne s _ hk, State.brick_modBrick ..⟩
  case debugHalt =>
    intro s bk hb hh hi
    have hl := (BrickLeaves.setBrick (s.at_ (s.boundary bk)) bk { (s.brick bk).goTo .halted (s.boundary bk) with haltReq := false }).debugRecord bk 0 0
    refine ⟨_, exec_debugHalt hb hh hi, hl.frame, hl.others, ?_⟩
    rw [State.brick_debugRecord, State.brick_setBrick]
    exact ⟨rfl, rfl, rfl, rfl, rfl, rfl⟩
  case step =>
    intro s p bk h hh hin hi
    obtain ⟨ho, hrest⟩ := State.stepBrick_nop hh hin hi
    exact ⟨_, exec_step h, ho, hrest⟩
  case stepIdle =>
    intro s p bk h hh
    refine ⟨s, ?_, rfl, fun _ => rfl⟩
    rw [exec_step h, State.stepBrick_of_not_held hh]
  case resume =>
    intro s p bk h hh
    have hl := (BrickLeaves.setBrick s bk ((s.brick bk).started ((s.course (courseOf bk)).edgeAt s.now + 4))).debugRecord bk 1 0
    have hx := exec_resume h
    rw [State.resumeBrick_held hh, State.startBrick_eq] at hx
    refine ⟨_, hx, hl.frame, hl.others, ?_⟩
    rw [State.brick_debugRecord, State.brick_setBrick]
    exact ⟨rfl, rfl, rfl, rfl, rfl, rfl, rfl⟩
  case reset =>
    intro s p bk hu hp
    obtain ⟨hr, ho⟩ := s.ungate_resetBrick_resets bk
    refine ⟨_, exec_brickReset hu hp, ho, hr.regs, hr.pc, hr.rstk, hr.inTrap, hr.repc, hr.events, hr.armed, hr.timeLatch, hr.wd, hr.imem, hr.fm,
      hr.runBit, ?_, hr.result⟩
    rw [hr.run]
    simp only [Bool.and_eq_true]
  case wrongKey => exact fun s p bk key hu hp hk => ⟨s, exec_brickReset_wrongKey hu hp hk, rfl, fun _ => rfl⟩
  case run =>
    intro s p bk hu hp hi hr hl
    refine ⟨_, exec_run hu hp hi hr hl, rfl, fun k hk => ?_, ?_⟩
    · rw [State.startBrick_eq, State.brick_setBrick_ne _ _ hk, State.brick_setBrick_ne _ _ hk]
    · rw [State.startBrick_eq, State.brick_setBrick, State.brick_setBrick]
      exact ⟨rfl, rfl, rfl, rfl⟩
  case pc => exact fun s p bk v h hh => exec_dbgRegWrite (off := 0x20) h hh (by decide) v
  case reg =>
    intro s p bk x v h hh
    have hx : (BitVec.ofNat 8 (0x40 + 4 * x.val)).toNat = 0x40 + 4 * x.val := Nat.mod_eq_of_lt (by omega)
    have hw := exec_dbgRegWrite (off := BitVec.ofNat 8 (0x40 + 4 * x.val)) h hh (by omega) v
    rwa [hx, Brick.dbgWrite_reg] at hw
  case tstat =>
    intro s p bk v h hh
    obtain ⟨t, hx, -, ho, hb⟩ := exec_dbgRegWrite (off := 0xD0) h hh (by decide) v
    exact ⟨t, hx, ho, hb.trans (Brick.dbgWrite_tstat _ v)⟩
  case inject =>
    intro s p bk h hc
    exact ⟨_, (exec_injGo h).trans (congrArg _ (State.injGo_counts hc [])), rfl, fun k hk => State.brick_setBrick_ne s _ hk, State.brick_setBrick ..⟩
  case refused =>
    intro s p bk h hr hb
    exact ⟨_, (exec_injGo h).trans (congrArg _ (State.injGo_refused hr hb [])), rfl, fun k hk => State.brick_setBrick_ne s _ hk, State.brick_setBrick ..⟩

end Sys2Proof.Machine
end

section
/-! SUPPORT. The tile clock, the mark action, and the words and conditions of tile instructions read as the rules write them (R176, R177,
R183, R184, R188). -/

namespace Sys2Proof.Machine

/-! ### The tile clock (R176, R177) -/

section
variable (t : Tile) (k : Nat)

/-- Tile cycles change only where the accumulator and the edge stand. -/
theorem Tile.cyclesOn_eq (step : Nat) : t.cyclesOn step k = { t with edge := (t.cyclesOn step k).edge, acc := (t.cyclesOn step k).acc } := by
  unfold Tile.cyclesOn
  rfl

theorem Tile.cyclesOn_zero {step : Nat} (h : 0 < step) : t.cyclesOn step 0 = t := by
  have hm : (0 * accSpan - t.acc + step - 1) / step = 0 := Nat.div_eq_of_lt (by omega)
  rw [Tile.cyclesOn, hm, Nat.zero_mul, Nat.zero_mul]
  rfl

theorem Tile.advance_zero : t.advance 0 = t := if_pos rfl

/-- The first of the cycles lasts as the step in force has it; the staged step is in force for the others (R177). -/
theorem Tile.advance_succ {t u : Tile} (h : t.cyclesOn t.step 1 = u) : t.advance (k + 1) = { u with step := u.stepNext }.cyclesOn u.stepNext k := by
  rw [Tile.advance, if_neg k.succ_ne_zero, Nat.add_sub_cancel, h]

theorem accSpan_eq : accSpan = 2 ^ 24 := by norm_num [accSpan]

theorem Tile.cyclesOn_one (step : Nat) : t.cyclesOn step 1 = { t with
    edge := t.edge + 20 * ((accSpan - t.acc + step - 1) / step), acc := t.acc + (accSpan - t.acc + step - 1) / step * step - accSpan } := by
  rw [Tile.cyclesOn, Nat.one_mul, periphCycle]

theorem Tile.advance_one (h : 0 < t.stepNext) : t.advance 1 = { t with
    edge := t.edge + 20 * ((accSpan - t.acc + t.step - 1) / t.step),
    acc := t.acc + (accSpan - t.acc + t.step - 1) / t.step * t.step - accSpan, step := t.stepNext } := by
  rw [Tile.advance_succ 0 (t.cyclesOn_one t.step), Tile.cyclesOn_zero _ h]

/-- The clock changes nothing else of the tile. -/
theorem Tile.advance_eq : t.advance k = { t with acc := (t.advance k).acc, edge := (t.advance k).edge, step := (t.advance k).step } := by
  cases k with
  | zero => rw [t.advance_zero]
  | succ k =>
    obtain ⟨u, hu⟩ : ∃ u, t.cyclesOn t.step 1 = u := ⟨_, rfl⟩
    have h1 := t.cyclesOn_eq 1 t.step
    have h2 := Tile.cyclesOn_eq { u with step := u.stepNext } k u.stepNext
    rw [hu] at h1
    rw [Tile.advance_succ k hu]
    generalize Tile.cyclesOn { u with step := u.stepNext } u.stepNext k = v at h2 ⊢
    rw [h2, h1]

/-- How tile cycles move the clock depends on the clock alone. -/
theorem Tile.cyclesOn_clock {t u : Tile} (ha : u.acc = t.acc) (he : u.edge = t.edge) (step : Nat) :
    (u.cyclesOn step k).acc = (t.cyclesOn step k).acc ∧ (u.cyclesOn step k).edge = (t.cyclesOn step k).edge := by
  unfold Tile.cyclesOn
  rw [ha, he]
  exact ⟨rfl, rfl⟩

/-- Where the next tile edge lies depends on the clock alone. -/
theorem Tile.edge_advance_congr {t u : Tile} (ha : u.acc = t.acc) (he : u.edge = t.edge) (hs : u.step = t.step) (hn : u.stepNext = t.stepNext) :
    (u.advance k).edge = (t.advance k).edge := by
  cases k with
  | zero => rwa [Tile.advance_zero, Tile.advance_zero]
  | succ k =>
    obtain ⟨hca, hce⟩ := Tile.cyclesOn_clock 1 ha he t.step
    have hct := congrArg Tile.stepNext (t.cyclesOn_eq 1 t.step)
    have hcu := congrArg Tile.stepNext (u.cyclesOn_eq 1 t.step)
    rw [Tile.advance_succ k rfl, Tile.advance_succ k rfl, hs]
    generalize t.cyclesOn t.step 1 = x at hca hce hct ⊢
    generalize u.cyclesOn t.step 1 = y at hca hce hcu ⊢
    rw [show y.stepNext = x.stepNext from hcu.trans (hn.trans hct.symm)]
    exact (Tile.cyclesOn_clock (t := { x with step := x.stepNext }) (u := { y with step := x.stepNext }) k hca hce x.stepNext).2

end

/-- Division rounded up gives the least m with m · step ≥ d. -/
theorem ceilDiv_least {d step : Nat} (hs : 0 < step) (hd : 0 < d) :
    0 < (d + step - 1) / step ∧ d ≤ (d + step - 1) / step * step ∧ ((d + step - 1) / step - 1) * step < d := by
  have hpos : 0 < (d + step - 1) / step := Nat.div_pos (by omega) hs
  have hle := Nat.div_mul_le_self (d + step - 1) step
  have hlt := Nat.lt_div_mul_add (a := d + step - 1) hs
  rw [Nat.sub_mul, Nat.one_mul]
  omega

/-! ### The mark action (R183) -/

section
variable {t : Tile} {mk : BitVec 2}

theorem Tile.mark_of_disabled (h : t.mkEn = false) : t.mark mk = t := if_neg (by simp [h])

/-- The mark action changes only the levels. -/
theorem Tile.mark_eq (t : Tile) (mk : BitVec 2) : t.mark mk = { t with lvl := (t.mark mk).lvl } := by
  unfold Tile.mark
  split_ifs <;> rfl

theorem twoBits_cases (x : BitVec 2) : x = 0 ∨ x = 1 ∨ x = 2 ∨ x = 3 := by
  revert x
  decide

/-- MK drives MK_PIN low, high or inverted; 0 drives nothing. -/
theorem Tile.getLsbD_mark (h : t.mkEn = true) {i : Nat} (hi : i < 4) : (t.mark mk).lvl.getLsbD i =
    if i = t.mkPin ∧ mk ≠ 0 then (if mk = 1 then false else if mk = 2 then true else !t.lvl.getLsbD i) else t.lvl.getLsbD i := by
  obtain rfl | rfl | rfl | rfl := twoBits_cases mk
  · simp [Tile.mark, h]
  · have hl : (t.mark 1).lvl = setBit t.lvl t.mkPin false := by simp [Tile.mark, h]
    rw [hl, getLsbD_setBit]
    simp [hi]
  · have hl : (t.mark 2).lvl = setBit t.lvl t.mkPin true := by simp [Tile.mark, h]
    rw [hl, getLsbD_setBit]
    simp [hi]
  · have hl : (t.mark 3).lvl = setBit t.lvl t.mkPin (!t.lvl.getLsbD t.mkPin) := by simp [Tile.mark, h, bit]
    rw [hl, getLsbD_setBit]
    by_cases hp : i = t.mkPin
    · simp [← hp, hi]
    · simp [hp]

end

/-! ### The words of R183 and R184 -/

theorem toNat_append_add {n m : Nat} (a : BitVec n) (b : BitVec m) : (a ++ b).toNat = a.toNat * 2 ^ m + b.toNat := by
  rw [BitVec.toNat_append, ← Nat.shiftLeft_add_eq_or_of_lt b.isLt, Nat.shiftLeft_eq]

theorem toNat_zero_append {n m : Nat} (x : BitVec n) : ((0 : BitVec m) ++ x).toNat = x.toNat := by
  rw [toNat_append_add, show (0 : BitVec m).toNat = 0 from BitVec.toNat_zero, Nat.zero_mul, Nat.zero_add]

theorem toNat_append_zero {n m : Nat} (x : BitVec n) : (x ++ (0 : BitVec m)).toNat = x.toNat * 2 ^ m := by
  rw [toNat_append_add, show (0 : BitVec m).toNat = 0 from BitVec.toNat_zero, Nat.add_zero]

theorem bits_eq_div_mod {w : Nat} (v : BitVec w) (hi lo : Nat) : bits v hi lo = v.toNat / 2 ^ lo % 2 ^ (hi + 1 - lo) := by
  rw [bits, BitVec.extractLsb'_toNat, Nat.shiftRight_eq_div_pow]

theorem b2n_bit {w : Nat} (v : BitVec w) (n : Nat) : b2n (bit v n) = v.toNat / 2 ^ n % 2 := by
  rw [b2n, bit, BitVec.getLsbD, Nat.testBit_eq_decide_div_mod_eq]
  obtain h | h := Nat.mod_two_eq_zero_or_one (v.toNat / 2 ^ n) <;> simp [h]

section
variable {mk : BitVec 2}

theorem toNat_tileFields (op : BitVec 4) (mk : BitVec 2) (x : BitVec 10) : (tileFields op mk x).toNat = op.toNat * 4096 + mk.toNat * 1024 + x.toNat := by
  rw [tileFields, toNat_append_add, toNat_append_add]
  omega

/-- The word that the commands compare with is the word of the fields. -/
theorem tileFields_eq_tileWord (op : BitVec 4) (mk : BitVec 2) (x : BitVec 10) : tileFields op mk x = tileWord op.toNat mk x.toNat :=
  BitVec.eq_of_toNat_eq (by rw [tileWord, BitVec.toNat_ofNat, Nat.mod_eq_of_lt (by omega), toNat_tileFields])

/-- OP of the word that has these fields. -/
theorem bits_op_tileFields (op : BitVec 4) (mk : BitVec 2) (x : BitVec 10) : bits (tileFields op mk x) 15 12 = op.toNat := by
  rw [bits_eq_div_mod, toNat_tileFields]
  omega

/-- A field of the operand, read from the whole word. -/
theorem bits_tileFields (op : BitVec 4) (mk : BitVec 2) (x : BitVec 10) {hi lo : Nat} (hl : lo ≤ hi) (hh : hi < 10) :
    bits (tileFields op mk x) hi lo = bits x hi lo := by
  refine congrArg BitVec.toNat (BitVec.eq_of_getLsbD_eq fun i hi => ?_)
  rw [BitVec.getLsbD_extractLsb', BitVec.getLsbD_extractLsb', tileFields, BitVec.getLsbD_append, if_pos (by omega),
    BitVec.getLsbD_append, if_pos (by omega)]

theorem tileIllegal_br {w : Word} (ho : bits w 15 12 = 1) (hc : bits w 9 7 = 7) : tileIllegal w = true := by
  simp [tileIllegal, ho, hc]

theorem tileIllegal_cpy {w : Word} (ho : bits w 15 12 = 10) (hf : bits w 3 2 = 3) : tileIllegal w = true := by
  simp [tileIllegal, ho, hf]

/-- COND 7 of BR is illegal (R185). -/
theorem cond_ne_seven {cond : BitVec 3} {x : BitVec 7} (h : tileIllegal (tileFields 1 mk (cond ++ x)) = false) : cond ≠ 7 := by
  have hc : bits (tileFields 1 mk (cond ++ x)) 9 7 = cond.toNat :=
    (bits_tileFields _ _ _ (by decide) (by decide)).trans (congrArg BitVec.toNat BitVec.extractLsb'_append_eq_left)
  exact fun h7 => Bool.false_ne_true (h.symm.trans (tileIllegal_br (bits_op_tileFields ..) (hc.trans (congrArg _ h7))))

/-- FN 3 of CPY is illegal (R185). -/
theorem fn_ne_three {dest src : BitVec 3} {fn z : BitVec 2} (h : tileIllegal (tileFields 10 mk (dest ++ (src ++ (fn ++ z)))) = false) :
    fn ≠ 3 := by
  have hf : bits (tileFields 10 mk (dest ++ (src ++ (fn ++ z)))) 3 2 = fn.toNat := by
    rw [bits_tileFields _ _ _ (by decide) (by decide), bits_eq_div_mod, toNat_append_add, toNat_append_add, toNat_append_add]
    omega
  exact fun h3 => Bool.false_ne_true (h.symm.trans (tileIllegal_cpy (bits_op_tileFields ..) (hf.trans (congrArg _ h3))))

/-- An unsigned value in a wider word has zeros above it. -/
theorem setWidth_eq_zero_append {n m : Nat} (x : BitVec n) : x.setWidth (m + n) = (0 : BitVec m) ++ x := by
  refine BitVec.eq_of_toNat_eq ?_
  rw [toNat_zero_append, BitVec.toNat_setWidth]
  exact Nat.mod_eq_of_lt (x.isLt.trans_le (Nat.pow_le_pow_right (by decide) (by omega)))

end

/-! ### Conditions, sources and functions (R184, R188) -/

section
variable {t : Tile} {pins : BitVec 4}

theorem Tile.brHolds_iff {cond : BitVec 3} (h : cond ≠ 7) : t.brHolds cond pins = true ↔ branchHolds t cond pins := by
  have hc : cond = 0 ∨ cond = 1 ∨ cond = 2 ∨ cond = 3 ∨ cond = 4 ∨ cond = 5 ∨ cond = 6 := by
    revert cond
    decide
  obtain rfl | rfl | rfl | rfl | rfl | rfl | rfl := hc <;> simp [Tile.brHolds, branchHolds, bit]

/-- No condition of BR looks at the levels that the tile drives. -/
theorem Tile.brHolds_mark (t : Tile) (mk : BitVec 2) (cond : BitVec 3) (pins : BitVec 4) : (t.mark mk).brHolds cond pins = t.brHolds cond pins := by
  rw [t.mark_eq mk]
  rfl

theorem levelHolds_iff {kind : BitVec 3} {pin : BitVec 2} : levelHolds kind pin pins = true ↔
    (kind = 0 ∧ pins.getLsbD pin.toNat = false ∨ kind = 1 ∧ pins.getLsbD pin.toNat = true) := by
  unfold levelHolds
  split_ifs with h0 h1
  · simp [h0, bit]
  · simp [h1, bit]
  · exact iff_of_false id fun h => h.elim (h0 ·.1) (h1 ·.1)

theorem edgeMatches_iff {kind : BitVec 3} {rising : Bool} :
    edgeMatches kind rising = true ↔ kind = 2 ∧ rising = true ∨ kind = 3 ∧ rising = false ∨ kind = 4 := by
  unfold edgeMatches
  split_ifs with h2 h3
  · simp [h2]
  · simp [h3]
  · exact decide_eq_true_iff.trans ⟨fun h => .inr (.inr h), fun h => h.elim (absurd ·.1 h2) (·.elim (absurd ·.1 h3) id)⟩

theorem Tile.cpySource_eq (t : Tile) (src : BitVec 3) (pins : BitVec 4) : t.cpySource src pins = copySource t src pins := by
  have hs : src = 0 ∨ src = 1 ∨ src = 2 ∨ src = 3 ∨ src = 4 ∨ src = 5 ∨ src = 6 ∨ src = 7 := by
    revert src
    decide
  obtain rfl | rfl | rfl | rfl | rfl | rfl | rfl | rfl := hs
  · exact setWidth_eq_zero_append pins
  all_goals rfl

theorem cpyFn_eq {fn : BitVec 2} (h : fn ≠ 3) (w : Word) : cpyFn fn w = copyFunction fn w := by
  obtain rfl | rfl | rfl | rfl := twoBits_cases fn
  · rfl
  · rfl
  · rfl
  · exact absurd rfl h

theorem Tile.loadHalf_eq (t : Tile) (low : Bool) (w : Word) : t.loadHalf low w = t.withHalf low w := by
  by_cases h : low = t.lsbFirst
  · rw [Tile.loadHalf, Tile.withHalf, if_pos h, if_pos h, if_pos h]
    rfl
  · rw [Tile.loadHalf, Tile.withHalf, if_neg h, if_neg h, if_neg h]
    rfl

theorem Tile.finish_eq (t : Tile) : t.finish = t.ended := by
  unfold Tile.finish Tile.ended
  cases t.runBit <;> rfl

end

end Sys2Proof.Machine
end

section
/-! Settles O23: the tile clock. -/

namespace Sys2Proof.Machine

/-- Settles O23: a tile cycle is the division of `Tile.cyclesOn` rounded up, whose quotient is the least number by `ceilDiv_least`. -/
theorem tileClockCounts : Obligations.TileClockCounts := by
  unfold Obligations.TileClockCounts
  refine ⟨?cycle, Tile.advance_eq, ?reset⟩
  case cycle =>
    intro t hn h0 hmax hacc
    rw [← accSpan_eq] at hacc ⊢
    have hstep : t.step < accSpan := hmax.trans_lt (by norm_num [accSpan])
    obtain ⟨hpos, hle, hlt⟩ := ceilDiv_least (d := accSpan - t.acc) h0 (by omega)
    rw [t.advance_one (hn ▸ h0)]
    generalize (accSpan - t.acc + t.step - 1) / t.step = m at hpos hle hlt ⊢
    have hm : m * t.step = (m - 1) * t.step + t.step := by rw [← Nat.succ_mul, Nat.succ_eq_add_one, Nat.sub_add_cancel hpos]
    have hexcess : t.acc + m * t.step - accSpan < accSpan := by omega
    exact ⟨m, rfl, rfl, by omega, by omega, hexcess, hpos⟩
  case reset =>
    intro t hs hn ha
    rw [t.advance_one (by omega), hs, ha]
    norm_num [accSpan]

end Sys2Proof.Machine
end

section
/-! SUPPORT. A tile instruction at its boundary, its completion, and one bit of a SHF (R183 to R191). -/

namespace Sys2Proof.Machine

/-! ### Issue -/

section
variable {s : State} {tl : Fin 208} {c : Instr} {mk : BitVec 2} {k : Nat} {f g : Tile → Tile}

/-- A command that issues the word at the tile's PC makes of the tile what its instruction does, on the clock k tile cycles on. -/
theorem TileBecomes.of_issue {op : BitVec 4} {x : BitVec 10} {o n : Nat} (h : s.takes tl (tileFields op mk x)) (ho : op.toNat = o) (hx : x.toNat = n)
    (hc : exec c s = .next (s.tileIssue tl (tileWord o mk n) mk g)) (hg : g ((s.tile tl).mark mk) = (f ((s.tile tl).mark mk)).advance k) :
    TileBecomes c s tl mk k f := by
  obtain ⟨hready, hword, hlegal⟩ := h
  rw [tileFields_eq_tileWord, ho, hx] at hword hlegal
  rw [State.tileIssue, if_pos ⟨hready, hword, hlegal⟩] at hc
  exact ⟨_, hc, rfl, fun j hj => State.tile_setTile_ne _ _ hj, (State.tile_setTile ..).trans hg⟩

theorem TileBecomes.congr (h : TileBecomes c s tl mk k f) (hf : f ((s.tile tl).mark mk) = g ((s.tile tl).mark mk)) : TileBecomes c s tl mk k g := by
  obtain ⟨t, hc, hs, ho, ht⟩ := h
  exact ⟨t, hc, hs, ho, hf ▸ ht⟩

/-- A completion sets the tile to u at the time n at the earliest. -/
theorem TileIs.of_setTile {u : Tile} {n : Nat} (hc : exec c s = .next ((s.at_ n).setTile tl u)) : TileIs c s tl u :=
  ⟨_, hc, rfl, fun _ hj => State.tile_setTile_ne _ _ hj, State.tile_setTile ..⟩

end

/-! ### BR, LOOP, LDI and CPY (R184) -/

section
variable {s : State} {tl : Fin 208} {mk : BitVec 2} {addr : BitVec 5} {ball : BitVec 4}

theorem toNat_branchOperand (cond : BitVec 3) (addr : BitVec 5) : (cond ++ ((0 : BitVec 2) ++ addr)).toNat = cond.toNat * 128 + addr.toNat := by
  exact (toNat_append_add ..).trans (congrArg _ (toNat_zero_append _))

theorem tileBr_taken {cond : BitVec 3} (h : s.takes tl (tileFields 1 mk (cond ++ ((0 : BitVec 2) ++ addr))))
    (hb : branchHolds (s.tile tl) cond (s.pinsIn (s.tile tl) ball)) :
    TileBecomes (.tileBr tl mk cond addr ball) s tl mk 1 (fun t => { t with pc := addr }) :=
  .of_issue h rfl (toNat_branchOperand ..) rfl
    (if_pos (((s.tile tl).brHolds_mark mk ..).trans ((Tile.brHolds_iff (cond_ne_seven h.2.2)).mpr hb)))

theorem tileBr_untaken {cond : BitVec 3} (h : s.takes tl (tileFields 1 mk (cond ++ ((0 : BitVec 2) ++ addr))))
    (hb : ¬ branchHolds (s.tile tl) cond (s.pinsIn (s.tile tl) ball)) :
    TileBecomes (.tileBr tl mk cond addr ball) s tl mk 1 (fun t => t.onward) :=
  .of_issue h rfl (toNat_branchOperand ..) rfl
    (if_neg fun ht => hb ((Tile.brHolds_iff (cond_ne_seven h.2.2)).mp (((s.tile tl).brHolds_mark mk ..).symm.trans ht)))

/-- LOOP counts its counter down and goes on where that leaves 0, else to `addr`. -/
def Tile.looped (t : Tile) (c : Bool) (addr : BitVec 5) : Tile :=
  { t.setCounter c (t.counter c - 1) with pc := if t.counter c - 1 = 0 then t.pc + 1 else addr }

theorem loop_completes {c : Bool} {x : BitVec 10} (h : s.takes tl (tileFields 2 mk x)) (hx : x.toNat = b2n c * 512 + addr.toNat) :
    TileBecomes (.loop tl mk c addr) s tl mk 1 (fun t => t.looped c addr) := by
  refine .of_issue h rfl hx rfl ?_
  generalize (s.tile tl).mark mk = t
  have hpc : (t.setCounter c (t.counter c - 1)).pc = t.pc := by cases c <;> rfl
  by_cases hv : t.counter c - 1 = 0
  · simp only [hv, Tile.looped, if_true, Tile.next, ← hpc]
  · simp only [hv, Tile.looped, if_false, Tile.goto]

theorem drv_completes {dirs : Bool} {mask value : BitVec 4}
    (h : s.takes tl (tileFields 8 mk ((if dirs then (1 : BitVec 2) else 0) ++ (mask ++ value)))) :
    TileBecomes (.drv tl mk dirs mask value) s tl mk 1 (fun t => (t.drive dirs mask value).onward) := by
  refine .of_issue h rfl ?_ rfl rfl
  rw [toNat_append_add, toNat_append_add, ← Nat.add_assoc]
  cases dirs <;> simp [b2n]

theorem ldi_completes {c : Bool} {value : BitVec 9} (h : s.takes tl (tileFields 9 mk ((if c then (1 : BitVec 1) else 0) ++ value))) :
    TileBecomes (.ldi tl mk c value) s tl mk 1 (fun t => (t.setCounter c ((0 : BitVec 7) ++ value)).onward) := by
  refine .of_issue h rfl ?_ rfl ?_
  · rw [toNat_append_add]
    cases c <;> rfl
  · rw [← setWidth_eq_zero_append]
    rfl

/-- CPY outside a SHF. -/
theorem cpy_completes {dest src : BitVec 3} {fn : BitVec 2} (h : s.takes tl (tileFields 10 mk (dest ++ (src ++ (fn ++ (0 : BitVec 2)))))) :
    TileBecomes (.cpy tl mk dest src fn ball) s tl mk 1
      (fun t => (t.cpyDest dest false (copyFunction fn (copySource t src (s.pinsIn (s.tile tl) ball)))).onward) := by
  refine .of_issue h rfl ?_ rfl ?_
  · rw [toNat_append_add, toNat_append_add, toNat_append_zero, ← Nat.add_assoc, Nat.mul_comm _ 4]
    omega
  · rw [← Tile.cpySource_eq, ← cpyFn_eq (fn_ne_three h.2.2)]
    rfl

end

/-! ### WAITP and HOLD (R184, R186, R187) -/

section
variable {s : State} {tl : Fin 208} {mk : BitVec 2} {ball : BitVec 4} {kind : BitVec 3} {pin : BitVec 2}

theorem toNat_waitOperand (kind : BitVec 3) (pin : BitVec 2) : (kind ++ ((0 : BitVec 5) ++ pin)).toNat = kind.toNat * 128 + pin.toNat := by
  exact (toNat_append_add ..).trans (congrArg _ (toNat_zero_append _))

theorem waitp_goesOn (h : s.takes tl (tileFields 3 mk (kind ++ ((0 : BitVec 5) ++ pin)))) (hl : levelHolds kind pin (s.pinsIn (s.tile tl) ball) = true) :
    TileBecomes (.waitp tl mk kind pin ball) s tl mk 1 (fun t => t.onward) :=
  .of_issue h rfl (toNat_waitOperand ..) rfl (if_pos hl)

theorem waitp_waits (h : s.takes tl (tileFields 3 mk (kind ++ ((0 : BitVec 5) ++ pin)))) (hl : ¬ levelHolds kind pin (s.pinsIn (s.tile tl) ball) = true) :
    TileBecomes (.waitp tl mk kind pin ball) s tl mk 1 (fun t => { t with cur := some (.waitp kind pin), run := .waiting }) :=
  .of_issue h rfl (toNat_waitOperand ..) rfl (if_neg hl)

theorem waitpComplete_completes {edge : Option Bool} (hv : s.tileLive tl = true) (hc : (s.tile tl).cur = some (.waitp kind pin))
    (hh : levelHolds kind pin (s.pinsIn (s.tile tl) ball) = true ∨ ∃ r, edge = some r ∧ edgeMatches kind r = true) :
    TileIs (.waitpComplete tl ball edge) s tl ((((s.tile tl).sync s.now).ended).advance 1) := by
  refine .of_setTile (n := ((s.tile tl).sync s.now).edge) ?_
  have he : exec (.waitpComplete tl ball edge) s = execWaitpComplete tl ball edge s := rfl
  rw [he, execWaitpComplete, hc, ← Tile.finish_eq]
  refine s.when_of_true _ (Bool.and_eq_true_iff.mpr ⟨hv, Bool.or_eq_true_iff.mpr (hh.imp_right ?_)⟩)
  rintro ⟨r, rfl, hr⟩
  exact hr

theorem holdComplete_completes {n : Nat} (hv : s.tileLive tl = true) (hc : (s.tile tl).cur = some (.hold n)) :
    TileIs (.holdComplete tl) s tl (((s.tile tl).ended).advance n) := by
  refine .of_setTile (n := ((s.tile tl).advance n).edge) ?_
  have he : exec (.holdComplete tl) s = execHoldComplete tl s := rfl
  rw [he, execHoldComplete, hc, ← Tile.finish_eq]
  exact s.when_of_true _ hv

end

/-! ### SHF (R184, R186, R188, R189, R191) -/

section
variable {s : State} {tl : Fin 208} {mk mode : BitVec 2}

theorem Tile.startShf_zero (t : Tile) (mode : BitVec 2) : t.startShf mode 0 = Tile.advance { t.onward with scnt := 0 } 1 := if_pos rfl

theorem Tile.startShf_pos (t : Tile) (mode : BitVec 2) {n : Nat} (h : n ≠ 0) :
    t.startShf mode n = { t with scnt := BitVec.ofNat 16 n, cur := some (.shf mode false) } := if_neg h

/-- SHF with a count in the word: bit 6 of the word may be either. -/
theorem shf_imm_begins {nm1 : BitVec 5} {c : BitVec 1}
    (h : s.takes tl (tileFields 5 mk (mode ++ ((0 : BitVec 1) ++ (c ++ ((0 : BitVec 1) ++ nm1)))))) :
    TileBecomes (.shf tl mk mode (.imm nm1)) s tl mk 0 (fun t => { t with scnt := BitVec.ofNat 16 (nm1.toNat + 1), cur := some (.shf mode false) }) := by
  have hx : (mode ++ ((0 : BitVec 1) ++ (c ++ ((0 : BitVec 1) ++ nm1)))).toNat = mode.toNat * 256 + c.toNat * 64 + nm1.toNat := by
    rw [toNat_append_add, toNat_zero_append, toNat_append_add, toNat_zero_append]
    omega
  have hb : b2n (bit (s.tile tl).word 6) = c.toNat := by
    have hc : (s.tile tl).word.toNat = 5 * 4096 + mk.toNat * 1024 + (mode.toNat * 256 + c.toNat * 64 + nm1.toNat) := by
      rw [h.2.1, toNat_tileFields, hx]
      rfl
    rw [b2n_bit, hc]
    omega
  refine .of_issue h rfl (hx.trans ?_) rfl (Tile.startShf_pos _ _ (Nat.succ_ne_zero _))
  rw [hb]

theorem shf_counter_issues {c : Bool} {k : Nat} {f : Tile → Tile} (h : s.takes tl (tileFields 5 mk (mode ++ ((if c then (3 : BitVec 2) else 2) ++ (0 : BitVec 6)))))
    (hf : ((s.tile tl).mark mk).startShf mode (((s.tile tl).mark mk).counter c).toNat = (f ((s.tile tl).mark mk)).advance k) :
    TileBecomes (.shf tl mk mode (.counter c)) s tl mk k f := by
  refine .of_issue h rfl ?_ rfl hf
  rw [toNat_append_add, toNat_append_zero]
  cases c <;> simp [b2n, Nat.add_assoc]

/-- The bit that leaves SR, the bit that enters it, and the counts OB and IB (R188, R189). -/
def Tile.shifted (t : Tile) (mode : BitVec 2) (level : Bool) : Tile :=
  { t with
    lvl := if mode = 1 then t.lvl else setBit t.lvl t.outPin t.outBit
    sr := if t.lsbFirst then setBit (t.sr >>> 1) 31 (decide (mode ≠ 0) && level) else setBit (t.sr <<< 1) 0 (decide (mode ≠ 0) && level)
    ob := if mode = 1 then t.ob else t.ob - 1
    ib := if mode = 0 then t.ib else min (t.ib + 1) 32 }

/-- Without an automatic put the bit is over after its tile cycles. -/
theorem Tile.shiftBit_eq {t : Tile} (h : t.autoPut = false) (mode : BitVec 2) (level : Bool) :
    t.shiftBit mode level = ((t.shifted mode level).advance (if t.sclkEn then 2 else 1)).bitDone := by
  obtain ⟨u, hu⟩ : ∃ u, (t.shifted mode level).advance (if t.sclkEn then 2 else 1) = u := ⟨_, rfl⟩
  have ha : u.autoPut = false := by
    rw [← hu, Tile.advance_eq]
    exact h
  have hs : t.shiftBit mode level = if shfIn mode ∧ u.autoPut ∧ u.ib = 16 then u.autoPutStep mode else u.bitDone := by
    rw [← hu]
    by_cases h1 : mode = 1
    · subst h1
      rfl
    · by_cases h0 : mode = 0
      · subst h0
        rfl
      · simp only [Tile.shiftBit, Tile.shifted, shfOut, shfIn, h0, h1, ne_eq, not_false_eq_true, decide_true, if_true, if_false, Bool.true_and]
        rfl
  rw [hs, if_neg fun hp => Bool.false_ne_true (ha.symm.trans hp.2.1), hu]

theorem Tile.bitDone_last {t : Tile} (h : t.scnt = 1) : t.bitDone = Tile.ended { t with scnt := 0, run := .running } := by
  rw [Tile.bitDone, h, ← Tile.finish_eq]
  rfl

theorem Tile.bitDone_more {t : Tile} (h : t.scnt ≠ 1) : t.bitDone = { t with scnt := t.scnt - 1, run := .running } :=
  if_neg fun h0 => h (sub_eq_zero.mp h0)

/-- The end of a bit changes only SCNT and what the end of the SHF changes. -/
theorem Tile.bitDone_eq (t : Tile) :
    t.bitDone = { t with scnt := t.scnt - 1, run := t.bitDone.run, cur := t.bitDone.cur, pc := t.bitDone.pc } := by
  by_cases h : t.scnt = 1
  · rw [Tile.bitDone_last h, h]
    rfl
  · rw [Tile.bitDone_more h]

/-- One bit without automatic moves shifts, counts down, and takes one tile cycle, two with the shift clock; the last ends the SHF. -/
theorem Tile.shiftBit_shifts {t v : Tile} {level : Bool} (h : t.autoPut = false) (hv : t.shiftBit mode level = v) :
    v = { t.shifted mode level with
      scnt := t.scnt - 1, acc := v.acc, edge := (t.advance (if t.sclkEn then 2 else 1)).edge, step := v.step, run := v.run, cur := v.cur, pc := v.pc } ∧
      (t.scnt = 1 → v.cur = none ∧ v.pc = t.pc + 1) ∧ (t.scnt ≠ 1 → v.cur = t.cur ∧ v.pc = t.pc) := by
  have hf := Tile.advance_eq (t.shifted mode level) (if t.sclkEn then 2 else 1)
  have he : ((t.shifted mode level).advance (if t.sclkEn then 2 else 1)).edge = (t.advance (if t.sclkEn then 2 else 1)).edge :=
    Tile.edge_advance_congr _ rfl rfl rfl rfl
  rw [Tile.shiftBit_eq h] at hv
  generalize (t.shifted mode level).advance (if t.sclkEn then 2 else 1) = u at hv hf he
  have hn : u.scnt = t.scnt := (congrArg Tile.scnt hf).trans rfl
  have hc : u.cur = t.cur := (congrArg Tile.cur hf).trans rfl
  have hp : u.pc = t.pc := (congrArg Tile.pc hf).trans rfl
  have hb := u.bitDone_eq
  subst hv
  refine ⟨?_, fun h1 => ?_, fun h1 => ?_⟩
  · rw [← he, ← hn]
    generalize u.bitDone = v at hb ⊢
    rw [hb, hf]
  · rw [Tile.bitDone_last (hn.trans h1)]
    exact ⟨rfl, congrArg (· + 1) hp⟩
  · rw [Tile.bitDone_more (hn ▸ h1)]
    exact ⟨hc, hp⟩

/-- A FIFO whose reader's side is empty gives no word. -/
theorem TileFifo.pop_of_empty {f : TileFifo} {n : Nat} (h : f.empty n = true) (vis : Nat) : f.pop n vis = none := by
  unfold TileFifo.empty at h
  unfold TileFifo.pop
  split at h
  case h_1 ws v rest hb =>
    rw [hb]
    cases ws with
    | nil => rfl
    | cons w ws => exact if_pos (of_decide_eq_true h)
  case h_2 hb => rw [hb]

theorem Tile.get_of_empty {t : Tile} (h : t.tx.empty t.edge = true) (low : Bool) : t.get low = none := by
  rw [Tile.get, TileFifo.pop_of_empty h]

/-- A running SHF that no automatic move holds up does its next bit. -/
theorem Tile.shfStep_shifts {t : Tile} (hr : t.run = .running) (hn : t.scnt ≠ 0) (hg : t.autoGet = false) (mode : BitVec 2) (level : Bool) :
    t.shfStep mode false level = t.shiftBit mode level := by
  rw [Tile.shfStep, if_neg Bool.false_ne_true, if_neg hn, if_neg fun h => Bool.false_ne_true (hg.symm.trans h.2.1), ← hr]

/-- With nothing to get for an empty output half the tile cycle passes, and the tile is stalled. -/
theorem Tile.shfStep_stalls {t : Tile} (hn : t.scnt ≠ 0) (hm : mode ≠ 1) (hg : t.autoGet = true) (ho : t.ob = 0) (he : t.tx.empty t.edge = true)
    (level : Bool) : t.shfStep mode false level = Tile.advance { t with run := .stalledTx } 1 := by
  rw [Tile.shfStep, if_neg Bool.false_ne_true, if_neg hn, if_pos ⟨decide_eq_true hm, hg, ho⟩, Tile.get_of_empty he]

/-- SHF_BIT of a running tile with no injection waiting is the step of its SHF. -/
theorem exec_shfBit {ball : BitVec 4} {w : Bool} (hv : s.tileLive tl = true) (hi : (s.tile tl).inj = none) (hr : (s.tile tl).run = .running)
    (hc : (s.tile tl).cur = some (.shf mode w)) : exec (.shfBit tl ball) s =
      .next ((s.at_ (s.tile tl).edge).setTile tl ((s.tile tl).shfStep mode w (s.pinIn (s.tile tl) ball (s.tile tl).inPin))) := by
  have he : exec (.shfBit tl ball) s = execShfBit tl ball s := rfl
  rw [he, execShfBit, hc]
  simp only [hr, if_true]
  exact s.when_of_true _ (by rw [hv, hi]; rfl)

end

end Sys2Proof.Machine
end

section
/-! Settles O19 and O20: the instructions of a tile. -/

namespace Sys2Proof.Machine

/-- Settles O19: each instruction issues by `TileBecomes.of_issue`; the mark action by `Tile.getLsbD_mark`. -/
theorem tileInstructionsComplete : Obligations.TileInstructionsComplete := by
  unfold Obligations.TileInstructionsComplete
  refine ⟨?nop, ?stop, ?br, ?loop0, ?loop1, ?drv, ?ldi, ?cpy, fun t mk h => Tile.mark_of_disabled h, fun t mk h => ⟨t.mark_eq mk, fun i => Tile.getLsbD_mark h⟩⟩
  case nop => exact fun s tl mk h => .of_issue h rfl rfl rfl rfl
  case stop => exact fun s tl mk h => .of_issue h rfl rfl rfl rfl
  case br => exact fun s tl mk cond addr ball h => ⟨tileBr_taken h, tileBr_untaken h⟩
  case loop0 => exact fun s tl mk addr h => loop_completes h ((toNat_zero_append _).trans (Nat.zero_add _).symm)
  case loop1 =>
    refine fun s tl mk addr h => loop_completes h ((toNat_append_add ..).trans ?_)
    exact congrArg _ (toNat_zero_append _)
  case drv => exact fun s tl mk dirs mask value h => (drv_completes h).congr (by cases dirs <;> rfl)
  case ldi => exact fun s tl mk c value h => (ldi_completes h).congr (by cases c <;> rfl)
  case cpy =>
    intro s tl mk dest src fn ball h
    have hc := cpy_completes (ball := ball) h
    refine ⟨?_, ?_, ?_, ?_, ?_, ?_, ?_⟩ <;> rintro rfl
    · exact hc.congr (by rw [← BitVec.setWidth_eq_extractLsb' (by decide)]; rfl)
    · exact hc
    · exact hc
    · exact hc.congr (congrArg Tile.onward (Tile.loadHalf_eq ..))
    · exact hc.congr (congrArg Tile.onward (Tile.loadHalf_eq ..))
    · exact hc
    · exact hc

/-- Settles O20: WAITP by its level or edge, HOLD by its count, a bit of SHF by `Tile.shiftBit_eq` and the end of the bit. -/
theorem tileWaitsAndShifts : Obligations.TileWaitsAndShifts := by
  unfold Obligations.TileWaitsAndShifts
  refine ⟨?waitp, ?waitpEnds, ?holdImm, ?holdCounter, fun s tl n => holdComplete_completes, fun s tl mk mode nm1 c => shf_imm_begins, ?shfCounter, ?bit, ?stall⟩
  case waitp => exact fun s tl mk kind pin ball h => ⟨fun hl => waitp_goesOn h (levelHolds_iff.mpr hl), fun hl => waitp_waits h (mt levelHolds_iff.mp hl)⟩
  case waitpEnds =>
    intro s tl kind pin ball edge hv hc hh
    refine waitpComplete_completes hv hc ?_
    obtain hl | hl | ⟨hk, he⟩ | ⟨hk, he⟩ | ⟨hk, he⟩ := hh
    · exact .inl (levelHolds_iff.mpr (.inl hl))
    · exact .inl (levelHolds_iff.mpr (.inr hl))
    · exact .inr ⟨true, he, edgeMatches_iff.mpr (.inl ⟨hk, rfl⟩)⟩
    · exact .inr ⟨false, he, edgeMatches_iff.mpr (.inr (.inl ⟨hk, rfl⟩))⟩
    · obtain ⟨r, hr⟩ := Option.ne_none_iff_exists'.mp he
      exact .inr ⟨r, hr, edgeMatches_iff.mpr (.inr (.inr hk))⟩
  case holdImm => exact fun s tl mk n h => .of_issue h rfl (toNat_zero_append n) rfl rfl
  case holdCounter =>
    intro s tl mk c h
    refine .of_issue h rfl ?_ rfl rfl
    rw [toNat_append_zero]
    cases c <;> rfl
  case shfCounter =>
    intro s tl mk mode c h
    have hm : ((s.tile tl).mark mk).counter c = if c then (s.tile tl).c1 else (s.tile tl).c0 := by
      rw [Tile.mark_eq]
      rfl
    rw [← hm]
    refine ⟨fun hn => shf_counter_issues h ?_, fun hn => shf_counter_issues h ?_⟩
    · rw [Tile.startShf_pos _ _ fun h0 => hn (BitVec.eq_of_toNat_eq h0), BitVec.ofNat_toNat, BitVec.setWidth_eq]
      rfl
    · rw [hn]
      exact Tile.startShf_zero _ _
  case bit =>
    intro s tl mode ball hv hi hr hc hn hg hp
    have hx := exec_shfBit (ball := ball) hv hi hr hc
    obtain ⟨v, hs⟩ : ∃ v, (s.tile tl).shiftBit mode (s.pinIn (s.tile tl) ball (s.tile tl).inPin) = v := ⟨_, rfl⟩
    obtain ⟨hf, hlast, hmore⟩ := Tile.shiftBit_shifts hp hs
    rw [Tile.shfStep_shifts hr hn hg, hs] at hx
    refine ⟨_, hx, fun j hj => State.tile_setTile_ne _ _ hj, rfl, ?_⟩
    rw [State.tile_setTile]
    exact ⟨congrArg Tile.scnt hf, congrArg Tile.sr hf, congrArg Tile.lvl hf, congrArg Tile.ob hf, congrArg Tile.ib hf, (congrArg Tile.edge hf).trans rfl,
      (congrArg Tile.tx hf).trans rfl, (congrArg Tile.rx hf).trans rfl, hlast, fun h1 => hc ▸ hmore h1⟩
  case stall =>
    intro s tl mode ball hv hi hr hc hn hm hg ho he
    refine .of_setTile (n := (s.tile tl).edge) ((exec_shfBit hv hi hr hc).trans ?_)
    rw [Tile.shfStep_stalls hn hm hg ho he]

end Sys2Proof.Machine
end

section
/-! SUPPORT. The frame-mover queues of a brick, register by register (R214 to R217, R222, R223). -/

namespace Sys2Proof.Machine

/-! ### The first element that satisfies a predicate -/

section
variable {α : Type} {p : α → Bool} {x : α} {l r : List α}

theorem takeFirst_cons (h : p x = true) : takeFirst p (x :: l) = some (x, l) := by rw [takeFirst, if_pos h]

/-- What is taken is in the list and satisfies the predicate. -/
theorem takeFirst_some (h : takeFirst p l = some (x, r)) : x ∈ l ∧ p x = true := by
  induction l generalizing r with
  | nil => cases h
  | cons y l ih =>
    by_cases hy : p y = true
    · rw [takeFirst_cons hy] at h
      cases h
      exact ⟨by simp, hy⟩
    · rw [takeFirst, if_neg hy] at h
      split at h
      · next z zs hz =>
        cases h
        exact ⟨List.mem_cons_of_mem _ (ih hz).1, (ih hz).2⟩
      · cases h

/-- The last element is taken where no earlier one satisfies the predicate. -/
theorem takeFirst_append_last (h : ∀ y ∈ l, p y = false) (hx : p x = true) : takeFirst p (l ++ [x]) = some (x, l) := by
  induction l with
  | nil => exact takeFirst_cons hx
  | cons y l ih =>
    rw [List.cons_append, takeFirst, if_neg (by rw [h y (by simp)]; exact Bool.false_ne_true), ih fun z hz => h z (by simp [hz])]

end

/-! ### Buffers and completions (R215, R217) -/

section
variable {f : FmQueue}

theorem rxlBad_iff (v : Word) : (bits v 14 12 ≠ 0 ∨ bits v 11 0 < 16) ↔ (v.toNat / 4096 % 8 ≠ 0 ∨ v.toNat % 4096 < 16) := by
  rw [bits_eq_div_mod, bits_low]
  rfl

theorem FmQueue.pushRx_badLength {v : Word} (h : v.toNat / 4096 % 8 ≠ 0 ∨ v.toNat % 4096 < 16) : f.pushRx v = { f with stat := f.stat ||| 8 } :=
  if_pos ((rxlBad_iff v).mpr h)

theorem FmQueue.pushRx_over {v : Word} (h : ¬ (v.toNat / 4096 % 8 ≠ 0 ∨ v.toNat % 4096 < 16)) (hf : 16 ≤ f.bufs.length) :
    f.pushRx v = { f with stat := f.stat ||| 1 } :=
  (if_neg (mt (rxlBad_iff v).mp h)).trans (if_pos hf)

theorem FmQueue.pushRx_room {v : Word} (h : ¬ (v.toNat / 4096 % 8 ≠ 0 ∨ v.toNat % 4096 < 16)) (hf : f.bufs.length < 16) :
    f.pushRx v = { f with bufs := f.bufs ++ [(f.rxa, v)] } :=
  (if_neg (mt (rxlBad_iff v).mp h)).trans (if_neg (Nat.not_le.mpr hf))

theorem FmQueue.popRx_cons {a c : Word} {r : List (Word × Word)} (h : f.rxc = (a, c) :: r) : f.popRx = (a, { f with rxc := r, rxc1 := c }) := by
  rw [FmQueue.popRx, h]

theorem FmQueue.popRx_nil (h : f.rxc = []) : f.popRx = (0, { f with rxc1 := 0 }) := by rw [FmQueue.popRx, h]

theorem FmQueue.popTx_cons {c : Word} {r : List Word} (h : f.txc = c :: r) : f.popTx = (c, { f with txc := r }) := by rw [FmQueue.popTx, h]

theorem FmQueue.popTx_nil (h : f.txc = []) : f.popTx = (0, f) := by rw [FmQueue.popTx, h]

end

/-- The word of a transmit completion: VALID, DROPPED and the sequence number (R215, R223). -/
theorem txdWord (d : Bool) (n : BitVec 8) : BitVec.ofNat 16 (0x8000 + b2n d * 0x4000 + n.toNat) = (if d then (0xC0 : Byte) else 0x80) ++ n := by
  refine BitVec.eq_of_toNat_eq ?_
  rw [toNat_append_add, BitVec.toNat_ofNat, Nat.mod_eq_of_lt (by cases d <;> simp [b2n] <;> omega)]
  cases d <;> simp [b2n]

/-! ### Frames that are dropped unread (R216, R222) -/

theorem portOfCode_isNone_iff (n : Nat) : (portOfCode n).isNone = true ↔ (36 < n ∧ n < 48) ∨ 60 < n := by
  unfold portOfCode
  split
  · simp; omega
  · split
    · simp; omega
    · simp; omega

theorem txDropped_iff (segs : List TxSeg) (v : Word) : txDropped segs v = true ↔ frameDropped segs v := by
  simp only [txDropped, frameDropped, Bool.or_eq_true, Bool.and_eq_true, Bool.not_eq_true', decide_eq_true_eq, portOfCode_isNone_iff]
  rw [bits_low]
  rfl

theorem txDropped_eq_false {segs : List TxSeg} {v : Word} (h : ¬ frameDropped segs v) : txDropped segs v = false :=
  Bool.eq_false_iff.mpr (mt (txDropped_iff segs v).mp h)

/-! ### A segment pushed, and completions in sequence order (R217, R222, R223) -/

/-- The segments of the frame under way, with the one that FM_TXA and FM_TXB name. -/
def FmQueue.pushed (f : FmQueue) : List TxSeg := f.segs ++ [{ addr := f.txa, b := f.txb }]

/-- The frame has more than 8 segments of bytes (R217). -/
def gathers (segs : List TxSeg) : Bool := decide (8 < (segs.filter (fun g => decide (g.len ≠ 0))).length)

/-- The brick after LAST: the next frame begins. -/
def Brick.sent (b : Brick) : Brick :=
  { b with fm := { b.fm with segs := [], seqno := b.fm.seqno + 1, stat := if gathers b.fm.pushed then b.fm.stat ||| 4 else b.fm.stat } }

/-- The brick with a transmit completion posted to it. -/
def Brick.posted (d : Bool) (n : BitVec 8) (b : Brick) : Brick := { b with fm := b.fm.postTx d n }

/-- The frame that LAST closes under the word v of FM_TXC. -/
def FmQueue.frame (f : FmQueue) (k : Fin 4) (v : Word) : TxFrame :=
  { brick := k, seqno := f.seqno, segs := f.pushed, ctl := v, dropped := txDropped f.pushed v, got := [], id := none }

section
variable {s : State} {bk : Fin 52} {v : Word}

theorem State.pushTx_full (h : s.txSlots bk = 0) :
    s.pushTx bk v = s.setBrick bk { s.brick bk with fm := { (s.brick bk).fm with stat := (s.brick bk).fm.stat ||| 2 } } := if_pos h

theorem State.pushTx_more (h : s.txSlots bk ≠ 0) (hv : v.getLsbD 15 = false) :
    s.pushTx bk v = s.setBrick bk { s.brick bk with fm := { (s.brick bk).fm with segs := (s.brick bk).fm.pushed } } :=
  (if_neg h).trans (if_neg (by rw [bit, hv]; exact Bool.false_ne_true))

theorem State.pushTx_last (h : s.txSlots bk ≠ 0) (hv : v.getLsbD 15 = true) : s.pushTx bk v =
    ((s.setBrick bk (s.brick bk).sent).setCourse (courseOf bk) { s.course (courseOf bk) with
      fmTx := (s.course (courseOf bk)).fmTx ++ [(s.brick bk).fm.frame (localOf bk) v] }).postDropped bk ((s.course (courseOf bk)).fmTx.length + 1) :=
  (if_neg h).trans (if_pos hv)

/-- Nothing is posted while no frame of the brick that was dropped is its oldest. -/
theorem State.postDropped_open (h : ∀ f ∈ (s.course (courseOf bk)).fmTx, f.brick = localOf bk → f.dropped = false) (n : Nat) : s.postDropped bk n = s := by
  cases n with
  | zero => rfl
  | succ n =>
    rw [State.postDropped]
    split
    · next f rest hf =>
      obtain ⟨hm, hb⟩ := takeFirst_some hf
      rw [if_neg (by rw [h f hm (of_decide_eq_true hb)]; exact Bool.false_ne_true)]
    · rfl

/-- A dropped frame behind no other of its brick leaves the queue with its completion. -/
theorem State.postDropped_last {x : Course} {f : TxFrame} (hs : s.course (courseOf bk) = { x with fmTx := x.fmTx ++ [f] }) (hb : f.brick = localOf bk)
    (hd : f.dropped = true) (h : ∀ g ∈ x.fmTx, g.brick ≠ localOf bk) (n : Nat) :
    s.postDropped bk (n + 1) = (s.setCourse (courseOf bk) x).postTxComp bk true f.seqno := by
  have hl : takeFirst (fun (f : TxFrame) => decide (f.brick = localOf bk)) (s.course (courseOf bk)).fmTx = some (f, x.fmTx) := by
    rw [hs]
    exact takeFirst_append_last (fun g hg => decide_eq_false (h g hg)) (decide_eq_true hb)
  rw [State.postDropped]
  simp only [hl, hd, if_true]
  rw [hs]
  refine State.postDropped_open (fun g hg he => absurd he (h g ?_)) n
  rw [State.postTxComp, State.course_jrec] at hg
  change g ∈ ((s.setCourse (courseOf bk) x).course (courseOf bk)).fmTx at hg
  rwa [State.course_setCourse] at hg

theorem State.postTxComp_jrec (s : State) (bk : Fin 52) (d : Bool) (n : BitVec 8) :
    ∃ r, s.postTxComp bk d n = (s.modBrick bk (Brick.posted d n)).jrec (courseOf bk) r := by
  unfold State.postTxComp
  exact ⟨_, rfl⟩

/-! ### The registers as I/O accesses -/

/-- A write of a frame-mover register outside replay does what it does live; the journal may take a record. -/
theorem State.ioWriteNow_fm {a : Nat} (hu : s.blocksUp = true) (hg : s.gated (courseOf bk) = false) (hm : (s.course (courseOf bk)).mode ≠ 2)
    (hr : a < 0x100) (ha : plainAccess a = .wo ∨ plainAccess a = .rw) : ∃ j, s.ioWriteNow bk a v = .next ((s.ioWriteLive bk a v s.now).modJournal fun _ => j) := by
  have hc : (s.blocksUp && (!s.gated (courseOf bk) && (s.ioTrap bk a (some v)).isNone)) = true := by
    rw [hu, hg, s.ioTrap_write bk v (.inl hr) ha]
    rfl
  have hp : s.replays bk = false := decide_eq_false hm
  rw [State.ioWriteNow, State.when_of_true s _ hc, State.ioWrite, if_neg (by rw [hp]; exact fun h => Bool.false_ne_true h.1)]
  dsimp only
  split
  · exact ⟨_, congrArg _ (State.jrec_eq _ _ _)⟩
  · exact ⟨(s.ioWriteLive bk a v s.now).journal, rfl⟩

theorem State.ioWriteLive_txc (s : State) (bk : Fin 52) (v : Word) (t : Nat) : s.ioWriteLive bk 0x08A v t = s.pushTx bk v := rfl

/-- A read whose effect is on the brick alone. -/
theorem State.ioReadNow_sets {a : Nat} {w : Word} {b : Brick} (hu : s.blocksUp = true) (hg : s.gated (courseOf bk) = false) (hr : a < 0x100)
    (ha : plainAccess a = .ro) (hj : ioJournaled a = false) (ht : a ≠ 0xC0) (hl : s.ioReadLive bk a s.now = (w, s.setBrick bk b)) :
    ∃ t, s.ioReadNow bk a = .next t ∧ t = { s with bricks := t.bricks, journal := t.journal, readValue := t.readValue } ∧
      (∀ k, k ≠ bk → t.brick k = s.brick k) ∧ t.readValue = (0 : Word) ++ w ∧ t.brick bk = b := by
  rw [State.ioReadNow_plain hu hg (.inl hr) ha, State.ioRead_plain s bk s.now hj ht, hl]
  exact ⟨_, rfl, rfl, fun k hk => State.brick_setBrick_ne s b hk, setWidth_eq_zero_append w, State.brick_setBrick s bk b⟩

end

end Sys2Proof.Machine
end

section
/-! Settles O24: the frame-mover queues of a brick. -/

namespace Sys2Proof.Machine

section
variable {s : State} {bk : Fin 52} {v : Word}

theorem exec_fmTxcWrite (hu : s.blocksUp = true) (hg : s.gated (courseOf bk) = false) (hm : (s.course (courseOf bk)).mode ≠ 2) :
    ∃ j, exec (.fmTxcWrite bk v) s = .next ((s.pushTx bk v).modJournal fun _ => j) := by
  obtain ⟨j, hx⟩ := State.ioWriteNow_fm (a := 0x08A) (v := v) hu hg hm (by decide) (.inl rfl)
  rw [State.ioWriteLive_txc] at hx
  exact ⟨j, hx⟩

/-- A write of FM_TXC that changes the brick alone. -/
theorem exec_fmTxcWrite_sets {b : Brick} (hu : s.blocksUp = true) (hg : s.gated (courseOf bk) = false) (hm : (s.course (courseOf bk)).mode ≠ 2)
    (hp : s.pushTx bk v = s.setBrick bk b) : ∃ t, exec (.fmTxcWrite bk v) s = .next t ∧
      t = { s with bricks := t.bricks, journal := t.journal } ∧ (∀ k, k ≠ bk → t.brick k = s.brick k) ∧ t.brick bk = b := by
  obtain ⟨j, hx⟩ := exec_fmTxcWrite (v := v) hu hg hm
  rw [hp] at hx
  exact ⟨_, hx, rfl, fun k hk => State.brick_setBrick_ne s b hk, State.brick_setBrick s bk b⟩

/-- LAST of a frame that is not dropped: it waits at the end of the course's queue (R222, R223). -/
theorem exec_fmTxcWrite_queues (hu : s.blocksUp = true) (hg : s.gated (courseOf bk) = false) (hm : (s.course (courseOf bk)).mode ≠ 2)
    (hs : s.txSlots bk ≠ 0) (hv : v.getLsbD 15 = true) (hd : ¬ frameDropped (s.brick bk).fm.pushed v)
    (ho : ∀ g ∈ (s.course (courseOf bk)).fmTx, g.dropped = false) :
    ∃ t, exec (.fmTxcWrite bk v) s = .next t ∧ t = { s with bricks := t.bricks, courses := t.courses, journal := t.journal } ∧
      (∀ k, k ≠ bk → t.brick k = s.brick k) ∧ (∀ k, k ≠ courseOf bk → t.course k = s.course k) ∧
      t.brick bk = { s.brick bk with fm := { (s.brick bk).fm with segs := [], seqno := (s.brick bk).fm.seqno + 1 } } ∧
      t.course (courseOf bk) = { s.course (courseOf bk) with fmTx := (s.course (courseOf bk)).fmTx ++
        [{ brick := localOf bk, seqno := (s.brick bk).fm.seqno, segs := (s.brick bk).fm.pushed, ctl := v, dropped := false, got := [], id := none }] } := by
  obtain ⟨j, hx⟩ := exec_fmTxcWrite (v := v) hu hg hm
  have hdf : ((s.brick bk).fm.frame (localOf bk) v).dropped = false := txDropped_eq_false hd
  rw [State.pushTx_last hs hv, State.postDropped_open (fun g hg _ => ?_)] at hx
  · refine ⟨_, hx, rfl, fun k hk => State.brick_setBrick_ne s _ hk, fun k hk => State.course_setCourse_ne _ _ hk, ?_, ?_⟩
    · have hgt : gathers (s.brick bk).fm.pushed = false := decide_eq_false fun h => hd (.inr (.inl h))
      refine (State.brick_setBrick s bk _).trans ?_
      rw [Brick.sent, hgt]
      rfl
    · refine (State.course_setCourse _ _ _).trans ?_
      rw [← hdf]
      rfl
  · rw [State.course_setCourse, List.mem_append, List.mem_singleton] at hg
    obtain hg | rfl := hg
    · exact ho g hg
    · exact hdf

/-- LAST of a frame that is dropped, with no earlier frame of its brick open: its completion at once (R216, R222, R223). -/
theorem exec_fmTxcWrite_drops (hu : s.blocksUp = true) (hg : s.gated (courseOf bk) = false) (hm : (s.course (courseOf bk)).mode ≠ 2)
    (hs : s.txSlots bk ≠ 0) (hv : v.getLsbD 15 = true) (hd : frameDropped (s.brick bk).fm.pushed v)
    (ho : ∀ g ∈ (s.course (courseOf bk)).fmTx, g.brick ≠ localOf bk) :
    ∃ t, exec (.fmTxcWrite bk v) s = .next t ∧ t = { s with bricks := t.bricks, courses := t.courses, journal := t.journal } ∧
      (∀ k, k ≠ bk → t.brick k = s.brick k) ∧ (∀ k, t.course k = s.course k) ∧ t.brick bk = (s.brick bk).sent.posted true (s.brick bk).fm.seqno := by
  obtain ⟨j, hx⟩ := exec_fmTxcWrite (v := v) hu hg hm
  rw [State.pushTx_last hs hv, State.postDropped_last (State.course_setCourse _ _ _) rfl ((txDropped_iff _ _).mpr hd) ho] at hx
  generalize hw : ((s.setBrick bk (s.brick bk).sent).setCourse (courseOf bk) { s.course (courseOf bk) with
    fmTx := (s.course (courseOf bk)).fmTx ++ [(s.brick bk).fm.frame (localOf bk) v] }).setCourse (courseOf bk) (s.course (courseOf bk)) = w at hx
  have hf : w = { s with bricks := w.bricks, courses := w.courses } := by rw [← hw]; rfl
  have hb : ∀ k, w.brick k = (s.setBrick bk (s.brick bk).sent).brick k := fun k => by rw [← hw]; rfl
  obtain ⟨r, hr⟩ := State.postTxComp_jrec w bk true ((s.brick bk).fm.frame (localOf bk) v).seqno
  rw [hr] at hx
  refine ⟨_, hx, ?_, fun k hk => ?_, fun k => ?_, ?_⟩
  · rw [State.jrec_eq]
    conv_lhs => rw [hf]
    rfl
  · exact (State.brick_jrec ..).trans ((State.brick_modBrick_ne w _ hk).trans ((hb k).trans (State.brick_setBrick_ne s _ hk)))
  · refine (State.course_jrec ..).trans ?_
    change w.course k = _
    rw [← hw]
    by_cases hk : k = courseOf bk
    · subst hk
      exact State.course_setCourse _ _ _
    · exact (State.course_setCourse_ne _ _ hk).trans (State.course_setCourse_ne _ _ hk)
  · refine (State.brick_jrec ..).trans ((State.brick_modBrick w _ _).trans ?_)
    rw [hb, State.brick_setBrick]
    rfl

theorem exec_fmRxmapWrite_keystone {c : Fin 13} {w : Reg32} (hu : s.blocksUp = true) :
    exec (.fmRxmapWrite .keystone c w) s = .next (s.modCourse c (fun x => { x with rxmap := w.extractLsb' 0 16 })) :=
  State.when_of_true s (fun s => s.rxmapWrite .keystone c w) hu

theorem exec_fmRxmapWrite_refused {p : Party} {c : Fin 13} {w : Reg32} (hu : s.blocksUp = true) (hp : p ≠ .keystone) :
    exec (.fmRxmapWrite p c w) s = .next (s.refused p (0x1060000 + c.val * 0x100000) w.toNat) := by
  refine (State.when_of_true s (fun s => s.rxmapWrite p c w) hu).trans ?_
  rw [State.rxmapWrite, if_neg hp, show courseBase c + 0x60000 = 0x1060000 + c.val * 0x100000 by rw [courseBase]; omega]

end

/-- Settles O24: the queues of `FmQueue` as I/O accesses; LAST by `exec_fmTxcWrite_queues` and `exec_fmTxcWrite_drops`. -/
theorem frameMoverQueues : Obligations.FrameMoverQueues := by
  unfold Obligations.FrameMoverQueues
  refine ⟨?rxl, ?rxc, ?txd, ?full, ?more, ?queues, ?drops, ?rxmap, ?refused⟩
  case rxl =>
    intro s bk v hu hg
    obtain ⟨t, hx, hf, ho, hb⟩ : ∃ t, exec (.fmRxlWrite bk v) s = .next t ∧ t = { s with bricks := t.bricks, journal := t.journal } ∧
        (∀ k, k ≠ bk → t.brick k = s.brick k) ∧ t.brick bk = { s.brick bk with fm := (s.brick bk).fm.pushRx v } :=
      State.ioWriteNow_sets (a := 0x081) hu hg rfl rfl
    refine ⟨t, hx, hf, ho, fun h => ?_, fun h hl => ?_, fun h hl => ?_⟩
    · rw [hb, FmQueue.pushRx_badLength h]
    · rw [hb, FmQueue.pushRx_over h hl]
    · rw [hb, FmQueue.pushRx_room h hl]
  case rxc =>
    intro s bk hu hg
    obtain ⟨t, hx, hf, ho, hr, hb⟩ := State.ioReadNow_sets (a := 0x084) (w := (s.brick bk).fm.popRx.1) (b := { s.brick bk with fm := (s.brick bk).fm.popRx.2 }) hu hg
      (by decide) rfl rfl (by decide) rfl
    refine ⟨t, hx, hf, ho, fun a c r h => ?_, fun h => ?_⟩
    · rw [FmQueue.popRx_cons h] at hr hb
      exact ⟨hr, hb⟩
    · rw [hb, FmQueue.popRx_nil h]
  case txd =>
    intro s bk hu hg
    obtain ⟨t, hx, hf, ho, hr, hb⟩ := State.ioReadNow_sets (a := 0x08C) (w := (s.brick bk).fm.popTx.1) (b := { s.brick bk with fm := (s.brick bk).fm.popTx.2 }) hu hg
      (by decide) rfl rfl (by decide) rfl
    refine ⟨t, hx, hf, ho, fun c r h => ?_, fun h => ?_⟩
    · rw [FmQueue.popTx_cons h] at hr hb
      exact ⟨hr, hb⟩
    · rw [FmQueue.popTx_nil h] at hr hb
      exact ⟨hr.trans BitVec.zero_append_zero, hb⟩
  case full => exact fun s bk v hu hg hm hs => exec_fmTxcWrite_sets hu hg hm (State.pushTx_full hs)
  case more => exact fun s bk v hu hg hm hs hv => exec_fmTxcWrite_sets hu hg hm (State.pushTx_more hs hv)
  case queues => exact fun s bk v hu hg hm hs hv hd ho => exec_fmTxcWrite_queues hu hg hm hs hv hd ho
  case drops =>
    intro s bk v hu hg hm hs hv hd ho
    obtain ⟨t, hx, hf, hk, hc, hb⟩ := exec_fmTxcWrite_drops hu hg hm hs hv hd ho
    refine ⟨t, hx, hf, hk, hc, ?_⟩
    rw [hb, Brick.posted, FmQueue.postTx, txdWord]
    exact ⟨rfl, rfl, rfl, rfl, if_congr decide_eq_true_iff rfl rfl⟩
  case rxmap => exact fun s c v hu => ⟨_, exec_fmRxmapWrite_keystone hu, rfl, fun k hk => State.course_modCourse_ne s _ hk, State.course_modCourse s c _⟩
  case refused => exact fun s p c v hu hp => exec_fmRxmapWrite_refused hu hp

end Sys2Proof.Machine
end

section
/-! SUPPORT. Bytes and words written into a memory that wraps, and a receive burst of the frame mover (R97, R214, R218 to R220). -/

namespace Sys2Proof.Machine

/-! ### Writes that wrap -/

theorem mod_add_ne {n w i j : Nat} (hij : i < j) (hj : j < i + n) : (w + i) % n ≠ (w + j) % n := fun h => by
  have hm : i % n = j % n := Nat.ModEq.add_left_cancel' w h
  have hd : n ∣ j - i := (Nat.modEq_iff_dvd' hij.le).mp hm
  exact absurd (Nat.le_of_dvd (by omega) hd) (by omega)

section
variable {m : Memory}

theorem wf_bankBytes (a : Nat) (l : List Byte) (h : Memory.wf bankBlank m = true) : Memory.wf bankBlank (bankBytes m a l) = true := by
  induction l generalizing m a with
  | nil => exact h
  | cons b l ih => exact ih (a + 1) (Sparse.wf_write bankBlank _ b h)

/-- Bytes outside those written read as before. -/
theorem read_bankBytes_out (m : Memory) {a x : Nat} {l : List Byte} (h : ∀ k, k < l.length → x ≠ (a + k) % 131072) :
    Sparse.read bankBlank (bankBytes m a l) x = Sparse.read bankBlank m x := by
  induction l generalizing m a with
  | nil => rfl
  | cons b l ih =>
    have h0 : x ≠ a % 131072 := h 0 (Nat.zero_lt_succ _)
    rw [bankBytes, ih _ fun k hk => ?_, Sparse.read_write_ne bankBlank m b h0]
    rw [Nat.add_assoc, Nat.add_comm 1 k]
    exact h (k + 1) (Nat.succ_lt_succ hk)

/-- A byte written reads back. -/
theorem read_bankBytes {a k : Nat} {l : List Byte} (h : Memory.wf bankBlank m = true) (hl : l.length ≤ 131072) (hk : k < l.length) :
    Sparse.read bankBlank (bankBytes m a l) ((a + k) % 131072) = nth l k 0 := by
  induction l generalizing m a k with
  | nil => exact absurd hk (Nat.not_lt_zero k)
  | cons b l ih =>
    rw [List.length_cons] at hl hk
    cases k with
    | zero =>
      rw [bankBytes, read_bankBytes_out _ fun j hj => ?_]
      · exact Sparse.read_write_same bankBlank _ b h
      · rw [Nat.add_assoc]
        exact mod_add_ne (by omega) (by omega)
    | succ k =>
      rw [bankBytes, ← Nat.add_assoc, Nat.add_right_comm]
      exact ih (Sparse.wf_write bankBlank _ b h) (by omega) (by omega)

theorem Memory.read_setWord_ne (m : Memory) {w x : Nat} (v : Word) (h : x / 2 ≠ w) :
    Sparse.read bankBlank (m.setWord w v) x = Sparse.read bankBlank m x := by
  rw [Memory.setWord, Sparse.read_write_ne bankBlank _ _ (by omega), Sparse.read_write_ne bankBlank _ _ (by omega)]

theorem Memory.read_setWords_out (m : Memory) {n w x : Nat} {l : List Word} (h : ∀ k, k < l.length → x / 2 ≠ (w + k) % n) :
    Sparse.read bankBlank (m.setWords n w l) x = Sparse.read bankBlank m x := by
  induction l generalizing m w with
  | nil => rfl
  | cons v l ih =>
    have h0 : x / 2 ≠ w % n := h 0 (Nat.zero_lt_succ _)
    rw [Memory.setWords, ih _ fun k hk => ?_, Memory.read_setWord_ne m v h0]
    rw [Nat.add_assoc, Nat.add_comm 1 k]
    exact h (k + 1) (Nat.succ_lt_succ hk)

theorem Memory.word_setWords_out (m : Memory) {n w x : Nat} {l : List Word} (h : ∀ k, k < l.length → x ≠ (w + k) % n) :
    (m.setWords n w l).word x = m.word x := by
  rw [Memory.word, Memory.word, Memory.read_setWords_out m (by simpa [Nat.mul_add_div] using h), Memory.read_setWords_out m (by simpa using h)]

/-- A word written reads back, where no two of those written coincide. -/
theorem Memory.word_setWords {n w k : Nat} {l : List Word} (h : Memory.wf bankBlank m = true) (hl : l.length ≤ n) (hk : k < l.length) :
    (m.setWords n w l).word ((w + k) % n) = nth l k 0 := by
  induction l generalizing m w k with
  | nil => exact absurd hk (Nat.not_lt_zero k)
  | cons v l ih =>
    rw [List.length_cons] at hl hk
    cases k with
    | zero =>
      rw [Memory.setWords, Memory.word_setWords_out _ fun j hj => ?_]
      · exact Memory.word_setWord_same _ v h
      · rw [Nat.add_assoc]
        exact mod_add_ne (by omega) (by omega)
    | succ k =>
      rw [Memory.setWords, ← Nat.add_assoc, Nat.add_right_comm]
      exact ih (Memory.wf_setWord _ v h) (by omega) (by omega)

end

/-! ### What a burst writes (R218 to R220) -/

section
variable (f : RxFrame)

/-- The bytes of the cell that the next burst takes. -/
def RxFrame.cell : Nat := min 256 (f.bytes.length - f.written)

/-- The burst is the frame's last. -/
def RxFrame.ends : Bool := decide (f.bytes.length ≤ f.written + f.cell)

/-- The bytes of the frame that a buffer with this room takes. -/
def RxFrame.stored (room : Nat) : Nat := min f.bytes.length room

/-- The bytes that the burst writes. -/
def RxFrame.part (room : Nat) : List Byte := ((f.bytes.drop f.written).take f.cell).take (room - f.written)

/-- The byte address of the first of them, in a buffer at word a and lane lam. -/
def RxFrame.partAt (a lam : Nat) : Nat := 2 * a + lam + f.written

/-- The metadata words that the burst writes. -/
def RxFrame.metas (room : Nat) : List Word := if f.ends then metaWords f (decide (room < f.bytes.length)) else []

/-- The word address of the first of them. -/
def RxFrame.metaAt (a lam room : Nat) : Nat := a + (lam + f.stored room + 1) / 2

/-- The bank after the burst. -/
def RxFrame.bankAfter (m : Memory) (a lam room : Nat) : Memory :=
  Memory.setWords (bankBytes m (f.partAt a lam) (f.part room)) 65536 (f.metaAt a lam room) (f.metas room)

/-- FM_RXC1 of the completion. -/
def RxFrame.rxcWord (room : Nat) : Word :=
  BitVec.ofNat 16 (0x8000 + b2n f.info.err * 0x4000 + b2n (decide (room < f.bytes.length)) * 0x2000 + f.stored room)

end

section
variable {f : RxFrame} {m : Memory} {a lam room : Nat}

theorem RxFrame.length_part : (f.part room).length = min f.cell (room - f.written) := by
  simp only [RxFrame.part, List.length_take, List.length_drop, RxFrame.cell]
  omega

theorem RxFrame.lt_length_part {k : Nat} (hk : k < f.cell) (hr : f.written + k < room) : k < (f.part room).length := by
  rw [RxFrame.length_part]
  omega

theorem RxFrame.nth_part {k : Nat} (hk : k < (f.part room).length) : nth (f.part room) k 0 = nth f.bytes (f.written + k) 0 := by
  rw [RxFrame.length_part] at hk
  rw [nth, nth, RxFrame.part, List.getElem?_take_of_lt (by omega), List.getElem?_take_of_lt (by omega), List.getElem?_drop]

theorem RxFrame.length_metas_le : (f.metas room).length ≤ 8 := by
  unfold RxFrame.metas
  split
  · exact Nat.le_refl 8
  · exact Nat.zero_le 8

theorem RxFrame.metas_of_ends (h : f.ends = true) : f.metas room = metaWords f (decide (room < f.bytes.length)) := if_pos h

/-- The metadata lie behind the bytes. -/
theorem RxFrame.part_clear (hr : room < 65536) {k i : Nat} (hk : k < (f.part room).length) (hi : i < (f.metas room).length) :
    (f.partAt a lam + k) % 131072 / 2 ≠ (f.metaAt a lam room + i) % 65536 := by
  have hk8 := f.length_metas_le (room := room)
  rw [RxFrame.length_part, RxFrame.cell] at hk
  rw [RxFrame.partAt, RxFrame.metaAt, RxFrame.stored]
  omega

theorem RxFrame.read_part (hm : Memory.wf bankBlank m = true) (hr : room < 65536) {k : Nat} (hk : k < f.cell) (hw : f.written + k < room) :
    Sparse.read bankBlank (f.bankAfter m a lam room) ((f.partAt a lam + k) % 131072) = nth f.bytes (f.written + k) 0 := by
  have hp := RxFrame.lt_length_part hk hw
  have h8 : (f.part room).length ≤ 131072 := by
    rw [RxFrame.length_part, RxFrame.cell]
    omega
  rw [RxFrame.bankAfter, Memory.read_setWords_out _ fun i hi => RxFrame.part_clear hr hp hi, read_bankBytes hm h8 hp, RxFrame.nth_part hp]

theorem RxFrame.read_outside {x : Nat} (hx : x < 131072) (hp : ∀ k, k < f.cell → f.written + k < room → x ≠ (f.partAt a lam + k) % 131072)
    (hq : f.ends = true → ∀ i, i < 16 → x ≠ (2 * f.metaAt a lam room + i) % 131072) :
    Sparse.read bankBlank (f.bankAfter m a lam room) x = Sparse.read bankBlank m x := by
  rw [RxFrame.bankAfter, Memory.read_setWords_out _ fun i hi => ?_, read_bankBytes_out m fun k hk => ?_]
  · rw [RxFrame.length_part] at hk
    exact hp k (by omega) (by omega)
  · have h8 := f.length_metas_le (room := room)
    have he : f.ends = true := by
      by_contra he
      rw [RxFrame.metas, if_neg he] at hi
      exact Nat.not_lt_zero i hi
    have hne := hq he (2 * i + x % 2) (by omega)
    omega

theorem RxFrame.word_metas (hm : Memory.wf bankBlank m = true) (he : f.ends = true) {k : Nat} (hk : k < 8) :
    (f.bankAfter m a lam room).word ((f.metaAt a lam room + k) % 65536) = nth (metaWords f (decide (room < f.bytes.length))) k 0 := by
  rw [← RxFrame.metas_of_ends he]
  exact Memory.word_setWords (wf_bankBytes _ _ hm) (f.length_metas_le.trans (by decide)) (by rw [RxFrame.metas_of_ends he]; exact hk)

theorem b2n_mul (b : Bool) (k : Nat) : b2n b * k = if b then k else 0 := by cases b <;> simp [b2n]

theorem b2n_decide_mul (p : Prop) [Decidable p] (k : Nat) : b2n (decide p) * k = if p then k else 0 := by
  rw [b2n_mul]
  simp only [decide_eq_true_eq]

theorem PortCode.code_le (q : PortCode) : q.code ≤ 60 := by
  unfold PortCode.code
  split <;> omega

/-- Word 1 of the metadata: ingress, class and flags (R220). -/
theorem toNat_metaFlags : (nth (metaWords f (decide (room < f.bytes.length))) 1 0).toNat =
    f.info.ingress.code * 1024 + f.info.cls.val * 128 + (if f.info.err then 64 else 0) + (if room < f.bytes.length then 32 else 0) +
      (if f.info.tsValid then 16 else 0) + (if f.info.td then 8 else 0) := by
  have hb : ∀ b : Bool, b2n b ≤ 1 := by decide
  have hq := PortCode.code_le f.info.ingress
  have h1 := hb f.info.err
  have h2 := hb (decide (room < f.bytes.length))
  have h3 := hb f.info.tsValid
  have h4 := hb f.info.td
  change (BitVec.ofNat 16 (f.info.ingress.code * 1024 + f.info.cls.val * 128 + b2n f.info.err * 64 + b2n (decide (room < f.bytes.length)) * 32 +
    b2n f.info.tsValid * 16 + b2n f.info.td * 8)).toNat = _
  rw [BitVec.toNat_ofNat, Nat.mod_eq_of_lt (by omega), b2n_mul, b2n_decide_mul, b2n_mul, b2n_mul]

/-- Words 2 to 7: the timestamp (R220). -/
theorem nth_metaTimestamp (tr : Bool) {k : Nat} (hk : k < 6) : nth (metaWords f tr) (2 + k) 0 = f.info.ts.extractLsb' (16 * k) 16 := by
  rw [metaWords, Nat.add_comm 2 k]
  simp [nth, hk]

theorem RxFrame.rxcWord_eq : f.rxcWord room =
    BitVec.ofNat 16 (0x8000 + (if f.info.err then 0x4000 else 0) + (if room < f.bytes.length then 0x2000 else 0) + min f.bytes.length room) := by
  rw [RxFrame.rxcWord, b2n_mul, b2n_decide_mul, RxFrame.stored]

end

/-! ### What a burst changes -/

/-- Only the time, bricks, courses and the journal differ. -/
def BurstLeaves (s t : State) : Prop := t = { s with now := t.now, bricks := t.bricks, courses := t.courses, journal := t.journal }

section
variable {s t u : State}

theorem BurstLeaves.trans (h1 : BurstLeaves s t) (h2 : BurstLeaves t u) : BurstLeaves s u := by
  refine Eq.trans h2 ?_
  rw [show t = _ from h1]

theorem BurstLeaves.modBrick (s : State) (k : Fin 52) (f : Brick → Brick) : BurstLeaves s (s.modBrick k f) := rfl

theorem BurstLeaves.jrec (s : State) (c : Fin 13) (r : JRec) : BurstLeaves s (s.jrec c r) := by
  rw [State.jrec_eq]
  rfl

/-- A burst that ends at time n leaves course c as x, and a record in the journal. -/
def State.burst (s : State) (n : Nat) (c : Fin 13) (x : Course) (r : JRec) : State := ((s.at_ n).setCourse c x).jrec c r

theorem BurstLeaves.setCourse (s : State) (n : Nat) (c : Fin 13) (x : Course) : BurstLeaves s ((s.at_ n).setCourse c x) := rfl

theorem BurstLeaves.burst (s : State) (n : Nat) (c : Fin 13) (x : Course) (r : JRec) : BurstLeaves s (s.burst n c x r) :=
  (BurstLeaves.setCourse s n c x).trans (.jrec _ c r)

theorem State.brick_burst (s : State) (n : Nat) (c : Fin 13) (x : Course) (r : JRec) (k : Fin 52) : (s.burst n c x r).brick k = s.brick k :=
  State.brick_jrec _ c r k

theorem State.course_burst (s : State) (n : Nat) (c : Fin 13) (x : Course) (r : JRec) : (s.burst n c x r).course c = x :=
  (State.course_jrec _ c c r).trans (State.course_setCourse _ c x)

theorem State.course_burst_ne (s : State) (n : Nat) {c d : Fin 13} (x : Course) (r : JRec) (h : d ≠ c) : (s.burst n c x r).course d = s.course d :=
  (State.course_jrec _ c d r).trans (State.course_setCourse_ne _ x h)

end

/-! ### A burst (R214, R218) -/

/-- The buffer that the frame takes at its first burst leaves the queue of its brick. -/
def Brick.bufTaken (b : Brick) : Brick := { b with fm := { b.fm with bufs := b.fm.bufs.tail } }

/-- A frame that finds no buffer is counted. -/
def Brick.unbuffered (b : Brick) : Brick := { b with fm := { b.fm with nobuf := satInc b.fm.nobuf } }

/-- A receive completion is posted. -/
def Brick.received (a w : Word) (b : Brick) : Brick := { b with fm := { b.fm with rxc := b.fm.rxc ++ [(a, w)] } }

/-- The state in which a frame has its buffer. -/
def State.buffered (s : State) (c : Fin 13) (f : RxFrame) (b : Fin 4) : State :=
  if f.buf = none then s.modBrick (brickOf c b) Brick.bufTaken else s

/-- The course after the burst of a frame in a buffer at word a and lane lam with this room: the frame mover is free in cycle n, having
lost k cycles. -/
def Course.rxStored (x : Course) (f : RxFrame) (rest : List RxFrame) (a lam room n k : Nat) : Course :=
  { x with bank := f.bankAfter x.bank a lam room, fmFree := n,
           fmRx := if f.ends then rest else { f with written := f.written + f.cell } :: rest }.lose 4 k

section
variable {s : State} {c : Fin 13} {f : RxFrame} {rest : List RxFrame} {b : Fin 4} {a : Word} {len : Nat} {lane : Bool} {ct : List Contention}

theorem Course.classBrick_val (x : Course) (k : Fin 8) : (x.classBrick k).val = x.rxmap.toNat / 2 ^ (2 * k.val) % 4 := by
  change bits x.rxmap (2 * k.val + 1) (2 * k.val) % 4 = _
  rw [bits_eq_div_mod, show 2 * k.val + 1 + 1 - 2 * k.val = 2 by omega]
  exact Nat.mod_mod _ 4

/-- A frame that has its buffer keeps it. -/
theorem State.takeBuffer_some {x : Fin 4 × Word × Nat × Bool} (hf : f.buf = some x) : s.takeBuffer c f = (s, some f) := by
  simp only [State.takeBuffer, hf]

/-- Another takes the oldest buffer of its brick. -/
theorem State.takeBuffer_oldest {l : Word} {r : List (Word × Word)} (hf : f.buf = none) (hb : (s.course c).classBrick f.info.cls = b)
    (hq : (s.brick (brickOf c b)).fm.bufs = (a, l) :: r) :
    s.takeBuffer c f = (s.modBrick (brickOf c b) Brick.bufTaken, some { f with buf := some (b, a, l.toNat % 4096, l.getLsbD 15) }) := by
  subst hb
  simp only [State.takeBuffer, hf, hq]
  rw [State.modBrick, State.modBrick, Brick.bufTaken, hq, bits_low]
  rfl

/-- A frame with a buffer in reach is buffered. -/
theorem State.takeBuffer_of_bufferFor (h : s.bufferFor c f = some (b, a, len, lane)) :
    s.takeBuffer c f = (s.buffered c f b, some { f with buf := some (b, a, len, lane) }) := by
  have hk : (⟨(s.course c).rxmap.toNat / 2 ^ (2 * f.info.cls.val) % 4, by omega⟩ : Fin 4) = (s.course c).classBrick f.info.cls :=
    Fin.ext (Course.classBrick_val _ _).symm
  rw [State.bufferFor, hk] at h
  unfold State.buffered
  cases hf : f.buf with
  | some x =>
    rw [hf] at h
    cases h
    rw [State.takeBuffer_some hf, if_neg nofun, ← hf]
  | none =>
    rw [hf] at h
    cases hq : (s.brick (brickOf c ((s.course c).classBrick f.info.cls))).fm.bufs with
    | nil =>
      rw [hq] at h
      cases h
    | cons y ys =>
      rw [hq] at h
      cases h
      exact State.takeBuffer_oldest hf rfl hq

theorem State.takeBuffer_none (hf : f.buf = none) (hb : b.val = (s.course c).rxmap.toNat / 2 ^ (2 * f.info.cls.val) % 4)
    (hq : (s.brick (brickOf c b)).fm.bufs = []) : s.takeBuffer c f = (s.modBrick (brickOf c b) Brick.unbuffered, none) := by
  obtain rfl : (s.course c).classBrick f.info.cls = b := Fin.ext ((Course.classBrick_val _ _).trans hb.symm)
  unfold State.takeBuffer
  simp only [hf]
  split
  · next h => exact absurd (hq.symm.trans h) nofun
  · rfl

theorem RxFrame.burstReady_of (hd : f.dropped = false) (hs : 0 < f.staged) (hw : f.written + f.cell ≤ f.staged) : f.burstReady = true := by
  rw [RxFrame.burstReady, hd]
  exact decide_eq_true ⟨hw, hs⟩

/-- A burst of a frame that has its buffer. -/
theorem State.rxBurst_stores {u : State} (hr : (s.course c).fmRx = f :: rest) (hb : f.burstReady = true)
    (ht : s.takeBuffer c f = (u, some { f with buf := some (b, a, len, lane) })) : ∃ t n k r q, s.rxBurst c ct =
      let w := u.burst t c ((u.course c).rxStored { f with buf := some (b, a, len, lane) } rest a.toNat (b2n lane) (rxRoom len (b2n lane)) n k) r
      if f.ends then (w.modBrick (brickOf c b) (Brick.received a (f.rxcWord (rxRoom len (b2n lane))))).jrec c q else w := by
  unfold State.rxBurst
  rw [hr]
  dsimp only
  rw [if_pos hb, ht]
  dsimp only
  generalize burstEnd _ _ _ _ _ = n
  generalize n - _ - _ = k
  generalize (u.course c).base + n * brickCycle = t
  unfold Course.rxStored RxFrame.bankAfter RxFrame.metas RxFrame.metaAt RxFrame.partAt RxFrame.part RxFrame.rxcWord RxFrame.ends RxFrame.stored RxFrame.cell
  refine ⟨t, n, k, _, _, rfl⟩

end

end Sys2Proof.Machine
end

section
/-! SUPPORT. A transmit burst of the frame mover, and what its cell enters (R222, R223, R225, R520). -/

namespace Sys2Proof.Machine

/-! ### What a cell enters -/

section
variable {s t u : State}

/-- Only what the mortar has of frames differs: its copies, flow contexts, ports and lines, and the values drawn. -/
def EntersMortar (s t : State) : Prop :=
  t = { s with mortar := t.mortar, fcs := t.fcs, ports := t.ports, lineOut := t.lineOut, freeCtr := t.freeCtr }

theorem EntersMortar.refl (s : State) : EntersMortar s s := rfl

theorem EntersMortar.trans (h1 : EntersMortar s t) (h2 : EntersMortar t u) : EntersMortar s u := by
  refine Eq.trans h2 ?_
  rw [show t = _ from h1]

theorem EntersMortar.ite {p : Prop} [Decidable p] (h1 : EntersMortar s t) (h2 : EntersMortar s u) : EntersMortar s (if p then t else u) := by
  split
  · exact h1
  · exact h2

theorem EntersMortar.countPort (s : State) (q : PortCode) (k : Fin 32) (n : Nat) : EntersMortar s (s.countPort q k n) := rfl

theorem EntersMortar.switchTo (s : State) (f : Frame) (i : PortCode) (k : Fin 8) (o : PortCode) : EntersMortar s (s.switchTo f i k o) := by
  unfold State.switchTo
  split
  · exact .ite (.countPort s i 19 1) (.refl s)
  · refine foldl_rel EntersMortar .refl (fun _ _ _ => .trans) _ ?_ _ s
    exact fun _ _ => rfl

theorem EntersMortar.toFlow (s : State) (n : Fin 256) (f : Frame) (k : Fin 8) (b : Bool) : EntersMortar s (s.toFlow n f k b) := rfl

theorem EntersMortar.extendFrame (s : State) (i : Nat) (l : List Byte) (t : Nat) (e : Option Nat) : EntersMortar s (s.extendFrame i l t e) := rfl

/-- A frame becomes known, its segments drawn. -/
theorem EntersMortar.known (s : State) (m : Mortar) : EntersMortar s { s.fresh.2 with mortar := m } := rfl

/-- A cell enters the course port (R520). -/
theorem EntersMortar.enterMortar (s : State) (c : Fin 13) (x : TxCell) : EntersMortar s (s.enterMortar c x) := by
  unfold State.enterMortar
  dsimp only
  have h : ∀ u, EntersMortar s u → EntersMortar s (if x.last then (u.countPort (portCp c) 0 1).countPort (portCp c) 1 ((x.frame.segs.map TxSeg.len).sum + 4) else u) :=
    fun u hu => .ite ((hu.trans (.countPort _ _ _ _)).trans (.countPort _ _ _ _)) hu
  refine h _ (.ite (.ite ((EntersMortar.known s _).trans (.toFlow _ _ _ _ _)) ?_) (.extendFrame s _ _ _ _))
  split
  · exact (EntersMortar.known s _).trans (.switchTo _ _ _ _ _)
  · exact .known s _

theorem EntersMortar.brick (h : EntersMortar s t) (k : Fin 52) : t.brick k = s.brick k := (congrArg (State.brick · k) h).trans rfl
theorem EntersMortar.course (h : EntersMortar s t) (c : Fin 13) : t.course c = s.course c := (congrArg (State.course · c) h).trans rfl

end

/-! ### The byte stream of a frame (R222) -/

theorem TxSeg.len_eq (g : TxSeg) : g.len = g.b.toNat % 8192 := bits_low g.b 12

theorem TxSeg.lane_eq (g : TxSeg) : g.lane = g.b.toNat / 32768 := by
  rw [TxSeg.lane, b2n_bit]
  omega

theorem streamAddrs_cons (g : TxSeg) (gs : List TxSeg) : streamAddrs (g :: gs) =
    (List.range (g.b.toNat % 8192)).map (fun i => (2 * g.addr.toNat + g.b.toNat / 32768 + i) % 131072) ++ streamAddrs gs := by
  rw [streamAddrs, g.len_eq, g.lane_eq]

theorem length_streamAddrs (gs : List TxSeg) : (streamAddrs gs).length = (gs.map TxSeg.len).sum := by
  induction gs with
  | nil => rfl
  | cons g gs ih => rw [streamAddrs, List.length_append, List.length_map, List.length_range, ih, List.map_cons, List.sum_cons]

/-! ### A cell read (R222, R223, R225) -/

/-- The bank addresses of the cell that the next burst reads. -/
def TxFrame.cellAddrs (f : TxFrame) : List Nat := ((streamAddrs f.segs).drop f.got.length).take 256

/-- The frame, known to the mortar as i, with that cell read from memory m. -/
def TxFrame.read (f : TxFrame) (m : Memory) (i : Nat) : TxFrame :=
  { f with got := f.got ++ f.cellAddrs.map (fun a => Sparse.read bankBlank m a), id := some i }

/-- All bytes of the frame have been read. -/
def TxFrame.complete (f : TxFrame) : Bool := decide ((streamAddrs f.segs).length ≤ f.got.length)

/-- The course after a burst that leaves these frames: the frame mover is free in cycle n, having lost k cycles. -/
def Course.txRead (x : Course) (l : List TxFrame) (cells : List Nat) (n k : Nat) : Course := { x with fmFree := n, fmTx := l, txCells := cells }.lose 4 k

section
variable {s : State} {c : Fin 13} {f : TxFrame} {rest : List TxFrame} {ct : List Contention}

theorem TxFrame.complete_read_iff (f : TxFrame) (m : Memory) (i : Nat) :
    (f.read m i).complete = true ↔ (f.segs.map TxSeg.len).sum ≤ f.got.length + f.cellAddrs.length := by
  rw [TxFrame.complete, decide_eq_true_eq, length_streamAddrs, TxFrame.read]
  simp only [List.length_append, List.length_map]

/-- A burst reads a cell of the oldest open frame; after the last one the completion is posted. -/
theorem State.txBurst_reads (hf : takeFirst (fun (f : TxFrame) => !f.dropped) (s.course c).fmTx = some (f, rest)) (hr : (s.course c).txRoom s.now = true) :
    ∃ t n k l i r x, s.txBurst c ct = if (f.read (s.course c).bank i).complete
      then (((s.burst t c ((s.course c).txRead rest l n k) r).postTxComp (brickOf c f.brick) (s.ownerDenied f.ctl c) f.seqno).postDropped
        (brickOf c f.brick) ((s.course c).fmTx.length + 1), some x)
      else (s.burst t c ((s.course c).txRead ((s.course c).fmTx.map (fun g => if g = f then f.read (s.course c).bank i else g)) l n k) r, some x) := by
  unfold State.txBurst
  dsimp only
  rw [hf]
  dsimp only
  rw [if_pos hr]
  generalize burstEnd _ _ _ _ _ = n
  generalize n - _ - _ = k
  generalize (s.course c).base + n * brickCycle = t
  generalize f.id.getD s.mortar.nextId = i
  unfold TxFrame.complete TxFrame.read TxFrame.cellAddrs
  split
  · exact ⟨t, n, k, _, i, _, _, rfl⟩
  · exact ⟨t, n, k, _, i, _, _, rfl⟩

end

end Sys2Proof.Machine
end

section
/-! Settles O25: the bursts of the frame mover. -/

namespace Sys2Proof.Machine

section
variable {s t : State} {c : Fin 13} {ct : List Contention}

/-! ### Receive bursts -/

section
variable {f : RxFrame} {rest : List RxFrame} {b : Fin 4} {a : Word} {len : Nat} {lane : Bool}

theorem exec_fmRxBurst (h : s.bursts c) : exec (.fmRxBurst c ct) s = .next (s.rxBurst c ct) := by
  obtain ⟨hu, hg, hq⟩ := h
  exact State.when_of_true s (fun s => s.rxBurst c ct) (by rw [hu, hg, hq]; rfl)

theorem exec_fmRxBurst_empty (h : s.bursts c) (hr : (s.course c).fmRx = []) : exec (.fmRxBurst c ct) s = .next s := by
  rw [exec_fmRxBurst h, State.rxBurst, hr]

theorem BurstLeaves.buffered (s : State) (c : Fin 13) (f : RxFrame) (b : Fin 4) : BurstLeaves s (s.buffered c f b) := by
  unfold State.buffered
  split
  · exact .modBrick s _ _
  · exact rfl

theorem State.brick_buffered_ne (s : State) (f : RxFrame) {k : Fin 52} (h : k ≠ brickOf c b) : (s.buffered c f b).brick k = s.brick k := by
  unfold State.buffered
  split
  · exact State.brick_modBrick_ne s _ h
  · rfl

theorem State.course_buffered (s : State) (c : Fin 13) (f : RxFrame) (b : Fin 4) (d : Fin 13) : (s.buffered c f b).course d = s.course d := by
  unfold State.buffered
  split <;> rfl

theorem State.brick_buffered (s : State) (c : Fin 13) (f : RxFrame) (b : Fin 4) : (s.buffered c f b).brick (brickOf c b) =
    if f.buf = none then (s.brick (brickOf c b)).bufTaken else s.brick (brickOf c b) := by
  unfold State.buffered
  split
  · exact State.brick_modBrick s _ _
  · rfl

/-- The brick after a burst: it has given the buffer, and gets the completion of the last one. -/
def Brick.burstOf (x : Brick) (f : RxFrame) (a : Word) (room : Nat) : Brick :=
  let y := if f.buf = none then x.bufTaken else x
  if f.ends then y.received a (f.rxcWord room) else y

/-- What a burst of a frame that has a buffer does. -/
structure RxStores (s t : State) (c : Fin 13) (f : RxFrame) (rest : List RxFrame) (b : Fin 4) (a : Word) (len : Nat) (lane : Bool) : Prop where
  leaves : BurstLeaves s t
  otherBricks : ∀ k, k ≠ brickOf c b → t.brick k = s.brick k
  otherCourses : ∀ k, k ≠ c → t.course k = s.course k
  course : ∃ n k, t.course c = (s.course c).rxStored { f with buf := some (b, a, len, lane) } rest a.toNat (b2n lane) (rxRoom len (b2n lane)) n k
  brick : t.brick (brickOf c b) = (s.brick (brickOf c b)).burstOf f a (rxRoom len (b2n lane))

theorem exec_fmRxBurst_stores (h : s.bursts c) (hr : (s.course c).fmRx = f :: rest) (hb : f.burstReady = true) (hf : s.bufferFor c f = some (b, a, len, lane)) :
    ∃ t, exec (.fmRxBurst c ct) s = .next t ∧ RxStores s t c f rest b a len lane := by
  obtain ⟨n, k, l, r, q, ht⟩ := State.rxBurst_stores (ct := ct) hr hb (State.takeBuffer_of_bufferFor hf)
  rw [exec_fmRxBurst h, ht, State.course_buffered]
  refine ⟨_, rfl, ?_⟩
  generalize hx : (s.course c).rxStored { f with buf := some (b, a, len, lane) } rest a.toNat (b2n lane) (rxRoom len (b2n lane)) k l = x
  generalize hw : (s.buffered c f b).burst n c x r = w
  have hl : BurstLeaves s w := hw ▸ (BurstLeaves.buffered s c f b).trans (.burst _ n c x r)
  have ho : ∀ j, j ≠ brickOf c b → w.brick j = s.brick j := fun j hj => hw ▸ (State.brick_burst _ n c x r j).trans (s.brick_buffered_ne f hj)
  have hd : ∀ j, j ≠ c → w.course j = s.course j := fun j hj => hw ▸ (State.course_burst_ne _ n x r hj).trans (s.course_buffered c f b j)
  have hc : w.course c = x := hw ▸ State.course_burst _ n c x r
  have hk : w.brick (brickOf c b) = if f.buf = none then (s.brick (brickOf c b)).bufTaken else s.brick (brickOf c b) :=
    hw ▸ (State.brick_burst _ n c x r _).trans (s.brick_buffered c f b)
  dsimp only
  split
  · next he =>
    refine ⟨(hl.trans (.modBrick w _ _)).trans (.jrec _ c q), fun j hj => ?_, fun j hj => ?_, ⟨k, l, ?_⟩, ?_⟩
    · exact (State.brick_jrec ..).trans ((State.brick_modBrick_ne w _ hj).trans (ho j hj))
    · exact (State.course_jrec ..).trans (hd j hj)
    · exact (State.course_jrec ..).trans (hc.trans hx.symm)
    · rw [State.brick_jrec, State.brick_modBrick, hk, Brick.burstOf, if_pos he]
  · next he => exact ⟨hl, ho, hd, ⟨k, l, hc.trans hx.symm⟩, by rw [hk, Brick.burstOf, if_neg he]⟩

/-- A frame that finds no buffer is dropped, at once if it is staged whole (R218). -/
theorem exec_fmRxBurst_drops (h : s.bursts c) (hr : (s.course c).fmRx = f :: rest) (hb : f.burstReady = true) (hf : f.buf = none)
    (hk : b.val = (s.course c).rxmap.toNat / 2 ^ (2 * f.info.cls.val) % 4) (hq : (s.brick (brickOf c b)).fm.bufs = []) :
    exec (.fmRxBurst c ct) s = .next ((s.modBrick (brickOf c b) Brick.unbuffered).modCourse c
      (fun x => { x with fmRx := if f.bytes.length ≤ f.staged then rest else { f with dropped := true } :: rest })) := by
  rw [exec_fmRxBurst h, State.rxBurst, hr]
  dsimp only
  rw [if_pos hb, State.takeBuffer_none hf hk hq]

theorem RxFrame.ends_iff : f.ends = true ↔ f.bytes.length ≤ f.written + f.cell := decide_eq_true_iff

section
variable {x : Brick} {room : Nat}

theorem Brick.bufs_burstOf : (x.burstOf f a room).fm.bufs = if f.buf = none then x.fm.bufs.tail else x.fm.bufs := by
  unfold Brick.burstOf
  dsimp only
  split <;> split <;> rfl

theorem Brick.burstOf_keeps : (x.burstOf f a room).g = x.g ∧ (x.burstOf f a room).imem = x.imem := by
  unfold Brick.burstOf
  dsimp only
  split <;> split <;> exact ⟨rfl, rfl⟩

theorem Brick.rxc_burstOf : (x.burstOf f a room).fm.rxc = if f.ends then x.fm.rxc ++ [(a, f.rxcWord room)] else x.fm.rxc := by
  unfold Brick.burstOf
  dsimp only
  split <;> split <;> rfl

end

end

/-! ### Transmit bursts -/

section
variable {f : TxFrame} {rest : List TxFrame}

/-- The cell that a burst has read enters the course port. -/
theorem exec_fmTxBurst {u : State} {x : TxCell} (h : s.bursts c) (hx : s.txBurst c ct = (u, some x)) :
    ∃ t, exec (.fmTxBurst c ct) s = .next t ∧ EntersMortar u t := by
  obtain ⟨hu, hg, hq⟩ := h
  have hc : (s.blocksUp && (!s.gated c && !s.power.stbySeq)) = true := by rw [hu, hg, hq]; rfl
  have he : exec (.fmTxBurst c ct) s = .next (u.enterMortar c x) := by
    change execFmTxBurst c ct s = _
    rw [execFmTxBurst, State.when_of_true s _ hc, hx]
  exact ⟨_, he, .enterMortar u c x⟩

theorem map_replace {α : Type} [DecidableEq α] {x : α} {l : List α} (h : x ∉ l) (y : α) : (x :: l).map (fun z => if z = x then y else z) = y :: l := by
  have hl : l.map (fun z => if z = x then y else z) = l.map id := List.map_congr_left fun z hz => if_neg (ne_of_mem_of_not_mem hz h)
  rw [List.map_cons, if_pos rfl, hl, List.map_id]

theorem State.ownerDenied_iff (s : State) (ctl : Word) (c : Fin 13) : s.ownerDenied ctl c = true ↔
    (ctl.getLsbD 14 = true ∧ (s.reg (0x900000 + ctl.toNat % 256 * 0x100)).toNat / 256 % 16 ≠ c.val) := by
  rw [State.ownerDenied, Bool.and_eq_true, decide_eq_true_eq, bits_low, bits_eq_div_mod]
  rfl

/-- The burst reads the frame's last cell. -/
def TxFrame.lastCell (f : TxFrame) : Bool := decide ((f.segs.map TxSeg.len).sum ≤ f.got.length + f.cellAddrs.length)

theorem TxFrame.lastCell_iff : f.lastCell = true ↔ (f.segs.map TxSeg.len).sum ≤ f.got.length + f.cellAddrs.length := decide_eq_true_iff

theorem TxFrame.complete_read (f : TxFrame) (m : Memory) (i : Nat) : (f.read m i).complete = f.lastCell :=
  Bool.eq_iff_iff.mpr ((f.complete_read_iff m i).trans f.lastCell_iff.symm)

/-- What a burst of an open frame does: the course reads a cell; the brick gets the completion of the last one. -/
structure TxReads (s t : State) (c : Fin 13) (f : TxFrame) (rest : List TxFrame) : Prop where
  frame : t = { s with now := t.now, bricks := t.bricks, courses := t.courses, journal := t.journal, mortar := t.mortar, fcs := t.fcs, ports := t.ports,
                       lineOut := t.lineOut, freeCtr := t.freeCtr }
  otherBricks : ∀ k, k ≠ brickOf c f.brick → t.brick k = s.brick k
  otherCourses : ∀ k, k ≠ c → t.course k = s.course k
  course : ∃ l n k i, t.course c = (s.course c).txRead (if f.lastCell then rest else f.read (s.course c).bank i :: rest) l n k
  brick : t.brick (brickOf c f.brick) =
    (if f.lastCell then Brick.posted (s.ownerDenied f.ctl c) f.seqno (s.brick (brickOf c f.brick)) else s.brick (brickOf c f.brick))

theorem burst_enters {u : State} (h1 : BurstLeaves s u) (h2 : EntersMortar u t) :
    t = { s with now := t.now, bricks := t.bricks, courses := t.courses, journal := t.journal, mortar := t.mortar, fcs := t.fcs, ports := t.ports,
                 lineOut := t.lineOut, freeCtr := t.freeCtr } := by
  have hn : t.now = u.now := (congrArg State.now h2).trans rfl
  have hb : t.bricks = u.bricks := (congrArg State.bricks h2).trans rfl
  have hc : t.courses = u.courses := (congrArg State.courses h2).trans rfl
  have hj : t.journal = u.journal := (congrArg State.journal h2).trans rfl
  rw [hn, hb, hc, hj]
  refine Eq.trans h2 ?_
  conv_lhs => rw [show u = _ from h1]

/-- The burst before its cell enters the mortar. -/
theorem TxReads.of_enters {u : State} {l : List Nat} {n k i : Nat} (he : EntersMortar u t) (hl : BurstLeaves s u)
    (ho : ∀ j, j ≠ brickOf c f.brick → u.brick j = s.brick j) (hd : ∀ j, j ≠ c → u.course j = s.course j)
    (hc : u.course c = (s.course c).txRead (if f.lastCell then rest else f.read (s.course c).bank i :: rest) l n k)
    (hb : u.brick (brickOf c f.brick) =
      (if f.lastCell then Brick.posted (s.ownerDenied f.ctl c) f.seqno (s.brick (brickOf c f.brick)) else s.brick (brickOf c f.brick))) :
    TxReads s t c f rest :=
  ⟨burst_enters hl he, fun j hj => (he.brick j).trans (ho j hj), fun j hj => (he.course j).trans (hd j hj), ⟨l, n, k, i, (he.course c).trans hc⟩,
    (he.brick _).trans hb⟩

theorem exec_fmTxBurst_reads (h : s.bursts c) (hx : (s.course c).fmTx = f :: rest) (hd : f.dropped = false) (ho : ∀ g ∈ rest, g.dropped = false)
    (hf : f ∉ rest) (hr : (s.course c).txRoom s.now = true) : ∃ t, exec (.fmTxBurst c ct) s = .next t ∧ TxReads s t c f rest := by
  have ht : takeFirst (fun (f : TxFrame) => !f.dropped) (s.course c).fmTx = some (f, rest) := by
    rw [hx]
    exact takeFirst_cons (by rw [hd]; rfl)
  obtain ⟨t, n, k, l, i, r, x, hb⟩ := State.txBurst_reads (ct := ct) ht hr
  rw [TxFrame.complete_read, hx, map_replace hf] at hb
  split at hb
  case isTrue hl =>
    generalize hw : s.burst t c ((s.course c).txRead rest l n k) r = w at hb
    have hwc : w.course c = (s.course c).txRead rest l n k := hw ▸ State.course_burst s t c _ r
    obtain ⟨q, hq⟩ := State.postTxComp_jrec w (brickOf c f.brick) (s.ownerDenied f.ctl c) f.seqno
    have hcq : (w.postTxComp (brickOf c f.brick) (s.ownerDenied f.ctl c) f.seqno).course c = (s.course c).txRead rest l n k := by
      rw [hq, State.course_jrec]
      exact hwc
    rw [State.postDropped_open (by rw [courseOf_brickOf, hcq]; exact fun g hg _ => ho g hg), hq] at hb
    obtain ⟨t', he, hm⟩ := exec_fmTxBurst h hb
    refine ⟨t', he, .of_enters (l := l) (n := n) (k := k) (i := i) hm ((hw ▸ BurstLeaves.burst s t c _ r).trans ((BurstLeaves.modBrick w _ _).trans (.jrec _ _ q))) (fun j hj => ?_)
      (fun j hj => ?_) ?_ ?_⟩
    · rw [State.brick_jrec, State.brick_modBrick_ne w _ hj, ← hw, State.brick_burst]
    · rw [State.course_jrec]
      exact hw ▸ State.course_burst_ne s t _ r hj
    · rw [if_pos hl, ← hcq, hq]
    · rw [if_pos hl, State.brick_jrec, State.brick_modBrick, ← hw, State.brick_burst]
  case isFalse hl =>
    obtain ⟨t', he, hm⟩ := exec_fmTxBurst h hb
    refine ⟨t', he, .of_enters (l := l) (n := n) (k := k) (i := i) hm (BurstLeaves.burst s t c _ r) (fun j _ => State.brick_burst s t c _ r j) (fun j hj => State.course_burst_ne s t _ r hj) ?_ ?_⟩
    · rw [if_neg hl]
      exact State.course_burst s t c _ r
    · rw [if_neg hl]
      exact State.brick_burst s t c _ r _

end

end

/-- Settles O25: receive bursts by `RxStores`, with the bank by `RxFrame.read_part`, `RxFrame.read_outside` and `RxFrame.word_metas`; transmit bursts by
`TxReads`. -/
theorem frameMoverBursts : Obligations.FrameMoverBursts := by
  unfold Obligations.FrameMoverBursts
  refine ⟨?stores, ?drops, fun s c ct h hr => exec_fmRxBurst_empty h hr, ?reads, rfl, streamAddrs_cons⟩
  case stores =>
    intro s c ct f rest b a len lane h hr hd hs hw hf hlen hwf
    have hroom : rxRoom len (b2n lane) < 65536 := by
      rw [rxRoom]
      omega
    obtain ⟨t, hx, hl, ho, hc, ⟨n, k, hco⟩, hb⟩ := exec_fmRxBurst_stores (ct := ct) h hr (RxFrame.burstReady_of hd hs hw) hf
    have hbank : (t.course c).bank = f.bankAfter (s.course c).bank a.toNat (b2n lane) (rxRoom len (b2n lane)) := by rw [hco]; rfl
    have hq : (t.course c).fmRx = if f.ends then rest else { f with buf := some (b, a, len, lane), written := f.written + f.cell } :: rest := by
      rw [hco]
      rfl
    obtain ⟨hg, hi⟩ := Brick.burstOf_keeps (x := s.brick (brickOf c b)) (f := f) (a := a) (room := rxRoom len (b2n lane))
    refine ⟨t, hx, hl, ho, hc, fun k hk hkr => ?_, fun x hxl hxp hxm => ?_, ?_, ?_, ?_, fun he => ⟨?_, ?_⟩, fun he => ⟨?_, ?_, ?_, fun k hk => ?_, ?_⟩⟩
    · rw [hbank]
      exact RxFrame.read_part hwf hroom hk hkr
    · rw [hbank]
      exact RxFrame.read_outside hxl hxp fun he => hxm (RxFrame.ends_iff.mp he)
    · rw [hb, Brick.bufs_burstOf]
    · rw [hb, hg]
    · rw [hb, hi]
    · rw [hq, if_neg (mt RxFrame.ends_iff.mp he)]
      rfl
    · rw [hb, Brick.rxc_burstOf, if_neg (mt RxFrame.ends_iff.mp he)]
    · rw [hq, if_pos (RxFrame.ends_iff.mpr he)]
    · rw [hbank]
      exact RxFrame.word_metas (k := 0) hwf (RxFrame.ends_iff.mpr he) (by decide)
    · rw [hbank]
      exact (congrArg BitVec.toNat (RxFrame.word_metas (k := 1) hwf (RxFrame.ends_iff.mpr he) (by decide))).trans toNat_metaFlags
    · rw [hbank, Nat.add_assoc _ 2 k]
      exact (RxFrame.word_metas (k := 2 + k) hwf (RxFrame.ends_iff.mpr he) (by omega)).trans (nth_metaTimestamp _ hk)
    · rw [hb, Brick.rxc_burstOf, if_pos (RxFrame.ends_iff.mpr he), RxFrame.rxcWord_eq]
      rfl
  case drops =>
    intro s c ct f rest b h hr hd hs hw hf hk hq
    exact ⟨_, exec_fmRxBurst_drops h hr (RxFrame.burstReady_of hd hs hw) hf hk hq, rfl, fun k hk => State.brick_modBrick_ne s _ hk,
      fun k hk => State.course_modCourse_ne _ _ hk, State.brick_modBrick s _ _, State.course_modCourse _ _ _⟩
  case reads =>
    intro s c ct f rest h hx hd ho hf hr
    obtain ⟨t, he, hframe, hob, hoc, ⟨l, n, k, i, hc⟩, hb⟩ := exec_fmTxBurst_reads (ct := ct) h hx hd ho hf (decide_eq_true hr)
    refine ⟨t, he, hframe, hob, hoc, by rw [hc]; rfl, by rw [hc]; rfl, fun hl => ⟨?_, ?_⟩, fun hl => ⟨?_, i, ?_⟩⟩
    · rw [hc, if_pos (TxFrame.lastCell_iff.mpr hl)]
      rfl
    · rw [hb, if_pos (TxFrame.lastCell_iff.mpr hl), Brick.posted, FmQueue.postTx, txdWord]
      simp only [s.ownerDenied_iff]
    · rw [hb, if_neg (mt TxFrame.lastCell_iff.mp (Nat.not_le.mpr hl))]
    · rw [hc, if_neg (mt TxFrame.lastCell_iff.mp (Nat.not_le.mpr hl))]
      rfl

end Sys2Proof.Machine
end

section
/-! SUPPORT. The end of a trowel run: the memories that it leaves, the course after it, and a journal that stays (R226 to R230, R318, R496, R521). -/

namespace Sys2Proof.Machine

/-! ### Memories that hold one word -/

theorem Sparse.read_build {α : Type} [DecidableEq α] (d f : Nat → α) {n k a : Nat} (h1 : n ≤ a) (h2 : a < n + k) :
    Sparse.read d ((List.range' n k).filterMap (fun a => if f a = d a then none else some (a, f a))) a = f a := by
  induction k generalizing n with
  | zero => omega
  | succ k ih =>
    rw [List.range'_succ, List.filterMap_cons]
    by_cases hn : n = a
    · subst hn
      by_cases hf : f n = d n
      · simp only [hf, if_true]
        exact Sparse.read_below d (Nat.lt_succ_self n) (Sparse.wfFrom_build d f (n + 1) k)
      · simp only [hf, if_false, Sparse.read, if_true]
    · by_cases hf : f n = d n
      · simp only [hf, if_true]
        exact ih (by omega) (by omega)
      · simp only [hf, if_false, Sparse.read, hn]
        exact ih (by omega) (by omega)

/-- Every word of a filled memory is the word that fills it. -/
theorem Memory.word_fillMemory {n a : Nat} (w : Word) (h : a < n) : (fillMemory n w).word a = w := by
  have hr : ∀ x, x < 2 * n → Sparse.read bankBlank (fillMemory n w) x = if x % 2 = 0 then w.extractLsb' 0 8 else w.extractLsb' 8 8 := fun x hx => by
    rw [fillMemory, List.range_eq_range']
    exact Sparse.read_build bankBlank (fun a => if a % 2 = 0 then w.extractLsb' 0 8 else w.extractLsb' 8 8) (Nat.zero_le x) (by omega)
  rw [Memory.word, hr _ (by omega), hr _ (by omega), if_neg (by omega), if_pos (by omega)]
  exact BitVec.extractLsb'_append_extractLsb'_eq_extractLsb' (by decide) |>.trans BitVec.extractLsb'_eq_self

section
variable {s : State} {c : Fin 13} {tgt : BitVec 2} {w : Word}

theorem State.fillCourse_eq (s : State) (c : Fin 13) (tgt : BitVec 2) (w : Word) : s.fillCourse c tgt w =
    if tgt = 0 then (if tgt = 1 then s else s.modCourse c (fun x => { x with bank := fillMemory 65536 w }))
    else (List.finRange 4).foldl (fun s b => s.modBrick (brickOf c b) (fun x => { x with imem := fillMemory 8192 w, pre := [] }))
      (if tgt = 1 then s else s.modCourse c (fun x => { x with bank := fillMemory 65536 w })) := rfl

theorem State.bank_fillCourse : ((s.fillCourse c tgt w).course c).bank = if tgt = 1 then (s.course c).bank else fillMemory 65536 w := by
  have h : ((if tgt = 1 then s else s.modCourse c (fun x => { x with bank := fillMemory 65536 w })).course c).bank =
      if tgt = 1 then (s.course c).bank else fillMemory 65536 w := by
    split
    · rfl
    · rw [State.course_modCourse]
  rw [State.fillCourse_eq]
  split
  · exact h
  · refine (foldl_part (fun s => (s.course c).bank) ?_ _ _).trans h
    exact fun _ _ => rfl

theorem State.imem_fillCourse (b : Fin 4) : ((s.fillCourse c tgt w).brick (brickOf c b)).imem =
    if tgt = 0 then (s.brick (brickOf c b)).imem else fillMemory 8192 w := by
  rw [State.fillCourse_eq]
  split
  · split <;> rfl
  · rw [brick_foldl_modBrick c (fun _ x => { x with imem := fillMemory 8192 w, pre := [] })]

end

/-! ### A course whose run has ended (R229; log 48) -/

/-- Memories, fence and results of course c are as before, and its image. -/
structure KeepsResult (c : Fin 13) (s t : State) : Prop where
  course : t.course c = { s.course c with mode := (t.course c).mode, base := (t.course c).base, gatedAt := (t.course c).gatedAt, release := (t.course c).release, egressOnly := (t.course c).egressOnly }
  imem : ∀ k, (t.brick k).imem = (s.brick k).imem

namespace KeepsResult

section
variable {c : Fin 13} {s t u : State}

theorem refl (c : Fin 13) (s : State) : KeepsResult c s s := ⟨rfl, fun _ => rfl⟩

theorem trans (h1 : KeepsResult c s t) (h2 : KeepsResult c t u) : KeepsResult c s u :=
  ⟨h2.course.trans (by rw [h1.course]), fun k => (h2.imem k).trans (h1.imem k)⟩

theorem of_service (h : ServiceLeaves s t) : KeepsResult c s t :=
  ⟨(h.course c).trans (by rw [h.course c]), fun k => by rw [h.brick k]⟩

theorem of_core (h : KeepsCore s t) : KeepsResult c s t := by
  have hc : t.course c = s.course c := by rw [State.course, State.course, h.courses]
  exact ⟨by rw [hc], fun k => by rw [State.brick, State.brick, h.bricks]⟩

theorem setMode (s : State) (c : Fin 13) (m : BitVec 2) : KeepsResult c s (s.setMode c m) := by
  refine ⟨by rw [State.course_setMode], fun k => ?_⟩
  rw [State.setMode_frame]
  rfl

theorem resumeCourse (s : State) (c : Fin 13) : KeepsResult c s (s.resumeCourse c) := by
  unfold State.resumeCourse
  split
  · exact (setMode s c 0).trans (of_core (.portUp _ _ _))
  · exact refl c s

end

end KeepsResult

/-- The fence after a run: a failure sets it, a pass of the memory that failed lifts it (R229; log 48). -/
def TrowelRun.fence (u : TrowelRun) (x : Course) (fails : BitVec 16) : Bool :=
  if fails = 0 then x.fenced && !(decide (u.target = 2) || decide (u.target.toNat = b2n x.fencedMem)) else true

/-- The course with the results of a run. -/
def Course.withResult (x : Course) (fence : Bool) (fails : BitVec 16) (addr data : Reg32) : Course :=
  { x with trowel := none, fenced := fence, fencedMem := if fails = 0 then x.fencedMem else bit addr 31, trwStatus := trwResult fence fails,
           trwAddr := if fails = 0 then 0 else addr, trwData := if fails = 0 then 0 else data }

/-- The state in which the run's results stand. -/
def State.runOver (s : State) (c : Fin 13) (u : TrowelRun) (fails : BitVec 16) (addr data : Reg32) : State :=
  ((s.at_ u.endsAt).trowelMemory c u fails).modCourse c (fun x => x.withResult (u.fence (s.course c) fails) fails addr data)

section
variable {s : State} {c : Fin 13} {u : TrowelRun} {fails : BitVec 16} {addr data : Reg32}

theorem State.courseTestEnd_keeps (ha : u.abort = false) : KeepsResult c (s.runOver c u fails addr data) (s.courseTestEnd c u fails addr data) := by
  have h : KeepsResult c (s.runOver c u fails addr data) (((s.runOver c u fails addr data).resumeCourse c).event .trowelEnd true 0 [c.val, fails.toNat]) :=
    (KeepsResult.resumeCourse _ c).trans (.of_core (.of_logs (Logs.event _ _ _ _ _)))
  unfold State.courseTestEnd
  rw [ha, if_neg Bool.false_ne_true]
  dsimp only
  split
  · exact h.trans (.of_service (.svcReply _ _ _ _ _))
  · exact h

theorem State.course_runOver : (s.runOver c u fails addr data).course c =
    (((s.at_ u.endsAt).trowelMemory c u fails).course c).withResult (u.fence (s.course c) fails) fails addr data := State.course_modCourse _ c _

/-- A preserving run that passes leaves the memories. -/
theorem State.trowelMemory_preserving (hp : u.preserving = true) : s.trowelMemory c u 0 = s :=
  (if_neg (fun h => h rfl)).trans (if_pos hp)

/-- A destructive run that passes leaves background 4 where it was selected (R226). -/
theorem State.trowelMemory_destructive (hp : u.preserving = false) (hb : u.bg.getLsbD 4 = true) : s.trowelMemory c u 0 = s.fillCourse c u.target 0x00FF := by
  have hl : lastBackground u.bg = some 0x00FF := if_pos hb
  rw [State.trowelMemory, if_neg (fun h => h rfl), if_neg (by rw [hp]; exact Bool.false_ne_true), hl]

theorem trwResult_fail (h : fails ≠ 0) : trwResult true fails = 0xE0000000 ||| (0 : Word) ++ fails := by
  have hw : (0xE0000000 : Reg32) ||| (0 : Word) ++ fails = (0xE000 : Word) ++ fails := by
    rw [show (0xE0000000 : Reg32) = (0xE000 : Word) ++ (0 : Word) from rfl, BitVec.or_append]
    simp
  rw [hw]
  refine BitVec.eq_of_toNat_eq ?_
  rw [toNat_append_add, trwResult, if_neg h, BitVec.toNat_ofNat, Nat.mod_eq_of_lt (by simp [b2n]; omega)]
  rfl

/-! ### A run that a COURSE reset ends (R230) -/

theorem Logs.jrec (s : State) (c : Fin 13) (r : JRec) : Logs s (s.jrec c r) := by
  rw [State.jrec_eq]
  rfl

theorem Logs.modJournal (s : State) (f : Journal → Journal) : Logs s (s.modJournal f) := rfl

theorem Logs.journalEnd (s : State) (c : Fin 13) (cause : BitVec 4) : Logs s (s.journalEnd c cause) := by
  unfold State.journalEnd
  exact .ite (((Logs.jrec s c _).trans (.modJournal _ _)).trans (.event _ _ _ _ _)) (.refl s)

theorem State.trowel_emptyBlocks (s : State) (c : Fin 13) : ((s.emptyBlocks c).course c).trowel = (s.course c).trowel := by
  have hb : ∀ (s : State) (b : Fin 4), ((s.emptyBrick c b).course c).trowel = (s.course c).trowel := fun s b => by
    obtain ⟨-, hc, -⟩ := MailLeaves.resetParty (s.modBrick (brickOf c b) fun x => { Brick.reset with imem := x.imem }) (0x80 + (brickOf c b).val)
    rw [State.emptyBrick, hc c]
    rfl
  have hp : ∀ (s : State) (n : Nat), ((s.freePin c n).course c).trowel = (s.course c).trowel := fun s n => by
    unfold State.freePin
    split <;> rfl
  have ht : ∀ (s : State) (i : Fin 16), ((s.emptyTile c i).course c).trowel = (s.course c).trowel := fun _ _ => rfl
  rw [State.emptyBlocks, foldl_part (fun s => (s.course c).trowel) hp, foldl_part (fun s => (s.course c).trowel) ht,
    foldl_part (fun s => (s.course c).trowel) hb]

theorem State.courseTestEnd_aborts (ha : u.abort = true) : ServiceLeaves ((s.journalEnd c 1).emptyCourse c) (s.courseTestEnd c u fails addr data) := by
  unfold State.courseTestEnd
  rw [if_pos ha]
  dsimp only
  split
  · exact .svcReply _ _ _ _ _
  · exact .refl _

/-- TRW_STATUS of a course that is emptied during a run reports ABORTED. -/
theorem Course.aborted_emptied {x : Course} (h : x.trowel = some u) (n : Nat) : (x.emptied n).trwStatus.getLsbD 28 = true := by
  change (BitVec.ofNat 32 (b2n x.fenced * 2 ^ 29 + b2n x.trowel.isSome * 2 ^ 28)).getLsbD 28 = true
  rw [h]
  rw [Option.isSome_some]
  cases x.fenced <;> decide

end

/-! ### A journal that is off -/

/-- A journal that is off stays as it is. -/
def KeepsOff (s t : State) : Prop := s.journal.st = .off → t.journal = s.journal

section
variable {s t u : State}

theorem KeepsOff.refl (s : State) : KeepsOff s s := fun _ => rfl

theorem KeepsOff.trans (h1 : KeepsOff s t) (h2 : KeepsOff t u) : KeepsOff s u := fun h => (h2 (by rw [h1 h]; exact h)).trans (h1 h)

theorem KeepsOff.ite {p : Prop} [Decidable p] (h1 : KeepsOff s t) (h2 : KeepsOff s u) : KeepsOff s (if p then t else u) := by
  split
  · exact h1
  · exact h2

theorem KeepsOff.of_eq (h : t.journal = s.journal) : KeepsOff s t := fun _ => h

theorem KeepsOff.foldl {β : Type} {f : State → β → State} (h : ∀ s b, KeepsOff s (f s b)) (l : List β) (s : State) : KeepsOff s (l.foldl f s) :=
  foldl_rel KeepsOff .refl (fun _ _ _ => .trans) f h l s

theorem KeepsOff.setCourse (s : State) (c : Fin 13) (x : Course) : KeepsOff s (s.setCourse c x) := .of_eq rfl
theorem KeepsOff.modBrick (s : State) (k : Fin 52) (f : Brick → Brick) : KeepsOff s (s.modBrick k f) := .of_eq rfl
theorem KeepsOff.modTile (s : State) (k : Fin 208) (f : Tile → Tile) : KeepsOff s (s.modTile k f) := .of_eq rfl
theorem KeepsOff.setMailbox (s : State) (j : Fin 32) (m : Mailbox) : KeepsOff s (s.setMailbox j m) := .of_eq rfl
theorem KeepsOff.mapMailboxes (s : State) (f : Mailbox → Mailbox) : KeepsOff s { s with mailboxes := s.mailboxes.map f } := .of_eq rfl
theorem KeepsOff.setReplies (s : State) (l : List (Fin 32 × List Reg32)) : KeepsOff s { s with keystone := { s.keystone with replies := l } } := .of_eq rfl

theorem KeepsOff.endGateHold (s : State) (q : PortCode) : KeepsOff s (s.endGateHold q) := by
  rw [State.endGateHold_frame]
  exact .of_eq rfl

theorem KeepsOff.event (s : State) (k : EvKind) (m : Bool) (p : BitVec 8) (a : List Nat) : KeepsOff s (s.event k m p a) := fun h =>
  State.journal_recordEvent _ (by rw [h]; nofun)

theorem KeepsOff.jrec (s : State) (c : Fin 13) (r : JRec) : KeepsOff s (s.jrec c r) := fun h => by
  rw [State.jrec_of_not_journaled]
  rw [State.journaled, h]
  rfl

theorem KeepsOff.fireVector (s : State) (f : Bool) (v : Nat) : KeepsOff s (s.fireVector f v) := .of_eq (Raises.fireVector s f v).journal

theorem KeepsOff.ungateCourse (s : State) (c : Fin 13) (cause : BitVec 4) : KeepsOff s (s.ungateCourse c cause) := by
  cases h : (s.course c).gatedAt with
  | none =>
    rw [State.ungateCourse_none cause h]
    exact .refl s
  | some g =>
    obtain ⟨f, k, r, he⟩ := State.ungateCourse_shape cause h
    rw [he]
    refine .trans (.trans ?_ (.endGateHold _ (portCp c))) (.jrec _ c r)
    exact (KeepsOff.setCourse s c _).trans ((KeepsOff.foldl (fun s b => .modBrick s _ f) _ _).trans (.foldl (fun s i => .modTile s _ k) _ _))

theorem KeepsOff.wakeEvent (s : State) (r : Nat) (j : Fin 32) : KeepsOff s (s.wakeEvent r j) := by
  unfold State.wakeEvent
  refine .ite (.fireVector _ _ _) (.ite (.fireVector _ _ _) ?_)
  split
  · exact .ungateCourse _ _ _
  · exact .refl s

theorem KeepsOff.postAs (s : State) (p : Nat) (ep : BitVec 4) (j : Fin 32) (n : Nat) : KeepsOff s (s.postAs p ep j n) := by
  unfold State.postAs
  dsimp only
  have h1 : ∀ (x : State) (m : Mailbox) (r : Nat), KeepsOff s x → KeepsOff s ((x.setMailbox j m).wakeEvent r j) :=
    fun x m r h => (h.trans (.setMailbox x j m)).trans (.wakeEvent _ r j)
  have h0 : KeepsOff s (if (s.mailboxes.toList.any fun y => y.crosses p (s.mailbox j).recv.toNat) = true then
      { s with mailboxes := s.mailboxes.map (fun y => if y.crosses p (s.mailbox j).recv.toNat then { y with crossed := true } else y) } else s) :=
    .ite (.mapMailboxes s _) (.refl s)
  exact .ite ((h1 _ _ _ h0).trans (.wakeEvent _ p j)) (h1 _ _ _ h0)

theorem KeepsOff.postReply (s : State) (j : Fin 32) : KeepsOff s (s.postReply j) := by
  unfold State.postReply
  split
  · exact .ite ((KeepsOff.setReplies s _).trans ((KeepsOff.setMailbox _ j _).trans (.postAs _ _ _ j 8))) (.refl s)
  · exact .refl s

/-- A reply writes no journal that is off. -/
theorem KeepsOff.svcReply (s : State) (code : Nat) (r : SvcReq) (status : Nat) (l : List Reg32) : KeepsOff s (s.svcReply code r status l) := by
  unfold State.svcReply
  have h := KeepsOff.event s .service true (BitVec.ofNat 8 r.caller.num) [code, r.tag.toNat, status]
  exact .ite h ((h.trans (.setReplies _ _)).trans (.postReply _ _))

end

end Sys2Proof.Machine
end

section
/-! Settles O26: the end of a trowel run. -/

namespace Sys2Proof.Machine

section
variable {s : State} {c : Fin 13} {u : TrowelRun} {fails : BitVec 16} {addr data : Reg32}

theorem exec_trowelRunComplete (hu : s.blocksUp = true) (x : TrowelUnit) :
    exec (.trowelRunComplete x fails addr data) s = .next (s.trowelComplete x fails addr data) :=
  State.when_of_true s (fun s => s.trowelComplete x fails addr data) hu

/-! ### Courses -/

theorem exec_trowelRunComplete_course (hu : s.blocksUp = true) (ht : (s.course c).trowel = some u) :
    exec (.trowelRunComplete (.course c) fails addr data) s = .next (s.courseTestEnd c u fails addr data) := by
  rw [exec_trowelRunComplete hu, State.trowelComplete, ht]

/-- A run that no COURSE reset ends: the course keeps the results, and the bricks what the run leaves. -/
theorem exec_trowelRunComplete_ends (hu : s.blocksUp = true) (ht : (s.course c).trowel = some u) (ha : u.abort = false) :
    ∃ t, exec (.trowelRunComplete (.course c) fails addr data) s = .next t ∧ KeepsResult c (s.runOver c u fails addr data) t :=
  ⟨_, exec_trowelRunComplete_course hu ht, State.courseTestEnd_keeps ha⟩

theorem exec_trowelRunComplete_fails (hu : s.blocksUp = true) (ht : (s.course c).trowel = some u) (ha : u.abort = false) (hf : fails ≠ 0) :
    ∃ t, exec (.trowelRunComplete (.course c) fails addr data) s = .next t ∧ (t.course c).trowel = none ∧ (t.course c).fenced = true ∧
      (t.course c).trwStatus = 0xE0000000 ||| (0 : Word) ++ fails ∧ (t.course c).trwAddr = addr ∧ (t.course c).trwData = data := by
  obtain ⟨t, hx, hk⟩ := exec_trowelRunComplete_ends (fails := fails) (addr := addr) (data := data) hu ht ha
  have hfe : u.fence (s.course c) fails = true := if_neg hf
  refine ⟨t, hx, ?_⟩
  rw [hk.course, State.course_runOver, hfe, ← trwResult_fail hf]
  exact ⟨rfl, rfl, rfl, if_neg hf, if_neg hf⟩

theorem exec_trowelRunComplete_passes (hu : s.blocksUp = true) (ht : (s.course c).trowel = some u) (ha : u.abort = false) :
    ∃ t, exec (.trowelRunComplete (.course c) 0 addr data) s = .next t ∧ (t.course c).trowel = none ∧
      (t.course c).bank = (((s.at_ u.endsAt).trowelMemory c u 0).course c).bank ∧
      (∀ k, (t.brick k).imem = (((s.at_ u.endsAt).trowelMemory c u 0).brick k).imem) ∧ (t.course c).trwAddr = 0 ∧ (t.course c).trwData = 0 ∧
      (u.target = 2 → (t.course c).fenced = false ∧ (t.course c).trwStatus = 0x80000000) := by
  obtain ⟨t, hx, hk⟩ := exec_trowelRunComplete_ends (fails := 0) (addr := addr) (data := data) hu ht ha
  refine ⟨t, hx, ?_⟩
  rw [hk.course, State.course_runOver]
  refine ⟨rfl, rfl, hk.imem, rfl, rfl, fun h2 => ?_⟩
  have hfe : u.fence (s.course c) 0 = false := by simp [TrowelRun.fence, h2]
  rw [hfe]
  exact ⟨rfl, rfl⟩

theorem exec_trowelRunComplete_aborts (hu : s.blocksUp = true) (ht : (s.course c).trowel = some u) (ha : u.abort = true) :
    ∃ t, exec (.trowelRunComplete (.course c) fails addr data) s = .next t ∧ (t.course c).trowel = none ∧ (t.course c).trwStatus.getLsbD 28 = true ∧
      (t.course c).fenced = (s.course c).fenced ∧ (t.course c).bank = (s.course c).bank ∧ (t.course c).image = none := by
  have hj : (((s.journalEnd c 1).emptyBlocks c).course c).trowel = some u := by
    rw [State.trowel_emptyBlocks, (Logs.journalEnd s c 1).course, ht]
  obtain ⟨hb, hf⟩ := ((CourseKeeps.journalEnd (c := c) s c 1).trans (.emptyCourse _ c)).own
  refine ⟨_, exec_trowelRunComplete_course hu ht, ?_⟩
  rw [(State.courseTestEnd_aborts ha).course c, ← hb, ← hf, State.course_emptyCourse]
  exact ⟨rfl, Course.aborted_emptied hj ((s.journalEnd c 1).emptyBlocks c).now, rfl, rfl, rfl⟩

end

/-! ### A buffer segment and the journal -/

section
variable {s : State} {fails : BitVec 16} {addr data : Reg32} {r : SvcReq} {n : Nat}

/-- The results of a run on segment g stand in the mortar (R318). -/
def Mortar.tested (m : Mortar) (g : Fin 16) (fails : BitVec 16) : Mortar :=
  if fails = 0 then { m with quar := m.quar.filter (fun a => decide (a.toNat / 12288 ≠ g.val)) } else { m with failed := setBit m.failed g.val true }

/-- The run on segment g is over, its results in the mortar. -/
def State.segmentOver (s : State) (g : Fin 16) (n : Nat) (fails : BitVec 16) : State :=
  { (s.at_ n).modKeystone (fun k => { k with bufTest := none }) with mortar := s.mortar.tested g fails }

theorem State.segmentEnd_eq (s : State) (g : Fin 16) (n : Nat) (r : SvcReq) (fails : BitVec 16) (addr data : Reg32) :
    ∃ l, s.segmentEnd g n r fails addr data = ((s.segmentOver g n fails).event .trowelEnd true 0 [16 + g.val, fails.toNat]).svcReply 0x0401 r 0 l := ⟨_, rfl⟩

theorem ServiceLeaves.mortar {t : State} (h : ServiceLeaves s t) : t.mortar = s.mortar := (congrArg State.mortar h.frame).trans rfl

theorem State.segmentEnd_leaves (s : State) (g : Fin 16) (n : Nat) (r : SvcReq) (fails : BitVec 16) (addr data : Reg32) :
    (s.segmentEnd g n r fails addr data).keystone.bufTest = none ∧ (s.segmentEnd g n r fails addr data).mortar = s.mortar.tested g fails := by
  obtain ⟨l, he⟩ := s.segmentEnd_eq g n r fails addr data
  have hl := Logs.event (s.segmentOver g n fails) .trowelEnd true 0 [16 + g.val, fails.toNat]
  rw [he]
  constructor
  · rw [State.keystone_svcReply, hl.keystone]
    rfl
  · rw [(ServiceLeaves.svcReply _ _ _ _ _).mortar, hl.mortar]
    rfl

theorem exec_trowelRunComplete_segment {g : Fin 16} (hu : s.blocksUp = true) (ht : s.keystone.bufTest = some (g, n, r)) :
    exec (.trowelRunComplete (.segment g) fails addr data) s = .next (s.segmentEnd g n r fails addr data) := by
  rw [exec_trowelRunComplete hu, State.trowelComplete, ht]
  exact congrArg _ (if_pos rfl)

/-- The journal after a run on its SRAM (R226, R496). -/
def Journal.tested (j : Journal) (fails : BitVec 16) : Journal :=
  { Journal.reset with cfg := j.cfg, mark := j.mark, page := j.page, fill := if fails = 0 then some journalFill else none }

/-- The run on the journal SRAM is over. -/
def State.journalOver (s : State) (n : Nat) (fails : BitVec 16) : State :=
  ((s.at_ n).modKeystone (fun k => { k with jrnTest := none })).modJournal (fun j => j.tested fails)

theorem State.journalTestEnd_eq (s : State) (n : Nat) (r : SvcReq) (fails : BitVec 16) (addr data : Reg32) :
    ∃ l, s.journalTestEnd n r fails addr data = ((s.journalOver n fails).event .trowelEnd true 0 [32, fails.toNat]).svcReply 0x0401 r 0 l := ⟨_, rfl⟩

theorem State.journalTestEnd_leaves (s : State) (n : Nat) (r : SvcReq) (fails : BitVec 16) (addr data : Reg32) :
    (s.journalTestEnd n r fails addr data).keystone.jrnTest = none ∧ (s.journalTestEnd n r fails addr data).journal = s.journal.tested fails := by
  obtain ⟨l, he⟩ := s.journalTestEnd_eq n r fails addr data
  rw [he]
  constructor
  · rw [State.keystone_svcReply, (Logs.event _ _ _ _ _).keystone]
    rfl
  · have h : KeepsOff (s.journalOver n fails) (((s.journalOver n fails).event .trowelEnd true 0 [32, fails.toNat]).svcReply 0x0401 r 0 l) :=
      (KeepsOff.event _ _ _ _ _).trans (.svcReply _ _ _ _ _)
    exact h rfl

theorem exec_trowelRunComplete_journal (hu : s.blocksUp = true) (ht : s.keystone.jrnTest = some (n, r)) :
    exec (.trowelRunComplete .journal fails addr data) s = .next (s.journalTestEnd n r fails addr data) := by
  rw [exec_trowelRunComplete hu, State.trowelComplete, ht]

end

/-- Settles O26: a run on a course by `KeepsResult`, a run that a COURSE reset ended by `State.courseTestEnd_aborts`, the others by
`State.segmentEnd_leaves` and `State.journalTestEnd_leaves`. -/
theorem trowelRunsEnd : Obligations.TrowelRunsEnd := by
  unfold Obligations.TrowelRunsEnd
  refine ⟨fun s c u fails addr data hu ht ha hf => exec_trowelRunComplete_fails hu ht ha hf, ?preserving, ?destructive,
    fun s c u fails addr data hu ht ha => exec_trowelRunComplete_aborts hu ht ha, ?segment, ?journal⟩
  case preserving =>
    rintro s c u fails addr data hu ht ha rfl hp
    obtain ⟨t, hx, h0, hb, hi, h1, h2, hf⟩ := exec_trowelRunComplete_passes (addr := addr) (data := data) hu ht ha
    rw [State.trowelMemory_preserving hp] at hb hi
    exact ⟨t, hx, h0, hb, fun b => hi _, h1, h2, hf⟩
  case destructive =>
    rintro s c u fails addr data hu ht ha rfl hp hbg
    obtain ⟨t, hx, h0, hb, hi, -, -, -⟩ := exec_trowelRunComplete_passes (addr := addr) (data := data) hu ht ha
    rw [State.trowelMemory_destructive hp hbg] at hb hi
    rw [State.bank_fillCourse] at hb
    refine ⟨t, hx, h0, fun hne a h => ?_, fun he => ?_, fun hne b a h => ?_, fun he b => ?_⟩
    · rw [hb, if_neg hne, Memory.word_fillMemory _ h]
    · rw [hb, if_pos he]
      rfl
    · rw [hi, State.imem_fillCourse, if_neg hne, Memory.word_fillMemory _ h]
    · rw [hi, State.imem_fillCourse, if_pos he]
      rfl
  case segment =>
    intro s g n r fails addr data hu ht
    obtain ⟨hk, hm⟩ := s.segmentEnd_leaves g n r fails addr data
    refine ⟨_, exec_trowelRunComplete_segment hu ht, hk, fun hf => ?_, fun hf => ?_⟩
    · rw [hm, Mortar.tested, if_pos hf]
      exact ⟨rfl, rfl⟩
    · rw [hm, Mortar.tested, if_neg hf]
      exact ⟨rfl, rfl⟩
  case journal =>
    intro s n r fails addr data hu ht
    obtain ⟨hk, hj⟩ := s.journalTestEnd_leaves n r fails addr data
    refine ⟨_, exec_trowelRunComplete_journal hu ht, hk, ?_⟩
    rw [hj]
    exact ⟨rfl, rfl, fun hf => if_pos hf⟩

end Sys2Proof.Machine
end
